-- ==== Sys2Proof/Word.lean ====
section
/-! DEFINITION. The machine's words: the widths the spec names, and nothing else. -/

namespace Sys2Proof

/-- A byte of memory (R10: little-endian everywhere). -/
abbrev Byte := BitVec 8
/-- A 32-bit lane or group register, an instruction word. -/
abbrev Word := BitVec 32
/-- A 64-bit spine or sprue register (R15). -/
abbrev DWord := BitVec 64
/-- A virtual byte address; a program counter (R66, R340). -/
abbrev VAddr := BitVec 48
/-- A set of lanes of one group, bit i for lane i (R169). -/
abbrev LaneMask := BitVec 64
/-- A guard or predicate number p0–p7 (R72). -/
abbrev PredNo := BitVec 3
/-- A 6-bit register field (R20). -/
abbrev RegField := BitVec 6
/-- The six sticky flags: NV, DZ, OF, UF, NX, SAT in bits 0 to 5 (R33). -/
abbrev Flags6 := BitVec 6

end Sys2Proof
end

