-- ==== Sys2Proof/Machine/Map.lean ====
section
/-! DEFINITION. Sparse storage as plain data: a list of (key, value) pairs in one canonical form, keys
strictly rising and no entry equal to what an unlisted key reads as. Registers, buffers and memory all
use it, so equal contents are equal data. -/

namespace Sys2Proof.Machine

/-- A map from natural-number keys, in canonical form (see `amWf`). -/
abbrev AMap (α : Type) := List (Nat × α)

/-- The value at a key; dflt where the key is not listed. -/
def amGet {α : Type} (dflt : α) : AMap α → Nat → α
  | [], _ => dflt
  | (k, v) :: rest, n => if n = k then v else amGet dflt rest n

/-- A map without a key. -/
def amDrop {α : Type} : AMap α → Nat → AMap α
  | [], _ => []
  | (k, v) :: rest, n => if n = k then amDrop rest n else (k, v) :: amDrop rest n

/-- Writing a key: its entry goes and the new one stands in order; writing dflt leaves none. -/
def amSet {α : Type} [DecidableEq α] (dflt : α) : AMap α → Nat → α → AMap α
  | [], n, x => if x = dflt then [] else [(n, x)]
  | (k, v) :: rest, n, x =>
    if n < k then (if x = dflt then (k, v) :: amDrop rest n else (n, x) :: (k, v) :: amDrop rest n)
    else if n = k then amSet dflt rest n x
    else (k, v) :: amSet dflt rest n x

/-- Every listed key lies above b, and keys rise. -/
def amAbove {α : Type} : Nat → AMap α → Bool
  | _, [] => true
  | b, (k, _) :: rest => decide (b < k) && amAbove k rest

/-- The canonical form: keys rise strictly, and no entry equals dflt. -/
def amWf {α : Type} [DecidableEq α] (dflt : α) (m : AMap α) : Bool :=
  (match m with
   | [] => true
   | (k, _) :: rest => amAbove k rest) && m.all fun e => decide (e.2 ≠ dflt)

/-- Writes a list of (key, value) pairs, the later over the earlier. -/
def amSetAll {α : Type} [DecidableEq α] (dflt : α) : AMap α → List (Nat × α) → AMap α
  | m, [] => m
  | m, (n, x) :: rest => amSetAll dflt (amSet dflt m n x) rest

/-- Changes the value at a key. -/
def amModify {α : Type} [DecidableEq α] (dflt : α) (m : AMap α) (n : Nat) (f : α → α) : AMap α :=
  amSet dflt m n (f (amGet dflt m n))

/-- The entries whose key satisfies p; the form is kept. -/
def amKeep {α : Type} (p : Nat → Bool) (m : AMap α) : AMap α := m.filter fun e => p e.1

end Sys2Proof.Machine
end

