-- ==== Sys2Proof/Syntax.lean ====
section
/-! DEFINITION. Instructions and device steps as data: one constructor of `Instr` per row of
spec/opcode_table.json, with its operands. Rows with words carry the fields of R69–R87; rows without
words (the steps of the device's other agents) carry what selects the step. -/

namespace Sys2Proof

/-- 16-bit form (R69): source a (v0–v31, x0–x31 or g0–g31), destination and first source d. -/
structure Ops16 where
  a : BitVec 5
  d : RegField
  deriving DecidableEq, Repr
/-- Format L with the x-bit in use (R76). -/
structure OpsL where
  g : PredNo
  x : Bool
  d : RegField
  a : RegField
  b : BitVec 7
  deriving DecidableEq, Repr
/-- Format L with x = 0 required. -/
structure OpsL1 where
  g : PredNo
  d : RegField
  a : RegField
  b : BitVec 7
  deriving DecidableEq, Repr
/-- Format L with b = 0 required and the x-bit in use. -/
structure OpsA where
  g : PredNo
  x : Bool
  d : RegField
  a : RegField
  deriving DecidableEq, Repr
/-- One source and one destination field: format L with b = 0 and x = 0, the exact conversions, and G. -/
structure OpsA1 where
  g : PredNo
  d : RegField
  a : RegField
  deriving DecidableEq, Repr
/-- Format I (R76). -/
structure OpsI where
  g : PredNo
  x : Bool
  d : RegField
  a : RegField
  imm : BitVec 10
  deriving DecidableEq, Repr
/-- Format W (R82). -/
structure OpsW where
  g : PredNo
  d : RegField
  imm : BitVec 16
  deriving DecidableEq, Repr
/-- Only a guard. -/
structure OpsG where
  g : PredNo
  deriving DecidableEq, Repr
/-- `yield` (R83, R187). -/
structure OpsYield where
  deadline : BitVec 12
  live : BitVec 6
  deriving DecidableEq, Repr
/-- `trap` and `brk` (R184). -/
structure OpsCode where
  g : PredNo
  code : BitVec 8
  deriving DecidableEq, Repr
/-- `jmpi` with x = 0 (R180). -/
structure OpsJmpi where
  g : PredNo
  reg : RegField
  prio : BitVec 6
  deriving DecidableEq, Repr
/-- `jmpi.l` (R180). -/
structure OpsReg where
  g : PredNo
  reg : RegField
  deriving DecidableEq, Repr
/-- `prio` (R181). -/
structure OpsPrio where
  g : PredNo
  prio : BitVec 6
  deriving DecidableEq, Repr
/-- Format I2 (R76). -/
structure OpsI2 where
  g : PredNo
  x : Bool
  d : RegField
  a : RegField
  imm : BitVec 7
  deriving DecidableEq, Repr
/-- Format P (R76, R79). -/
structure OpsP where
  g : PredNo
  x : Bool
  pd : PredNo
  a : RegField
  b : BitVec 7
  comb : BitVec 3
  deriving DecidableEq, Repr
/-- Format S (R76). -/
structure OpsS where
  g : PredNo
  x : Bool
  d : RegField
  a : RegField
  b : BitVec 7
  ps : PredNo
  deriving DecidableEq, Repr
/-- Format PR with two sources (R125). -/
structure OpsPR where
  g : PredNo
  pd : PredNo
  pa : PredNo
  pb : PredNo
  deriving DecidableEq, Repr
/-- Format PR with one source (R125). -/
structure OpsPR1 where
  g : PredNo
  pd : PredNo
  pa : PredNo
  deriving DecidableEq, Repr
/-- Guard, d, a and lookahead: FX, PAGE and WORK forms. -/
structure OpsM where
  g : PredNo
  d : RegField
  a : RegField
  la : BitVec 4
  deriving DecidableEq, Repr
/-- As `OpsM` with a = 0 required (`wqry.deque`). -/
structure OpsMd where
  g : PredNo
  d : RegField
  la : BitVec 4
  deriving DecidableEq, Repr
/-- Conversion with a rounding mode (R46, R49). -/
structure OpsCvR where
  g : PredNo
  d : RegField
  a : RegField
  rnd : BitVec 2
  deriving DecidableEq, Repr
/-- Conversion with a rounding mode and the saturation bit. -/
structure OpsCvS where
  g : PredNo
  d : RegField
  a : RegField
  rnd : BitVec 2
  sat : Bool
  deriving DecidableEq, Repr
/-- Format CT for `rdc` and `wrc` (R87). -/
structure OpsCt where
  g : PredNo
  reg : RegField
  idx : BitVec 8
  deriving DecidableEq, Repr
/-- Format CT for `v2g` (R87). -/
structure OpsV2g where
  g : PredNo
  reg : RegField
  k : BitVec 5
  deriving DecidableEq, Repr
/-- LD (R81). -/
structure OpsLd where
  g : PredNo
  x : Bool
  d : RegField
  a : RegField
  size : BitVec 3
  space : BitVec 3
  la : BitVec 4
  deriving DecidableEq, Repr
/-- ST (R81). -/
structure OpsSt where
  g : PredNo
  d : RegField
  a : RegField
  size : BitVec 3
  space : BitVec 3
  la : BitVec 4
  deriving DecidableEq, Repr
/-- `ld.acq`, `st.rel` (R81, R252). -/
structure OpsLdo where
  g : PredNo
  d : RegField
  a : RegField
  size : BitVec 3
  scope : BitVec 2
  la : BitVec 4
  deriving DecidableEq, Repr
/-- `fence.rp` (R255). -/
structure OpsFrp where
  g : PredNo
  a : RegField
  deriving DecidableEq, Repr
/-- ATOM (R256): x selects the A buffer, wide the 64-bit form. -/
structure OpsAtom where
  g : PredNo
  x : Bool
  d : RegField
  a : RegField
  scope : BitVec 2
  wide : Bool
  la : BitVec 4
  deriving DecidableEq, Repr
/-- `apst` (R364). -/
structure OpsApst where
  g : PredNo
  d : RegField
  a : RegField
  size : BitVec 3
  la : BitVec 4
  deriving DecidableEq, Repr
/-- BAR with a register (R86). -/
structure OpsBar where
  g : PredNo
  reg : RegField
  slot : BitVec 4
  deriving DecidableEq, Repr
/-- BAR with k6 (`arv`, `step`). -/
structure OpsBarK where
  g : PredNo
  slot : BitVec 4
  k6 : BitVec 6
  deriving DecidableEq, Repr
/-- BAR with a slot only (`bfree`). -/
structure OpsBarS where
  g : PredNo
  slot : BitVec 4
  deriving DecidableEq, Repr
/-- Per-lane copies (R280). -/
structure OpsLcpy where
  g : PredNo
  d : RegField
  a : RegField
  slot : BitVec 4
  la : BitVec 4
  deriving DecidableEq, Repr
/-- Bulk kicks (R285–R287). -/
structure OpsBulk where
  g : PredNo
  a : RegField
  slot : BitVec 4
  la : BitVec 4
  deriving DecidableEq, Repr
/-- `lwp` (R290). -/
structure OpsLwp where
  g : PredNo
  d : RegField
  slot : BitVec 4
  la : BitVec 4
  deriving DecidableEq, Repr
/-- SPR with a register (R262). -/
structure OpsSpr where
  g : PredNo
  reg : RegField
  k : BitVec 5
  la : BitVec 4
  deriving DecidableEq, Repr
/-- `sclr` (R268). -/
structure OpsSprK where
  g : PredNo
  k : BitVec 5
  la : BitVec 4
  deriving DecidableEq, Repr
/-- `mma` (R147). -/
structure OpsMma where
  aBase : RegField
  bBase : RegField
  bs : Bool
  shape : BitVec 2
  type : BitVec 3
  la : BitVec 4
  deriving DecidableEq, Repr
/-- `drain` without scales (R156). -/
structure OpsDrn where
  d : RegField
  out : BitVec 3
  clear : Bool
  la : BitVec 4
  deriving DecidableEq, Repr
/-- `drain.r`, `drain.c`, `drain.rc` (R156). -/
structure OpsDrnA where
  d : RegField
  a : RegField
  out : BitVec 3
  clear : Bool
  la : BitVec 4
  deriving DecidableEq, Repr
/-- `czero` (R162). -/
structure OpsCzero where
  la : BitVec 4
  deriving DecidableEq, Repr
/-- `br` and `call` (R176). -/
structure OpsBr where
  g : PredNo
  prio : BitVec 6
  imm : BitVec 16
  deriving DecidableEq, Repr

/-! ### Operands of the device steps -/

/-- A die, 0 to 3 (R1). -/
abbrev DieNo := BitVec 2
/-- A function of the host link: 0 the PF, 1 to 63 the VFs (R389). -/
abbrev FuncNo := BitVec 6
/-- A context identifier (R326). -/
abbrev Asid := BitVec 16

/-- A member of a kernel cluster (R419): its spine, or a group (CORE index, position in the team). -/
inductive Member where
  | spine (kc : Nat)
  | group (kc core idx : Nat)
  deriving DecidableEq, Repr

/-- A cause of row 9 of R248, found at the home of an append page (R357). -/
inductive AppendCause where
  | outside | sealed | beyond
  deriving DecidableEq, Repr

/-- What answers a request that went beyond the core (R249). -/
inductive Answer where
  /-- the value read, low byte first; empty for a store's acknowledgement -/
  | data (bytes : List Byte)
  /-- Unsupported Request to an AtomicOp (R260) -/
  | unsupported
  /-- Completer Abort, a refusal at the target, or a failed link (R396, R400, R402) -/
  | linkError
  /-- no circuit up on the way (R379) -/
  | offline
  /-- the data returned is poisoned (R412) -/
  | poisoned
  /-- the home of an append page refuses the access (R249, R357) -/
  | append (c : AppendCause)
  deriving DecidableEq, Repr

/-- A unit of storage that an uncorrectable error can mark (R410, R411). -/
inductive PoisonUnit where
  | memPart (pa : Nat)
  /-- 16-byte part of W, A or C, of the tile flag words (3), or of the next planes of A (4) -/
  | bufPart (kc core : Nat) (buf : Fin 5) (part : Nat)
  | laneReg (kc core idx lane reg : Nat)
  | lanePred (kc core idx lane k : Nat)
  | groupReg (kc core idx reg : Nat)
  | frontier (kc core idx lane : Nat)
  | spineReg (kc reg : Nat)
  | sprueReg (kc reg : Nat)
  deriving DecidableEq, Repr

/-- One MEMORY_RESPONSE: an answer, or an error found by the protection of R410. -/
inductive Response where
  | answer (req : Nat) (a : Answer)
  | uncorrectable (die : DieNo) (u : PoisonUnit)
  | corrected (die : DieNo)
  deriving DecidableEq, Repr

/-- A host access to a BAR of a function: byte offset, size in bytes, value of a write (R390–R394, R434). -/
structure HostAccess where
  f : FuncNo
  off : Nat
  size : Nat
  val : DWord
  deriving DecidableEq, Repr

/-- Where a host read of a function goes: its BAR0, its BAR2 (doorbells), or device memory (R241, R392 to R394). -/
inductive HostSpace where
  | bar0 | bar2 | memory
  deriving DecidableEq, Repr

/-- A host read: byte offset in the BAR or physical address, and size in bytes. -/
structure HostRead where
  f : FuncNo
  space : HostSpace
  off : Nat
  size : Nat
  deriving DecidableEq, Repr

/-- A posted write of a function to device memory (R241): physical address, bytes, Relaxed Ordering. -/
structure HostWrite where
  f : FuncNo
  addr : Nat
  bytes : List Byte
  relaxed : Bool
  deriving DecidableEq, Repr

/-- A trap frame: context and SEQ (R330). -/
structure FrameRef where
  asid : Asid
  seq : Nat
  deriving DecidableEq, Repr

/-- One meter update of a die (R426): the charge of each (ASID, GRIDID), and the remainder, µJ. -/
structure MeterOps where
  die : DieNo
  charges : List (Asid × Word × Nat)
  remainder : Nat
  deriving DecidableEq, Repr

/-- Operand of ENERGY_READ (R427). -/
inductive EnergyOf where
  | die (d : DieNo)
  | asid (a : Asid)
  deriving DecidableEq, Repr

/-- Where self-test found a crucible faulty (R418). -/
structure CoreFault where
  core : Nat
  rows : Bool
  cols : Bool
  corner : Bool
  deriving DecidableEq, Repr

/-- SELFTEST_DONE of a die: passed or not, and the faulty crucibles. -/
structure SelftestOps where
  die : DieNo
  pass : Bool
  faults : List CoreFault
  deriving DecidableEq, Repr

/-- A time correction (R384, R385): the source's TIME for a die, its bound, and the host offset. -/
structure TimeStamp where
  die : DieNo
  time : DWord
  bound : Word
  offset : DWord
  deriving DecidableEq, Repr

/-- A function-level reset: of which function, and whether it starts or is done (R397). -/
structure FlrEvent where
  f : FuncNo
  done : Bool
  deriving DecidableEq, Repr

/-- The message types that R385 lets the device meet. -/
inductive PtpKind where
  | sync | followUp | delayReq | delayResp | announce | pdelay
  deriving DecidableEq, Repr

/-- What an Announce message carries for the best master clock algorithm of IEEE 1588 (R385), as numbers that are
compared in this order: priority 1, class, accuracy, variance, priority 2, identity; then the steps removed and the
identity of the sender. -/
structure PtpData where
  prio1 : Nat
  klass : Nat
  accuracy : Nat
  variance : Nat
  prio2 : Nat
  ident : Nat
  steps : Nat
  sender : Nat
  deriving DecidableEq, Repr

/-- A PTP message (R385): its type, domain, port, the correction it yields when it completes one, and the data of an
Announce. -/
structure PtpMessage where
  kind : PtpKind
  domain : Nat
  link : Nat
  stamp : Option TimeStamp
  data : Option PtpData
  deriving DecidableEq, Repr

/-- What a Daryesh request asks for (R402). -/
inductive RemoteKind where
  | load (size : Nat)
  /-- poison: the bytes carry the mark of their source (R411) -/
  | store (bytes : List Byte) (poison : Bool)
  | atom (op : BitVec 3) (wide : Bool) (b new : DWord)
  /-- the lanes of a PAGE instruction that name one page: each lane's offset in the page and its data (R361) -/
  | page (fn : BitVec 3) (op : BitVec 3) (vals : List (Nat × List Byte))
  deriving DecidableEq, Repr

/-- A request arriving from a peer at an export (R401, R402). -/
structure RemoteOps where
  dev : Nat
  f : FuncNo
  exp : BitVec 5
  off : Nat
  scope : BitVec 2
  release : Bool
  kind : RemoteKind
  deriving DecidableEq, Repr

/-- What a firmware image is (R422): the monitor, the scheduler, or the policy plug-in of a VF. -/
inductive ImageLevel where
  | monitor
  | scheduler
  | plugin (vf : FuncNo)
  deriving DecidableEq, Repr

/-- A firmware image as the boot chain meets it (R424): die (4 for the routing die), level, security
version, SHAKE256 digest, and whether its signature verifies. -/
structure BootImage where
  die : Nat
  level : ImageLevel
  version : Word
  digest : BitVec 256
  verifies : Bool
  deriving DecidableEq, Repr

/-- The steps of the device: one constructor per row of spec/opcode_table.json. Instructions with words come first,
then the events that the device itself has under way, then those that only the outside causes. -/
inductive Instr where
  /-- MOV_16 (R70): 16-bit form that copies register a into d. -/
  | movHalf (o : Ops16)
  /-- ADD_16 (R70): 16-bit form of d := d + a, wrapping. -/
  | addHalf (o : Ops16)
  /-- SUB_16 (R70): 16-bit form of d := d - a, wrapping. -/
  | subHalf (o : Ops16)
  /-- AND_16 (R70): 16-bit form of d := d and a. -/
  | andHalf (o : Ops16)
  /-- OR_16 (R70): 16-bit form of d := d or a. -/
  | orHalf (o : Ops16)
  /-- XOR_16 (R70): 16-bit form of d := d xor a. -/
  | xorHalf (o : Ops16)
  /-- SHL_16 (R137): 16-bit left shift of d by a[4:0]. -/
  | shlHalf (o : Ops16)
  /-- SHR_N32_16 (R137): 16-bit logical right shift of d by a[4:0]. -/
  | shrN32Half (o : Ops16)
  /-- ADD_F32_16 (R70): 16-bit form of the f32 add d := d + a. -/
  | addF32Half (o : Ops16)
  /-- MUL_F32_16 (R70): 16-bit form of the f32 multiply d := d × a. -/
  | mulF32Half (o : Ops16)
  /-- MIN_F32_16 (R70): 16-bit form of the f32 minimum. -/
  | minF32Half (o : Ops16)
  /-- MAX_F32_16 (R70): 16-bit form of the f32 maximum. -/
  | maxF32Half (o : Ops16)
  /-- SUB_F32_16 (R70): 16-bit form of the f32 subtract d := d - a. -/
  | subF32Half (o : Ops16)
  /-- MIN_S32_16 (R70): 16-bit form of the signed minimum. -/
  | minS32Half (o : Ops16)
  /-- MAX_S32_16 (R70): 16-bit form of the signed maximum. -/
  | maxS32Half (o : Ops16)
  /-- MOVG_16 (R137): 16-bit lane copy of the g register named by a into d; WRONG_UNIT on the spine. -/
  | movgHalf (o : Ops16)
  /-- ADD (R111): Wrapping integer add, 32-bit or 64-bit pair. -/
  | add (o : OpsL)
  /-- SUB (R111): Wrapping integer subtract. -/
  | sub (o : OpsL)
  /-- ADDS_S32 (R111): Saturating signed add that sets SAT when it clamps. -/
  | addsS32 (o : OpsL)
  /-- SUBS_S32 (R111): Saturating signed subtract that sets SAT when it clamps. -/
  | subsS32 (o : OpsL)
  /-- MIN_S32 (R111): Signed minimum. -/
  | minS32 (o : OpsL)
  /-- MAX_S32 (R111): Signed maximum. -/
  | maxS32 (o : OpsL)
  /-- MIN_N32 (R111): Unsigned minimum. -/
  | minN32 (o : OpsL)
  /-- MAX_N32 (R111): Unsigned maximum. -/
  | maxN32 (o : OpsL)
  /-- MUL_LO (R112): Low part of the integer product. -/
  | mulLo (o : OpsL)
  /-- MULHI_S32 (R112): High 32 bits of the signed 64-bit product. -/
  | mulhiS32 (o : OpsL1)
  /-- MULHI_N32 (R112): High 32 bits of the unsigned 64-bit product. -/
  | mulhiN32 (o : OpsL1)
  /-- MAD_LO (R112): Wrapping multiply-add into d. -/
  | madLo (o : OpsL)
  /-- DOT2_S16 (R113): Saturating two-term s16 dot product accumulated into d. -/
  | dot2S16 (o : OpsL1)
  /-- DOT4_S8 (R113): Saturating four-term s8 dot product accumulated into d. -/
  | dot4S8 (o : OpsL1)
  /-- ABS_S32 (R112): Absolute value, saturating at 0x7FFF_FFFF. -/
  | absS32 (o : OpsA1)
  /-- AND (R114): Bitwise and. -/
  | and (o : OpsL)
  /-- OR (R114): Bitwise or. -/
  | or (o : OpsL)
  /-- XOR (R114): Bitwise exclusive or. -/
  | xor (o : OpsL)
  /-- ANDN (R114): a and not b. -/
  | andn (o : OpsL)
  /-- SHL (R114): Left shift by a register count. -/
  | shl (o : OpsL)
  /-- SHR_N32 (R114): Logical right shift by a register count. -/
  | shrN32 (o : OpsL)
  /-- SHR_S32 (R114): Arithmetic right shift by a register count. -/
  | shrS32 (o : OpsL)
  /-- ROTL (R114): Rotate left by a register count. -/
  | rotl (o : OpsL)
  /-- POPC (R115): Population count. -/
  | popc (o : OpsA)
  /-- CLZ (R115): Count of leading zero bits. -/
  | clz (o : OpsA)
  /-- BREV (R115): Bit reversal. -/
  | brev (o : OpsA)
  /-- SHRR_S32 (R117): Arithmetic right shift that rounds half upward. -/
  | shrrS32 (o : OpsL1)
  /-- SAT_S16 (R115): Clamp to the s16 range, setting SAT when clamped. -/
  | satS16 (o : OpsA1)
  /-- PACK_S16 (R115): Pack two saturated s16 halves into one word. -/
  | packS16 (o : OpsL1)
  /-- SXT (R115): Sign-extend a from bit b[4:0]. -/
  | sxt (o : OpsL1)
  /-- PERM (R116): Byte permutation under the control of the old d. -/
  | perm (o : OpsL1)
  /-- ADDI (R118): Add of a sign-extended 10-bit immediate. -/
  | addi (o : OpsI)
  /-- MOVL (R82): Writes the sign-extended imm16 to d. -/
  | movl (o : OpsW)
  /-- MOVH (R82): Writes imm16 into bits [31:16] of d and keeps the low half. -/
  | movh (o : OpsW)
  /-- NOP (R182): No operation; counts one issue. -/
  | nop (o : OpsG)
  /-- YIELD (R187): Resets YCOUNT, optionally sets the deadline, records the live count and is a yield point. -/
  | yield (o : OpsYield)
  /-- EXIT (R183): Removes the guarded-on lanes, or ends the spine thread. -/
  | exit (o : OpsG)
  /-- TRAP (R184): Raises USER_TRAP with an 8-bit code for the guarded-on lanes. -/
  | trap (o : OpsCode)
  /-- JMPI (R180): Indirect jump to a register target with the priority in its field. -/
  | jmpi (o : OpsJmpi)
  /-- JMPI_L (R180): Indirect jump that takes its priority from the link word. -/
  | jmpiL (o : OpsReg)
  /-- PRIO (R181): Moves the guarded-on lanes to the next PC at a new priority. -/
  | prio (o : OpsPrio)
  /-- BRK (R184): Raises DEBUG_BREAK when debugging is enabled, else retires as nop. -/
  | brk (o : OpsCode)
  /-- SHLI (R120): Left shift by an immediate. -/
  | shli (o : OpsI2)
  /-- SHRI_N (R120): Logical right shift by an immediate. -/
  | shriN (o : OpsI2)
  /-- SHRI_S (R120): Arithmetic right shift by an immediate. -/
  | shriS (o : OpsI2)
  /-- SHRRI_S (R120): Rounding arithmetic right shift by an immediate. -/
  | shrriS (o : OpsI2)
  /-- ROTLI (R120): Rotate left by an immediate. -/
  | rotli (o : OpsI2)
  /-- ANDI (R120): And with a sign-extended 7-bit immediate. -/
  | andi (o : OpsI2)
  /-- ORI (R120): Or with a sign-extended 7-bit immediate. -/
  | ori (o : OpsI2)
  /-- XORI (R120): Exclusive or with a sign-extended 7-bit immediate. -/
  | xori (o : OpsI2)
  /-- ICMP_EQ (R122): Integer compare for equality into a predicate under comb. -/
  | icmpEq (o : OpsP)
  /-- ICMP_NE (R122): Integer compare for inequality. -/
  | icmpNe (o : OpsP)
  /-- ICMP_LT_S (R122): Signed less-than compare. -/
  | icmpLtS (o : OpsP)
  /-- ICMP_LE_S (R122): Signed less-or-equal compare. -/
  | icmpLeS (o : OpsP)
  /-- ICMP_GT_S (R122): Signed greater-than compare. -/
  | icmpGtS (o : OpsP)
  /-- ICMP_GE_S (R122): Signed greater-or-equal compare. -/
  | icmpGeS (o : OpsP)
  /-- ICMP_LT_N (R122): Unsigned less-than compare. -/
  | icmpLtN (o : OpsP)
  /-- ICMP_GE_N (R122): Unsigned greater-or-equal compare. -/
  | icmpGeN (o : OpsP)
  /-- FCMP_EQ (R123): Ordered floating equality compare. -/
  | fcmpEq (o : OpsP)
  /-- FCMP_NE (R123): Unordered-or-unequal floating compare. -/
  | fcmpNe (o : OpsP)
  /-- FCMP_LT (R123): Ordered floating less-than compare; NV for any NaN. -/
  | fcmpLt (o : OpsP)
  /-- FCMP_LE (R123): Ordered floating less-or-equal compare. -/
  | fcmpLe (o : OpsP)
  /-- FCMP_GT (R123): Ordered floating greater-than compare. -/
  | fcmpGt (o : OpsP)
  /-- FCMP_GE (R123): Ordered floating greater-or-equal compare. -/
  | fcmpGe (o : OpsP)
  /-- FCMP_NAN (R123): True when the operands are unordered. -/
  | fcmpNan (o : OpsP)
  /-- FCMP_NUM (R123): True when neither operand is NaN. -/
  | fcmpNum (o : OpsP)
  /-- SEL (R124): Selects a or b by a predicate, copying bits unchanged. -/
  | sel (o : OpsS)
  /-- PAND (R125): Predicate and. -/
  | pand (o : OpsPR)
  /-- POR (R125): Predicate or. -/
  | por (o : OpsPR)
  /-- PXOR (R125): Predicate exclusive or. -/
  | pxor (o : OpsPR)
  /-- PANDN (R125): Predicate pa and not pb. -/
  | pandn (o : OpsPR)
  /-- PNOT (R125): Predicate complement. -/
  | pnot (o : OpsPR1)
  /-- PMOV (R125): Predicate copy. -/
  | pmov (o : OpsPR1)
  /-- ADD_F32 (R126): Floating add, f32 or f64, rounded rne. -/
  | addF32 (o : OpsL)
  /-- SUB_F32 (R126): Floating subtract. -/
  | subF32 (o : OpsL)
  /-- MUL_F32 (R126): Floating multiply. -/
  | mulF32 (o : OpsL)
  /-- FMA_F32 (R126): Fused multiply-add a × b + d with one rounding. -/
  | fmaF32 (o : OpsL)
  /-- FNMA_F32 (R126): Fused d - a × b with one rounding. -/
  | fnmaF32 (o : OpsL)
  /-- MIN_F32 (R45): Floating minimum with -0 below +0. -/
  | minF32 (o : OpsL)
  /-- MAX_F32 (R45): Floating maximum. -/
  | maxF32 (o : OpsL)
  /-- COPYSIGN_F32 (R126): a with the sign bit of b, no flag. -/
  | copysignF32 (o : OpsL)
  /-- HADD_F16X2 (R128): Packed f16 add on both halves. -/
  | haddF16x2 (o : OpsL1)
  /-- HMUL_F16X2 (R128): Packed f16 multiply. -/
  | hmulF16x2 (o : OpsL1)
  /-- HFMA_F16X2 (R128): Packed f16 fused multiply-add into d. -/
  | hfmaF16x2 (o : OpsL1)
  /-- HADD_BF16X2 (R128): Packed bf16 add. -/
  | haddBf16x2 (o : OpsL1)
  /-- HMUL_BF16X2 (R128): Packed bf16 multiply. -/
  | hmulBf16x2 (o : OpsL1)
  /-- HFMA_BF16X2 (R128): Packed bf16 fused multiply-add into d. -/
  | hfmaBf16x2 (o : OpsL1)
  /-- HMIN_BF16X2 (R128): Packed bf16 minimum. -/
  | hminBf16x2 (o : OpsL1)
  /-- HMAX_BF16X2 (R128): Packed bf16 maximum. -/
  | hmaxBf16x2 (o : OpsL1)
  /-- RCP_F32 (R129): Correctly rounded reciprocal, long-latency. -/
  | rcpF32 (o : OpsM)
  /-- RSQRT_F32 (R129): Reciprocal square root within 1 ulp. -/
  | rsqrtF32 (o : OpsM)
  /-- SQRT_F32 (R129): Correctly rounded square root. -/
  | sqrtF32 (o : OpsM)
  /-- EXP2_F32 (R129): Base-2 exponential within 2 ulp. -/
  | exp2F32 (o : OpsM)
  /-- LOG2_F32 (R129): Base-2 logarithm within 2 ulp. -/
  | log2F32 (o : OpsM)
  /-- SINPI_F32 (R129): sin(π·a) within 2 ulp. -/
  | sinpiF32 (o : OpsM)
  /-- COSPI_F32 (R129): cos(π·a) within 2 ulp. -/
  | cospiF32 (o : OpsM)
  /-- TANH_F32 (R129): Hyperbolic tangent within 2 ulp. -/
  | tanhF32 (o : OpsM)
  /-- CVT_F32_S32 (R49): Converts s32 to f32 under rnd. -/
  | cvtF32S32 (o : OpsCvR)
  /-- CVT_S32_F32 (R51): Converts f32 to s32 with rounding and clamping. -/
  | cvtS32F32 (o : OpsCvR)
  /-- CVT_F32_N32 (R49): Converts n32 to f32 under rnd. -/
  | cvtF32N32 (o : OpsCvR)
  /-- CVT_N32_F32 (R51): Converts f32 to n32 with rounding and clamping. -/
  | cvtN32F32 (o : OpsCvR)
  /-- CVT_F32_F16 (R49): Exact conversion of f16 to f32. -/
  | cvtF32F16 (o : OpsA1)
  /-- CVT_F16_F32 (R50): Converts f32 to f16 under rnd, optionally saturating. -/
  | cvtF16F32 (o : OpsCvS)
  /-- CVT_F32_BF16 (R49): Exact conversion of bf16 to f32. -/
  | cvtF32Bf16 (o : OpsA1)
  /-- CVT_BF16_F32 (R50): Converts f32 to bf16 under rnd, optionally saturating. -/
  | cvtBf16F32 (o : OpsCvS)
  /-- CVT_F32_E4M3 (R49): Exact conversion of e4m3 to f32. -/
  | cvtF32E4m3 (o : OpsA1)
  /-- CVT_E4M3_F32 (R50): Converts f32 to e4m3 under rnd, optionally saturating. -/
  | cvtE4m3F32 (o : OpsCvS)
  /-- CVT_F32_E5M2 (R49): Exact conversion of e5m2 to f32. -/
  | cvtF32E5m2 (o : OpsA1)
  /-- CVT_E5M2_F32 (R50): Converts f32 to e5m2 under rnd, optionally saturating. -/
  | cvtE5m2F32 (o : OpsCvS)
  /-- CVT_F32_L6 (R56): Converts an L6 code to its table value in f32. -/
  | cvtF32L6 (o : OpsA1)
  /-- CVT_L6_F32 (R57): Converts f32 to the nearest L6 code. -/
  | cvtL6F32 (o : OpsA1)
  /-- CVT_F32_F64 (R49): Converts f64 to f32 under rnd, optionally saturating. -/
  | cvtF32F64 (o : OpsCvS)
  /-- CVT_F64_F32 (R49): Exact conversion of f32 to f64. -/
  | cvtF64F32 (o : OpsA1)
  /-- SHFL_IDX (R138): Each lane takes a from the lane indexed by n. -/
  | shflIdx (o : OpsL)
  /-- SHFL_XOR (R138): Each lane takes a from lane i xor n. -/
  | shflXor (o : OpsL)
  /-- SLD_UP_Z (R138): Slide up by n with zero fill. -/
  | sldUpZ (o : OpsL)
  /-- SLD_UP_K (R138): Slide up by n keeping the own value. -/
  | sldUpK (o : OpsL)
  /-- SLD_DN_Z (R138): Slide down by n with zero fill. -/
  | sldDnZ (o : OpsL)
  /-- SLD_DN_K (R138): Slide down by n keeping the own value. -/
  | sldDnK (o : OpsL)
  /-- LROT (R138): Rotates values across lanes by n. -/
  | lrot (o : OpsL)
  /-- RADD_S32 (R141): Wrapping group sum into g or as a sprue contribution. -/
  | raddS32 (o : OpsA1)
  /-- RADD_F32 (R62): f32 group sum in a fixed tree. -/
  | raddF32 (o : OpsA1)
  /-- RMIN_S32 (R141): Signed group minimum. -/
  | rminS32 (o : OpsA1)
  /-- RMAX_S32 (R141): Signed group maximum. -/
  | rmaxS32 (o : OpsA1)
  /-- RMIN_F32 (R141): f32 group minimum. -/
  | rminF32 (o : OpsA1)
  /-- RMAX_F32 (R141): f32 group maximum. -/
  | rmaxF32 (o : OpsA1)
  /-- BALLOT (R141): 64-bit mask of active lanes with a nonzero. -/
  | ballot (o : OpsA1)
  /-- VCOUNT (R141): Number of active lanes with a nonzero. -/
  | vcount (o : OpsA1)
  /-- RDC (R133): Reads a control register, taking snapshots for 64-bit counters. -/
  | rdc (o : OpsCt)
  /-- WRC (R134): Writes LSTAT or CT, after earlier flag-setting instructions complete. -/
  | wrc (o : OpsCt)
  /-- V2G (R135): Copies a from the lowest active lane into a g register. -/
  | v2g (o : OpsV2g)
  /-- LD (R251): Plain load from a memory or buffer space. -/
  | ld (o : OpsLd)
  /-- ST (R251): Plain store to a memory or buffer space. -/
  | st (o : OpsSt)
  /-- LD_ACQ (R252): Acquire load at a named scope. -/
  | ldAcq (o : OpsLdo)
  /-- ST_REL (R252): Release store at a named scope. -/
  | stRel (o : OpsLdo)
  /-- FENCE_CORE (R254): Core-scope fence, also the fetch fence. -/
  | fenceCore (o : OpsG)
  /-- FENCE_CLUSTER (R254): Cluster-scope fence. -/
  | fenceCluster (o : OpsG)
  /-- FENCE_DEVICE (R254): Device-scope fence with handshake tokens and self-invalidation. -/
  | fenceDevice (o : OpsG)
  /-- FENCE_SYSTEM (R254): System-scope fence. -/
  | fenceSystem (o : OpsG)
  /-- TFENCE_DEVICE (R345): Translation fence that invalidates the ASID's TLB entries and advances its epoch. -/
  | tfenceDevice (o : OpsG)
  /-- TFENCE_SYSTEM (R345): Translation fence that also covers incoming Daryesh translations. -/
  | tfenceSystem (o : OpsG)
  /-- FENCE_RP (R229): Remote-scope promotion fence on a location. -/
  | fenceRp (o : OpsFrp)
  /-- ATOM_ADD (R257): Atomic integer add returning the old value. -/
  | atomAdd (o : OpsAtom)
  /-- ATOM_ADDF (R257): Atomic floating add returning the old value. -/
  | atomAddf (o : OpsAtom)
  /-- ATOM_MIN (R257): Atomic signed minimum. -/
  | atomMin (o : OpsAtom)
  /-- ATOM_MAX (R257): Atomic signed maximum. -/
  | atomMax (o : OpsAtom)
  /-- ATOM_AND (R257): Atomic and. -/
  | atomAnd (o : OpsAtom)
  /-- ATOM_OR (R257): Atomic or. -/
  | atomOr (o : OpsAtom)
  /-- ATOM_EXCH (R257): Atomic exchange, applied lane by lane. -/
  | atomExch (o : OpsAtom)
  /-- ATOM_CAS (R257): Atomic compare-and-swap, applied lane by lane. -/
  | atomCas (o : OpsAtom)
  /-- APRES (R362): Reserves space at the tail of an append page. -/
  | apres (o : OpsM)
  /-- APCMT (R363): Commits a reservation and advances CTAIL. -/
  | apcmt (o : OpsM)
  /-- APST (R364): Appends one value in one request. -/
  | apst (o : OpsApst)
  /-- SEAL (R365): Seals an append page, discarding outstanding reservations. -/
  | seal (o : OpsM)
  /-- SEAL_W (R365): Marks the page sealing so that it seals when NRES reaches 0. -/
  | sealW (o : OpsM)
  /-- TAILRD (R366): Reads CTAIL and state as an append acquire. -/
  | tailrd (o : OpsM)
  /-- TAILRD_R (R366): Reads RTAIL and state without acquiring. -/
  | tailrdR (o : OpsM)
  /-- TWATCH (R367): Arms a watch that fires a barrier arrival at a CTAIL threshold or the seal. -/
  | twatch (o : OpsM)
  /-- WPOP (R314): Pops a record bound to the team from its deque into the A buffer. -/
  | wpop (o : OpsM)
  /-- WSTEAL (R314): Steals a record of the same grid from another core's deque. -/
  | wsteal (o : OpsM)
  /-- WPUSH (R315): Pushes a record into a deque. -/
  | wpush (o : OpsM)
  /-- WDEP_DEC (R316): Decrements a dependence counter, releasing held records at zero. -/
  | wdepDec (o : OpsM)
  /-- WDEP_ADD (R316): Adds a signed amount to a dependence counter with clamping. -/
  | wdepAdd (o : OpsM)
  /-- WDEP_SET (R316): Sets a dependence counter. -/
  | wdepSet (o : OpsM)
  /-- WQRY_DEQUE (R317): Returns the number of records bound to the team. -/
  | wqryDeque (o : OpsMd)
  /-- WQRY_DEP (R317): Returns a dependence counter's count. -/
  | wqryDep (o : OpsM)
  /-- WQRY_FEED (R317): Returns WIDX - RIDX of a feed queue. -/
  | wqryFeed (o : OpsM)
  /-- BARM (R272): Arms a named barrier with an expected count, recovering it if faulted. -/
  | barm (o : OpsBar)
  /-- ARV (R273): One group arrival on a barrier with an optional count check. -/
  | arv (o : OpsBarK)
  /-- WAIT (R274): Blocks the entry until the barrier phase differs from p. -/
  | wait (o : OpsBar)
  /-- PHRD (R275): Reads a barrier's X, F, A and P fields. -/
  | phrd (o : OpsBar)
  /-- BEXP (R276): Exports a barrier as a doorbell and returns its address. -/
  | bexp (o : OpsBar)
  /-- STEP (R277): Arrives on a stepped region's step barrier. -/
  | step (o : OpsBarK)
  /-- BFREE (R278): Sets the team's free-mask bit for a slot, admitting multicasts. -/
  | bfree (o : OpsBarS)
  /-- LCPY_4 (R280): Per-lane 4-byte copy from global memory into the team's buffer. -/
  | lcpy4 (o : OpsLcpy)
  /-- LCPY_8 (R280): Per-lane 8-byte copy into the team's buffer. -/
  | lcpy8 (o : OpsLcpy)
  /-- LCPY_16 (R280): Per-lane 16-byte copy into the team's buffer. -/
  | lcpy16 (o : OpsLcpy)
  /-- LXFR (R285): Kicks a strided bulk transfer described by a request block. -/
  | lxfr (o : OpsBulk)
  /-- LMCS (R287): Kicks a multicast copy into the buffers of several cores. -/
  | lmcs (o : OpsBulk)
  /-- LRED (R286): Kicks a reducing put that adds at the destination. -/
  | lred (o : OpsBulk)
  /-- LWP (R290): Reads the write pointer of a slot's channel. -/
  | lwp (o : OpsLwp)
  /-- SGET (R263): Consuming read of a sprue register, blocking until FULL. -/
  | sget (o : OpsSpr)
  /-- SPEEK (R263): Non-consuming read of a sprue register, blocking until FULL. -/
  | speek (o : OpsSpr)
  /-- SSET (R264): Completing write of a value to a sprue register. -/
  | sset (o : OpsSpr)
  /-- SARM (R265): Spine arming of an EMPTY sprue register with counts, op and preset. -/
  | sarm (o : OpsSpr)
  /-- SACC (R266): Accumulating write to a FILLING sprue register. -/
  | sacc (o : OpsSpr)
  /-- SSTAT (R267): Non-blocking read of a sprue register's state. -/
  | sstat (o : OpsSpr)
  /-- SCLR (R268): Spine clear of a sprue register to EMPTY. -/
  | sclr (o : OpsSprK)
  /-- MMA (R151): Issues a crucible pass per participating octet into its C tile. -/
  | mma (o : OpsMma)
  /-- DRAIN (R158): Drains the octet's tile into v registers with conversion. -/
  | drain (o : OpsDrn)
  /-- DRAIN_R (R158): Drain with row scales from the A buffer. -/
  | drainR (o : OpsDrnA)
  /-- DRAIN_C (R158): Drain with column scales. -/
  | drainC (o : OpsDrnA)
  /-- DRAIN_RC (R158): Drain with row and column scales. -/
  | drainRc (o : OpsDrnA)
  /-- CZERO (R162): Clears each participating octet's tile and flag word. -/
  | czero (o : OpsCzero)
  /-- BR (R177): Relative branch that splits the frontier entry by the guard. -/
  | br (o : OpsBr)
  /-- CALL (R178): Relative branch that writes a link word. -/
  | call (o : OpsBr)
  /-- LONG_LATENCY_COMPLETE (R88): Completion of a long-latency instruction, which writes its destination and flags and ends its window. -/
  | longLatencyComplete (m : Member)
  /-- RUN_AHEAD (R351): After a page fault the group runs ahead collecting faulting pages, then rolls back. -/
  | runAhead (m : Member)
  /-- YIELD_OVERRUN (R186): YCOUNT reaches the deadline and the grid is ended. -/
  | yieldOverrun (m : Member)
  /-- LOCK_HOLDER_LIMIT (R190): The lock-holder instruction limit is reached and the state clears. -/
  | lockHolderLimit (m : Member)
  /-- CRIT_DEFER_EXPIRY (R190): A lock holder blocked 10 µs since a pre-emption request stops. -/
  | critDeferExpiry (m : Member)
  /-- LADLE_BYTES_LAND (R279): Transfer bytes land, raising LB of the counting barrier. -/
  | ladleBytesLand (id : Nat) (n : Nat)
  /-- LADLE_ACCESS_DENIED (R291): A transfer access that cannot be translated or is denied ends the transfer imprecisely. -/
  | ladleAccessDenied (id : Nat)
  /-- LADLE_PAGE_FAULT (R352): A transfer page fault stops the channel and writes a frame. -/
  | ladlePageFault (id : Nat)
  /-- LADLE_LOCK_WAIT_END (R212): A kick held for range-lock entries starts when entries free. -/
  | ladleLockWaitEnd (m : Member)
  /-- LADLE_CHANNEL_START (R288): A channel starts its next bulk transfer after the previous completes. -/
  | ladleChannelStart (id : Nat)
  /-- LMCS_HOLD_END (R287): A held multicast starts once every receiver's free-mask bit is set, clearing them. -/
  | lmcsHoldEnd (m : Member)
  /-- TUNDISH_CONSUME (R306): The tundish takes the ready record at RIDX and raises RIDX. -/
  | tundishConsume (q : BitVec 8)
  /-- HEAD_AGEING (R321): A blocked head ages after 64 back-fills or 50 µs and reserves targets. -/
  | headAgeing (q : BitVec 8)
  /-- WORK_DEPOSIT (R311): The tundish deposits a work record into the least-loaded worker's deque. -/
  | workDeposit (q : BitVec 8)
  /-- TRAP_FRAME_WRITE (R330): A trap frame is written to the trap ring once room exists, and MSI-X is signalled. -/
  | trapFrameWrite (i : Nat)
  /-- TRAP_ANSWER_RETRY (R333): ACT RETRY read after TNOTIFY issues the instruction again. -/
  | trapAnswerRetry (o : FrameRef)
  /-- TRAP_ANSWER_SKIP (R333): ACT SKIP continues the member after the instruction. -/
  | trapAnswerSkip (o : FrameRef)
  /-- TRAP_ANSWER_END (R333): ACT END ends the grid with STATUS 2. -/
  | trapAnswerEnd (o : FrameRef)
  /-- SAVE_COMPLETE (R189): Once all members stop and drain, the kernel cluster's state is saved. -/
  | saveComplete (kc : Nat)
  /-- RESUME (R339): A suspended kernel cluster is placed again when its condition allows. -/
  | resume (kc : Nat)
  /-- DEADLOCK_WATCHDOG (R420): Members internally blocked for 10 ms end the grid with DEADLOCK. -/
  | deadlockWatchdog (kc : Nat)
  /-- CIRCUIT_UP (R378): A training circuit comes up. -/
  | circuitUp (i : BitVec 8)
  /-- CIRCUIT_DRAINED (R378): A draining circuit completes its requests and goes down. -/
  | circuitDrained (i : BitVec 8)
  /-- WITHDRAW_DONE (R413): Every kernel cluster has left the withdrawing die, which writes back and enters bypass. -/
  | withdrawDone (die : DieNo)
  /-- WITHDRAW_DEADLINE (R414): The WARM_RESET deadline passes and remaining kernel clusters are saved with status 6. -/
  | withdrawDeadline (die : DieNo)
  /-- WRITEBACK_DONE (R413): Write-back done: the die's circuits drain and it enters RESETTING. -/
  | writebackDone (die : DieNo)
  /-- LOST_BYPASS_ENTER (R415): A lost die's stacks enter home bypass within 1 ms. -/
  | lostBypassEnter (die : DieNo)
  /-- FRAME_SCRUB (R350): A freed frame is zeroed and becomes free. -/
  | frameScrub (frame : Nat)
  /-- STAGE2_FENCE_DONE (R393): A running stage-2 fence completes and S2FENCE bit 0 clears. -/
  | stage2FenceDone (v : FuncNo)
  /-- FUNCTION_LEVEL_RESET (R397): An FLR resets a function's queues, contexts and tenant traffic. -/
  | functionLevelReset (o : FlrEvent)
  /-- CRIT_ON (R190): Sets the lock-holder state and starts its 16,384-instruction limit. -/
  | critOn
  /-- CRIT_OFF (R190): Clears the lock-holder state. -/
  | critOff
  /-- GSTEP (R191): Spine arrival at the next grid step boundary, waiting until the boundary completes. -/
  | gstep
  /-- PLACEMENT_ROUND (R320): A tundish round serving pending clusters and queue heads by class. -/
  | placementRound
  /-- FORCE_PREEMPT_TIMEOUT (R388): Kernel clusters not stopped within 10 ms are ended. -/
  | forcePreemptTimeout
  /-- PARTITION_MODE_TAKES_EFFECT (R387): The requested partition mode takes effect within 1 ms, PMSTS reads DONE and VFs are reassigned. -/
  | partitionModeTakesEffect
  /-- MEMORY_RESPONSE (R249): An answer to a request that went beyond the core arrives, possibly with a late cause. -/
  | memoryResponse (r : Response)
  /-- DOORBELL_WRITE (R208): An aligned store to a doorbell is one engine arrival. -/
  | doorbellWrite (o : HostAccess)
  /-- QUEUE_NOTIFY (R306): A store to NOTIFY makes the tundish look at the ring. -/
  | queueNotify (q : BitVec 8)
  /-- METER_UPDATE (R426): At each meter interval energy is divided among contexts and budgets checked. -/
  | meterUpdate (o : MeterOps)
  /-- CREATE (R327): CTXCMD op 1 creates a context from the descriptor at CTXARG. -/
  | create (f : FuncNo)
  /-- RETIRE (R394): CTXCMD op 2 retires a context, ending its grids. -/
  | retire (f : FuncNo)
  /-- SUSPEND_CONTEXT (R336): CTXCMD op 3 pre-empts every kernel cluster of a context. -/
  | suspendContext (f : FuncNo)
  /-- RESUME_CONTEXT (R339): CTXCMD op 4 resumes a suspended context. -/
  | resumeContext (f : FuncNo)
  /-- SUSPEND_GRID (R336): CTXCMD op 5 pre-empts the kernel clusters of a grid. -/
  | suspendGrid (f : FuncNo) (gid : Word)
  /-- RESUME_GRID (R339): CTXCMD op 6 resumes a suspended grid. -/
  | resumeGrid (f : FuncNo) (gid : Word)
  /-- QRSV_READ (R305): A host 8-byte read of QRSV reserves one feed-queue slot. -/
  | qrsvRead (o : HostRead)
  /-- PMODE_CHANGE (R387): A PMODE write with FORCE 0 requests a partition mode change. -/
  | pmodeChange (mode : BitVec 2)
  /-- PMODE_FORCE (R388): A PMODE write with FORCE 1 pre-empts affected partitions and changes mode. -/
  | pmodeForce (mode : BitVec 2)
  /-- STAGE2_FENCE (R346): A write to S2FENCE invalidates stage-2 translations of the VF. -/
  | stage2Fence (v : FuncNo)
  /-- QUEUE_TABLE_WRITE (R303): A queue-table entry write, refused when its enable breaks the rules. -/
  | queueTableWrite (q : BitVec 8) (entry : BitVec 256)
  /-- VFCFG_WRITE (R393): A VFCFG write, whose clearing of EN is refused while the VF has a context. -/
  | vfcfgWrite (v : FuncNo) (val : DWord)
  /-- CIRCUIT_REQUEST (R378): Setting V of a connection entry starts training the circuit. -/
  | circuitRequest (i : BitVec 8) (entry : DWord)
  /-- CIRCUIT_RELEASE (R378): Clearing V moves the circuit to draining. -/
  | circuitRelease (i : BitVec 8)
  /-- BAR0_WRITE (R434): A write to a BAR0 register with no behaviour of its own. -/
  | bar0Write (o : HostAccess)
  /-- WARM_RESET (R413): Management command that starts withdrawal or recovery of a die. -/
  | warmReset (f : FuncNo) (die : DieNo) (ms : Nat)
  /-- DIE_STATUS (R427): Management command returning a die's state and CAPS. -/
  | dieStatus (f : FuncNo) (die : DieNo)
  /-- ERR_READ (R427): Management command returning a die's error counters. -/
  | errRead (f : FuncNo) (die : DieNo)
  /-- ENERGY_READ (R426): Management command returning an energy counter. -/
  | energyRead (f : FuncNo) (o : EnergyOf)
  /-- DB_FORWARD (R421): Management command that forwards a migrated context's doorbells. -/
  | dbForward (f : FuncNo) (asid : Asid) (dev : BitVec 9) (exp : BitVec 5)
  /-- DB_UNFORWARD (R421): Management command that removes a doorbell forwarding entry. -/
  | dbUnforward (f : FuncNo) (asid : Asid)
  /-- ATTEST (R425): Management command returning a signed attestation report. -/
  | attest (f : FuncNo) (nonce : BitVec 256)
  /-- FW_STAGE (R424): Management command staging a firmware image chunk. -/
  | fwStage (f : FuncNo) (chunk : List Byte)
  /-- SELFTEST_DONE (R413): Reset and self-test finish, harvesting crucibles, and the die trains. -/
  | selftestDone (o : SelftestOps)
  /-- UCIE_TRAINED (R413): UCIe trains and earlier circuits are restored. -/
  | ucieTrained (die : DieNo) (pass : Bool)
  /-- PACKAGE_CLOCK_HANDSHAKE (R413): First handshake steps TIME, validates TERR and brings the die ONLINE. -/
  | packageClockHandshake (die : DieNo) (time : DWord)
  /-- UCIE_RETRAIN_TIMEOUT (R413): A UCIe link not retrained within 5 ms is a fatal event. -/
  | ucieRetrainTimeout (die : DieNo)
  /-- FATAL_REPORT (R413): A die control processor's fatal report is a fatal event. -/
  | fatalReport (die : DieNo)
  /-- HEARTBEAT_MISS (R413): Three missed heartbeats are a fatal event. -/
  | heartbeatMiss (die : DieNo)
  /-- TIME_SOURCE_LOSS (R384): A source lost for over 1 s makes TERR unsynchronised. -/
  | timeSourceLoss (die : DieNo)
  /-- PTM_EXCHANGE (R385): A PTM exchange with the host corrects TIME. -/
  | ptmExchange (o : TimeStamp)
  /-- PTP_MESSAGE (R385): An IEEE 1588 message over Daryesh is timestamped and processed. -/
  | ptpMessage (o : PtpMessage)
  /-- REMOTE_REQUEST (R402): A Daryesh request arrives at an export and is translated and performed or refused. -/
  | remoteRequest (o : RemoteOps)
  /-- FLIT_REPLAY (R399): A flit failing its CRC is replayed. -/
  | flitReplay (link : Nat)
  /-- LINK_FAILURE (R400): A link not recovered within 1 ms fails its requests with LINK_ERROR. -/
  | linkFailure (link : Nat)
  /-- COMPLETION_TIMEOUT (R396): A host-window request without completion in time raises LINK_ERROR. -/
  | completionTimeout (req : Nat)
  /-- REPLICA_CREATE (R371): A sealed page is copied into a replica on a reading die. -/
  | replicaCreate (frame : Nat) (copy : Nat)
  /-- REPLICA_RECLAIM (R372): Replicas are reclaimed and scrubbed. -/
  | replicaReclaim (copy : Nat)
  /-- PATROL_READ (R410): Memory controllers read and correct every frame each 24 hours. -/
  | patrolRead (frame : Nat)
  /-- S_MODE_FAULT (R422): The monitor restarts a faulted S-mode scheduler. -/
  | sModeFault (die : DieNo)
  /-- PLUGIN_FAULT (R422): A faulting plug-in is stopped and its requests dropped. -/
  | pluginFault (die : DieNo) (vf : FuncNo)
  /-- DEVICE_BOOT (R424): At reset the boot chain verifies and measures firmware images. -/
  | deviceBoot (images : List BootImage)
  /-- POWER_CLAMP (R423): The module power clamp binds and slows the arithmetic clocks. -/
  | powerClamp (binds : Bool)
  /-- HOST_POSTED_WRITE (R241): A posted write of a PCI Express function to device memory is applied in arrival order and released at system scope. -/
  | hostPostedWrite (o : HostWrite)
  /-- FRAME_TABLE_WRITE (R347): The driver writes a frame ownership table entry through the PF, for example opening or sealing an append page or freeing a frame. -/
  | frameTableWrite (frame : Nat) (entry : BitVec 128)
  /-- TOKEN_BUCKET_FILL (R353): A context's per-die token bucket refills at RATE, or recalls lent tokens, releasing accesses that wait for tokens. -/
  | tokenBucketFill (asid : Asid) (die : DieNo) (n : Nat)
  /-- UCIE_RETRAIN_START (R413): A UCIe link loses training and starts retraining, which starts the 5 ms limit, and retraining in time ends it. -/
  | ucieRetrainStart (die : DieNo)
  deriving DecidableEq, Repr

end Sys2Proof
end

