-- ==== Sys2Proof/Machine/State.lean ====
section
/-! DEFINITION. The machine's state as plain data: everything the spec gives the device, then the model's
own bookkeeping (nextId, agenda, cur, fresh, out; log entry 3). Faults, refusals and the state after reset. -/

namespace Sys2Proof.Machine

/-! ### Sprue registers (R15, R24, R25) -/

/-- Presence state of a sprue register (R25): contributions or reads still due. -/
inductive Presence where
  | empty
  | filling (w : BitVec 12)
  | full (r : BitVec 12)
  deriving DecidableEq, Repr

/-- A sprue register with the configuration of the last `sarm` (R15, R25) and its poison mark (R410). -/
structure SprueReg where
  value : DWord
  st : Presence
  rcnt : BitVec 12
  wcnt : BitVec 12
  op : BitVec 3
  preset : DWord
  poison : Bool
  deriving DecidableEq, Repr

/-- A sprue register at placement: EMPTY, value zero (R15). -/
def SprueReg.init : SprueReg := ⟨0, .empty, 0, 0, 0, 0, false⟩

/-! ### Named barriers and stepped regions (R197 to R208) -/

/-- A named barrier (R203), the doorbell index it holds when exported (R276) and the arrivals and bytes
that reached it while its kernel cluster was suspended (R208, R367). -/
structure Barrier where
  p : BitVec 16
  e : BitVec 10
  a : BitVec 10
  eb : BitVec 32
  lb : BitVec 32
  f : Bool
  h : BitVec 10
  x : Bool
  door : Option Nat
  deriving DecidableEq, Repr

/-- A barrier at placement (R204). -/
def Barrier.init : Barrier := ⟨0, 0, 0, 0, 0, false, 0, false, none⟩

/-- A store held at the core between a group's arrival and the swap (R202). -/
structure HeldStore where
  group : Nat
  lane : Nat
  prio : Nat
  addr : Nat
  bytes : List Byte
  deriving DecidableEq, Repr

/-- A stepped region (R197, R198): descriptor, both planes, written bits and keys by word, the groups that
have arrived in the open phase and the stores held for them (R202). -/
structure Region where
  idx : Nat
  base : Nat
  bytes : Nat
  rule : BitVec 2
  fill : Bool
  slot : Nat
  present : AMap Byte
  nextPl : AMap Byte
  written : AMap Bool
  keys : AMap Nat
  arrived : List Nat
  held : List HeldStore
  /-- the present plane before the last swap, and the groups that arrived in its phase and have not waited since:
  a load of theirs may still read it (R202) -/
  prev : AMap Byte
  behind : List Nat
  deriving DecidableEq, Repr

/-! ### Members: groups and spines -/

/-- Why an entry, a spine or a kick waits (R172, R187, R191, R212, R287). -/
inductive Wait where
  /-- until the sprue register is FULL -/
  | sprueFull (k : BitVec 5)
  /-- until the sprue register is EMPTY -/
  | sprueEmpty (k : BitVec 5)
  /-- until the sprue register is FILLING -/
  | sprueFilling (k : BitVec 5)
  /-- until the barrier's phase differs from p, or F is set -/
  | phase (slot : BitVec 4) (p : BitVec 16)
  /-- over: the barrier was faulted while the entry was blocked there, and it wakes with BARRIER_COUNT (R206) -/
  | faulted (slot : BitVec 4)
  /-- until the grid boundary completes -/
  | boundary (k : Nat)
  deriving DecidableEq, Repr

/-- A frontier entry (R169) and, when it is blocked, its wait (R172). -/
structure Entry where
  pc : VAddr
  prio : BitVec 6
  mask : LaneMask
  wait : Option Wait
  deriving DecidableEq, Repr

/-- The registers of a group that pre-emption, run-ahead and a discarded window save and restore
(R91, R188, R351). v is keyed lane × 64 + register; p holds one byte per lane, bit k for pk; lstat one
entry per lane. -/
structure GroupRegs where
  v : AMap Word
  g : AMap Word
  p : AMap Byte
  lstat : AMap Flags6
  frontier : List Entry
  ct : Word
  snapTime : DWord
  snapLclk : DWord
  snapEctx : DWord
  deriving DecidableEq, Repr

/-- A write that a long-latency instruction makes when it completes: v[lane][reg] := val. -/
structure RegWrite where
  lane : Nat
  reg : Nat
  val : Word
  deriving DecidableEq, Repr

/-- An issue: the member, where it stands, the lanes it issues for, the word and its length in bytes.
counted marks an issue that YCOUNT has already counted (a blocked entry that goes on, R172). -/
structure Issue where
  who : Member
  pc : VAddr
  prio : BitVec 6
  mask : LaneMask
  word : Word
  len : Nat
  counted : Bool
  deriving DecidableEq, Repr

/-- Where a request went. -/
inductive Target where
  | window (w : Nat) (off : Nat)
  | fabric (dev : Nat) (exp : Nat) (off : Nat)
  deriving DecidableEq, Repr

/-- A part of a store that waits for the part beyond the fabric to be answered, so that a lane that meets a late cause
has no effect (R249): its lane, its address in memory and class or its host window, the bytes, and its virtual
address. -/
structure Pend where
  lane : Nat
  target : Option Target
  pa : Nat
  cls : BitVec 2
  bytes : List Byte
  va : Nat
  deriving DecidableEq, Repr

/-- What an access waits for beyond the core (R249): the requests not yet answered, the late causes met (lane,
cause, address), the bytes got (lane, offset, bytes), the destination, size code and extension of what is read,
and the lanes not yet completed. -/
structure Asked where
  waiting : List Nat
  late : List (Nat × Byte × Nat)
  got : List (Nat × Nat × List Byte)
  load : Option (Nat × Nat × Bool)
  undone : LaneMask
  /-- completed lanes keep their results when others meet a late cause: atomics and PAGE, not loads (R249) -/
  keep : Bool
  /-- parts of a store that wait for another part's answer -/
  pend : List Pend
  /-- the host windows that refused one of its atomics: it sends them no further request (R260) -/
  refused : List Nat
  deriving DecidableEq, Repr

/-- A long-latency instruction in flight (R88 to R91): the instructions left in its window, where its entry
stands, the registers it writes (dst) and the values known so far, the flags each lane gets, what it waits
for, and the group as it would be if its window had not been issued: registers, poison marks, YCOUNT, lock-holder
count and deadline. -/
structure Flight where
  issue : Issue
  left : Nat
  pc : VAddr
  prio : BitVec 6
  dst : List Nat
  writes : List RegWrite
  gwrites : List (Nat × Word)
  flags : List (Nat × Flags6)
  ask : Option Asked
  ckpt : GroupRegs
  /-- the poison marks that go with ckpt -/
  ckptPoison : List Nat
  /-- YCOUNT, the lock-holder count and the deadline without what the window has set; its issues count (R186) -/
  ckptYcount : Word
  ckptCrit : Option Nat
  ckptDeadline : Nat
  deriving DecidableEq, Repr

/-- One page of a page-fault batch (R331, R351): bits [47:16], what it needed, and the stage. -/
structure FaultPage where
  page : Nat
  x : Bool
  w : Bool
  s2 : Bool
  deriving DecidableEq, Repr

/-- A trap as the frame of R331 reports it. -/
structure Trap where
  cause : Byte
  code : Byte
  late : Bool
  imprecise : Bool
  prio : BitVec 6
  lane : BitVec 6
  lanes : LaneMask
  pc : VAddr
  addr : DWord
  word : Word
  len : Nat
  pages : List FaultPage
  /-- the lanes of the entry that issued: the answer concerns no others (R333) -/
  entry : LaneMask
  deriving DecidableEq, Repr

/-- What the service answered (R333): ACT 1, 2 or 3. -/
inductive Answered where
  | retry | skip | stop
  deriving DecidableEq, Repr

/-- Run-ahead after a page fault (R351): the shadow file, the tainted registers and predicates (lane, code),
the batch, and the instructions run. -/
structure RunAhead where
  shadow : GroupRegs
  trap : Trap
  tainted : List (Nat × Nat)
  count : Nat
  /-- the poison marks that go with the shadow file -/
  poison : List Nat
  deriving DecidableEq, Repr

/-- A bulk kick that waits at issue: for range-lock entries or for a multicast's free-mask bits. -/
inductive Hold where
  | locks (i : Issue) (fn : BitVec 2) (o : OpsBulk)
  | mcast (i : Issue) (o : OpsBulk)
  deriving DecidableEq, Repr

/-- A group (R166, R167) with its role, place and state. -/
structure Group where
  kc : Nat
  core : Nat
  idx : Nat
  kind : BitVec 2
  width : Nat
  budget : Nat
  slot : Nat
  octet : Nat
  /-- its residency place at each of its octet positions (R167) -/
  place : List Nat
  regs : GroupRegs
  ycount : Word
  deadline : Nat
  /-- instructions since `crit.on`, when the lock-holder state is set (R190) -/
  crit : Option Nat
  flights : List Flight
  hold : Option Hold
  trap : Option Trap
  /-- lanes that completed before a late cause: the instruction that issues again is not for these (R249) -/
  retry : Option LaneMask
  /-- an answer kept while the kernel cluster is suspended (R334) -/
  answer : Option Answered
  runAhead : Option RunAhead
  /-- causes of ended ladle transfers, delivered at the next issue (R291) -/
  ladle : List Trap
  /-- the live count of the `yield` at which it stopped; 64 + 1 at another stop (R187, R188) -/
  stopped : Option Nat
  startPopped : Bool
  /-- poisoned registers (R410): v as lane × 64 + register, pk as 4,096 + lane × 8 + k, g as 4,608 + register, a
  lane's frontier entry as 4,640 + lane -/
  poison : List Nat
  ended : Bool
  /-- when it last issued, for the order within a slot (R174) -/
  turn : Nat
  /-- stores to text older than this are seen by every lane's fetch; per lane, those older than its last
  `fence.core` (R235) -/
  seenFrom : Nat
  fenced : AMap Nat
  deriving DecidableEq, Repr

/-- A spine context's thread (R175): x0 to x31, p0 to p7 as one byte, and its state. -/
structure Spine where
  x : AMap DWord
  p : Byte
  pc : VAddr
  lstat : Flags6
  crit : Option Nat
  gsteps : Nat
  wait : Option Wait
  /-- the access whose requests have not all been answered -/
  asked : Option (Issue × Asked)
  trap : Option Trap
  answer : Option Answered
  stopped : Bool
  poison : List Nat
  ended : Bool
  /-- stores to text older than this are seen by its fetch (R235) -/
  seenFrom : Nat
  deriving DecidableEq, Repr

/-- Where a kernel cluster is placed (R318): die, hardware cluster of the die, anchor, spine context. -/
structure Place where
  die : DieNo
  hw : BitVec 2
  row : Nat
  col : Nat
  ctx : Nat
  deriving DecidableEq, Repr

/-- Life of a kernel cluster: running, stopping to be saved with a status, or saved (R189, R337). -/
inductive KcStatus where
  | running
  | stopping (code : Byte)
  | saved (code : Byte)
  | ended
  deriving DecidableEq, Repr

/-- A kernel cluster (R166): identity, placement, sprue registers and spine. slotNo is the save slot it
holds (R336); cfgSprue, cfgBar the mould's counts (R19). -/
structure Kc where
  id : Nat
  grid : Word
  asid : Asid
  cluster : Word
  gx : Word
  gy : Word
  gz : Word
  rows : Nat
  cols : Nat
  cfgSprue : Nat
  cfgBar : Nat
  place : Option Place
  status : KcStatus
  slotNo : Option Nat
  sprue : AMap SprueReg
  spine : Spine
  deriving DecidableEq, Repr

/-- A team (R166): its buffers (R192), tile flag words by tile index (R155), barriers by slot, free mask
(R278), regions and slot channels (R290). poison lists (buffer, 16-byte part): W 0, A 1, C 2, tile flag words 3, next planes
of A 4 (R410). -/
structure Team where
  kc : Nat
  core : Nat
  wSize : Nat
  aSize : Nat
  cSize : Nat
  w : AMap Byte
  a : AMap Byte
  c : AMap Byte
  tileFlags : AMap (BitVec 5)
  bars : List Barrier
  free : BitVec 16
  regions : List Region
  /-- per slot: channel of the latest bulk transfer kicked with it -/
  chans : AMap (Option Nat)
  /-- per channel: one past the last completed transfer's destination -/
  lastPtr : AMap Nat
  poison : List (Nat × Nat)
  deriving DecidableEq, Repr

/-! ### Ladle transfers, watches, deques -/

/-- A space a transfer side lies in (R282). -/
inductive Space where
  | global | bufW | bufA | bufC
  deriving DecidableEq, Repr

/-- One copy of a transfer: the core that receives it (the kicking core for memory), the elements still to
land as (destination, source) addresses in ascending destination order, and the bytes to land. -/
structure Leg where
  core : Nat
  todo : List (Nat × Nat)
  arrived : Bool
  deriving DecidableEq, Repr

/-- What a transfer does at the destination (R285 to R287). -/
inductive RedOp where
  | copy | addF32 | addBf16
  deriving DecidableEq, Repr

/-- A kick's transfer (R279, R283): kicker, channel (none for per-lane copies), counting slot, spaces,
element size, intervals for the range locks (R211), request block address, stop for a page fault (R352). -/
structure Transfer where
  id : Nat
  kc : Nat
  core : Nat
  group : Nat
  asid : Asid
  lanes : LaneMask
  chan : Option Nat
  slot : Nat
  sspace : Space
  dspace : Space
  esize : Nat
  red : RedOp
  srcIv : Option (Nat × Nat)
  dstIv : Option (Nat × Nat)
  block : Nat
  legs : List Leg
  /-- the channel runs it: true for per-lane copies, and once its predecessor on the channel is done (R288) -/
  started : Bool
  stopped : Bool
  /-- a page fault of this transfer has been answered and met again: the service refuses to map (R352) -/
  retried : Bool
  /-- the 16-byte parts of the source that the range covers wholly: each is read as one (R220) -/
  whole : List Nat
  /-- source bytes read already: address, byte, poison -/
  fetched : List (Nat × Byte × Bool)
  deriving DecidableEq, Repr

/-- An armed watch of an append page (R367): frame, threshold, core and slot. -/
structure Watch where
  kc : Nat
  core : Nat
  slot : Nat
  frame : Nat
  threshold : Nat
  deriving DecidableEq, Repr

/-- A record in a core's deque (R311), bound to the team of kc there, nearest the head first; start marks a start record
(R322); queue is the feed queue it came from, none for `wpush`. -/
structure DequeRec where
  kc : Nat
  core : Nat
  start : Bool
  queue : Option (BitVec 8)
  bytes : List Byte
  /-- its 16-byte parts that came poisoned (R411) -/
  poison : List Nat
  deriving DecidableEq, Repr

/-! ### Contexts, grids, traps -/

/-- A context (R326, R327): the latched descriptor fields and what the device keeps. -/
structure Ctx where
  asid : Asid
  vf : FuncNo
  part : BitVec 2
  desc : Nat
  tring : Nat
  log2n : Nat
  tvec : Byte
  dbg : Bool
  saveBase : Nat
  nslot : Nat
  s1root : Nat
  seq : Nat
  epoch : Nat
  energy : DWord
  slot : BitVec 6
  /-- doorbell index to (kernel cluster, core, slot) (R276) -/
  doors : AMap (Option (Nat × Nat × Nat))
  /-- save slots in use or reserved (R336) -/
  slotsUsed : List Nat
  /-- `fence.rp` marks: (location, member, lane) (R229) -/
  marks : List (Nat × Member × Nat)
  /-- owning cores: location to (kernel cluster, core, die) (R229, R430) -/
  owners : AMap (Option (Nat × Nat × Nat))
  /-- threads (member, lane) that have run a `fence.core` (R253) -/
  coreFenced : List (Member × Nat)
  /-- tokens per die, in 64-byte units (R353) -/
  tokens : AMap Nat
  /-- energy of ended grids, taken from the allowance, µJ (R324) -/
  spent : Nat
  suspended : Bool
  /-- doorbell arrivals counted while the context is suspended by command, by index (R208, R421) -/
  counted : AMap Nat
  /-- dies whose home lines the context has written and that have not been written back (R328) -/
  dirty : BitVec 4
  /-- the 64-byte lines (by address / 64) of those dies that it has written (R415) -/
  lines : List Nat
  deriving DecidableEq, Repr

/-- A doorbell forwarding entry (R421), with the function and context slot that the host rings; live: until DB_UNFORWARD
removes it. One of a context that has left stays then without effect, so that later doorbell stores are known as
stores to a doorbell that is not exported. -/
structure Forward where
  asid : Asid
  vf : FuncNo
  slot : BitVec 6
  dev : BitVec 9
  exp : BitVec 5
  live : Bool
  deriving DecidableEq, Repr

/-- A mould as read at the first start attempt (R297 to R299). -/
structure Mould where
  addr : Nat
  spine : VAddr
  rolePc : List VAddr
  roles : List (BitVec 2 × Nat × Nat × Nat)
  rows : Nat
  cols : Nat
  dmin : Nat
  dmax : Nat
  gmin : Nat
  caps : Word
  wKib : Nat
  aKib : Nat
  cKib : Nat
  barriers : Nat
  sprue : Nat
  klass : Nat
  wqv : Bool
  wake : Nat
  wq : BitVec 8
  ebudget : Nat
  regions : List Region
  deriving DecidableEq, Repr

/-- A launch record as taken from its ring (R300, R301). -/
structure Launch where
  bytes : List Byte
  queue : BitVec 8
  asid : Asid
  vf : FuncNo
  /-- its 16-byte parts that the ring held poisoned (R411) -/
  poison : List Nat
  deriving DecidableEq, Repr

/-- A grid that has started (R302, R319): its mould, record, die set, placement and boundaries. -/
structure Grid where
  id : Word
  asid : Asid
  launch : Launch
  mould : Mould
  gx : Nat
  gy : Nat
  gz : Nat
  dies : List DieNo
  nextCluster : Nat
  boundary : Nat
  ebudget : Nat
  charged : Nat
  suspended : Bool
  leaving : List DieNo
  /-- a boundary has completed since the tundish last looked whether to add dies (R323) -/
  grow : Bool
  deriving DecidableEq, Repr

/-- Whose frame it is (R331, R435). -/
inductive FrameOf where
  | member (m : Member)
  | ladle (id : Nat) (m : Member)
  | cluster (kc : Nat)
  | context
  deriving DecidableEq, Repr

/-- A frame waiting to be written (R330), with the identity fields of GRID and TEAM. -/
structure Frame where
  asid : Asid
  whose : FrameOf
  trap : Trap
  grid : Word
  cluster : Word
  team : Word
  groupNo : Nat
  deriving DecidableEq, Repr

/-- A frame written and not yet answered (R333), and where its RESP lies. -/
structure Written where
  asid : Asid
  seq : Nat
  resp : Nat
  frame : Frame
  deriving DecidableEq, Repr

/-! ### Memory, translation, requests -/

/-- A frame ownership table entry (R347); APSTATE laid out by R354. -/
structure FrameEntry where
  vpn : Word
  kasid : Asid
  part : BitVec 2
  ovf : FuncNo
  apstate : BitVec 48
  apst : BitVec 2
  cls : BitVec 2
  st : BitVec 2
  hwa : Bool
  deriving DecidableEq, Repr

/-- A frame entry of zeros: free. -/
def FrameEntry.zero : FrameEntry := ⟨0, 0, 0, 0, 0, 0, 0, 0, false⟩

/-- An outstanding reservation of an append page (R354). -/
structure Resv where
  frame : Nat
  off : Nat
  len : Nat
  done : Bool
  deriving DecidableEq, Repr

/-- A replica of a sealed page (R371). -/
structure Replica where
  frame : Nat
  copy : Nat
  /-- when it last served a fill (R372) -/
  used : Nat
  deriving DecidableEq, Repr

/-- A cached translation (R343): context, virtual page, physical page, permissions r w x, class, and the span in bits
of the leaf it came from. -/
structure TlbEntry where
  asid : Asid
  epoch : Nat
  page : Nat
  pa : Nat
  r : Bool
  w : Bool
  x : Bool
  cls : BitVec 2
  span : Nat
  deriving DecidableEq, Repr

/-- A poisoned register's entry in the register block of a saved group, while no write has covered it (R337, R411): its
address, the group, and the mark. -/
structure BlockMark where
  pa : Nat
  kc : Nat
  core : Nat
  idx : Nat
  mark : Nat
  deriving DecidableEq, Repr

/-- What a request beyond the core asks for (R249). -/
inductive ReqKind where
  | load (n : Nat)
  /-- poison: the bytes carry the mark of their source (R411) -/
  | store (bytes : List Byte) (poison : Bool)
  | atom (op : BitVec 3) (wide : Bool) (b new : DWord)
  /-- a PAGE instruction's lanes that name one page: each lane's address there and data (R361) -/
  | page (fn op : BitVec 3) (vals : List (Nat × List Byte))
  /-- doorbell arrivals; release: made with `st.rel` (R421) -/
  | door (count : Nat) (release : Bool)
  deriving DecidableEq, Repr

/-- A request in flight to the host or to a peer: who waits for it (none: it relays a peer's request, dst being
that device's number plus 1), the lanes it serves with the prefix each
adds to the returned value (R63, R259), destination register and the faulting address to report. One of a ladle transfer
has no lanes: it names the kicking group, the transfer in off and the request block in addr. -/
structure Request where
  id : Nat
  who : Option Member
  lanes : List (Nat × DWord)
  /-- the byte offset of this part in the lane's access -/
  off : Nat
  dst : Nat
  addr : Nat
  scope : BitVec 2
  asid : Asid
  target : Target
  kind : ReqKind
  /-- requests of the same instruction and address that follow, lane by lane, once this one is answered (R259) -/
  later : List (Nat × ReqKind)
  /-- the plane, that is the Daryesh link, a fabric request travels on (R399, R400) -/
  plane : Nat
  deriving DecidableEq, Repr

/-! ### Tundish, dies, host, fabric -/

/-- A queue table entry (R303, R393). -/
structure QueueEntry where
  ring : Nat
  log2n : Nat
  cb : Nat
  work : Bool
  vf : FuncNo
  asid : Asid
  en : Bool
  deriving DecidableEq, Repr

/-- An entry of zeros: not enabled. -/
def QueueEntry.zero : QueueEntry := ⟨0, 0, 0, false, 0, 0, false⟩

/-- A head the tundish serves (R320): that of a ring, or a released launch record. -/
inductive HeadKey where
  | ring (q : BitVec 8)
  | released (n : Nat)
  deriving DecidableEq, Repr

/-- A head that has been tried (R299, R320, R321): its record, its mould as first read, whether it is blocked, its
back-fills and, when aged, its reservation. -/
structure Head where
  key : HeadKey
  launch : Launch
  mould : Mould
  blocked : Bool
  backfills : Nat
  aged : Bool
  /-- reserved cores (die, core of the die) -/
  cores : List (Nat × Nat)
  /-- per reserved spine context its hardware cluster, die × 4 + cluster -/
  spines : List Nat
  deriving DecidableEq, Repr

/-- The tundish (R303 to R325). -/
structure Tundish where
  queues : AMap QueueEntry
  counts : AMap (BitVec 16)
  held : List (Nat × Launch)
  released : List (Nat × Launch)
  heads : List Head
  looking : List (BitVec 8)
  rr : List (BitVec 8)
  nextGrid : Word
  deriving DecidableEq, Repr

/-- State of a die (R413). -/
inductive DieState where
  | online | withdrawing | bypass | resetting | training | syncing | lost | failed
  deriving DecidableEq, Repr

/-- A die: state, home bypass (R377), failures of self-test or training, time (R382), counters (R426, R427),
limits and firmware (R422 to R424), and its cores' CAPS and FEAT (R35, R418). -/
structure Die where
  st : DieState
  bypass : Bool
  fails : Nat
  /-- deadline of a withdrawal, ms (R414) -/
  deadline : Nat
  retraining : Bool
  time : DWord
  terr : Word
  lclk : DWord
  backlog : Nat
  energy : DWord
  corrected : DWord
  uncorrected : DWord
  consumed : DWord
  /-- per core of the die (hw × 12 + position): the CAPS bits cleared, FEAT bits missing, out of service -/
  capsOff : AMap (BitVec 4)
  featOff : AMap (BitVec 4)
  outOf : List Nat
  /-- whether the images verified at boot; none before boot (R424) -/
  boot : Option Bool
  version : Word
  log : List (BitVec 256)
  /-- the images that it boots from, measured again at each reset (R424) -/
  images : List BootImage
  staged : List Byte
  /-- connection entries to restore when the die has trained (R413) -/
  circuits : List Nat
  /-- plug-ins that have been stopped, and whether S mode is being restarted (R422) -/
  stopped : List FuncNo
  restarting : Bool
  /-- parameters that the scheduler sets (R422): fills of a page before a replica, frames kept in the pool, and the
  meter interval in µs -/
  replThreshold : Nat
  poolReserve : Nat
  meterUs : Nat
  /-- per-die current clamp, a fused value (R423) -/
  currentClamp : Nat
  deriving DecidableEq, Repr

/-- Registers of one function's block (R394) and its PF-owned registers (R393). -/
structure Func where
  ctxarg : DWord
  status : BitVec 2
  reason : Byte
  slot : BitVec 6
  gridid : Word
  dbdrop : Word
  /-- kernel clusters that a suspend command still waits for (R336) -/
  pending : List Nat
  partn : BitVec 2
  en : Bool
  s2root : Nat
  s2en : Bool
  fencing : Bool
  slotq : BitVec 21
  holdq : DWord
  tqw : Byte
  /-- a function-level reset is under way (R397) -/
  flr : Bool
  /-- Device Control 2, the register of the function's configuration space that the spec names (R395 to R397);
  PRESUMED, unsafe: log entry 115 -/
  devCtl2 : BitVec 16
  deriving DecidableEq, Repr

/-- A host window (R395). -/
structure Window where
  hbase : DWord
  size : BitVec 24
  ovf : FuncNo
  atomc : Bool
  ns : Bool
  v : Bool
  deriving DecidableEq, Repr

/-- An entry of zeros: not valid. -/
def Window.zero : Window := ⟨0, 0, 0, false, false, false⟩

/-- An export (R401). -/
structure Export where
  vabase : DWord
  size : BitVec 20
  sdev : BitVec 9
  svf : BitVec 6
  asid : Asid
  ap : Bool
  w : Bool
  r : Bool
  v : Bool
  deriving DecidableEq, Repr

/-- An entry of zeros: not valid. -/
def Export.zero : Export := ⟨0, 0, 0, 0, 0, false, false, false, false⟩

/-- A connection table entry (R378), with its STATE. -/
structure Circuit where
  v : Bool
  src : BitVec 5
  dst : BitVec 5
  nlam : BitVec 3
  lambda : BitVec 6
  st : BitVec 2
  /-- while it drains, what it had before the entry was rewritten: SRC, DST, LAMBDA, NLAM (R378, R434) -/
  held : Option (BitVec 5 × BitVec 5 × BitVec 6 × BitVec 3)
  deriving DecidableEq, Repr

/-- An entry of zeros: down. -/
def Circuit.zero : Circuit := ⟨false, 0, 0, 0, 0, 0, none⟩

/-- Host interface registers of the PF (R393), the function blocks and the tables. -/
structure HostRegs where
  pmode : BitVec 2
  pmsts : BitVec 2
  timesrc : BitVec 2
  pkgok : Bool
  ptmoff : DWord
  fabid : BitVec 9
  funcs : AMap (Option Func)
  windows : AMap Window
  exports : AMap Export
  circuits : AMap Circuit
  forwards : List Forward
  /-- requested mode, and whether it was forced (R387, R388) -/
  pmReq : Option (BitVec 2 × Bool)
  deriving DecidableEq, Repr

/-- The role of a port of the PTP clock (R385): what the best master clock algorithm makes it. -/
inductive PtpRole where
  | master | slave | passive
  deriving DecidableEq, Repr

/-- The fabric side and the module (R385, R399, R423 to R425). -/
structure Fabric where
  /-- Daryesh links that are down -/
  linksDown : List Nat
  attestIdx : Nat
  clamp : Bool
  monitorLocked : Bool
  /-- limits that the monitor sets: the power clamp in W and the rate caps in MB/s of the host link (0) and of Daryesh
  link p (p + 1) (R423) -/
  powerLimit : Nat
  linkCaps : AMap Nat
  /-- the routing die: whether its images verified, its security version and its measurement log (R424) -/
  rboot : Option Bool
  rversion : Word
  rlog : List (BitVec 256)
  /-- the best Announce data received per link, and the device's own (R385; PRESUMED, unsafe: log entry 102) -/
  ptpBest : AMap (Option PtpData)
  ptpOwn : PtpData
  /-- the domain that the clock works in (R385; PRESUMED, unsafe: log entry 102) -/
  ptpDomain : Nat
  deriving DecidableEq, Repr

/-- A PTP message that a port sends (R385): type, domain, the timestamp that it carries, in 1/16 ns, and the data of an
Announce. -/
structure PtpSent where
  kind : PtpKind
  domain : Nat
  stamp : Option DWord
  data : Option PtpData
  deriving DecidableEq, Repr

/-- A message that leaves the device: what the outside observes. -/
inductive Msg where
  /-- MSI-X of a function, vector (R329) -/
  | msix (f : FuncNo) (vec : Byte)
  /-- a request on the host link (R240, R259, R395, R396): window and offset, the host bus address, No Snoop, what,
  scope; posted when none waits -/
  | hostReq (id : Nat) (target : Target) (bus : DWord) (ns : Bool) (kind : ReqKind) (scope : BitVec 2)
  /-- a request to a peer (R402) -/
  | fabricReq (id : Nat) (target : Target) (kind : ReqKind) (scope : BitVec 2)
  /-- the answer to a host read of a BAR (R305, R392, R434) -/
  | readValue (f : FuncNo) (v : DWord)
  /-- the answer to a host read of device memory (R241) -/
  | readData (f : FuncNo) (bytes : List Byte)
  /-- a host read whose data is poisoned (R411) -/
  | poisonedRead (f : FuncNo)
  /-- Unsupported Request to a host access (R393), or the error completion of one that no circuit carries (R379) -/
  | unsupported (f : FuncNo)
  /-- a management response (R427): status byte and data -/
  | mgmt (f : FuncNo) (status : Byte) (data : List Byte)
  /-- the answer to a remote request (R402) -/
  | peer (dev : Nat) (a : Answer)
  /-- a PTP message that a port sends (R385) -/
  | ptp (link : Nat) (m : PtpSent)
  deriving DecidableEq, Repr

/-- A thing the next steps do first (the model's own; log entry 3): an event, or an issue of one member. -/
inductive Todo where
  | event (i : Instr)
  | issue (m : Member)
  deriving DecidableEq, Repr

/-! ### The whole -/

/-- The device. -/
structure State where
  kcs : List Kc
  teams : List Team
  groups : List Group
  transfers : List Transfer
  watches : List Watch
  deques : List DequeRec
  ctxs : List Ctx
  grids : List Grid
  frames : List Frame
  written : List Written
  /-- device memory: byte at each physical address (R373), 0 where not listed (log entry 1) -/
  mem : AMap Byte
  /-- poisoned 16-byte parts of memory, by address / 16 (R411) -/
  memPoison : List Nat
  frameTab : AMap FrameEntry
  resvs : List Resv
  replicas : List Replica
  /-- frames that the device freed or reclaimed and that are being scrubbed are in the table; tlb: R343 -/
  tlb : List TlbEntry
  blockMarks : List BlockMark
  /-- halfwords of memory that stores have changed: address, old bytes, and when (R235) -/
  oldText : List (Nat × List Byte × Nat)
  requests : List Request
  tund : Tundish
  dies : List Die
  host : HostRegs
  fab : Fabric
  /-- next identifier of a kernel cluster, transfer or request (the model's own) -/
  nextId : Nat
  /-- the model's own: what the next steps do first (log entry 3) -/
  agenda : List Todo
  /-- the model's own: the issue that exec runs -/
  cur : Option Issue
  /-- the model's own: counter of free values (log entry 4) -/
  fresh : Nat
  /-- the model's own: messages sent to the outside, latest first -/
  out : List Msg
  deriving DecidableEq, Repr

/-- What the image of a saved kernel cluster holds beside its header (R338), with its grid, as a device that the image is
copied to finds it (R421). -/
structure SavedImage where
  grid : Grid
  kc : Kc
  groups : List Group
  teams : List Team
  deques : List DequeRec
  watches : List Watch
  deriving DecidableEq, Repr

/-- Why the machine stops. Every constructor is safe: it stops a run and proves nothing about the device. -/
inductive Fault where
  /-- exec was asked for an instruction with words while no member issues one (`cur` empty); no step does
  that. Raised by the meanings of instructions with words. Safe. -/
  | noIssuer
  deriving DecidableEq, Repr

/-- Why an instruction has no meaning here. -/
inductive Refusal where
  /-- An arm of exec that is not modelled yet. Safe. -/
  | notModelled (mnemonic : String)
  deriving DecidableEq, Repr

/-- A die right after reset: RESETTING, its stacks in bypass until it is ONLINE, unsynchronised (R377, R384, R413;
DEDUCED, unsafe: log entry 77),
every counter zero. -/
def Die.init : Die :=
  ⟨.resetting, true, 0, 0, false, 0, 0xFFFFFFFF, 0, 0, 0, 0, 0, 0, [], [], [], none, 0, [], [], [], [], [], false, 0, 0, 10, 0⟩

/-- A function right after reset (R308, R393): quotas zero. -/
def Func.init : Func := ⟨0, 0, 0, 0, 0, 0, [], 0, false, 0, false, false, 0, 0, 0, false, 0⟩

/-- The device right after reset: no context, no grid, empty tables, memory with nothing listed, all four
dies still to self-test and train. -/
def State.reset : State where
  kcs := []
  teams := []
  groups := []
  transfers := []
  watches := []
  deques := []
  ctxs := []
  grids := []
  frames := []
  written := []
  mem := []
  memPoison := []
  frameTab := []
  resvs := []
  replicas := []
  tlb := []
  blockMarks := []
  oldText := []
  requests := []
  tund := ⟨[], [], [], [], [], [], [], 1⟩
  dies := [Die.init, Die.init, Die.init, Die.init]
  host := ⟨0, 0, 0, false, 0, 0, [], [], [], [], [], none⟩
  fab := ⟨[], 0, false, false, 3200, [], none, 0, [], [], ⟨128, 248, 0xFE, 0xFFFF, 128, 0, 0, 0⟩, 0⟩
  nextId := 1
  agenda := []
  cur := none
  fresh := 0
  out := []

end Sys2Proof.Machine
end

