-- ==== Sys2Proof/Config.lean ====
section
/-! DEFINITION. What the spec leaves open, as constants with no body: nothing in Lean can evaluate one
or prove a value of it, so a claim about the machine holds for every value. Each is named in the
assumption log. -/

namespace Sys2Proof.Config

/-- A free choice between two values the spec allows: the old or the new value of a window read
(R90), a cached or a walked translation (R344), the bound of TERR after TIMESRC changes (R383, R384; log entry 29).
The first argument is the step's counter, the second tells the choices of one step apart. DESIGN CHOICE, safe: log entry 4. -/
opaque freeBit : Nat → Nat → Bool

/-- A free choice among several outcomes the spec allows, taken modulo their number (R153, R314). DESIGN CHOICE, safe: log entry 4. -/
opaque freeNat : Nat → Nat → Nat

/-- How far a time or clock count has moved since it was last observed (R3, R382). DESIGN CHOICE, safe: log entry 4. -/
opaque freeTick : Nat → Nat

/-- Which of the values within the accuracy bound of R130 an FX function returns: a fixed function of
the function code and the operand (R13, R130). DESIGN CHOICE, safe: log entry 4. -/
opaque fxChoice : Nat → Word → Nat

/-- The device's signature over a report (R425): a function of the key index and the report. DESIGN CHOICE, safe: log entry 4. -/
opaque attestSignature : Nat → List Byte → List Byte

/-- SHAKE256 of a firmware chunk list (R424), as far as the device uses it. DESIGN CHOICE, safe: log entry 4. -/
opaque imageDigest : List Byte → BitVec 256

/-- Whether a staged image's XMSS signature verifies (R424). DESIGN CHOICE, safe: log entry 4. -/
opaque imageVerifies : List Byte → Bool

/-- The fused security version a staged image carries (R424). DESIGN CHOICE, safe: log entry 4. -/
opaque imageVersion : List Byte → Word

/-- The VF whose plug-in a staged image is, if it is one (R422, R424). DESIGN CHOICE, safe: log entry 4. -/
opaque imagePlugin : List Byte → Option FuncNo

/-- Whether a signed staged image is the monitor, and not the scheduler (R422, R424). DESIGN CHOICE, safe: log entry 4. -/
opaque imageMonitor : List Byte → Bool

/-- The fused bound of a die's current clamp (R423). DESIGN CHOICE, safe: log entry 4. -/
opaque fusedCurrent : Nat → Nat

/-- The value a load that fetched a poisoned or unanswered part would have carried; never delivered. DESIGN CHOICE, safe: log entry 4. -/
opaque freeWord : Nat → Nat → Word

/-- The plane of a request to a device and one of its 64 KiB pages: a fixed function (R399). DESIGN CHOICE, safe: log entry 4. -/
opaque planeOf : Nat → Nat → Nat

/-- The kernel cluster that the bytes of a save slot hold, in the layout of R338 that the spec does not give; none where
they are no image. DESIGN CHOICE, safe: log entry 100. -/
opaque imageOf : List Byte → Option Machine.SavedImage

end Sys2Proof.Config
end

