-- ==== Sys2Proof/Machine/Bits.lean ====
section
/-! DEFINITION. Bit fields, sign extension, byte order, lane masks and index ranges, as every meaning
uses them. Little-endian everywhere (R10). -/

namespace Sys2Proof.Machine

/-- Bits [hi:lo] of a value, as a number. -/
def bitsOf {n : Nat} (w : BitVec n) (hi lo : Nat) : Nat := w.toNat / 2 ^ lo % 2 ^ (hi + 1 - lo)

/-- One bit of a value. -/
def bitOf {n : Nat} (w : BitVec n) (i : Nat) : Bool := w.getLsbD i

/-- Sign extension of the low n bits of a number. -/
def sextNat (n v : Nat) : Int := if v % 2 ^ n < 2 ^ (n - 1) then (v % 2 ^ n : Int) else (v % 2 ^ n : Int) - 2 ^ n

/-- The low half of a 64-bit value. -/
def loWord (d : DWord) : Word := d.setWidth 32
/-- The high half of a 64-bit value. -/
def hiWord (d : DWord) : Word := BitVec.ofNat 32 (d.toNat / 2 ^ 32)
/-- A pair v[2n:2n+1]: the low word is in the even register (R10, R16). -/
def joinWords (lo hi : Word) : DWord := BitVec.ofNat 64 (lo.toNat + 2 ^ 32 * hi.toNat)

/-- Little-endian bytes to a number. -/
def bytesToNat : List Byte → Nat
  | [] => 0
  | b :: rest => b.toNat + 256 * bytesToNat rest

/-- n little-endian bytes of a number. -/
def natToBytes : Nat → Nat → List Byte
  | 0, _ => []
  | n + 1, v => BitVec.ofNat 8 v :: natToBytes n (v / 256)

/-- The addresses base, base + 1, …, base + n − 1. -/
def addrsFrom (base n : Nat) : List Nat := (List.range n).map fun i => base + i

/-- Writes bytes at rising addresses of a byte map. -/
def putBytes (m : AMap Byte) (base : Nat) : List Byte → AMap Byte
  | [] => m
  | b :: rest => putBytes (amSet 0 m base b) (base + 1) rest

/-- Reads n bytes of a byte map. -/
def getBytes (m : AMap Byte) (base n : Nat) : List Byte := (addrsFrom base n).map (amGet 0 m)

/-- Little-endian read of n bytes as a number. -/
def getNat (m : AMap Byte) (base n : Nat) : Nat := bytesToNat (getBytes m base n)

/-- Little-endian write of n bytes. -/
def putNat (m : AMap Byte) (base n v : Nat) : AMap Byte := putBytes m base (natToBytes n v)

/-- The lanes 0 to w − 1. -/
def lanesUpTo (w : Nat) : List Nat := List.range w

/-- The lanes of a mask among the first w, in ascending order. -/
def lanesOf (w : Nat) (m : LaneMask) : List Nat := (List.range w).filter fun i => m.getLsbD i

/-- The mask of all lanes of a group of width w. -/
def fullMask (w : Nat) : LaneMask := BitVec.ofNat 64 (2 ^ w - 1)

/-- The mask with one lane. -/
def laneBit (i : Nat) : LaneMask := BitVec.ofNat 64 (2 ^ i)

/-- The mask of a list of lanes. -/
def maskOf (ls : List Nat) : LaneMask := ls.foldl (fun m i => m ||| laneBit i) 0

/-- Whether two byte ranges [a, a + n) and [b, b + m) share a byte. -/
def rangesMeet (a n b m : Nat) : Bool := decide (a < b + m) && decide (b < a + n) && decide (0 < n) && decide (0 < m)

/-- Rounds up to a multiple of k. -/
def roundUp (n k : Nat) : Nat := (n + k - 1) / k * k

/-- Bounds an integer to lo..hi. -/
def clampInt (lo hi v : Int) : Int := if v < lo then lo else if hi < v then hi else v

/-- Replaces the i-th entry of a list, if there is one. -/
def setAt {α : Type} (l : List α) (i : Nat) (x : α) : List α := l.set i x

/-- Inserts into a list kept in ascending order of a key, behind equal keys. -/
def insertBy {α : Type} (key : α → Nat) (x : α) : List α → List α
  | [] => [x]
  | y :: ys => if key x < key y then x :: y :: ys else y :: insertBy key x ys

/-- Stable insertion sort by a key. -/
def sortBy {α : Type} (key : α → Nat) : List α → List α
  | [] => []
  | x :: xs => (match sortBy key xs with
    | ys => insertFirst key x ys)
where
  /-- Inserts before entries with an equal or larger key, so that an earlier entry stays earlier. -/
  insertFirst (key : α → Nat) (x : α) : List α → List α
    | [] => [x]
    | y :: ys => if key x ≤ key y then x :: y :: ys else y :: insertFirst key x ys

/-- Removes repeats, keeping the first of each. -/
def dedup {α : Type} [DecidableEq α] : List α → List α
  | [] => []
  | x :: xs => x :: (dedup xs).filter fun y => decide (y ≠ x)

end Sys2Proof.Machine
end

