-- ==== Sys2Proof/Machine/Flags.lean ====
section
/-! DEFINITION. The six sticky flags of LSTAT (R33, R58) and the flag computations of integer
arithmetic; the floating ones come with each operation in Float.lean. -/

namespace Sys2Proof.Machine

def flagNone : Flags6 := 0
/-- Invalid operation, LSTAT bit 0. -/
def flagNV : Flags6 := 0x01
/-- Division by zero, bit 1. -/
def flagDZ : Flags6 := 0x02
/-- Overflow, bit 2. -/
def flagOF : Flags6 := 0x04
/-- Underflow, bit 3. -/
def flagUF : Flags6 := 0x08
/-- Inexact, bit 4. -/
def flagNX : Flags6 := 0x10
/-- Integer or conversion saturation, bit 5. -/
def flagSAT : Flags6 := 0x20

/-- The flag f when c holds. -/
def flagIf (c : Bool) (f : Flags6) : Flags6 := if c then f else 0

/-- A result clamped to the signed n-bit range, with SAT when it was clamped (R38). -/
def satSigned (n : Nat) (v : Int) : Nat × Flags6 :=
  let c := clampInt (-(2 ^ (n - 1))) (2 ^ (n - 1) - 1) v
  ((BitVec.ofInt n c).toNat, flagIf (decide (c ≠ v)) flagSAT)

/-- The flag word of a C tile: NV, OF, UF, NX, SAT in bits 0 to 4 (R155). -/
def tileFlagsOf (f : Flags6) : BitVec 5 :=
  BitVec.ofBool (f.getLsbD 5) ++ BitVec.ofBool (f.getLsbD 4) ++ BitVec.ofBool (f.getLsbD 3) ++
    BitVec.ofBool (f.getLsbD 2) ++ BitVec.ofBool (f.getLsbD 0)

/-- The LSTAT flags that a tile's flag word stands for (R161). -/
def flagsOfTile (t : BitVec 5) : Flags6 :=
  flagIf (t.getLsbD 0) flagNV ||| flagIf (t.getLsbD 1) flagOF ||| flagIf (t.getLsbD 2) flagUF |||
    flagIf (t.getLsbD 3) flagNX ||| flagIf (t.getLsbD 4) flagSAT

end Sys2Proof.Machine
end

