-- ==== Sys2Proof/Machine/Float.lean ====
section
/-! DEFINITION. The floating formats, rounding, special values and flags of "Number Formats, Rounding
and Flags" (R40–R64). Every operation forms the exact value (−1)^s × m × 2^e and rounds it once. -/

namespace Sys2Proof.Machine

/-- A floating format (R40). noInf marks e4m3: no infinity, one NaN magnitude 0x7F. -/
structure FloatFmt where
  ebits : Nat
  mbits : Nat
  bias : Nat
  noInf : Bool
  /-- NaNs with a clear fraction MSB are signalling (R43) -/
  hasSnan : Bool
  /-- the canonical NaN (R43) -/
  nanCode : Nat
  deriving DecidableEq, Repr

def fmtF64 : FloatFmt := ⟨11, 52, 1023, false, true, 0x7FF8000000000000⟩
def fmtF32 : FloatFmt := ⟨8, 23, 127, false, true, 0x7FC00000⟩
def fmtF16 : FloatFmt := ⟨5, 10, 15, false, true, 0x7E00⟩
def fmtBf16 : FloatFmt := ⟨8, 7, 127, false, true, 0x7FC0⟩
def fmtE4m3 : FloatFmt := ⟨4, 3, 7, true, false, 0x7F⟩
def fmtE5m2 : FloatFmt := ⟨5, 2, 15, false, false, 0x7E⟩

/-- The bit position of the sign. -/
def fmtSignPos (f : FloatFmt) : Nat := f.ebits + f.mbits
/-- The exponent of the smallest normal, 1 − bias. -/
def fmtEmin (f : FloatFmt) : Int := 1 - (f.bias : Int)
/-- The exponent of the smallest subnormal: every finite value is a multiple of 2 to this power. -/
def fmtQmin (f : FloatFmt) : Int := fmtEmin f - f.mbits
/-- The significand of the largest finite value, as an integer of mbits + 1 bits. -/
def fmtMaxMant (f : FloatFmt) : Nat := if f.noInf then 2 ^ (f.mbits + 1) - 2 else 2 ^ (f.mbits + 1) - 1
/-- The exponent of that significand's unit. -/
def fmtMaxQ (f : FloatFmt) : Int := (if f.noInf then (f.bias : Int) + 1 else (f.bias : Int)) - f.mbits
/-- The code of the largest finite magnitude. -/
def fmtMaxCode (f : FloatFmt) : Nat := if f.noInf then 2 ^ (f.ebits + f.mbits) - 2 else (2 ^ f.ebits - 1) * 2 ^ f.mbits - 1
/-- The code of infinity, for formats that have one. -/
def fmtInfCode (f : FloatFmt) : Nat := (2 ^ f.ebits - 1) * 2 ^ f.mbits
/-- The sign bit in place. -/
def fmtSign (f : FloatFmt) (neg : Bool) : Nat := if neg then 2 ^ fmtSignPos f else 0

/-- An operand taken apart: a NaN (signalling or not), an infinity, or (−1)^neg × mant × 2^exp. -/
inductive FVal where
  | nan (signalling : Bool)
  | inf (neg : Bool)
  | fin (neg : Bool) (mant : Nat) (exp : Int)
  deriving DecidableEq, Repr

/-- R40, R41: the value of a code. -/
def fUnpack (f : FloatFmt) (w : Nat) : FVal :=
  let neg := decide (w / 2 ^ fmtSignPos f % 2 = 1)
  let e := w / 2 ^ f.mbits % 2 ^ f.ebits
  let m := w % 2 ^ f.mbits
  if f.noInf && decide (e = 2 ^ f.ebits - 1) && decide (m = 2 ^ f.mbits - 1) then .nan false
  else if !f.noInf && decide (e = 2 ^ f.ebits - 1) then
    if m = 0 then .inf neg else .nan (f.hasSnan && decide (m < 2 ^ (f.mbits - 1)))
  else if e = 0 then .fin neg m (fmtQmin f)
  else .fin neg (2 ^ f.mbits + m) (fmtQmin f + (e : Int) - 1)

def fIsNan : FVal → Bool
  | .nan _ => true
  | _ => false

def fIsSnan : FVal → Bool
  | .nan s => s
  | _ => false

/-- Floor of log2 of a positive number, by its bits. -/
def floorLog2 (n : Nat) : Nat := Nat.log2 n

/-- The rounding modes of R46. -/
inductive Rnd where
  | rne | rz | rdn | rup
  deriving DecidableEq, Repr

def rndOf (c : BitVec 2) : Rnd :=
  match c.toNat with
  | 0 => .rne | 1 => .rz | 2 => .rdn | _ => .rup

/-- Whether a magnitude with integer part n and a fraction rounds away from zero: frac is the remainder
in units of 2^−shift. -/
def roundsUp (r : Rnd) (neg : Bool) (n frac shift : Nat) : Bool :=
  match r with
  | .rne => decide (2 ^ shift < 2 * frac) || (decide (2 * frac = 2 ^ shift) && decide (n % 2 = 1))
  | .rz => false
  | .rdn => neg && decide (frac ≠ 0)
  | .rup => !neg && decide (frac ≠ 0)

/-- m × 2^e rounded to a multiple of 2^q: the multiple, and whether it is inexact. -/
def roundToUnit (r : Rnd) (neg : Bool) (m : Nat) (e q : Int) : Nat × Bool :=
  if q ≤ e then (m * 2 ^ (e - q).toNat, false)
  else
    let sh := (q - e).toNat
    let n := m / 2 ^ sh
    let frac := m % 2 ^ sh
    (if roundsUp r neg n frac sh then n + 1 else n, decide (frac ≠ 0))

/-- The result of an overflow (R47, R50). -/
def overflowCode (f : FloatFmt) (r : Rnd) (sat neg : Bool) : Nat × Flags6 :=
  if sat then (fmtSign f neg + fmtMaxCode f, flagSAT ||| flagNX)
  else
    let toInf := match r with
      | .rne => true | .rz => false | .rdn => neg | .rup => !neg
    if toInf then
      (if f.noInf then f.nanCode else fmtSign f neg + fmtInfCode f, flagOF ||| flagNX)
    else (fmtSign f neg + fmtMaxCode f, flagOF ||| flagNX)

/-- One rounding of the exact value (−1)^neg × m × 2^e into a format (R46–R48, R50). It overflows when the value, rounded
under the mode with unbounded exponent range, is above the largest finite value (R47).
DEDUCED, unsafe: log entry 94. -/
def roundTo (f : FloatFmt) (r : Rnd) (sat neg : Bool) (m : Nat) (e : Int) : Nat × Flags6 :=
  if m = 0 then (fmtSign f neg, 0)
  else
    let top := e + floorLog2 m
    let qn := top - f.mbits
    let q := if qn < fmtQmin f then fmtQmin f else qn
    let (n, inexact) := roundToUnit r neg m e q
    if fmtMaxQ f < q || (decide (q = fmtMaxQ f) && decide (fmtMaxMant f < n)) then overflowCode f r sat neg
    else
      let (nu, _) := roundToUnit r neg m e qn
      let tiny := decide (top < fmtEmin f) && !(decide (top + 1 = fmtEmin f) && decide (nu = 2 ^ (f.mbits + 1)))
      (fmtSign f neg + (q - fmtQmin f).toNat * 2 ^ f.mbits + n,
        flagIf inexact flagNX ||| flagIf (inexact && tiny) flagUF)

/-- A finite value as a signed integer in units of 2^q, for q at most its exponent. -/
def scaledInt (neg : Bool) (m : Nat) (e q : Int) : Int :=
  let v : Int := m * 2 ^ (e - q).toNat
  if neg then -v else v

/-- NV when any operand is a signalling NaN (R44). -/
def snanFlag (vs : List FVal) : Flags6 := flagIf (vs.any fIsSnan) flagNV

/-- The exact sum of two finite values, rounded rne; a zero sum is +0 unless both are −0 (R42). -/
def addFin (f : FloatFmt) (n1 : Bool) (m1 : Nat) (e1 : Int) (n2 : Bool) (m2 : Nat) (e2 : Int) : Nat × Flags6 :=
  let q := if e1 < e2 then e1 else e2
  let s := scaledInt n1 m1 e1 q + scaledInt n2 m2 e2 q
  if s = 0 then (fmtSign f (decide (m1 = 0) && decide (m2 = 0) && n1 && n2), 0)
  else roundTo f .rne false (decide (s < 0)) s.natAbs q

/-- a + b (R126). -/
def fAdd (f : FloatFmt) (a b : Nat) : Nat × Flags6 :=
  match fUnpack f a, fUnpack f b with
  | .fin n1 m1 e1, .fin n2 m2 e2 => addFin f n1 m1 e1 n2 m2 e2
  | .inf n1, .inf n2 => if n1 = n2 then (fmtSign f n1 + fmtInfCode f, 0) else (f.nanCode, flagNV)
  | .inf n, .fin .. => (fmtSign f n + fmtInfCode f, 0)
  | .fin .., .inf n => (fmtSign f n + fmtInfCode f, 0)
  | x, y => (f.nanCode, snanFlag [x, y])

/-- A code with its sign inverted. -/
def fNeg (f : FloatFmt) (a : Nat) : Nat :=
  if a / 2 ^ fmtSignPos f % 2 = 1 then a - 2 ^ fmtSignPos f else a + 2 ^ fmtSignPos f

/-- a − b. -/
def fSub (f : FloatFmt) (a b : Nat) : Nat × Flags6 := fAdd f a (fNeg f b)

/-- a × b. -/
def fMul (f : FloatFmt) (a b : Nat) : Nat × Flags6 :=
  match fUnpack f a, fUnpack f b with
  | .fin n1 m1 e1, .fin n2 m2 e2 => roundTo f .rne false (n1 != n2) (m1 * m2) (e1 + e2)
  | .inf n1, .inf n2 => (fmtSign f (n1 != n2) + fmtInfCode f, 0)
  | .inf n1, .fin n2 m2 _ => if m2 = 0 then (f.nanCode, flagNV) else (fmtSign f (n1 != n2) + fmtInfCode f, 0)
  | .fin n1 m1 _, .inf n2 => if m1 = 0 then (f.nanCode, flagNV) else (fmtSign f (n1 != n2) + fmtInfCode f, 0)
  | x, y => (f.nanCode, snanFlag [x, y])

/-- The exact product, as a value: none where it is 0 × ∞ (R58). -/
def exactProd : FVal → FVal → Option FVal
  | .fin n1 m1 e1, .fin n2 m2 e2 => some (.fin (n1 != n2) (m1 * m2) (e1 + e2))
  | .inf n1, .inf n2 => some (.inf (n1 != n2))
  | .inf n1, .fin n2 m2 _ => if m2 = 0 then none else some (.inf (n1 != n2))
  | .fin n1 m1 _, .inf n2 => if m1 = 0 then none else some (.inf (n1 != n2))
  | x, y => some (.nan (fIsSnan x || fIsSnan y))

/-- ±(a × b) + d with one rounding (R126); negP negates the product (`fnma`). -/
def fFma (f : FloatFmt) (negP : Bool) (a b d : Nat) : Nat × Flags6 :=
  let x := fUnpack f a
  let y := fUnpack f b
  let z := fUnpack f d
  match exactProd x y with
  | none => (f.nanCode, flagNV)
  | some p =>
    match p, z with
    | .fin n1 m1 e1, .fin n2 m2 e2 => addFin f (n1 != negP) m1 e1 n2 m2 e2
    | .inf n1, .inf n2 =>
      if (n1 != negP) = n2 then (fmtSign f n2 + fmtInfCode f, 0) else (f.nanCode, flagNV)
    | .inf n, .fin .. => (fmtSign f (n != negP) + fmtInfCode f, 0)
    | .fin .., .inf n => (fmtSign f n + fmtInfCode f, 0)
    | _, _ => (f.nanCode, snanFlag [x, y, z])

/-- The order of two non-NaN values with −0 below +0 when strict zeros count (R45): a < b. -/
def fLess (zeros : Bool) : FVal → FVal → Bool
  | .inf n1, .inf n2 => n1 && !n2
  | .inf n1, .fin .. => n1
  | .fin .., .inf n2 => !n2
  | .fin n1 m1 e1, .fin n2 m2 e2 =>
    if m1 = 0 && m2 = 0 then zeros && n1 && !n2
    else
      let q := if e1 < e2 then e1 else e2
      decide (scaledInt n1 m1 e1 q < scaledInt n2 m2 e2 q)
  | _, _ => false

/-- Minimum or maximum under R45. -/
def fMinMax (f : FloatFmt) (isMax : Bool) (a b : Nat) : Nat × Flags6 :=
  let x := fUnpack f a
  let y := fUnpack f b
  let fl := snanFlag [x, y]
  if fIsNan x && fIsNan y then (f.nanCode, fl)
  else if fIsNan x then (b, fl)
  else if fIsNan y then (a, fl)
  else if isMax then (if fLess true x y then b else a, fl)
  else (if fLess true y x then b else a, fl)

/-- The conditions of FCMP (R123), by their code: the result and the flags. -/
def fCompare (f : FloatFmt) (cond : Nat) (a b : Nat) : Bool × Flags6 :=
  let x := fUnpack f a
  let y := fUnpack f b
  let un := fIsNan x || fIsNan y
  let quiet := snanFlag [x, y]
  let anyNan := flagIf un flagNV
  let lt := fLess false x y
  let gt := fLess false y x
  let eq := !un && !lt && !gt
  match cond with
  | 0 => (eq, quiet)
  | 1 => (!eq, quiet)
  | 2 => (!un && lt, anyNan)
  | 3 => (!un && (lt || eq), anyNan)
  | 4 => (!un && gt, anyNan)
  | 5 => (!un && (gt || eq), anyNan)
  | 6 => (un, quiet)
  | _ => (!un, quiet)

/-- a with the sign bit of b (R126). -/
def fCopysign (f : FloatFmt) (a b : Nat) : Nat :=
  a % 2 ^ fmtSignPos f + fmtSign f (decide (b / 2 ^ fmtSignPos f % 2 = 1))

/-! ### Conversions (R49–R51) -/

/-- Between floating formats: exact widening and rounded narrowing alike. -/
def cvtFloat (src dst : FloatFmt) (r : Rnd) (sat : Bool) (a : Nat) : Nat × Flags6 :=
  match fUnpack src a with
  | .nan s => (dst.nanCode, flagIf s flagNV)
  | .inf neg =>
    if dst.noInf then
      if sat then (fmtSign dst neg + fmtMaxCode dst, flagSAT ||| flagNX) else (dst.nanCode, flagNV)
    else (fmtSign dst neg + fmtInfCode dst, 0)
  | .fin neg m e => roundTo dst r sat neg m e

/-- An integer to f32. -/
def cvtFromInt (r : Rnd) (v : Int) : Nat × Flags6 :=
  roundTo fmtF32 r false (decide (v < 0)) v.natAbs 0

/-- A floating value to an integer range lo..hi, rounded and then clamped (R51). -/
def cvtToInt (lo hi : Int) (r : Rnd) (v : FVal) : Int × Flags6 :=
  match v with
  | .nan _ => (0, flagNV)
  | .inf neg => (if neg then lo else hi, flagSAT ||| flagNX)
  | .fin neg m e =>
    let (n, inexact) := roundToUnit r neg m e 0
    let v : Int := if neg then -(n : Int) else n
    let c := clampInt lo hi v
    if c ≠ v then (c, flagSAT ||| flagNX) else (c, flagIf inexact flagNX)

/-! ### L6 (R52–R57) -/

/-- t[f] of R53. -/
def l6Table (f : Nat) : Nat :=
  match f with
  | 0 => 2048 | 1 => 2435 | 2 => 2896 | _ => 3444

/-- The table value of logarithm q as (m, e): m × 2^e (R53). -/
def l6Tval (q : Int) : Nat × Int := (l6Table (q % 4).toNat, q / 4 - 11)

/-- A code: NaR, zero, or sign and logarithm (R52). -/
inductive L6Val where
  | nar
  | zero
  | real (neg : Bool) (l : Int)
  deriving DecidableEq, Repr

def l6Unpack (w : Nat) : L6Val :=
  let l := sextNat 5 w
  let s := decide (w / 32 % 2 = 1)
  if l = -16 then (if s then .nar else .zero) else .real s l

/-- The product of two codes in units of 2^−19 (R54); none for NaR. -/
def l6Prod (a b : Nat) : Option Int :=
  match l6Unpack a, l6Unpack b with
  | .nar, _ => none
  | _, .nar => none
  | .zero, _ => some 0
  | _, .zero => some 0
  | .real s1 l1, .real s2 l2 =>
    let (m, e) := l6Tval (l1 + l2)
    let v : Int := m * 2 ^ (e + 19).toNat
    some (if s1 != s2 then -v else v)

/-- l6 to f32, exact (R56). -/
def cvtL6ToF32 (w : Nat) : Nat × Flags6 :=
  match l6Unpack w with
  | .nar => (fmtF32.nanCode, 0)
  | .zero => (0, 0)
  | .real s l => roundTo fmtF32 .rne false s (l6Tval l).1 (l6Tval l).2

/-- Compares m × 2^e with n × 2^−16. -/
def cmpUnit16 (m : Nat) (e : Int) (n : Nat) : Ordering :=
  if 0 ≤ e + 16 then compare (m * 2 ^ (e + 16).toNat) n
  else compare m (n * 2 ^ (-(e + 16)).toNat)

/-- The magnitude of logarithm l in units of 2^−16, with 0 for −16. -/
def l6Units (l : Int) : Nat := if l = -16 then 0 else (l6Tval l).1 * 2 ^ ((l6Tval l).2 + 16).toNat

/-- The logarithm nearest to m × 2^e, ties to the even one (R57): climbs from −16 while the value lies
above the midpoint. -/
def l6Nearest (m : Nat) (e : Int) : Nat → Int → Int
  | 0, l => l
  | n + 1, l =>
    let mid := (l6Units l + l6Units (l + 1)) / 2
    match cmpUnit16 m e mid with
    | .gt => l6Nearest m e n (l + 1)
    | .eq => if l % 2 = 0 then l else l + 1
    | .lt => l

/-- The code of a sign and a logarithm. -/
def l6Code (neg : Bool) (l : Int) : Nat := (if neg then 32 else 0) + (l % 32).toNat

/-- An exact value (of any floating source) to l6 (R57). -/
def cvtValToL6 (v : FVal) : Nat × Flags6 :=
  match v with
  | .nan s => (0x30, flagIf s flagNV)
  | .inf neg => (l6Code neg 15, flagSAT ||| flagNX)
  | .fin neg m e =>
    if m = 0 then (0x10, 0)
    else if cmpUnit16 m e (l6Units 15) = .gt then (l6Code neg 15, flagSAT ||| flagNX)
    else
      let l := l6Nearest m e 31 (-16)
      if l = -16 then (0x10, flagUF ||| flagNX)
      else (l6Code neg l, flagIf (decide (cmpUnit16 m e (l6Units l) ≠ .eq)) flagNX)

/-! ### Crucible passes (R60, R61) -/

/-- Truncation toward zero of a finite value to a multiple of 2^q, in those units, and whether a
nonzero bit was discarded. -/
def truncToUnit (neg : Bool) (m : Nat) (e q : Int) : Int × Bool :=
  if q ≤ e then (scaledInt neg m e q, false)
  else
    let sh := (q - e).toNat
    let n : Int := (m / 2 ^ sh : Nat)
    (if neg then -n else n, decide (m % 2 ^ sh ≠ 0))

/-- The largest exponent floor(log2 |t|) among nonzero finite terms. -/
def maxTop : List FVal → Option Int
  | [] => none
  | .fin _ m e :: rest =>
    if m = 0 then maxTop rest
    else
      let t := e + floorLog2 m
      match maxTop rest with
      | none => some t
      | some u => some (if t < u then u else t)
  | _ :: rest => maxTop rest

/-- The windowed sum of R60: the sum in units of 2^q, and whether a truncation discarded a bit. -/
def windowSum (q : Int) : List FVal → Int × Bool
  | [] => (0, false)
  | .fin neg m e :: rest =>
    let (s, t) := windowSum q rest
    let (v, d) := truncToUnit neg m e q
    (s + v, t || d)
  | _ :: rest => windowSum q rest

/-- The pass of R60 over the terms c and the exact products (none: a product inf × 0, or a NaR). As in R60's computation
a NaN term sets NV, a quiet one too.
DEDUCED, unsafe: log entry 93. -/
def passF32 (terms : List (Option FVal)) : Nat × Flags6 :=
  let vs := terms.filterMap id
  let pInf := vs.any fun v => decide (v = .inf false)
  let nInf := vs.any fun v => decide (v = .inf true)
  if terms.any (fun t => decide (t = none)) || vs.any fIsNan || (pInf && nInf) then (fmtF32.nanCode, flagNV)
  else if pInf then (fmtInfCode fmtF32, 0)
  else if nInf then (fmtSign fmtF32 true + fmtInfCode fmtF32, 0)
  else
    match maxTop vs with
    | none => (0, 0)
    | some emax =>
      let q := emax - 63
      let (s, cut) := windowSum q vs
      if s = 0 then (0, flagIf cut flagNX)
      else
        let m := s.natAbs
        let (out, fl) := roundTo fmtF32 .rne false (decide (s < 0)) m q
        let top := q + floorLog2 m
        let (nu, _) := roundToUnit .rne false m q (top - fmtF32.mbits)
        let tiny := decide (top < fmtEmin fmtF32) &&
          !(decide (top + 1 = fmtEmin fmtF32) && decide (nu = 2 ^ (fmtF32.mbits + 1)))
        let nx := cut || fl.getLsbD 4
        (out, flagIf nx flagNX ||| flagIf (fl.getLsbD 2) flagOF ||| flagIf (nx && tiny) flagUF)

/-- The s8 pass of R61: the exact sum clamped into s32. -/
def passS32 (c : Int) (prods : List Int) : Nat × Flags6 := satSigned 32 (c + prods.foldl (· + ·) 0)

/-! ### Sums of several parts -/

/-- The operation of an atomic, a reduction or a sprue register that combines two values. -/
def addWrap (n : Nat) (a b : Nat) : Nat := (a + b) % 2 ^ n
/-- Signed minimum or maximum of n-bit values. -/
def sMinMax (n : Nat) (isMax : Bool) (a b : Nat) : Nat :=
  if (decide (sextNat n a < sextNat n b)) != isMax then a else b

/-- One level of the tree of R62 over an indexed list: position i combines with i + step. -/
def treeLevel {α : Type} (comb : α → α → α) (step : Nat) (vs : List (Option α)) : List (Option α) :=
  (List.range vs.length).map fun i =>
    if i % (2 * step) = 0 then
      match (vs[i]?).join, (vs[i + step]?).join with
      | some u, some w => some (comb u w)
      | some u, none => some u
      | none, some w => some w
      | none, none => none
    else (vs[i]?).join

/-- The reduction tree of R62 over a width of 2^k lanes: none when no lane is active. -/
def treeReduce {α : Type} (comb : α → α → α) : Nat → Nat → List (Option α) → Option α
  | 0, _, vs => (vs[0]?).join
  | k + 1, step, vs => treeReduce comb k (2 * step) (treeLevel comb step vs)

end Sys2Proof.Machine
end

