-- ==== Sys2Proof/Machine/Ops.lean ====
section
/-! DEFINITION. The named operations over members, registers, sprue registers and barriers, the retiring of
an instruction, and taking a trap: one operation for all causes, with the return from one beside it. -/

namespace Sys2Proof.Machine

/-- The lane masks and lists of a group's own lanes. -/
abbrev Lanes := List Nat

/-! ### Finding and changing the parts of the state -/

/-- A spine at placement (R15, R36). -/
def spineInit (pc : VAddr) : Spine := ⟨[], 0, pc, 0, none, 0, none, none, none, none, false, [], false, 0⟩

/-- No kernel cluster: what a lookup of an absent one gives. -/
def kcNone : Kc :=
  ⟨0, 0, 0, 0, 0, 0, 0, 1, 1, 0, 0, none, .ended, none, [], { spineInit 0 with ended := true }⟩

/-- Group registers at placement: zero, one entry at pc with every lane (R15, R36, R169). -/
def regsInit (pc : VAddr) (width : Nat) : GroupRegs :=
  ⟨[], [], [], [], [⟨pc, 0, fullMask width, none⟩], 0, 0, 0, 0⟩

/-- A group at placement (R36, R169). -/
def groupInit (kc core idx : Nat) (kind : BitVec 2) (width budget : Nat) (pc : VAddr) : Group :=
  ⟨kc, core, idx, kind, width, budget, 0, 0, [], regsInit pc width, 0, 4096, none, [], none, none, none, none, none, [],
    none, false, [], false, 0, 0, []⟩

/-- No group: what a lookup of an absent one gives. -/
def groupNone : Group := { groupInit 0 0 0 0 8 8 0 with ended := true }

/-- No team: what a lookup of an absent one gives. -/
def teamNone : Team := ⟨0, 0, 0, 0, 0, [], [], [], [], [], 0xFFFF, [], [], [], []⟩

/-- No context: what a lookup of an absent one gives. -/
def ctxNone : Ctx := ⟨0, 0, 0, 0, 0, 0, 0, false, 0, 0, 0, 0, 0, 0, 0, [], [], [], [], [], [], 0, false, [], 0, []⟩

def kcOf (s : State) (id : Nat) : Kc := (s.kcs.find? fun k => k.id = id).getD kcNone
def groupOf (s : State) (kc core idx : Nat) : Group :=
  (s.groups.find? fun g => g.kc = kc ∧ g.core = core ∧ g.idx = idx).getD groupNone
def teamOf (s : State) (kc core : Nat) : Team := (s.teams.find? fun t => t.kc = kc ∧ t.core = core).getD teamNone
def ctxOf? (s : State) (a : Asid) : Option Ctx := s.ctxs.find? fun c => c.asid = a
def ctxOf (s : State) (a : Asid) : Ctx := (ctxOf? s a).getD ctxNone
def gridOf? (s : State) (g : Word) : Option Grid := s.grids.find? fun x => x.id = g
def dieOf (s : State) (d : DieNo) : Die := (s.dies[d.toNat]?).getD Die.init

def updKc (s : State) (id : Nat) (f : Kc → Kc) : State :=
  { s with kcs := s.kcs.map fun k => if k.id = id then f k else k }
def updGroup (s : State) (kc core idx : Nat) (f : Group → Group) : State :=
  { s with groups := s.groups.map fun g => if g.kc = kc ∧ g.core = core ∧ g.idx = idx then f g else g }
def updTeam (s : State) (kc core : Nat) (f : Team → Team) : State :=
  { s with teams := s.teams.map fun t => if t.kc = kc ∧ t.core = core then f t else t }
def updCtx (s : State) (a : Asid) (f : Ctx → Ctx) : State :=
  { s with ctxs := s.ctxs.map fun c => if c.asid = a then f c else c }
def updGrid (s : State) (g : Word) (f : Grid → Grid) : State :=
  { s with grids := s.grids.map fun x => if x.id = g then f x else x }
def updDie (s : State) (d : DieNo) (f : Die → Die) : State :=
  { s with dies := s.dies.modify d.toNat f }
def updSpine (s : State) (kc : Nat) (f : Spine → Spine) : State :=
  updKc s kc fun k => { k with spine := f k.spine }

/-- The kernel cluster of a member. -/
def memberKc : Member → Nat
  | .spine kc => kc
  | .group kc _ _ => kc

/-- Whether a member is a spine thread. -/
def isSpine : Member → Bool
  | .spine _ => true
  | .group .. => false

/-- The group of a member; no group for a spine. -/
def memberGroup (s : State) : Member → Group
  | .spine _ => groupNone
  | .group kc core idx => groupOf s kc core idx

def updMember (s : State) (m : Member) (f : Group → Group) : State :=
  match m with
  | .spine _ => s
  | .group kc core idx => updGroup s kc core idx f

/-- The team of a member; no team for a spine. -/
def memberTeam (s : State) : Member → Team
  | .spine _ => teamNone
  | .group kc core _ => teamOf s kc core

/-- The core index of a member; 0 for a spine. -/
def memberCore : Member → Nat
  | .spine _ => 0
  | .group _ core _ => core

def memberAsid (s : State) (m : Member) : Asid := (kcOf s (memberKc m)).asid

/-- The number of cores of a kernel cluster's rectangle. -/
def coresOf (k : Kc) : Nat := k.rows * k.cols

/-- The die a member runs on; die 0 when its kernel cluster is not placed. -/
def memberDie (s : State) (m : Member) : DieNo :=
  match (kcOf s (memberKc m)).place with
  | some p => p.die
  | none => 0

/-- TEAM (R32): CLUSTER × cores per kernel cluster + CORE. -/
def teamNo (k : Kc) (core : Nat) : Nat := k.cluster.toNat * coresOf k + core

/-- The hardware core under CORE index core of a placement: (die, hw × 12 + mesh position). -/
def hwCore (k : Kc) (core : Nat) : DieNo × Nat :=
  match k.place with
  | some p => (p.die, p.hw.toNat * 12 + (p.row + core / k.cols) * 4 + (p.col + core % k.cols))
  | none => (0, 0)

/-- CAPS bits [3:0] of a core (R35, R418). -/
def coreCaps (s : State) (d : DieNo) (c : Nat) : BitVec 4 := ~~~ amGet 0 (dieOf s d).capsOff c
/-- FEAT bits [3:0] of a core (R35). -/
def coreFeat (s : State) (d : DieNo) (c : Nat) : BitVec 4 := ~~~ amGet 0 (dieOf s d).featOff c

/-- CAPS of a member: its core's, or on the spine the AND over the rectangle (R35). -/
def memberCaps (s : State) (m : Member) : BitVec 4 :=
  let k := kcOf s (memberKc m)
  let at' := fun c => let h := hwCore k c; coreCaps s h.1 h.2
  match m with
  | .spine _ => (List.range (coresOf k)).foldl (fun acc c => acc &&& at' c) 0xF
  | .group _ core _ => at' core

/-- FEAT of a member: its core's, or on the spine the AND over the rectangle (R35). -/
def memberFeat (s : State) (m : Member) : BitVec 4 :=
  let k := kcOf s (memberKc m)
  let at' := fun c => let h := hwCore k c; coreFeat s h.1 h.2
  match m with
  | .spine _ => (List.range (coresOf k)).foldl (fun acc c => acc &&& at' c) 0xF
  | .group _ core _ => at' core

/-- A free value's counter moves on. -/
def bump (s : State) : State := { s with fresh := s.fresh + 1 }

/-- How far TIME moves when its oscillator moves by t: a backward correction is absorbed by slowing the count by at
most 500 parts per million (R384). -/
def slowed (backlog t : Nat) : Nat := min backlog (t / 2000)

/-- Time passes on a die: TIME by t when it is synchronised, by its own oscillator's amount when not (R382); LCLK by
an amount of its own. -/
def tickDie (t own clk : Nat) (d : Die) : Die :=
  let t := if d.terr = 0xFFFFFFFF then own else t
  { d with
    time := d.time + BitVec.ofNat 64 (t - slowed d.backlog t)
    lclk := d.lclk + BitVec.ofNat 64 clk
    backlog := d.backlog - slowed d.backlog t }

/-- Time passes on every die before it is read (R382, R384): by one free amount on the synchronised dies, so that they
agree, and by one of its own on each that is not.
DESIGN CHOICE, safe: log entry 38. -/
def tick (s : State) : State :=
  let t := fun i => Config.freeTick (9 * s.fresh + i)
  bump { s with dies := s.dies.zipIdx.map fun d => tickDie (t 8) (t (4 + d.2)) (t d.2) d.1 }

/-- The bound on TERR of a time source, 1/16 ns (R383). -/
def terrBound (src : BitVec 2) : Nat := match src with | 1 => 0x320 | 2 => 0x190 | _ => 0x20

/-- TERR as it reads (R383, R384). -/
def readTerr (s : State) (d : DieNo) : Word :=
  let t := (dieOf s d).terr
  if t = 0xFFFFFFFF || (s.host.timesrc = 0 && !s.host.pkgok) then 0xFFFFFFFF
  else if 0xFFFFFFFF ≤ t.toNat + (dieOf s d).backlog then 0xFFFFFFFE
  else t + BitVec.ofNat 32 (dieOf s d).backlog

/-- A message to the outside. -/
def send (s : State) (m : Msg) : State := { s with out := m :: s.out }

/-! ### Trap causes (R332) -/

def cIllegal : Byte := 0x01
def cWrongUnit : Byte := 0x02
def cMisaligned : Byte := 0x03
def cPageFault : Byte := 0x04
def cProtection : Byte := 0x05
def cQuota : Byte := 0x06
def cAppendOutside : Byte := 0x07
def cWriteAfterSeal : Byte := 0x08
def cAppendBeyond : Byte := 0x09
def cStepCollision : Byte := 0x0A
def cBarrierCount : Byte := 0x0B
def cRangeLocked : Byte := 0x0C
def cYieldOverrun : Byte := 0x0D
def cFeatureAbsent : Byte := 0x0E
def cDataPoison : Byte := 0x0F
def cDieLost : Byte := 0x10
def cSysAtomic : Byte := 0x11
def cSprueProtocol : Byte := 0x12
def cFrameAlias : Byte := 0x13
def cDieOffline : Byte := 0x14
def cLinkError : Byte := 0x15
def cUserTrap : Byte := 0x16
def cDebugBreak : Byte := 0x17
def cDeadlock : Byte := 0x18
def cBarrierRemote : Byte := 0x19

/-- The RETRY column of R332. -/
def causeRetry (c : Byte) : Bool :=
  [cPageFault, cProtection, cQuota, cAppendOutside, cAppendBeyond, cStepCollision, cBarrierCount, cRangeLocked,
    cFeatureAbsent, cDataPoison, cSysAtomic, cSprueProtocol, cFrameAlias, cDieOffline, cLinkError].contains c

/-- Causes that resume at the next instruction whatever the answer (R184, R332). -/
def causeSkips (c : Byte) : Bool := c = cUserTrap || c = cDebugBreak

/-! ### Lanes -/

/-- The predicate pk of a lane: p0 reads true (R15, R18). -/
def lanePred (r : GroupRegs) (lane : Nat) (k : PredNo) : Bool :=
  if k = 0 then true else (amGet 0 r.p lane).getLsbD k.toNat

/-- Writes pk of a lane; p0 is never a destination (R18). -/
def setLanePred (r : GroupRegs) (lane : Nat) (k : PredNo) (b : Bool) : GroupRegs :=
  let old : Byte := amGet 0 r.p lane
  let bit : Byte := BitVec.ofNat 8 (2 ^ k.toNat)
  if k = 0 then r else { r with p := amSet 0 r.p lane (if b then old ||| bit else old &&& ~~~bit) }

/-- The lanes for which the issue may act: the entry's mask, but after a retried late cause not the lanes that
had completed (R249). -/
def issueMask (g : Group) (c : Issue) : LaneMask :=
  match g.retry with
  | some m => if g.runAhead.isSome then c.mask else c.mask &&& ~~~m
  | none => c.mask

/-- The active lanes (R73): of the issue's lanes, those in which the guard is true. -/
def activeLanes (g : Group) (c : Issue) (guard : PredNo) : Lanes :=
  (lanesOf g.width (issueMask g c)).filter fun i => lanePred g.regs i guard

/-- v register of a lane. -/
def vGet (r : GroupRegs) (lane reg : Nat) : Word := amGet 0 r.v (lane * 64 + reg)
def vSet (r : GroupRegs) (lane reg : Nat) (w : Word) : GroupRegs := { r with v := amSet 0 r.v (lane * 64 + reg) w }
def gGet (r : GroupRegs) (reg : Nat) : Word := amGet 0 r.g reg
def gSet (r : GroupRegs) (reg : Nat) (w : Word) : GroupRegs := { r with g := amSet 0 r.g reg w }

/-- The codes of poison marks (R410): v of a lane, pk of a lane, g, a lane's frontier entry. -/
def vMark (lane reg : Nat) : Nat := lane * 64 + reg
def pMark (lane k : Nat) : Nat := 4096 + lane * 8 + k
def gMark (reg : Nat) : Nat := 4608 + reg
def frontierMark (lane : Nat) : Nat := 4640 + lane

/-- The poison marks without those of the registers that are written (R411). -/
def unmark (marks written : List Nat) : List Nat := marks.filter fun q => !written.contains q

/-- Sets sticky flags of a lane (R33). -/
def laneFlags (r : GroupRegs) (lane : Nat) (f : Flags6) : GroupRegs :=
  if f = 0 then r else { r with lstat := amModify 0 r.lstat lane (· ||| f) }

/-- Applies the v writes of an instruction. -/
def putWrites (r : GroupRegs) (ws : List RegWrite) : GroupRegs := ws.foldl (fun r w => vSet r w.lane w.reg w.val) r

def putGWrites (r : GroupRegs) (ws : List (Nat × Word)) : GroupRegs := ws.foldl (fun r w => gSet r w.1 w.2) r

def putFlags (r : GroupRegs) (fs : List (Nat × Flags6)) : GroupRegs := fs.foldl (fun r f => laneFlags r f.1 f.2) r

/-! ### Windows (R88 to R92) -/

/-- Whether a flight still waits for an answer from beyond the core, or has a late cause to deliver. -/
def inFlight (f : Flight) : Bool := f.ask.isSome

/-- What a completed flight writes (R88). -/
def flightEffect (r : GroupRegs) (f : Flight) : GroupRegs := putFlags (putGWrites (putWrites r f.writes) f.gwrites) f.flags

/-- The marks of the v registers that writes name, and of the registers that a flight writes. -/
def writeMarks (ws : List RegWrite) : List Nat := ws.map fun w => vMark w.lane w.reg
def flightMarks (f : Flight) : List Nat := writeMarks f.writes ++ f.gwrites.map fun w => gMark w.1

/-- A flight completes: destinations and flags are written and its poison marks cleared (R88, R247, R411). -/
def landFlight (g : Group) (f : Flight) : Group :=
  { g with regs := flightEffect g.regs f, poison := unmark g.poison (flightMarks f) }

/-- The flights left when those that wait for nothing and satisfy p complete; what completes also counts as
done before each younger one (R91). -/
def flightsLeft (p : Flight → Bool) : List Flight → List Flight → List Flight
  | [], _ => []
  | f :: fs, done =>
    if !inFlight f && p f then flightsLeft p fs (done ++ [f])
    else { f with ckpt := done.foldl flightEffect f.ckpt, ckptPoison := unmark f.ckptPoison (done.flatMap flightMarks) } ::
      flightsLeft p fs done

/-- Every flight that waits for nothing and satisfies p completes, oldest first. -/
def landFlights (g : Group) (p : Flight → Bool) : Group :=
  let done := g.flights.filter fun f => !inFlight f && p f
  { done.foldl landFlight g with flights := flightsLeft p g.flights [] }

/-- Every flight that waits for nothing completes. -/
def landAll (g : Group) : Group := landFlights g fun _ => true

/-- Whether a long-latency instruction still waits for an answer from beyond the core. -/
def hasWaiting (g : Group) : Bool := g.flights.any fun f => inFlight f

/-- The value a window instruction reads: in a register that a flight still writes, the value before it or
the value it writes, unspecified which, per lane and per read (R90). tag tells the reads of one instruction
apart. -/
def readV (s : State) (g : Group) (tag lane reg : Nat) : Word :=
  g.flights.foldl (fun acc f =>
    (f.writes.filter fun w => w.lane = lane ∧ w.reg = reg).foldl (fun acc w =>
      if Config.freeBit s.fresh (tag * 4096 + lane * 64 + reg) then w.val else acc) acc) (vGet g.regs lane reg)

/-- The group as one operand of a window instruction sees it: each register that a flight still writes holds
the value before it or the value it writes (R90). -/
def seen (s : State) (g : Group) (tag : Nat) : Group :=
  { g with regs := putWrites g.regs ((g.flights.flatMap fun f => f.writes).filter fun w =>
      Config.freeBit s.fresh (tag * 4096 + w.lane * 64 + w.reg)) }

/-! ### Frontier (R169 to R172) -/

/-- The entry that R170 chooses among some: highest priority, then lowest PC. -/
def bestEntry (es : List Entry) : Option Entry :=
  es.foldl (fun acc e =>
    match acc with
    | none => some e
    | some b => if b.prio < e.prio || (b.prio = e.prio && decide (e.pc < b.pc)) then some e else some b) none

/-- Joins an entry to a list: unblocked entries with the same PC and priority merge (R171). -/
def joinEntry (e : Entry) : List Entry → List Entry
  | [] => [e]
  | x :: xs =>
    if x.pc = e.pc ∧ x.prio = e.prio ∧ x.wait = none ∧ e.wait = none then { x with mask := x.mask ||| e.mask } :: xs
    else x :: joinEntry e xs

/-- Merges every pair that R171 merges. -/
def mergeEntries (es : List Entry) : List Entry := es.foldl (fun acc e => joinEntry e acc) []

/-- Replaces the entry that issued by new ones, without empty masks, and merges (R169, R171). A window of
that entry goes on only if the entry neither split nor merged (R89). -/
def moveEntry (g : Group) (c : Issue) (new : List Entry) : Group :=
  let rest := g.regs.frontier.filter fun e => e.mask ≠ c.mask
  let fr := mergeEntries (rest ++ new.filter fun e => e.mask ≠ 0)
  let kept := fr.find? fun e => e.mask = c.mask
  { g with
    regs := { g.regs with frontier := fr }
    flights := g.flights.map fun f =>
      if f.pc = c.pc ∧ f.prio = c.prio then
        (match kept with
         | some e => { f with left := f.left - 1, pc := e.pc, prio := e.prio }
         | none => { f with left := 0 })
      else { f with left := 0 } }

/-- Whether the lock-holder state is set: from `crit.on` until `crit.off` or 16,384 instructions (R190). -/
def inCrit (c : Option Nat) : Bool := match c with | some n => decide (n < 16384) | none => false

/-- YCOUNT after one more instruction (R32). -/
def nextYcount (y : Word) : Word := if y = 0xFFFFFFFF then y else y + 1

/-- An issue counts for what a flight goes back to as well: a discarded instruction has counted (R186). -/
def countFlight (f : Flight) : Flight :=
  { f with ckptYcount := nextYcount f.ckptYcount, ckptCrit := f.ckptCrit.map (· + 1) }

/-- The issue counts (R186, R190): YCOUNT advances unless the issue goes on from a wait, and so does the
lock-holder limit. Run-ahead counts its own (R351). -/
def countIssue (g : Group) (c : Issue) : Group :=
  match g.runAhead with
  | some ra => { g with runAhead := some { ra with count := ra.count + 1 } }
  | none =>
    if c.counted then g else
      { g with ycount := nextYcount g.ycount, crit := g.crit.map (· + 1), flights := g.flights.map countFlight }

/-- The address of the next instruction. -/
def nextPc (c : Issue) : VAddr := c.pc + BitVec.ofNat 48 c.len

/-- The issue is over. -/
def endIssue (s : State) (_ : Issue) : State := bump { s with cur := none }

/-- A group's instruction retires into the given entries. -/
def retireTo (s : State) (c : Issue) (new : List Entry) (f : Group → Group) : State :=
  endIssue (updMember s c.who fun g =>
    let g' := moveEntry (countIssue (f g) c) c new
    if g.runAhead.isSome || (match g.retry with | some m => c.mask &&& m = 0 | none => false) then g' else { g' with retry := none }) c

/-- A group's instruction retires to the next instruction. f is what it did to the group. -/
def retireLanes (s : State) (c : Issue) (f : Group → Group) : State :=
  retireTo s c [⟨nextPc c, c.prio, c.mask, none⟩] f

/-- A spine instruction retires to pc; the lock-holder limit counts retired instructions (R175, R190). -/
def retireSpineTo (s : State) (c : Issue) (pc : VAddr) (f : Spine → Spine) : State :=
  endIssue (updSpine s (memberKc c.who) fun sp =>
    let sp := f sp
    { sp with
      pc := pc
      wait := none
      crit := sp.crit.map (· + 1) }) c

def retireSpine (s : State) (c : Issue) (f : Spine → Spine) : State := retireSpineTo s c (nextPc c) f

/-- The instruction retires with no effect on the member's registers. -/
def retireNop (s : State) (c : Issue) : State :=
  match c.who with
  | .spine _ => retireSpine s c id
  | .group .. => retireLanes s c id

/-- The member cannot go on now; nothing has happened, and the same instruction is chosen again (R170). -/
def holdBack (s : State) (c : Issue) : State := endIssue s c

/-! ### Taking a trap (R329 to R332) and returning from one (R333) -/

/-- What a cause reports: its code, the lanes it names, the address, whether it is late. -/
structure Raise where
  cause : Byte
  code : Byte := 0
  late : Bool := false
  imprecise : Bool := false
  lanes : LaneMask := 0
  addr : Nat := 0
  pages : List FaultPage := []

/-- The lowest lane of a set; 0 for none. -/
def lowestLane (m : LaneMask) : Nat := ((lanesOf 64 m).head?).getD 0

/-- The trap that a cause raises at an issue.
DEDUCED, unsafe: log entry 68. -/
def trapOf (c : Issue) (r : Raise) : Trap where
  cause := r.cause
  code := r.code
  late := r.late
  imprecise := r.imprecise
  prio := if isSpine c.who then 0 else c.prio
  lane := if isSpine c.who then 0 else BitVec.ofNat 6 (lowestLane r.lanes)
  lanes := if isSpine c.who then 0 else r.lanes
  pc := c.pc
  addr := BitVec.ofNat 64 r.addr
  word := c.word
  len := c.len
  pages := r.pages
  entry := c.mask

/-- The frame of a member's trap (R331, R435). -/
def frameOf (s : State) (m : Member) (t : Trap) : Frame :=
  let k := kcOf s (memberKc m)
  match m with
  | .spine _ => ⟨k.asid, .member m, t, k.grid, k.cluster, 0xFFFFFFFF, 0xFFFF⟩
  | .group _ core idx => ⟨k.asid, .member m, t, k.grid, k.cluster, BitVec.ofNat 32 (teamNo k core), idx⟩

/-- The member stops with a trap and its frame waits for the ring (R329, R330): the one way in. A consumption of
poisoned data is counted (R427). -/
def stopMember (s : State) (m : Member) (t : Trap) : State :=
  let s := { s with frames := s.frames ++ [frameOf s m t] }
  let s := if t.cause = cDataPoison then updDie s (memberDie s m) fun d => { d with consumed := d.consumed + 1 } else s
  match m with
  | .spine kc => updSpine s kc fun sp => { sp with trap := some t, wait := none, asked := none }
  | .group .. => updMember s m fun g => { g with trap := some t, hold := none, stopped := none }

/-- Run-ahead ends: the shadow file is restored, with its poison marks, and the batch delivered at the faulting
instruction (R351, R352). -/
def endRunAhead (s : State) (m : Member) : State :=
  match (memberGroup s m).runAhead with
  | some ra => stopMember (updMember s m fun g =>
      { g with regs := ra.shadow, poison := ra.poison, runAhead := none, flights := [] }) m ra.trap
  | none => s

/-- The entry that issued counts its issue without moving; a blocked one is unblocked, to issue again. -/
def countAtTrap (g : Group) (c : Issue) : Group :=
  { countIssue g c with
    regs := { g.regs with frontier := g.regs.frontier.map fun e => if e.mask = c.mask then { e with wait := none } else e } }

/-- The destinations dst of an issue become tainted in every lane of its entry (R351, step 2). -/
def taintAll (g : Group) (c : Issue) (dst : List Nat) : List (Nat × Nat) :=
  (lanesOf g.width c.mask).flatMap fun l => dst.map fun d => (if d < 128 then l else 0, d)

/-- The instruction words before which run-ahead stops whatever their operands (R351, step 4): `st`, `st.rel`, FENCE,
ATOM, PAGE, WORK, BAR, LADLE, MMA, DRN, `wrc`, `exit`, `trap`, `brk`, `yield`, a load in the sys space, and SPR but for
`sstat`. -/
def stopsRunAhead (w : Word) : Bool :=
  bitOf w 0 && (match bitsOf w 5 1 with
    | 6 => [1, 2, 3, 9].contains (bitsOf w 13 10)
    | 18 => bitsOf w 27 24 = 1
    | 19 => bitsOf w 27 25 = 5
    | 21 => bitOf w 27
    | 28 => bitsOf w 24 22 ≠ 5
    | m => [20, 22, 23, 24, 25, 26, 27, 29, 30].contains m)

/-- In run-ahead an instruction whose result is not to be had goes by, its destinations tainted (R351, steps 3
and 5). -/
def passTainted (s : State) (c : Issue) (dst : List Nat) : State :=
  retireLanes s c fun g =>
    match g.runAhead with
    | some ra => { g with runAhead := some { ra with tainted := dedup (ra.tainted ++ taintAll g c dst) } }
    | none => g

/-- Taking a trap at an issue. A group first lets its window close (R89, R91); a page fault on lanes starts
run-ahead past the instruction, whose destinations dst are tainted (R351); a cause in run-ahead is discarded, and
the group runs on with them tainted (R351, step 5), unless run-ahead stops before the instruction. -/
def takeTrap (s : State) (c : Issue) (r : Raise) (dst : List Nat := []) (batch : Bool := false) : State :=
  match c.who with
  | .spine kc => endIssue (stopMember s (.spine kc) (trapOf c r)) c
  | .group kc core idx =>
    let g := groupOf s kc core idx
    if g.runAhead.isSome then (if stopsRunAhead c.word then endIssue (endRunAhead s c.who) c else passTainted s c dst)
    else if hasWaiting g then holdBack s c
    else
      let s := updMember s c.who fun g => countAtTrap (landAll g) c
      if batch then
        endIssue (updMember s c.who fun g =>
          let sh := g.regs
          let g := moveEntry g c [⟨nextPc c, c.prio, c.mask, none⟩]
          { g with
            runAhead := some ⟨sh, trapOf c r, taintAll g c dst, 0, g.poison⟩ }) c
      else endIssue (stopMember s c.who (trapOf c r)) c

/-- A cause with no operands: every lane of the entry is named. -/
def trapAll (s : State) (c : Issue) (cause : Byte) (addr : Nat := 0) (dst : List Nat := []) : State :=
  takeTrap s c { cause := cause, lanes := c.mask, addr := addr } dst

/-- A cause raised by some active lanes. -/
def trapLanes (s : State) (c : Issue) (cause : Byte) (ls : Lanes) (addr : Nat := 0) (dst : List Nat := []) : State :=
  takeTrap s c { cause := cause, lanes := maskOf ls, addr := addr } dst

/-- Whether a trap goes on at the next instruction for an answer (R184, R333). -/
def trapSkips (t : Trap) (a : Answered) : Bool := causeSkips t.cause || (a = .skip && !t.imprecise)

/-- The lanes for which a retried instruction does not issue: those of the entry that issued it which LANES does not
name (R249, R333). After PAGE_FAULT, QUOTA and RANGE_LOCKED it issues for every active lane, as before (R248).
DEDUCED, unsafe: log entry 6. -/
def retryMask (g : Group) (t : Trap) : Option LaneMask :=
  if !t.late && [cPageFault, cQuota, cRangeLocked].contains t.cause then g.retry
  else
    let rest := t.entry &&& ~~~t.lanes
    if rest = 0 then none else some rest

/-- An entry of the frontier when the lanes of a trap go on at pc: those of them that stand there, unblocked, leave it;
other lanes, blocked ones among them, keep their place (R171, R172, R333). -/
def skipEntry (t : Trap) (pc : VAddr) (e : Entry) : List Entry :=
  if e.pc = t.pc ∧ e.prio = t.prio ∧ e.wait = none ∧ e.mask &&& t.entry ≠ 0 then
    ({ e with pc := pc, mask := e.mask &&& t.entry } : Entry) ::
      (if e.mask &&& ~~~t.entry = 0 then [] else [{ e with mask := e.mask &&& ~~~t.entry }])
  else [e]

/-- The return from a trap by RETRY or SKIP (R333): RETRY issues the instruction again for LANES; SKIP goes on after it. A cause of the
ladle goes on at PC either way. -/
def returnFromTrap (s : State) (m : Member) (a : Answered) : State :=
  match m with
  | .spine kc => updSpine s kc fun sp =>
      match sp.trap with
      | some t => { sp with trap := none, pc := if trapSkips t a then t.pc + BitVec.ofNat 48 t.len else sp.pc }
      | none => sp
  | .group .. => updMember s m fun g =>
      match g.trap with
      | none => g
      | some t =>
        if t.imprecise then { g with trap := none }
        else if trapSkips t a then
          { g with
            trap := none, retry := none
            regs := { g.regs with frontier := mergeEntries (g.regs.frontier.flatMap (skipEntry t (t.pc + BitVec.ofNat 48 t.len))) }
            poison := unmark g.poison ((lanesOf g.width t.entry).map frontierMark) }
        else { g with trap := none, retry := retryMask g t }

/-! ### Blocking (R172) -/

/-- Whether a pre-emption request is latched for a kernel cluster (R189). -/
def stopping (k : Kc) : Bool := match k.status with | .stopping _ => true | _ => false

/-- The blocked entries of a group abandon their instructions as not issued, and merge (R171, R189, step 3). -/
def abandonWaits (g : Group) : Group :=
  { g with
    hold := none
    regs := { g.regs with frontier := mergeEntries (g.regs.frontier.map fun e => { e with wait := none }) } }

/-- A group stops for a save (R189): with the live count of a `yield`, or at a blocking point with every register
(live 65). -/
def stopGroup (live : Nat) (g : Group) : Group := { abandonWaits g with stopped := some live }

/-- The issuing entry blocks on a wait; it has issued once (R172). It is a yield point: under a latched
pre-emption request the group stops there, unless it holds a lock (R185, R189, R190). A group in run-ahead
stops before any sprue access (R351). -/
def blockOn (s : State) (c : Issue) (w : Wait) : State :=
  match c.who with
  | .spine kc => endIssue (updSpine s kc fun sp => { sp with wait := some w }) c
  | .group .. =>
    if (memberGroup s c.who).runAhead.isSome then endIssue (endRunAhead s c.who) c
    else if hasWaiting (memberGroup s c.who) then holdBack s c
    else endIssue (updMember s c.who fun g =>
      let g := countIssue (landAll g) c
      let g := { g with regs := { g.regs with frontier := g.regs.frontier.map fun e =>
          if e.mask = c.mask then { e with wait := some w } else e } }
      if stopping (kcOf s (memberKc c.who)) && !inCrit g.crit then stopGroup 65 g else g) c

/-- Whether a flight writes one of these v registers. -/
def writesTo (regs : List Nat) (f : Flight) : Bool := f.dst.any fun r => regs.contains r

/-- Whether a flight still writes one of these v registers. -/
def flightWrites (g : Group) (regs : List Nat) : Bool := g.flights.any (writesTo regs)

/-- An effect outside the group's registers takes place once no instruction whose window contains it can trap any
more (R91), and ends run-ahead (R351). The windows stay open, so that later instructions of theirs still read either
value (R90); only a flight that writes a destination dst of the instruction completes first. Sources are read at issue,
from the group before k's state (R90).
DEDUCED, unsafe: log entry 81. -/
def outside (s : State) (c : Issue) (k : State → State) (dst : List Nat := []) : State :=
  match c.who with
  | .spine _ => k s
  | .group .. =>
    let g := memberGroup s c.who
    if g.runAhead.isSome then endIssue (endRunAhead s c.who) c
    else if hasWaiting g then holdBack s c
    else if flightWrites g dst then k (updMember s c.who fun g => landFlights g (writesTo dst))
    else k s

/-- An effect that waits until every earlier instruction of the group has completed (R136). -/
def settled (s : State) (c : Issue) (k : State → State) : State :=
  outside s c fun s => k (updMember s c.who landAll)

/-! ### Sprue registers (R25) -/

def sprueGet (k : Kc) (i : Nat) : SprueReg := amGet SprueReg.init k.sprue i
def setSprue (s : State) (kc i : Nat) (r : SprueReg) : State :=
  updKc s kc fun k => { k with sprue := amSet SprueReg.init k.sprue i r }

/-- Whether a register can be read (R25). -/
def isFull (r : SprueReg) : Bool := match r.st with | .full _ => true | _ => false

/-- The sprue register that the address field [21:16] of a spine access names, read when the access completes (R27).
DEDUCED, unsafe: log entry 35. -/
def addrSprue (w : Word) : List Nat := if 32 ≤ bitsOf w 21 16 then [bitsOf w 21 16 - 32] else []

/-- Whether the last read due of a register belongs to an access of the spine that waits beyond the core: it was
issued first, and decrements when it completes (R26, R27).
DEDUCED, unsafe: log entry 35. -/
def reserved (k : Kc) (i : Nat) : Bool :=
  match k.spine.asked with
  | some (c, _) => (addrSprue c.word).contains i && decide ((sprueGet k i).st = .full 1)
  | none => false

/-- Whether a consuming read of a register can go on now (R25). -/
def readable (k : Kc) (i : Nat) : Bool := isFull (sprueGet k i) && !reserved k i

/-- The decrement of a consuming read: FULL(0) is broadcast (R25, R26). -/
def consumed (r : SprueReg) : SprueReg :=
  match r.st with
  | .full n => if n = 0 then r else if n = 1 then { r with st := .empty } else { r with st := .full (n - 1) }
  | _ => r

/-- How a sprue write ends. -/
inductive SprueWrite where
  | ok (r : SprueReg)
  | block
  | protocol
  deriving DecidableEq, Repr

/-- `sset`, or a spine write through d (R23, R25); none keeps the value (R264). -/
def ssetReg (r : SprueReg) (v : Option DWord) : SprueWrite :=
  match r.st with
  | .empty => .ok { r with value := v.getD r.value, st := .full r.rcnt, poison := if v.isSome then false else r.poison }
  | .filling _ => .protocol
  | .full _ => .block

/-- The combining ops of R24. -/
def combineSprue (op : BitVec 3) (old c : DWord) : DWord :=
  match op with
  | 0 => c
  | 1 => old + c
  | 2 => BitVec.ofNat 64 (fAdd fmtF64 old.toNat c.toNat).1
  | 3 => BitVec.ofNat 64 (fAdd fmtF32 (loWord old).toNat (loWord c).toNat).1
  | 4 => if old.toInt ≤ c.toInt then old else c
  | 5 => if c.toInt ≤ old.toInt then old else c
  | 6 => BitVec.ofNat 64 (fMinMax fmtF32 false (loWord old).toNat (loWord c).toNat).1
  | _ => BitVec.ofNat 64 (fMinMax fmtF32 true (loWord old).toNat (loWord c).toNat).1

/-- An accumulating write; none is a void contribution (R25, R266). -/
def saccReg (r : SprueReg) (v : Option DWord) : SprueWrite :=
  match r.st with
  | .empty => .protocol
  | .full _ => .block
  | .filling w =>
    let value := match v with
      | some c => combineSprue r.op r.value c
      | none => r.value
    .ok { r with value := value, st := if w ≤ 1 then .full r.rcnt else .filling (w - 1) }

/-- Whether some member waits on the register (R267). -/
def sprueWaited (s : State) (kc k : Nat) : Bool :=
  let on := fun w => match w with
    | some (Wait.sprueFull i) => decide (i.toNat = k)
    | some (Wait.sprueEmpty i) => decide (i.toNat = k)
    | some (Wait.sprueFilling i) => decide (i.toNat = k)
    | _ => false
  on (kcOf s kc).spine.wait || s.groups.any fun g => g.kc = kc && !g.ended && g.regs.frontier.any fun e => on e.wait

/-! ### Named barriers and stepped regions (R199 to R206) -/

def barOf (t : Team) (slot : Nat) : Barrier := (t.bars[slot]?).getD Barrier.init

def setBar (t : Team) (slot : Nat) (b : Barrier) : Team := { t with bars := t.bars.set slot b }

/-- The word of a next plane after one store to it, under the region's rule (R199); fault was checked before. Of two
stores with equal keys the earlier one stays.
DEDUCED, unsafe: log entry 95. -/
def collide (rule : BitVec 2) (old new : Word) (oldKey newKey : Nat) : Word × Nat :=
  match rule with
  | 0 => if oldKey < newKey then (new, newKey) else (old, oldKey)
  | 1 => (old + new, 0)
  | 2 => (BitVec.ofNat 32 (fAdd fmtF32 old.toNat new.toNat).1, 0)
  | _ => (old, oldKey)

/-- One 32-bit store to the next plane (R198, R199). -/
def regionWord (r : Region) (key addr : Nat) (bytes : List Byte) : Region :=
  let w := addr / 4
  if amGet false r.written w then
    let old := BitVec.ofNat 32 (getNat r.nextPl addr 4)
    let res := collide r.rule old (BitVec.ofNat 32 (bytesToNat bytes)) (amGet 0 r.keys w) key
    { r with nextPl := putNat r.nextPl addr 4 res.1.toNat, keys := amSet 0 r.keys w res.2 }
  else
    { r with nextPl := putBytes r.nextPl addr bytes, written := amSet false r.written w true, keys := amSet 0 r.keys w key }

/-- A store of whole words to the next plane, word by word. -/
def regionStore (r : Region) (key addr : Nat) : List Byte → Nat → Region
  | _, 0 => r
  | bytes, n + 1 => regionStore (regionWord r key addr (bytes.take 4)) key (addr + 4) (bytes.drop 4) n

/-- The key of a store under prio (R199): block priority, TEAM, GROUP, LANE. -/
def storeKey (prio team group lane : Nat) : Nat := ((prio * 2 ^ 32 + team) * 2 ^ 7 + group) * 2 ^ 7 + lane + 1

/-- The swap of R201, then the stores that were held for the plane that follows (R202). The groups that arrived in the
phase may still read the plane that was present before it (R202). -/
def swapRegion (team : Nat) (r : Region) : Region :=
  let new := (r.nextPl.filter fun e => amGet false r.written (e.1 / 4))
  let base := if r.fill then [] else r.present.filter fun e => !amGet false r.written (e.1 / 4)
  let r' := { r with
    present := amSetAll 0 base new
    nextPl := r.present
    written := []
    keys := []
    arrived := []
    held := []
    prev := r.present
    behind := dedup r.arrived }
  r.held.foldl (fun r h => regionStore r (storeKey h.prio team h.group h.lane) h.addr h.bytes (h.bytes.length / 4)) r'

/-- A byte of a region as a swap at this moment would make it present (R201). -/
def swapByte (r : Region) (a : Nat) : Byte :=
  if amGet false r.written (a / 4) then amGet 0 r.nextPl a else if r.fill then 0 else amGet 0 r.present a

/-- A member acquires: its group reads the present planes of its team's regions from now on (R29, R201, R202, R207).
DEDUCED, unsafe: log entry 78. -/
def acquireSwaps (s : State) (m : Member) : State :=
  match m with
  | .spine _ => s
  | .group kc core idx => updTeam s kc core fun t =>
      { t with regions := t.regions.map fun r => { r with behind := r.behind.filter fun i => i ≠ idx } }

/-- The marks that a store to a next plane leaves: those of parts it covers wholly are cleared (R411). -/
def clearNext (poison : List (Nat × Nat)) (a n : Nat) : List (Nat × Nat) :=
  poison.filter fun q => !(q.1 = 4 && decide (a ≤ 16 * q.2) && decide (16 * q.2 + 16 ≤ a + n))

/-- The poison marks of the A buffer after a region's swap (R201, R411): the next plane's marks become the present
plane's, with those of words that fill carries over, and the old present plane's become the next plane's, but for the
parts that held stores then cover. -/
def swapPoison (r : Region) (poison : List (Nat × Nat)) : List (Nat × Nat) :=
  let inside := fun (q : Nat) => decide (r.base ≤ 16 * q) && decide (16 * q < r.base + r.bytes)
  let carried := fun (q : Nat) => !r.fill && ([0, 1, 2, 3].any fun i => !amGet false r.written (4 * q + i))
  let present := (poison.filter fun p => p.1 = 1 && inside p.2).map fun p => p.2
  let next := (poison.filter fun p => p.1 = 4 && inside p.2).map fun p => p.2
  let swapped := (poison.filter fun p => !((p.1 = 1 || p.1 = 4) && inside p.2)) ++
    (dedup (next ++ present.filter carried)).map (fun q => (1, q)) ++ present.map fun q => (4, q)
  r.held.foldl (fun q h => clearNext q h.addr h.bytes.length) swapped

/-- The completion condition of R205; next-plane stores are applied at their issue. -/
def barReady (b : Barrier) : Bool := decide (b.e ≠ 0) && decide (b.e ≤ b.a) && decide (b.lb = b.eb) && !b.f

/-- One completed phase (R205): regions of the barrier swap, P advances, arrivals are carried. -/
def barPhase (team : Nat) (t : Team) (slot : Nat) : Team :=
  let b := barOf t slot
  let t := { t with
    regions := t.regions.map fun r => if r.slot = slot then swapRegion team r else r
    poison := (t.regions.filter fun r => r.slot = slot).foldl (fun q r => swapPoison r q) t.poison }
  setBar t slot { b with p := b.p + 1, a := b.a - b.e, eb := 0, lb := 0 }

/-- Completes phases while the condition holds: each lowers A by E, so 1,024 rounds suffice. -/
def barSettle (team : Nat) (t : Team) (slot : Nat) : Nat → Team
  | 0 => t
  | n + 1 => if barReady (barOf t slot) then barSettle team (barPhase team t slot) slot n else t

/-- Changes a barrier and evaluates its completion condition. -/
def barChange (s : State) (kc core slot : Nat) (f : Barrier → Barrier) : State :=
  let team := teamNo (kcOf s kc) core
  updTeam s kc core fun t => barSettle team (setBar t slot (f (barOf t slot))) slot 1024

/-- Saturating 10-bit increment. -/
def inc10 (a : BitVec 10) : BitVec 10 := if a = 1023 then a else a + 1

/-- An engine arrival of a doorbell, a watch or a deposit (R205, R206): held in H while F is set. -/
def engineArrive (b : Barrier) : Barrier := if b.f then { b with h := inc10 b.h } else { b with a := inc10 b.a }

/-- Whether such an arrival is dropped because A stands at 1,023 (R205). -/
def arrivalDropped (b : Barrier) : Bool := !b.f && decide (b.a = 1023)

/-- The engine arrival of a completed transfer: discarded while F is set (R206). -/
def ladleArrive (b : Barrier) : Barrier := if b.f then b else { b with a := inc10 b.a }

/-! ### What a group issues next (R170 to R172, R89) -/

/-- Whether what a member waits for has come (R172). -/
def waitOver (s : State) (m : Member) : Wait → Bool
  | .sprueFull k => readable (kcOf s (memberKc m)) k.toNat
  | .sprueEmpty k => decide ((sprueGet (kcOf s (memberKc m)) k.toNat).st = .empty)
  | .sprueFilling k => (match (sprueGet (kcOf s (memberKc m)) k.toNat).st with | .filling _ => true | _ => false)
  | .phase slot p => let b := barOf (memberTeam s m) slot.toNat; decide (b.p ≠ p) || b.f
  | .faulted _ => true
  | .boundary k => (match gridOf? s (kcOf s (memberKc m)).grid with | some g => decide (k ≤ g.boundary) | none => true)

/-- The entries a group may issue: those not blocked, or whose wait has come (R170, R172). -/
def openEntries (s : State) (g : Group) : List Entry :=
  g.regs.frontier.filter fun e => match e.wait with
    | none => true
    | some w => waitOver s (.group g.kc g.core g.idx) w

/-- The entry a group issues next (R170). A blocked entry whose wait has ended completes only when this order picks it.
DEDUCED, unsafe: log entry 67; DEDUCED, unsafe: log entry 96. -/
def nextEntry (s : State) (g : Group) : Option Entry := bestEntry (openEntries s g)

/-- The entry whose instruction is a group's next one: the one it issues next, or, while all are blocked, the one that
the same order picks among them. -/
def comingEntry (s : State) (g : Group) : Option Entry :=
  match nextEntry s g with
  | some e => some e
  | none => bestEntry g.regs.frontier

/-- Whether a flight must complete before an entry issues: its window has closed or belongs to another entry (R89). -/
def mustLand (e : Entry) (f : Flight) : Bool := f.left = 0 || !(f.pc = e.pc && f.prio = e.prio)

/-! ### The issue that a meaning runs -/

/-- A meaning of an instruction with words runs for the member that issues it. -/
def issueBy (s : State) (f : Issue → State) : Host.Outcome State Fault Refusal :=
  match s.cur with
  | some c => .next (f c)
  | none => .fault .noIssuer

end Sys2Proof.Machine
end

