-- ==== Sys2Proof/Machine/Memory.lean ====
section
/-! DEFINITION. Device memory, apertures, the two-stage walk, the frame ownership table, append-page checks,
doorbells and the resolution of an access against the rows of R248. -/

namespace Sys2Proof.Machine

/-! ### Physical memory (R373) -/

/-- Whether [pa, pa + n) is local memory: aperture 0, 512 GiB. -/
def isLocal (pa n : Nat) : Bool := decide (pa + n ≤ 2 ^ 39)

def frameNo (pa : Nat) : Nat := pa / 65536
/-- The stack of a local address, and its home die (R374). -/
def stackOf (pa : Nat) : Nat := pa / 2 ^ 36 % 8
def homeDie (pa : Nat) : DieNo := BitVec.ofNat 2 (stackOf pa / 2)

/-- The 16-byte parts that a range touches (R410). -/
def partsOf (a n : Nat) : List Nat := (List.range ((a + n + 15) / 16 - a / 16)).map fun i => a / 16 + i

/-- Whether a range touches a poisoned part of memory. -/
def memPoisoned (s : State) (pa n : Nat) : Bool := (partsOf pa n).any fun q => s.memPoison.contains q

/-- The poison marks that a write of [a, a + n) leaves: those of parts it covers wholly are cleared (R411). -/
def clearPoison (marks : List Nat) (a n : Nat) : List Nat := marks.filter fun q => !(decide (a ≤ 16 * q) && decide (16 * q + 16 ≤ a + n))

/-- The answers that a TNOTIFY store of a context makes the device act on (R333): every frame written and not yet
answered whose RESP holds a nonzero ACT, in the order of writing. -/
def answersOf (s : State) (asid : Asid) : List Todo :=
  (s.written.filter fun w => w.asid = asid).filterMap fun w =>
    match getNat s.mem w.resp 1 % 4 with
    | 1 => some (.event (.trapAnswerRetry ⟨w.asid, w.seq⟩))
    | 2 => some (.event (.trapAnswerSkip ⟨w.asid, w.seq⟩))
    | 3 => some (.event (.trapAnswerEnd ⟨w.asid, w.seq⟩))
    | _ => none

/-- A store of 4 or 8 aligned bytes to a NOTIFY or TNOTIFY register is noticed (R303, R333). -/
def noteStore (s : State) (pa n : Nat) : State :=
  if !((n = 4 || n = 8) && decide (pa % n = 0)) then s else
    let qs := s.tund.queues.filter fun e => e.2.en && decide (e.2.cb + 0x10 ≤ pa) && decide (pa < e.2.cb + 0x18)
    let cs := s.ctxs.filter fun c => decide (c.desc + 0x30 ≤ pa) && decide (pa < c.desc + 0x38)
    if qs.isEmpty && cs.isEmpty then s else
      { s with
        tund := { s.tund with looking := dedup (s.tund.looking ++ qs.map fun e => BitVec.ofNat 8 e.1) }
        agenda := s.agenda ++ cs.flatMap fun c => answersOf s c.asid }

/-- What an address of device memory that nothing has written reads as (log entry 1). -/
abbrev unlistedByte : Byte := 0

/-- Memory is in its canonical form. -/
abbrev Memory.wf (m : AMap Byte) : Prop := amWf unlistedByte m = true

/-- One byte of device memory. -/
def memByte (s : State) (pa : Nat) : Byte := amGet unlistedByte s.mem pa

/-- Bytes of device memory. -/
def memRead (s : State) (pa n : Nat) : List Byte := getBytes s.mem pa n
def memNat (s : State) (pa n : Nat) : Nat := getNat s.mem pa n

/-- The halfwords that a write of bytes at pa changes, with what they held (R235). They matter only while a thread is
there to fetch them. -/
def oldHalves (s : State) (pa : Nat) (bytes : List Byte) : List (Nat × List Byte × Nat) :=
  if s.kcs.any fun k => k.place.isSome then
    ((List.range ((pa + bytes.length + 1) / 2 - pa / 2)).map fun i => 2 * (pa / 2 + i)).filterMap fun a =>
      if getBytes (putBytes s.mem pa bytes) a 2 = getBytes s.mem a 2 then none else some (a, getBytes s.mem a 2, s.fresh)
  else []

/-- A write to device memory, of one access. -/
def memWrite (s : State) (pa : Nat) (bytes : List Byte) : State :=
  noteStore { s with
    mem := putBytes s.mem pa bytes
    memPoison := clearPoison s.memPoison pa bytes.length
    blockMarks := s.blockMarks.filter fun b => !(decide (pa ≤ b.pa) && decide (b.pa + 4 ≤ pa + bytes.length))
    oldText := s.oldText ++ oldHalves s pa bytes } pa bytes.length
def memWriteNat (s : State) (pa n v : Nat) : State := memWrite s pa (natToBytes n v)

/-- A frame's bytes become zero. -/
def zeroFrame (s : State) (f : Nat) : State :=
  { s with
    mem := s.mem.filter fun e => e.1 / 65536 ≠ f
    memPoison := s.memPoison.filter fun q => q / 4096 ≠ f
    oldText := s.oldText.filter fun e => e.1 / 65536 ≠ f }

/-! ### Functions, partitions, circuits -/

def funcOf (s : State) (f : FuncNo) : Func := (amGet none s.host.funcs f.toNat).getD Func.init
def updFunc (s : State) (f : FuncNo) (k : Func → Func) : State :=
  { s with host := { s.host with funcs := amSet none s.host.funcs f.toNat (some (k (funcOf s f))) } }

/-- The dies of a partition (R386). -/
def partDies (mode part : BitVec 2) : List DieNo :=
  match mode with
  | 0 => if part = 0 then [0, 1, 2, 3] else []
  | 1 => if part = 0 then [0, 1] else if part = 1 then [2, 3] else []
  | _ => [part]

/-- Whether an up circuit joins two ports (R378, R379).
DEDUCED, unsafe: log entry 57. -/
def circuitUp? (s : State) (src dst : Nat) : Bool :=
  s.host.circuits.any fun e => e.2.v && e.2.st = 2 && e.2.src.toNat = src && e.2.dst.toNat = dst

/-- The port that serves a local address: the home die, or the stack's controller for uncached pages and
while the home is in bypass (R2, R377). -/
def servicePort (s : State) (pa : Nat) (uncached : Bool) : Nat :=
  let h := homeDie pa
  if uncached || (dieOf s h).bypass then 4 + stackOf pa else h.toNat

/-- Whether an address lies in a stack of a lost die that is not yet in home bypass (R415). -/
def lostStack (s : State) (pa : Nat) : Bool :=
  let h := dieOf s (homeDie pa)
  h.st = .lost && !h.bypass

/-- Whether a request from a port to a local address is answered DIE_OFFLINE_REPLY: no circuit joins the ports, or the
stack's die is lost and not yet in bypass (R379, R415). -/
def portOffline (s : State) (port pa : Nat) (uncached : Bool) : Bool :=
  lostStack s pa || !circuitUp? s port (servicePort s pa uncached)

/-- The same for a request from a die; none is needed to its own port. -/
def offline (s : State) (d : DieNo) (pa : Nat) (uncached : Bool) : Bool :=
  if servicePort s pa uncached = d.toNat then lostStack s pa else portOffline s d.toNat pa uncached

/-! ### Page tables (R340 to R342) -/

/-- A last-level entry as the walk finds it: frame base, span in bits, permissions, class, the entry's
address when it allocates on touch. -/
structure Leaf where
  base : Nat
  span : Nat
  r : Bool
  w : Bool
  x : Bool
  cls : BitVec 2
  aot : Option Nat

/-- A failed translation: CODE of R331 and whether stage 2 failed. -/
structure XFault where
  code : Nat
  s2 : Bool

/-- Whether a valid entry is bad at its level (R341). -/
def badEntry (level : Nat) (lastStage : Bool) (e : DWord) : Bool :=
  let leaf := bitOf e 5
  let frame := bitsOf e 51 16
  let aot := bitOf e 57
  bitsOf e 63 60 ≠ 0 || bitsOf e 56 52 ≠ 0 || bitsOf e 15 6 ≠ 0 || bitOf e 1 ||
    (level = 0 && leaf) || (level = 2 && !leaf) ||
    (!leaf && (bitsOf e 59 58 ≠ 0 || aot || bitsOf e 4 2 ≠ 0)) ||
    (leaf && level = 1 && (bitsOf e 28 16 ≠ 0 || aot)) ||
    (leaf && aot && (!lastStage || frame ≠ 0))

/-- The walk of one stage: tr places a node address, stage is 1 or 2, ls the levels left. -/
def walkFrom (s : State) (tr : Nat → Except XFault Nat) (stage : Nat) (lastStage : Bool) (va : Nat) :
    List (Nat × Nat × Nat) → Nat → Except XFault Leaf
  | [], _ => .error ⟨3, stage = 2⟩
  | (level, lo, bits) :: rest, node =>
    let ea := node + 8 * (va / 2 ^ lo % 2 ^ bits)
    match tr ea with
    | .error f => .error f
    | .ok pa =>
      if !isLocal pa 8 then .error ⟨3, stage = 2⟩
      else
        let e : DWord := BitVec.ofNat 64 (memNat s pa 8)
        if !bitOf e 0 then .error ⟨stage, stage = 2⟩
        else if badEntry level lastStage e then .error ⟨3, stage = 2⟩
        else if bitOf e 5 then
          .ok ⟨bitsOf e 51 16 * 65536, lo, bitOf e 2, bitOf e 3, bitOf e 4, BitVec.ofNat 2 (bitsOf e 59 58),
            if bitOf e 57 then some pa else none⟩
        else walkFrom s tr stage lastStage va rest (bitsOf e 51 16 * 65536)

def levels : List (Nat × Nat × Nat) := [(0, 42, 6), (1, 29, 13), (2, 16, 13)]

/-- Stage 2 of a VF: an intermediate address to its leaf (R340). -/
def stage2 (s : State) (f : Func) (ia : Nat) : Except XFault Leaf :=
  if 2 ^ 48 ≤ ia then .error ⟨3, true⟩ else walkFrom s .ok 2 true ia levels f.s2root

def leafAddr (l : Leaf) (a : Nat) : Nat := l.base + a % 2 ^ l.span

/-- A translation: physical address, leaf span, permissions, class, and the entry that allocates on touch. -/
structure Xlate where
  pa : Nat
  span : Nat
  r : Bool
  w : Bool
  x : Bool
  cls : BitVec 2
  aot : Option Nat

/-- Whether a class suits the aperture of a physical address (R373). -/
def suits (pa : Nat) (cls : BitVec 2) : Bool :=
  let ap := pa / 2 ^ 48 % 16
  if ap = 0 then isLocal pa 1 && cls ≠ 3
  else if ap = 4 then decide (pa / 2 ^ 36 % 4096 = 0) && cls = 3
  else if ap = 5 then cls = 3
  else decide (12 ≤ ap) && decide (pa / 2 ^ 41 % 512 < 288) && cls = 3

/-- Where a walk finds a stage-1 node: the frame of its stage-2 leaf; a leaf that would allocate on touch has no node
yet, and stage 2 is not valid there (R340, R349).
DEDUCED, unsafe: log entry 83. -/
def nodeAddr (s : State) (f : Func) (a : Nat) : Except XFault Nat :=
  match stage2 s f a with
  | .error e => .error e
  | .ok l => if l.aot.isSome then .error ⟨2, true⟩ else .ok (leafAddr l a)

/-- The walk of both stages (R340, R342, R355, R373). A 512 MiB leaf of either stage whose effective class is 1 is bad,
and so is a last-stage leaf whose own CLASS does not suit the aperture of its frame. -/
def walkBoth (s : State) (c : Ctx) (va : Nat) : Except XFault Xlate :=
  let f := funcOf s c.vf
  let fin := fun (l : Leaf) (pa : Nat) (r w x : Bool) (cls : BitVec 2) (s2 : Bool) =>
    if cls = 1 && l.span ≠ 16 then .error ⟨3, s2⟩
    else if !suits pa l.cls then .error ⟨3, s2⟩
    else .ok ⟨pa, l.span, r, w, x, cls, l.aot⟩
  if f.s2en then
    match walkFrom s (nodeAddr s f) 1 false va levels c.s1root with
    | .error e => .error e
    | .ok l1 =>
      let ia := leafAddr l1 va
      match stage2 s f ia with
      | .error e => .error e
      | .ok l2 =>
        if (if l2.cls = 0 then l1.cls else l2.cls) = 1 && l2.span = 16 && l1.span ≠ 16 then .error ⟨3, false⟩
        else fin l2 (leafAddr l2 ia) (l1.r && l2.r) (l1.w && l2.w) (l1.x && l2.x)
          (if l2.cls = 0 then l1.cls else l2.cls) true
  else
    match walkFrom s .ok 1 true va levels c.s1root with
    | .error e => .error e
    | .ok l => fin l (leafAddr l va) l.r l.w l.x l.cls false

/-- The translation of an access (R343 to R346): a walk, or, before a fence, an older translation that the
device still holds: which of the two is free. -/
def translate (s : State) (c : Ctx) (va : Nat) : State × Except XFault Xlate :=
  let page := va / 65536
  let w := walkBoth s c va
  let old := s.tlb.find? fun e => e.asid = c.asid && e.epoch = c.epoch && e.page = page
  let keep := fun (x : Xlate) => if x.aot.isSome then s else
    { s with tlb := ⟨c.asid, c.epoch, page, x.pa / 65536, x.r, x.w, x.x, x.cls, x.span⟩ ::
        s.tlb.filter fun e => !(e.asid = c.asid && e.page = page) }
  let fresh := match w with
    | .ok x => (keep x, .ok x)
    | .error e => (s, .error e)
  match old with
  | none => fresh
  | some e =>
    let was : Xlate := ⟨e.pa * 65536 + va % 65536, e.span, e.r, e.w, e.x, e.cls, none⟩
    let same := match w with
      | .ok x => decide (x.pa = was.pa) && x.r == was.r && x.w == was.w && x.x == was.x && decide (x.cls = was.cls)
      | .error _ => false
    if same then fresh
    else if Config.freeBit s.fresh (va / 65536) then (s, .ok was) else fresh

/-! ### Frame ownership (R347 to R350) -/

def frameEntry (s : State) (f : Nat) : FrameEntry := amGet FrameEntry.zero s.frameTab f
def setFrame (s : State) (f : Nat) (e : FrameEntry) : State :=
  { s with frameTab := amSet FrameEntry.zero s.frameTab f e }

/-- The fields of APSTATE, bits [63:16] of the entry (R354). -/
def apRtail (e : FrameEntry) : Nat := bitsOf e.apstate 47 31
def apCtail (e : FrameEntry) : Nat := bitsOf e.apstate 30 14
def apNres (e : FrameEntry) : Nat := bitsOf e.apstate 13 9
def apWlog (e : FrameEntry) : Nat := bitsOf e.apstate 8 6
def apScopeOf (e : FrameEntry) : Nat := bitsOf e.apstate 5 4
def apSealw (e : FrameEntry) : Bool := bitOf e.apstate 3
def apRepl (e : FrameEntry) : Bool := bitOf e.apstate 2

/-- APSTATE from its fields, as bits [63:16] of the entry hold it (R354). -/
def apPack (rtail ctail nres wlog scope : Nat) (sealw repl : Bool) : BitVec 48 :=
  BitVec.ofNat 48 (rtail * 2 ^ 31 + ctail * 2 ^ 14 + nres * 2 ^ 9 + wlog * 2 ^ 6 + scope * 2 ^ 4 +
    (if sealw then 8 else 0) + (if repl then 4 else 0))

/-- Whether an effective class is cached and so checked at fills (R348, R360). An append page whose entry holds the
reserved SCOPE 0 counts as cached.
DEDUCED, unsafe: log entry 82. -/
def cached (s : State) (pa : Nat) (cls : BitVec 2) : Bool :=
  cls = 0 || (cls = 1 && apScopeOf (frameEntry s (frameNo pa)) ≠ 3)

/-- The check of a fill: the frame's key, owner and class, and the partition's wall (R348, R376).
DEDUCED, unsafe: log entry 19. -/
def aliasBad (s : State) (c : Ctx) (va : Nat) (x : Xlate) : Bool :=
  let e := frameEntry s (frameNo x.pa)
  let vpn := va / 2 ^ x.span * 2 ^ (x.span - 16)
  cached s x.pa x.cls &&
    (e.st ≠ 2 || e.part ≠ c.part || e.ovf ≠ c.vf || e.cls ≠ x.cls || e.kasid ≠ c.asid || e.vpn.toNat ≠ vpn ||
      !(partDies s.host.pmode c.part).contains (homeDie x.pa))

/-- The lowest free frame of a stack range, from f upward; fuel bounds the listed entries passed. -/
def firstFree (s : State) (f hi : Nat) : Nat → Option Nat
  | 0 => none
  | n + 1 => if hi ≤ f then none else if (frameEntry s f).st = 0 then some f else firstFree s (f + 1) hi n

/-- A scrubbed frame of a partition's pool (R349, R386).
DEDUCED, unsafe: log entry 20. -/
def poolFrame (s : State) (part : BitVec 2) : Option Nat :=
  match partDies s.host.pmode part with
  | [] => none
  | d :: ds => firstFree s (d.toNat * 2 ^ 21) ((d.toNat + ds.length + 1) * 2 ^ 21) (s.frameTab.length + 1)

/-- FQUOTA of the descriptor: quota and frames charged (R327). -/
def quotaOf (s : State) (c : Ctx) : Nat × Nat := (memNat s (c.desc + 0x40) 4, memNat s (c.desc + 0x44) 4)

/-- Allocation on touch (R349): the entry gets a frame, charged to the context. Left: QUOTA's code. -/
def allocate (s : State) (c : Ctx) (va pte : Nat) (cls : BitVec 2) : Except Nat State :=
  let q := quotaOf s c
  if q.1 < q.2 + 1 then .error 1
  else
    match poolFrame s c.part with
    | none => .error 2
    | some f =>
      let ap := if cls = 1 then apPack 0 0 0 6 2 false false else 0
      let e : FrameEntry := ⟨BitVec.ofNat 32 (va / 65536), c.asid, c.part, c.vf, ap, if cls = 1 then 1 else 0, cls, 2, true⟩
      let s := zeroFrame (setFrame s f e) f
      let old := memNat s pte 8
      let s := memWriteNat s pte 8 (old - 2 ^ 57 + f * 65536)
      .ok (memWriteNat s (c.desc + 0x44) 4 (q.2 + 1))

/-! ### Touched dies (R328) -/

/-- The touched-dies mask in the descriptor. -/
def touchedOf (s : State) (c : Ctx) : BitVec 4 := BitVec.ofNat 4 (memNat s (c.desc + 0x58) 1)
def touch (s : State) (c : Ctx) (d : DieNo) : State :=
  let old := memNat s (c.desc + 0x58) 1
  if old.testBit d.toNat then s else { s with mem := putNat s.mem (c.desc + 0x58) 1 (old + 2 ^ d.toNat) }

/-- One die as a set of dies. -/
def dieBit (d : DieNo) : BitVec 4 := 1 <<< d.toNat

/-- The 64-byte lines that a range touches (log entry 84). -/
def linesOf (pa n : Nat) : List Nat := (List.range ((pa + n + 63) / 64 - pa / 64)).map fun i => pa / 64 + i

/-- A write of a context to local memory: a line that its home die may hold dirty (a cached class, no bypass) counts
first as touched and not yet written back (R328, R377). -/
def ctxWrite (s : State) (c : Ctx) (pa : Nat) (cls : BitVec 2) (bytes : List Byte) : State :=
  let d := homeDie pa
  if cached s pa cls && !(dieOf s d).bypass then
    memWrite (updCtx (touch s c d) c.asid fun x =>
      { x with dirty := x.dirty ||| dieBit d, lines := dedup (x.lines ++ linesOf pa bytes.length) }) pa bytes
  else memWrite s pa bytes

/-- A kernel cluster leaves a die in a planned withdrawal: with no other one of its context there and no line left to
write back, the context's bit clears (R328, R431).
DEDUCED, unsafe: log entry 30. -/
def leftDie (s : State) (k : Kc) : State :=
  match k.place, ctxOf? s k.asid with
  | some p, some c =>
    let others := s.kcs.any fun q => q.asid = k.asid && q.id ≠ k.id && (match q.place with | some r => decide (r.die = p.die) | none => false)
    let w := memNat s (c.desc + 0x58) 1
    if (dieOf s p.die).st = .withdrawing && !others && !c.dirty.getLsbD p.die.toNat && w.testBit p.die.toNat then
      { s with mem := putNat s.mem (c.desc + 0x58) 1 (w - 2 ^ p.die.toNat) }
    else s
  | _, _ => s

/-! ### Append pages (R356, R357) -/

/-- A read of [off, off + n) of an append page: allowed below CTAIL. -/
def appendRead (e : FrameEntry) (off n : Nat) : Option Byte := if off + n ≤ apCtail e then none else some cAppendBeyond
/-- A write: allowed wholly inside the open window, never once sealed. -/
def appendWrite (e : FrameEntry) (off n : Nat) : Option Byte :=
  if e.apst = 2 then some cWriteAfterSeal
  else if apCtail e ≤ off && off + n ≤ apRtail e then none else some cAppendOutside

/-! ### Doorbells (R208, R391) -/

/-- A doorbell write that is dropped counts in DBDROP of the context's function (R392, R394). -/
def dropRing (s : State) (vf : FuncNo) : State := updFunc s vf fun f => { f with dbdrop := f.dbdrop + 1 }

/-- Whether a kernel cluster is saved: arrivals at its barriers wait for its resumption (R208). -/
def isSaved (k : Kc) : Bool := match k.status with | .saved _ => true | _ => false

/-- An arrival at a doorbell of a context (R208, R392, R421): forwarded while an entry of DB_FORWARD stands, and then it
keeps the release of its `st.rel`; dropped at a doorbell that is not exported, or once the entry of a context that has
left is removed; counted in 64 bits while the kernel cluster is saved; and otherwise one at the barrier. -/
def ringOnce (s : State) (asid : Asid) (idx : Nat) (rel : Bool := false) : State :=
  match s.host.forwards.find? fun f => f.asid = asid with
  | some f =>
    if f.live then
      { send s (.fabricReq s.nextId (.fabric f.dev.toNat f.exp.toNat (64 * idx)) (.door 1 rel) (if rel then 3 else 0)) with nextId := s.nextId + 1 }
    else dropRing s f.vf
  | none =>
    match ctxOf? s asid with
    | none => s
    | some c =>
      match amGet none c.doors idx with
      | none => dropRing s c.vf
      | some (kc, core, slot) =>
        if isSaved (kcOf s kc) then updCtx s asid fun c => { c with counted := amModify 0 c.counted idx fun n => (n + 1) % 2 ^ 64 }
        else if arrivalDropped (barOf (teamOf s kc core) slot) then dropRing s c.vf
        else barChange s kc core slot engineArrive

/-! ### Resolving one access (R248) -/

/-- Where the bytes of one page's part of an access lie. -/
inductive Way where
  | mem (pa : Nat) (cls : BitVec 2)
  | window (w off : Nat)
  | fabric (dev exp off : Nat)
  | door (asid : Asid) (idx off : Nat)
  deriving DecidableEq, Repr

/-- A part of an access: where, its offset in the access and its length, and its virtual address. -/
structure Piece where
  way : Way
  off : Nat
  n : Nat
  va : Nat
  deriving DecidableEq, Repr

/-- What an access needs (R342). -/
structure Need where
  r : Bool := false
  w : Bool := false
  x : Bool := false
  atomic : Bool := false
  page : Bool := false
  deriving DecidableEq, Repr

/-- A failed check: row of R248, cause, code, address, stage of a page fault. -/
structure Miss where
  row : Nat
  cause : Byte
  code : Nat := 0
  addr : Nat := 0
  s2 : Bool := false
  w : Bool := false
  x : Bool := false

/-- The way of a physical address. -/
def wayOf (pa : Nat) (cls : BitVec 2) : Way :=
  let ap := pa / 2 ^ 48 % 16
  if ap = 0 then .mem pa cls
  else if ap = 4 then .door (BitVec.ofNat 16 (pa / 2 ^ 20)) (pa / 64 % 16384) (pa % 64)
  else if ap = 5 then .window (pa / 2 ^ 40 % 256) (pa % 2 ^ 40)
  else .fabric (pa / 2 ^ 41 % 512) (pa / 2 ^ 36 % 32) (pa % 2 ^ 36)

/-- Rows 4 to 8 for one page's part; feat: FEAT bit 3 of the core. -/
def resolvePart (s : State) (c : Ctx) (need : Need) (feat : Bool) (va n : Nat) : State × Except Miss Way :=
  let miss := fun (s : State) (row : Nat) (cause : Byte) (code : Nat) (s2 : Bool) =>
    (s, Except.error ⟨row, cause, code, va, s2, need.w, need.x⟩)
  match translate s c va with
  | (s, .error e) => miss s 4 cPageFault e.code e.s2
  | (s, .ok x) =>
    let winBad := match wayOf x.pa x.cls with
      | .window w off =>
        let e := amGet Window.zero s.host.windows w
        !e.v || decide (e.size.toNat * 65536 < off + n) || e.ovf ≠ c.vf
      | _ => false
    if (need.r && !x.r) || (need.w && !x.w) || (need.x && !x.x) || (need.x && x.cls = 1) ||
        (need.page && x.cls ≠ 1 && !(match wayOf x.pa x.cls with | .fabric .. => true | _ => false))
    then miss s 5 cProtection 0 false
    else
      match x.aot with
      | some pte =>
        (match allocate s c va pte x.cls with
         | .error code => miss s 6 cQuota code false
         | .ok s =>
           match walkBoth s c va with
           | .error e => miss s 4 cPageFault e.code e.s2
           | .ok x => if aliasBad s c va x then miss s 7 cFrameAlias 0 false else (s, .ok (wayOf x.pa x.cls)))
      | none =>
        if need.atomic && x.cls = 3 && !feat then miss s 1 cFeatureAbsent 0 false
        else if winBad then miss s 5 cProtection 0 false
        else if aliasBad s c va x then miss s 7 cFrameAlias 0 false
        else
          match wayOf x.pa x.cls with
          | .door a i off =>
            if need.w && !need.r && (n = 4 || n = 8) && decide (off % n = 0) && decide (off + n ≤ 8) && !need.page
            then (s, .ok (.door a i off)) else miss s 8 cBarrierRemote 0 false
          | w => (s, .ok w)

/-- A part of an access that spans two pages is no doorbell store of 4 or 8 aligned bytes (R209, row 8 of R248). -/
def noDoor (need : Need) (va : Nat) : Except Miss Way → Except Miss Way
  | .ok (.door ..) => .error ⟨8, cBarrierRemote, 0, va, false, need.w, need.x⟩
  | r => r

/-- Rows 4 to 8 for an access of n bytes at va: both pages are checked first (R219). -/
def resolve (s : State) (c : Ctx) (need : Need) (feat : Bool) (va n : Nat) : State × Except Miss (List Piece) :=
  let n1 := 65536 - va % 65536
  if n ≤ n1 then
    match resolvePart s c need feat va n with
    | (s, .error m) => (s, .error m)
    | (s, .ok w) => (s, .ok [⟨w, 0, n, va⟩])
  else
    let va2 := (va + n1) % 2 ^ 48
    match resolvePart s c need feat va n1 with
    | (s, r1) =>
      match resolvePart s c need feat va2 (n - n1) with
      | (s, r2) =>
        match noDoor need va r1, noDoor need va2 r2 with
        | .ok w1, .ok w2 => (s, .ok [⟨w1, 0, n1, va⟩, ⟨w2, n1, n - n1, va2⟩])
        | .error m1, .error m2 => (s, .error (if m2.row < m1.row then m2 else m1))
        | .error m, .ok _ => (s, .error m)
        | .ok _, .error m => (s, .error m)

/-- Where a die's read of an append page is served: at the replica in a stack of its own, if there is one (R371). -/
def servedAt (s : State) (d : DieNo) (pa : Nat) (cls : BitVec 2) : Nat :=
  if cls ≠ 1 then pa else
    match s.replicas.find? fun r => r.frame = frameNo pa && homeDie (r.copy * 65536) = d with
    | some r => r.copy * 65536 + pa % 65536
    | none => pa

/-- A read that a replica serves counts as its latest use (R372). -/
def useReplica (s : State) (d : DieNo) (pa : Nat) : State :=
  { s with replicas := s.replicas.map fun r =>
      if r.frame = frameNo pa && homeDie (r.copy * 65536) = d then { r with used := s.fresh } else r }

/-- Whether an access only reads, so that a replica may serve it (R371). -/
def readsOnly (need : Need) : Bool := !need.w && !need.atomic && !need.page

/-- Where a part in memory is served. -/
def servedPart (s : State) (d : DieNo) (need : Need) (pa : Nat) (cls : BitVec 2) : Nat :=
  if readsOnly need then servedAt s d pa cls else pa

/-- The late cause of a part at pa once it is served there: an append rule, by the page's entry e, or poison (R249). -/
def homeLate (s : State) (e : FrameEntry) (need : Need) (pa n : Nat) (cls : BitVec 2) : Option Byte :=
  match (if cls ≠ 1 || need.page then none
    else if need.w then appendWrite e (pa % 65536) n else appendRead e (pa % 65536) n) with
  | some b => some b
  | none => if need.r && memPoisoned s pa n then some cDataPoison else none

/-- The late cause that a part in memory meets at its home, or its replica: no circuit, an append rule, or poison
(R249, R371). -/
def lateOf (s : State) (d : DieNo) (need : Need) (p : Piece) : Option Byte :=
  match p.way with
  | .mem pa0 cls =>
    let pa := servedPart s d need pa0 cls
    if offline s d pa (!cached s pa cls) then some cDieOffline
    else homeLate s (frameEntry s (frameNo pa0)) need pa p.n cls
  | _ => none

/-- What a halfword of text may read as: what it holds, or what it held before a store that the fetching thread need
not see, one made since its last `fence.core` or its start (R235): unspecified which.
DEDUCED, unsafe: log entry 85. -/
def fetchedHalf (s : State) (pa seen : Nat) : List Byte :=
  let olds := (s.oldText.filter fun e => e.1 = pa && decide (seen ≤ e.2.2)).map fun e => e.2.1
  match olds[Config.freeNat s.fresh (64 + pa) % (olds.length + 1)]? with
  | some b => b
  | none => memRead s pa 2

/-- Fetch of a halfword at va by a context (R67, R235): the bytes, or the cause with the address of the halfword; seen
says from when on a store need not be seen.
DEDUCED, unsafe: log entry 24. -/
def fetchHalf (s : State) (c : Ctx) (d : DieNo) (va seen : Nat) : State × Except Miss (List Byte) :=
  match resolve s c { x := true } true va 2 with
  | (s, .error m) => (s, .error { m with addr := va })
  | (s, .ok ps) =>
    match ps with
    | [p] =>
      match p.way with
      | .mem pa cls =>
        if offline s d pa (!cached s pa cls) then (s, .error ⟨9, cDieOffline, 0, va, false, false, true⟩)
        else if memPoisoned s pa 2 then (s, .error ⟨9, cDataPoison, 0, va, false, false, true⟩)
        else (s, .ok (fetchedHalf s pa seen))
      | _ => (s, .error ⟨5, cProtection, 0, va, false, false, true⟩)
    | _ => (s, .error ⟨5, cProtection, 0, va, false, false, true⟩)

/-- A byte of a context's page that the tundish reads: of memory, or of a host window or an export, where what the host
or the peer returns is free.
DESIGN CHOICE, safe: log entry 86. -/
def quietByte (s : State) (c : Ctx) (a : Nat) (x : Xlate) : Option Byte :=
  match wayOf x.pa x.cls with
  | .mem pa cls =>
    if !memPoisoned s pa 1 && !aliasBad s c a x && (cls ≠ 1 || (appendRead (frameEntry s (frameNo pa)) (pa % 65536) 1).isNone)
    then some (memByte s pa) else none
  | .window w off =>
    let e := amGet Window.zero s.host.windows w
    if e.v && decide (off < e.size.toNat * 65536) && decide (e.ovf = c.vf) then some ((Config.freeWord s.fresh a).setWidth 8) else none
  | .fabric .. => some ((Config.freeWord s.fresh a).setWidth 8)
  | .door .. => none

/-- A read of a context through its translation that raises nothing (mould, records): none when it fails. -/
def quietRead (s : State) (c : Ctx) (va n : Nat) : Option (List Byte) :=
  (List.range n).mapM fun i =>
    let a := va + i
    match walkBoth s c a with
    | .ok x =>
      if x.r && x.aot.isNone then quietByte s c a x else none
    | .error _ => none

/-- The instruction word at an address, as a context translates it now; a 16-bit one in [15:0]. -/
def wordAt (s : State) (c : Ctx) (pc : VAddr) : Option Word :=
  let half := fun (a : Nat) => ((List.range 2).mapM fun i =>
    match walkBoth s c (a + i) with
    | .ok x => some (memByte s x.pa)
    | .error _ => none).map bytesToNat
  match half pc.toNat with
  | none => none
  | some lo => if lo % 2 = 0 then some (BitVec.ofNat 32 lo) else (half (pc.toNat + 2)).map fun hi => BitVec.ofNat 32 (lo + 65536 * hi)

/-- The word a group would issue next. -/
def peekWord (s : State) (g : Group) : Option Word :=
  match comingEntry s g, ctxOf? s (kcOf s g.kc).asid with
  | some e, some c => wordAt s c e.pc
  | _, _ => none

/-! ### Range locks (R211 to R213) -/

/-- The landed pointer of a leg: the next destination byte to land. -/
def landedPtr (t : Transfer) (l : Leg) : Nat :=
  match l.todo with
  | e :: _ => e.1
  | [] => match t.dstIv with
    | some iv => iv.2
    | none => 0

/-- The landed pointer of a transfer, the value that `lwp` reports: every destination byte of every copy below it has
landed (R211, R290); hi where it has no copies. -/
def transferPtr (t : Transfer) (hi : Nat) : Nat := t.legs.foldl (fun acc l => min acc (landedPtr t l)) hi

/-- The range-lock entries a transfer holds in its kicker's core. -/
def lockEntries (t : Transfer) : Nat := (if t.srcIv.isSome then 1 else 0) + (if t.dstIv.isSome then 1 else 0)

/-- Whether an access to a team's buffer touches a locked interval (R213). -/
def rangeLocked (s : State) (kc core : Nat) (buf : Space) (addr n : Nat) (store : Bool) : Bool :=
  s.transfers.any fun t => t.kc = kc && t.core = core &&
    ((match t.srcIv with
      | some iv => store && t.sspace = buf && rangesMeet addr n iv.1 (iv.2 - iv.1)
      | none => false) ||
     (match t.dstIv with
      | some iv => decide (t.dspace = buf) && t.legs.any fun l => l.core = core &&
          (let p := transferPtr t iv.2
           rangesMeet addr n p (iv.2 - p))
      | none => false))

end Sys2Proof.Machine
end

