-- ==== Sys2Proof/Machine/Operands.lean ====
section
/-! DEFINITION. Operand forms (R16 to R22, R106, R107): the decoding checks on registers in the order of
R95, reading sources on lanes and on the spine, and the one operation by which every instruction that only
computes on registers runs. -/

namespace Sys2Proof.Machine

/-- A source operand: a 6-bit field, the 7-bit selector, an immediate or a predicate; wide for 64 bits. -/
inductive Src where
  | reg (f : RegField) (wide : Bool)
  | sel (b : BitVec 7) (wide : Bool)
  | imm (n : Nat)
  | pred (k : PredNo)

/-- Where the result goes; old: the destination is also the last source. -/
inductive Dst where
  | reg (d : RegField) (wide old : Bool)
  | pred (pd : PredNo) (old : Bool)

/-! ### Decoding checks (R95) -/

/-- A v register, or an even–odd pair, inside the role's budget (R16, R17). -/
def vOk (budget : Nat) (wide : Bool) (f : Nat) : Bool :=
  if wide then decide (f % 2 = 0) && decide (f + 2 ≤ budget) && decide (f + 2 ≤ 64) else decide (f < budget)

/-- The sprue register a 6-bit spine field names. -/
def spineSprue (f : RegField) : Option Nat := if 32 ≤ f.toNat then some (f.toNat - 32) else none
/-- The sprue register a lane selector names (R20). -/
def selSprue (b : BitVec 7) : Option Nat := if 96 ≤ b.toNat then some (b.toNat - 96) else none

/-- Whether a source's registers are legal on the unit (ILLEGAL otherwise, R93). -/
def srcOk (spine : Bool) (budget : Nat) : Src → Bool
  | .reg f w => spine || vOk budget w f.toNat
  | .sel b w =>
    if spine then decide (b.toNat < 64)
    else if b.toNat < 64 then vOk budget w b.toNat
    else if b.toNat < 96 then !w || decide (b.toNat % 2 = 0)
    else true
  | .imm _ => true
  | .pred _ => true

/-- Whether a destination is legal on the unit: on the spine a destination that is read cannot be a sprue
register (R108, R137). -/
def dstOk (spine : Bool) (budget : Nat) : Dst → Bool
  | .reg d w old => if spine then !(old && decide (32 ≤ d.toNat)) else vOk budget w d.toNat
  | .pred pd _ => decide (pd ≠ 0)

/-- The sprue registers a source names. -/
def srcSprue (spine : Bool) : Src → List Nat
  | .reg f _ => if spine then (spineSprue f).toList else []
  | .sel b _ => if spine then (spineSprue (BitVec.ofNat 6 b.toNat)).toList else (selSprue b).toList
  | _ => []

def dstSprue (spine : Bool) : Dst → List Nat
  | .reg d _ _ => if spine then (spineSprue d).toList else []
  | .pred .. => []

/-- The lanes of an issue whose frontier entry, or whose guard, is poisoned: every instruction reads both (R72, R410,
R412). -/
def poisonedIssue (s : State) (c : Issue) : Lanes :=
  let g := memberGroup s c.who
  let k := if c.len = 4 then bitsOf c.word 8 6 else 0
  if isSpine c.who then [] else
    (lanesOf g.width (issueMask g c)).filter fun l =>
      g.poison.contains (frontierMark l) || (k ≠ 0 && g.poison.contains (pMark l k))

/-- A cause met before an instruction's operands are known ends run-ahead, and is taken otherwise (R351).
DEDUCED, unsafe: log entry 80. -/
def trapBefore (s : State) (c : Issue) (r : Raise) : State :=
  if (memberGroup s c.who).runAhead.isSome then endIssue (endRunAhead s c.who) c else takeTrap s c r

/-- Decoding checks in order: the first that fails raises its trap, whatever the guard (R95). After all of them a
poisoned entry or guard is DATA_POISON (R412). -/
def checked (s : State) (c : Issue) : List (Bool × Byte) → State → State
  | [], k =>
    let bad := poisonedIssue s c
    if bad.isEmpty then k else trapBefore s c { cause := cDataPoison, lanes := maskOf bad }
  | (bad, cause) :: rest, k => if bad then trapAll s c cause else checked s c rest k

/-- Whether every sprue number is below the mould's count (R19). -/
def spruesOk (s : State) (c : Issue) (ks : List Nat) : Bool :=
  ks.all fun k => decide (k < (kcOf s (memberKc c.who)).cfgSprue)

/-! ### The spine's registers -/

def xGet (sp : Spine) (i : Nat) : DWord := if i = 0 then 0 else amGet 0 sp.x i
/-- x0 discards writes (R15); a write clears the poison mark (R411). -/
def xSet (sp : Spine) (i : Nat) (v : DWord) : Spine :=
  if i = 0 then sp else { sp with x := amSet 0 sp.x i v, poison := sp.poison.filter fun q => q ≠ i }
def spinePred (sp : Spine) (k : PredNo) : Bool := if k = 0 then true else sp.p.getLsbD k.toNat
def setSpinePred (sp : Spine) (k : PredNo) (b : Bool) : Spine :=
  let bit : Byte := BitVec.ofNat 8 (2 ^ k.toNat)
  if k = 0 then sp else { sp with p := if b then sp.p ||| bit else sp.p &&& ~~~bit }

/-- The value a 6-bit spine field reads: bits [31:0] unless wide (R22). -/
def spineField (k : Kc) (f : Nat) (wide : Bool) : Nat :=
  let v := if f < 32 then (xGet k.spine f).toNat else (sprueGet k (f - 32)).value.toNat
  if wide then v else v % 2 ^ 32

def spineSrc (k : Kc) : Src → Nat
  | .reg f w => spineField k f.toNat w
  | .sel b w => spineField k b.toNat w
  | .imm n => n
  | .pred p => if spinePred k.spine p then 1 else 0

/-- A result as the spine writes it (R22): sign-extended for result type s32, else zero-extended. -/
def spineResult (wide signed : Bool) (v : Nat) : DWord :=
  if wide then BitVec.ofNat 64 v
  else if signed then (BitVec.ofNat 32 v).signExtend 64 else BitVec.ofNat 64 (v % 2 ^ 32)

/-- The x registers a source reads. -/
def srcX : Src → List Nat
  | .reg f _ => if f.toNat < 32 then [f.toNat] else []
  | .sel b _ => if b.toNat < 32 then [b.toNat] else []
  | _ => []

/-! ### A lane's registers -/

/-- The value a lane reads; tag tells apart the reads of one instruction (R90). -/
def laneSrc (s : State) (k : Kc) (g : Group) (tag lane : Nat) : Src → Nat
  | .reg f w =>
    if w then (joinWords (readV s g tag lane f.toNat) (readV s g tag lane (f.toNat + 1))).toNat
    else (readV s g tag lane f.toNat).toNat
  | .sel b w =>
    let n := b.toNat
    if n < 64 then
      (if w then (joinWords (readV s g tag lane n) (readV s g tag lane (n + 1))).toNat else (readV s g tag lane n).toNat)
    else if n < 96 then
      (if w then (joinWords (gGet g.regs (n - 64)) (gGet g.regs (n - 63))).toNat else (gGet g.regs (n - 64)).toNat)
    else
      (if w then (sprueGet k (n - 96)).value.toNat else (loWord (sprueGet k (n - 96)).value).toNat)
  | .imm n => n
  | .pred p => if lanePred g.regs lane p then 1 else 0

/-- The v registers a source reads. -/
def srcV : Src → List Nat
  | .reg f w => if w then [f.toNat, f.toNat + 1] else [f.toNat]
  | .sel b w => if b.toNat < 64 then (if w then [b.toNat, b.toNat + 1] else [b.toNat]) else []
  | _ => []

/-- Codes of the registers a source reads, for run-ahead: v 0 to 63, p 64 to 71, g 128 to 159. -/
def srcCodes : Src → List Nat
  | .sel b w => if b.toNat < 64 then srcV (.sel b w) else if b.toNat < 96 then (if w then [b.toNat + 64, b.toNat + 65] else [b.toNat + 64]) else []
  | .pred k => [64 + k.toNat]
  | src => srcV src

def dstV : Dst → List Nat
  | .reg d w _ => if w then [d.toNat, d.toNat + 1] else [d.toNat]
  | .pred .. => []

def dstCodes : Dst → List Nat
  | .reg d w _ => if w then [d.toNat, d.toNat + 1] else [d.toNat]
  | .pred pd _ => [64 + pd.toNat]

/-! ### Poison and run-ahead -/

/-- The active lanes that read a poisoned v register (R412). -/
def poisonedLanes (g : Group) (ls : Lanes) (regs : List Nat) : Lanes :=
  ls.filter fun l => regs.any fun r => g.poison.contains (vMark l r)

/-- The poison marks of what a lane reads for a source (R410, R412). -/
def srcMarks (lane : Nat) : Src → List Nat
  | .sel b w =>
    if 64 ≤ b.toNat && b.toNat < 96 then (if w then [gMark (b.toNat - 64), gMark (b.toNat - 63)] else [gMark (b.toNat - 64)])
    else (srcV (.sel b w)).map (vMark lane)
  | .pred k => [pMark lane k.toNat]
  | src => (srcV src).map (vMark lane)

/-- The active lanes for which a source is poisoned. -/
def badLanes (g : Group) (ls : Lanes) (srcs : List Src) : Lanes :=
  ls.filter fun l => srcs.any fun q => (srcMarks l q).any fun k => g.poison.contains k

/-- Whether a register of a lane is tainted in run-ahead (R351); g registers are kept under lane 0. -/
def isTainted (ra : RunAhead) (lane code : Nat) : Bool :=
  ra.tainted.contains (if code < 128 then lane else 0, code)

/-- Run-ahead follows the dependence (R351, step 3): in each lane of the entry the destinations become
tainted when the guard or a source is, and clean when an active lane writes them from clean sources.
DEDUCED, unsafe: log entry 23. -/
def spreadTaint (g : Group) (c : Issue) (guard : PredNo) (srcs dsts : List Nat) (dep : Nat → Lanes) : Group :=
  match g.runAhead with
  | none => g
  | some ra =>
    let ls := lanesOf g.width c.mask
    let act := fun l => lanePred g.regs l guard
    let hit := fun l => isTainted ra l (64 + guard.toNat) ||
      (act l && (dep l).any fun q => srcs.any fun k => isTainted ra q k)
    let at' := fun l d => (if d < 128 then l else 0, d)
    let clean := ls.flatMap fun l => if act l && !hit l then dsts.map (at' l) else []
    let dirty := ls.flatMap fun l => if hit l then dsts.map (at' l) else []
    { g with runAhead := some { ra with
        tainted := dedup (ra.tainted.filter (fun q => !clean.contains q) ++ dirty) } }

/-! ### Completing with registers written -/

/-- A window instruction waits until the flights that satisfy p have completed: those whose destination it writes (R90),
or all (R136). -/
def afterFlights (s : State) (c : Issue) (p : Flight → Bool) (k : State → State) : State :=
  let g := memberGroup s c.who
  if !(g.flights.any p) then k s
  else if g.flights.any fun f => p f && inFlight f then holdBack s c
  else k (updMember s c.who fun g => landFlights g p)

/-- A long-latency instruction goes into flight (R88): what it will write, and the group as it stands before it. -/
def newFlight (g : Group) (c : Issue) (la : Nat) (dst : List Nat) (ws : List RegWrite) (gws : List (Nat × Word))
    (fs : List (Nat × Flags6)) (ask : Option Asked) : Flight :=
  ⟨c, la + 1, c.pc, c.prio, dst, ws, gws, fs, ask, g.regs, g.poison, g.ycount, g.crit, g.deadline⟩

/-- Lanes retire with register writes, at once or, with lookahead la > 0, at completion (R88).
DEDUCED, unsafe: log entry 37. -/
def retireWrites (s : State) (c : Issue) (la : Nat) (dst : List Nat) (ws : List RegWrite)
    (fs : List (Nat × Flags6)) : State :=
  retireLanes s c fun g =>
    if la = 0 || g.runAhead.isSome then
      { g with
        regs := putFlags (putWrites g.regs ws) fs
        poison := unmark g.poison (writeMarks ws) }
    else
      { g with flights := g.flights ++
          [newFlight g c la dst ws [] fs none] }

/-- The writes of a result to a v register or pair of a lane. -/
def regWrites (d : Nat) (wide : Bool) (lane v : Nat) : List RegWrite :=
  if wide then [⟨lane, d, BitVec.ofNat 32 v⟩, ⟨lane, d + 1, BitVec.ofNat 32 (v / 2 ^ 32)⟩]
  else [⟨lane, d, BitVec.ofNat 32 v⟩]

/-! ### The operation of every register instruction -/

/-- An instruction that only computes on registers. one gives result and flags from the sources (and the old
destination last); cross, when present, gives every active lane's result from all of them; dep says which
lanes' first source a lane depends on. -/
structure RegOp where
  g : PredNo
  srcs : List Src
  dst : Dst
  la : Nat := 0
  lanesOnly : Bool := false
  signed : Bool := false
  one : List Nat → Nat × Flags6
  cross : Option (Nat → List (Nat × List Nat) → List (Nat × Nat × Flags6)) := none
  dep : Nat → Lanes := fun l => [l]

/-- All sources, the old destination last when it is one. -/
def RegOp.allSrcs (o : RegOp) : List Src :=
  o.srcs ++ match o.dst with
    | .reg d w true => [.reg d w]
    | .pred pd true => [.pred pd]
    | _ => []

/-- The results of the active lanes: (lane, value, flags). -/
def RegOp.results (o : RegOp) (width : Nat) (vals : List (Nat × List Nat)) : List (Nat × Nat × Flags6) :=
  match o.cross with
  | some f => f width vals
  | none => vals.map fun v => (v.1, o.one v.2)

/-- A sprue read from FULL registers, each consumed once (R26). -/
def consumeAll (s : State) (kc : Nat) (ks : List Nat) : State :=
  ks.foldl (fun s k => setSprue s kc k (consumed (sprueGet (kcOf s kc) k))) s

/-- Sprue registers are read on lanes: each is consumed, and the read acquires (R26, R29). -/
def readSprues (s : State) (c : Issue) (ks : List Nat) : State :=
  if ks.isEmpty then s else acquireSwaps (consumeAll s (memberKc c.who) ks) c.who

/-- On lanes (R106). A poisoned source register of a lane-crossing instruction names every active lane, whichever lanes
select it: each lane's result may depend on it (R138).
DEDUCED, unsafe: log entry 104. -/
def runOnLanes (s : State) (c : Issue) (o : RegOp) : State :=
  let g := memberGroup s c.who
  let kc := memberKc c.who
  let k := kcOf s kc
  let sprues := dedup (o.allSrcs.flatMap (srcSprue false))
  let act := activeLanes g c o.g
  let bad := badLanes g act o.allSrcs
  let named := if o.cross.isSome then act else bad
  match sprues.find? fun i => !readable k i with
  | some i => blockOn s c (.sprueFull (BitVec.ofNat 5 i))
  | none =>
    if !sprues.isEmpty && g.runAhead.isSome then endIssue (endRunAhead s c.who) c
    else if sprues.any fun i => (sprueGet k i).poison then trapAll s c cDataPoison
    else if !bad.isEmpty then trapLanes s c cDataPoison named 0 (dstCodes o.dst)
    else
      if !sprues.isEmpty && hasWaiting g then holdBack s c else
      afterFlights s c (writesTo (dstV o.dst)) fun s =>
        let vals := act.map fun l => (l, (o.allSrcs.zipIdx.map fun q => laneSrc s k g q.2 l q.1))
        let res := o.results g.width vals
        let fs := res.map fun r => (r.1, r.2.2)
        let s := updMember (readSprues s c sprues) c.who fun g =>
          spreadTaint g c o.g (o.allSrcs.flatMap srcCodes) (dstCodes o.dst) o.dep
        match o.dst with
        | .reg d w _ =>
          retireWrites s c o.la (dstV o.dst) (res.flatMap fun r => regWrites d.toNat w r.1 r.2.1) fs
        | .pred pd _ =>
          retireLanes s c fun g =>
            { g with
              regs := putFlags (res.foldl (fun r x => setLanePred r x.1 pd (decide (x.2.1 ≠ 0))) g.regs) fs
              poison := unmark g.poison (res.map fun x => pMark x.1 pd.toNat) }

/-- On the spine: once, when the guard is true; a write to a sprue register may block (R23, R28, R106).
DEDUCED, unsafe: log entry 8. -/
def runOnSpine (s : State) (c : Issue) (o : RegOp) : State :=
  let kc := memberKc c.who
  let k := kcOf s kc
  let sprues := dedup (o.allSrcs.flatMap (srcSprue true))
  if !spinePred k.spine o.g then retireNop s c
  else
    match sprues.find? fun i => !readable k i with
    | some i => blockOn s c (.sprueFull (BitVec.ofNat 5 i))
    | none =>
      if (sprues.any fun i => (sprueGet k i).poison) || ((o.allSrcs.flatMap srcX).any fun r => k.spine.poison.contains r)
      then trapAll s c cDataPoison
      else
        let r := o.one (o.allSrcs.map (spineSrc k))
        let done := fun s => retireSpine (consumeAll s kc sprues) c
        match o.dst with
        | .pred pd _ => done s fun sp => { setSpinePred sp pd (decide (r.1 ≠ 0)) with lstat := sp.lstat ||| r.2 }
        | .reg d w _ =>
          let v := spineResult w o.signed r.1
          if d.toNat < 32 then done s fun sp => { xSet sp d.toNat v with lstat := sp.lstat ||| r.2 }
          else
            match ssetReg (sprueGet k (d.toNat - 32)) (some v) with
            | .block => blockOn s c (.sprueEmpty (BitVec.ofNat 5 (d.toNat - 32)))
            | .protocol => trapAll s c cSprueProtocol
            | .ok reg => done (setSprue s kc (d.toNat - 32) reg) fun sp => { sp with lstat := sp.lstat ||| r.2 }

/-- A register instruction: the decoding checks of R95, then the unit's execution. -/
def runReg (s : State) (c : Issue) (o : RegOp) : State :=
  let sp := isSpine c.who
  let budget := (memberGroup s c.who).budget
  checked s c
    [(sp && o.lanesOnly, cWrongUnit),
     (!(o.srcs.all (srcOk sp budget) && dstOk sp budget o.dst), cIllegal),
     (!spruesOk s c (o.srcs.flatMap (srcSprue sp) ++ dstSprue sp o.dst), cProtection)]
    (if sp then runOnSpine s c o else runOnLanes s c o)

end Sys2Proof.Machine
end

