-- ==== Sys2Proof/Machine/Access.lean ====
section
/-! DEFINITION. Loads and stores to memory and to the core's buffers, acquire loads and release stores, and
fences (R244 to R255): one checking pass over all threads, then each thread's effect, then completion. -/

namespace Sys2Proof.Machine

/-- One thread of an access: lane (0 for the spine), address register, data to store or operand. -/
structure Thread where
  lane : Nat
  addr : DWord
  data : List Byte

/-- Bytes of a size code. -/
def sizeBytes (size : Nat) : Nat := 2 ^ size

/-! ### Operand checks -/

/-- The data registers of a lane access lie where the size wants them (R245). -/
def dataOk (budget size d : Nat) : Bool :=
  if size = 4 then decide (d % 4 = 0) && decide (d + 4 ≤ budget) else vOk budget (size = 3) d

/-- The v registers of the data. -/
def dataRegs (size d : Nat) : List Nat := (List.range (if size = 4 then 4 else if size = 3 then 2 else 1)).map fun i => d + i

/-- The low bytes of a lane's data registers. -/
def laneData (s : State) (g : Group) (lane size d : Nat) : List Byte :=
  ((dataRegs size d).flatMap fun r => natToBytes 4 (readV s g (16 + r) lane r).toNat).take (sizeBytes size)

/-- A lane's address: the pair for global memory, the single register for a buffer (R244). -/
def laneAddr (s : State) (g : Group) (lane a : Nat) (pair : Bool) : DWord :=
  if pair then joinWords (readV s g 1 lane a) (readV s g 2 lane (a + 1)) else (readV s g 1 lane a).setWidth 64

/-- The register writes of a loaded value (R245). -/
def loadWrites (lane size d : Nat) (sext : Bool) (bytes : List Byte) : List RegWrite :=
  let n := bytesToNat bytes
  if size < 2 then [⟨lane, d, if sext then BitVec.ofInt 32 (sextNat (8 * sizeBytes size) n) else BitVec.ofNat 32 n⟩]
  else (dataRegs size d).zipIdx.map fun r => ⟨lane, r.1, BitVec.ofNat 32 (n / 2 ^ (32 * r.2))⟩

/-- The value a loaded register of the spine takes (R39, R245). -/
def loadSpine (size : Nat) (sext : Bool) (bytes : List Byte) : DWord :=
  let n := bytesToNat bytes
  if size < 2 && sext then BitVec.ofInt 64 (sextNat (8 * sizeBytes size) n) else BitVec.ofNat 64 n

/-! ### Completion (R247, R249) -/

/-- The bytes that a lane's access got, in the order of their offsets. -/
def gotBytes (a : Asked) (lane : Nat) : List Byte :=
  ((sortBy (fun g => g.2.1) (a.got.filter fun g => g.1 = lane)).map fun g => g.2.2).flatten

/-- The lowest lane that met a late cause decides what the frame carries (R249). -/
def lateFirst (a : Asked) : Option (Nat × Byte × Nat) := (sortBy (fun l => l.1) a.late).head?

/-- The lanes of a group for which a load writes. -/
def loadedWrites (a : Asked) : List RegWrite :=
  match a.load with
  | some (d, size, sext) => (dedup (a.got.map fun g => g.1)).flatMap fun l => loadWrites l size d sext (gotBytes a l)
  | none => []

/-- The trap of a late cause. -/
def lateRaise (a : Asked) : Raise :=
  match lateFirst a with
  | some l => { cause := l.2.1, late := true, lanes := a.undone, addr := l.2.2 }
  | none => { cause := 0 }

/-- A lane of a late trap is the lowest that met the cause, not the lowest of the set.
DEDUCED, unsafe: log entry 7. -/
def lateTrap (c : Issue) (a : Asked) : Trap :=
  let t := trapOf c (lateRaise a)
  if isSpine c.who then t else { t with lane := BitVec.ofNat 6 (((lateFirst a).map fun l => l.1).getD 0) }

/-- A lane access ends at its issue: it retires, stays in flight, or traps late. ws: writes made whatever the
outcome (an atomic's completed lanes). -/
def endLanes (s : State) (c : Issue) (la : Nat) (dst : List Nat) (a : Asked) (ws : List RegWrite) : State :=
  if a.waiting.isEmpty then
    if a.late.isEmpty then retireWrites s c la dst (ws ++ loadedWrites a) []
    else if (memberGroup s c.who).runAhead.isSome then passTainted s c dst
    else if hasWaiting (memberGroup s c.who) then holdBack s c
    else endIssue (stopMember (updMember s c.who fun g =>
      let g := countAtTrap (landAll g) c
      { g with
        regs := putWrites g.regs ws
        poison := unmark g.poison (writeMarks ws) }) c.who (lateTrap c a)) c
  else if (memberGroup s c.who).runAhead.isSome then passTainted s c dst
  else
    retireLanes s c fun g => { g with flights := g.flights ++
      [newFlight g c la dst ws [] [] (some a)] }

/-- A spine's loaded value reaches x or, by `sset`, a sprue register (R23, R245). -/
def spineLoadInto (s : State) (c : Issue) (d : Nat) (v : DWord) : State :=
  let kc := memberKc c.who
  if d < 32 then retireSpine s c fun sp => { xSet sp d v with asked := none }
  else
    match ssetReg (sprueGet (kcOf s kc) (d - 32)) (some v) with
    | .ok r => retireSpine (setSprue s kc (d - 32) r) c fun sp => { sp with asked := none }
    | .block => blockOn (updSpine s kc fun sp => { sp with asked := none }) c (.sprueEmpty (BitVec.ofNat 5 (d - 32)))
    | .protocol => trapAll (updSpine s kc fun sp => { sp with asked := none }) c cSprueProtocol

/-- The spine's access ends: it retires, waits for answers, or traps late. -/
def endSpine (s : State) (c : Issue) (a : Asked) : State :=
  if a.waiting.isEmpty then
    if a.late.isEmpty then
      (match a.load with
       | some (d, size, sext) => spineLoadInto s c d (loadSpine size sext (gotBytes a 0))
       | none => retireSpine s c fun sp => { sp with asked := none })
    else endIssue (stopMember s c.who (lateTrap c a)) c
  else endIssue (updSpine s (memberKc c.who) fun sp => { sp with asked := some (c, a) }) c

def endAccess (s : State) (c : Issue) (la : Nat) (dst : List Nat) (a : Asked) (ws : List RegWrite) : State :=
  if isSpine c.who then endSpine s c a else endLanes s c la dst a ws

/-! ### The checking pass (R248) -/

/-- The check of one global thread: rows 2 and 3 of the address itself, then the resolution.
DEDUCED, unsafe: log entry 15. -/
def checkThread (s : State) (ctx : Ctx) (need : Need) (feat sync : Bool) (n : Nat) (t : Thread) :
    State × Except Miss (List Piece) :=
  let va := t.addr.toNat % 2 ^ 48
  let mis := sync && decide (t.addr.toNat % n ≠ 0)
  let high := decide (2 ^ 48 ≤ t.addr.toNat)
  if need.atomic && !feat && !high then
    match resolve s ctx need feat va n with
    | (s, .error m) => (s, .error (if m.row = 1 || !mis then m else ⟨2, cMisaligned, 0, va, false, false, false⟩))
    | (s, .ok ps) => if mis then (s, .error ⟨2, cMisaligned, 0, va, false, false, false⟩) else (s, .ok ps)
  else if mis then (s, .error ⟨2, cMisaligned, 0, va, false, false, false⟩)
  else if high then (s, .error ⟨3, cProtection, 0, va, false, false, false⟩)
  else resolve s ctx need feat va n

/-- All threads in turn. -/
def checkAll (s : State) (ctx : Ctx) (need : Need) (feat sync : Bool) (n : Nat) :
    List Thread → State × List (Thread × Except Miss (List Piece))
  | [] => (s, [])
  | t :: ts =>
    match checkThread s ctx need feat sync n t with
    | (s, r) =>
      match checkAll s ctx need feat sync n ts with
      | (s, rs) => (s, (t, r) :: rs)

/-- The failed lanes of a checking pass. -/
def missesOf (rs : List (Thread × Except Miss (List Piece))) : List (Nat × Miss) :=
  rs.filterMap fun r => match r.2 with
    | .error m => some (r.1.lane, m)
    | .ok _ => none

/-- The pieces of the threads that passed. -/
def passedOf (rs : List (Thread × Except Miss (List Piece))) : List (Thread × List Piece) :=
  rs.filterMap fun r => match r.2 with
    | .error _ => none
    | .ok ps => some (r.1, ps)

/-- The lowest row any lane meets (R248). -/
def firstRow (ms : List (Nat × Miss)) : Nat := (ms.foldl (fun acc m => if m.2.row < acc then m.2.row else acc) 100)

def pageOf (m : Miss) : FaultPage := ⟨m.addr / 65536, m.x, m.w, m.s2⟩

/-- One entry for each page (R331, R351): those met by several lanes need what any of them does. -/
def joinPage (p : FaultPage) : List FaultPage → List FaultPage
  | [] => [p]
  | q :: qs => if q.page = p.page then { q with x := q.x || p.x, w := q.w || p.w } :: qs else q :: joinPage p qs

def joinPages (ps : List FaultPage) : List FaultPage := ps.foldl (fun acc p => joinPage p acc) []

/-- What a failed checking pass raises: the first row met, for the lanes that meet it. -/
def raiseOf (ms : List (Nat × Miss)) : Raise :=
  let row := firstRow ms
  let hit := ms.filter fun m => m.2.row = row
  match hit.head? with
  | none => { cause := 0 }
  | some m =>
    { cause := m.2.cause, code := BitVec.ofNat 8 m.2.code, lanes := maskOf (hit.map fun h => h.1), addr := m.2.addr
      pages := if m.2.cause = cPageFault then
          (joinPages (hit.map fun h => pageOf h.2)).take 32 else [] }

/-- Whether a failed check is that of an access to a doorbell, in the window of R391. -/
def atDoorbell (m : Miss) : Bool := decide (0xFFFFFFF00000 ≤ m.addr) || m.cause = cBarrierRemote

/-- A failed pass traps; a page fault on lanes begins or joins run-ahead, with the destinations dst (R351). Run-ahead
stops before a load of a doorbell, and discards every other cause. -/
def raiseMisses (s : State) (c : Issue) (ms : List (Nat × Miss)) (dst : List Nat) (isLoad : Bool) : State :=
  let r := raiseOf ms
  let g := memberGroup s c.who
  match g.runAhead with
  | some ra =>
    if r.cause = cPageFault && isLoad then
      retireLanes s c fun g => { g with runAhead := some { ra with
        trap := { ra.trap with pages :=
          (joinPages (ra.trap.pages ++ r.pages)).take 32 }
        tainted := dedup (ra.tainted ++ taintAll g c dst) } }
    else if !isLoad || ms.any (fun m => atDoorbell m.2) then endIssue (endRunAhead s c.who) c
    else passTainted s c dst
  | none => takeTrap s c r dst (r.cause = cPageFault)

/-! ### Performing (R246 to R251) -/

/-- A request beyond the core for one piece: host link or fabric, if a circuit reaches the port (R379). -/
def targetOf : Way → Option Target
  | .window w off => some (.window w off)
  | .fabric d e off => some (.fabric d e off)
  | _ => none

/-- The plane of a request, one of the 18 links (R399); the traffic of a failed plane moves to those that remain
(R400). -/
def pickPlane (s : State) : Target → Nat
  | .window _ _ => 0
  | .fabric dev exp off =>
    let p := Config.planeOf dev (exp * 2 ^ 20 + off / 65536)
    if s.fab.linksDown.contains (p % 18) then
      let up := (List.range 18).filter fun i => !s.fab.linksDown.contains i
      (up[p % up.length]?).getD 0
    else p % 18

/-- The message of a request: to the host at its bus address with the window's No Snoop (R395), or to a peer. -/
def reqMsg (s : State) (r : Request) : Msg :=
  match r.target with
  | .window w off =>
    let e := amGet Window.zero s.host.windows w
    .hostReq r.id r.target (e.hbase + BitVec.ofNat 64 off) e.ns r.kind r.scope
  | .fabric .. => .fabricReq r.id r.target r.kind r.scope

/-- Sends a request and returns its number; a posted write has none waiting for it.
DEDUCED, unsafe: log entry 73. -/
def sendReq (s : State) (r : Request) (posted : Bool) : State :=
  { send s (reqMsg s r) with
    nextId := s.nextId + 1
    requests := if posted then s.requests else s.requests ++ [{ r with plane := pickPlane s r.target }] }

/-- The port a target lies behind (R378). -/
def targetPort : Target → Nat
  | .window .. => 12
  | .fabric .. => 13

/-- The 8-byte locations that a range touches (R229). -/
def locsOf (pa n : Nat) : List Nat := (List.range ((pa + n + 7) / 8 - pa / 8)).map fun i => pa / 8 + i

/-- Access marks of `fence.rp` end when the thread's next access to the location completes (R229). -/
def endMarks (s : State) (asid : Asid) (m : Member) (lane pa n : Nat) : State :=
  updCtx s asid fun c => { c with marks := c.marks.filter fun k => !((locsOf pa n).contains k.1 && k.2.1 = m && k.2.2 = lane) }

/-- The marks of threads that are pre-empted or end (R229, step 5). -/
def dropMarks (s : State) (m : Member) (lanes : LaneMask) : State :=
  updCtx s (memberAsid s m) fun c => { c with marks := c.marks.filter fun k => !(k.2.1 = m && lanes.getLsbD k.2.2) }

/-- A core-scope release records the writing core at each location it writes (R229, R253). -/
def setOwner (s : State) (asid : Asid) (m : Member) (pa n : Nat) : State :=
  let o := some (memberKc m, memberCore m, (memberDie s m).toNat)
  updCtx s asid fun x => { x with owners := (locsOf pa n).foldl (fun acc l => amSet none acc l o) x.owners }

/-- What one thread's access does at each piece. -/
structure Perform where
  need : Need
  scope : BitVec 2
  load : Option (Nat × Nat × Bool)
  owner : Bool
  dst : Nat
  sync : Bool := false

/-- The port that a doorbell store goes to: Daryesh while an entry forwards it (R421), else the die of the barrier that
the doorbell stands for, when it is placed (R208). -/
def doorPort (s : State) (asid : Asid) (idx : Nat) : Option Nat :=
  match s.host.forwards.find? fun f => f.asid = asid with
  | some f => if f.live then some 13 else none
  | none =>
    match amGet none (ctxOf s asid).doors idx with
    | some (kc, _, _) => (kcOf s kc).place.map fun p => p.die.toNat
    | none => none

/-- Whether a doorbell store from a port meets no circuit to the doorbell's port (R379). -/
def doorOffline (s : State) (port : Nat) (asid : Asid) (idx : Nat) : Bool :=
  match doorPort s asid idx with
  | some d => decide (port ≠ d) && !circuitUp? s port d
  | none => false

/-- Whether an access is a posted write to a host window, which meets no late cause (R249, R396). -/
def postedTo (need : Need) (tg : Target) : Bool :=
  need.w && !need.r && !need.page && (match tg with | .window .. => true | .fabric .. => false)

/-- The late cause of a piece: at its home, or for want of a circuit to the link's or the doorbell's port (R249,
R379). -/
def pieceLate (s : State) (d : DieNo) (need : Need) (p : Piece) : Option Byte :=
  match targetOf p.way with
  | some tg => if postedTo need tg || circuitUp? s d.toNat (targetPort tg) then none else some cDieOffline
  | none =>
    match p.way with
    | .door asid idx _ => if doorOffline s d.toNat asid idx then some cDieOffline else none
    | _ => lateOf s d need p

/-- A posted write to a host window is sent, or lost for want of a circuit: nothing answers it (R379, R396). -/
def postWindow (s : State) (d : DieNo) (r : Request) : State :=
  if circuitUp? s d.toNat 12 then sendReq s r true else s

/-- Where a part goes, as a space and a first byte: memory, or a host window. -/
def pendKey (tg : Option Target) (pa : Nat) : Nat × Nat :=
  match tg with
  | some (.window w off) => (w + 1, off)
  | _ => (0, pa)

/-- The bytes [i, i + m) of a held part. -/
def cutPend (p : Pend) (i m : Nat) : List Pend :=
  if m = 0 then [] else
    [{ p with
      target := match p.target with
        | some (.window w off) => some (.window w (off + i))
        | t => t
      pa := p.pa + i, bytes := (p.bytes.drop i).take m, va := p.va + i }]

/-- A held part without the bytes that a higher lane of the instruction has stored: those remain (R251). -/
def trimPend (lane : Nat) (key : Nat × Nat) (n : Nat) (p : Pend) : List Pend :=
  let k := pendKey p.target p.pa
  let len := p.bytes.length
  if decide (lane ≤ p.lane) || k.1 ≠ key.1 || !rangesMeet k.2 len key.2 n then [p]
  else cutPend p 0 (key.2 - k.2) ++ cutPend p (key.2 + n - k.2) (k.2 + len - (key.2 + n))

/-- What an access still holds after lane stored n bytes at a place. -/
def Asked.stored (a : Asked) (lane : Nat) (tg : Option Target) (pa n : Nat) : Asked :=
  { a with pend := a.pend.flatMap (trimPend lane (pendKey tg pa) n) }

/-- One piece of a load or store that met no late cause. wait: another piece of the store goes over the fabric, and this
one waits for its answer.
DEDUCED, unsafe: log entry 14. -/
def performPiece (s : State) (c : Issue) (ctx : Ctx) (o : Perform) (wait : Bool) (t : Thread) (a : Asked) (p : Piece) :
    State × Asked :=
  let bytes := (t.data.drop p.off).take p.n
  match p.way with
  | .mem pa cls =>
    if o.need.w && wait then (s, { a with pend := a.pend ++ [⟨t.lane, none, pa, cls, bytes, p.va⟩] })
    else
      let s := endMarks s ctx.asid c.who t.lane pa p.n
      if o.need.w then
        let s := ctxWrite s ctx pa cls bytes
        (if o.owner then setOwner s ctx.asid c.who pa p.n else s, a.stored t.lane none pa p.n)
      else
        let d := memberDie s c.who
        let at' := servedPart s d o.need pa cls
        (if at' = pa then s else useReplica s d pa, { a with got := a.got ++ [(t.lane, p.off, memRead s at' p.n)] })
  | .door asid idx _ => (ringOnce s asid idx o.sync, a)
  | w =>
    match targetOf w with
    | none => (s, a)
    | some tg =>
      let r : Request := ⟨s.nextId, some c.who, [(t.lane, 0)], p.off, o.dst, p.va, o.scope, ctx.asid, tg,
        if o.need.w then .store bytes false else .load p.n, [], 0⟩
      if !postedTo o.need tg then (sendReq s r false, { a with waiting := a.waiting ++ [r.id] })
      else if wait then (s, { a with pend := a.pend ++ [⟨t.lane, some tg, 0, 0, bytes, p.va⟩] })
      else (postWindow s (memberDie s c.who) r, a.stored t.lane (some tg) 0 p.n)

def performPieces (s : State) (c : Issue) (ctx : Ctx) (o : Perform) (wait : Bool) (t : Thread) (a : Asked) :
    List Piece → State × Asked
  | [] => (s, a)
  | p :: ps =>
    match performPiece s c ctx o wait t a p with
    | (s, a) => performPieces s c ctx o wait t a ps

/-- Whether a piece goes over the fabric. -/
def isFabric (p : Piece) : Bool := match p.way with | .fabric .. => true | _ => false

/-- Every thread in ascending lane order (R251).
DEDUCED, unsafe: log entry 5. -/
def performAll (s : State) (c : Issue) (ctx : Ctx) (o : Perform) : List (Thread × List Piece) → Asked → State × Asked
  | [], a => (s, a)
  | (t, ps) :: rest, a =>
    match ps.findSome? fun p => (pieceLate s (memberDie s c.who) o.need p).map fun b => (t.lane, b, p.va) with
    | some l => performAll s c ctx o rest { a with late := a.late ++ [l] }
    | none =>
      let wait := o.need.w && ps.any isFabric
      match performPieces s c ctx o wait t a ps with
      | (s, a) => performAll s c ctx o rest (if wait || !o.need.w then a else { a with undone := a.undone &&& ~~~laneBit t.lane })

/-- What an access starts with: nothing asked, every active lane undone. -/
def askedInit (ts : List Thread) (load : Option (Nat × Nat × Bool)) : Asked :=
  ⟨[], [], [], load, maskOf (ts.map fun t => t.lane), false, [], []⟩

/-- The member acquires, when an access of it that acquires (acq) has completed at its issue. -/
def acquireIf (s : State) (c : Issue) (acq : Bool) (a : Asked) : State :=
  if acq && a.late.isEmpty && a.waiting.isEmpty then acquireSwaps s c.who else s

/-- A global load or store of all threads: checks, effects, completion. -/
def globalAccess (s : State) (c : Issue) (need : Need) (sync : Bool) (scope : BitVec 2) (owner : Bool) (n la : Nat)
    (dst : List Nat) (load : Option (Nat × Nat × Bool)) (acq : Bool) (ts : List Thread) : State :=
  let ctx := ctxOf s (memberAsid s c.who)
  match checkAll s ctx need true sync n ts with
  | (s', rs) =>
    let ms := missesOf rs
    if !ms.isEmpty then raiseMisses s c ms dst need.r
    else
      let o : Perform := ⟨need, scope, load, owner, dst.headD 0, sync⟩
      match performAll s' c ctx o (passedOf rs) (askedInit ts load) with
      | (s, a) => endAccess (acquireIf s c acq a) c la dst a []

/-! ### Buffers (R192 to R200, R213) -/

/-- A buffer's target of one lane: the core and offset, for w, a and ar (R194). -/
def bufTarget (k : Kc) (core : Nat) (space : Nat) (addr : Nat) : Except Miss (Nat × Nat) :=
  if space = 4 then
    if addr / 2 ^ 25 ≠ 0 || decide (coresOf k ≤ addr / 2 ^ 21 % 16) then .error ⟨3, cProtection, 0, addr, false, false, false⟩
    else .ok (addr / 2 ^ 21 % 16, addr % 2 ^ 21)
  else .ok (core, addr)

/-- The size a team declared for a buffer. -/
def bufSize (t : Team) : Space → Nat
  | .bufW => t.wSize
  | .bufA => t.aSize
  | .bufC => t.cSize
  | .global => 0

/-- The region a byte range of the A buffer touches. -/
def regionAt (t : Team) (addr n : Nat) : Option Region := t.regions.find? fun r => rangesMeet addr n r.base r.bytes

/-- Whether a range touches a stepped region. -/
def inRegion (t : Team) (addr n : Nat) : Bool := (regionAt t addr n).isSome

/-- Row 3 and row 10 for one lane of a buffer access; remote: through ar from another team. -/
def bufCheck (s : State) (kc : Nat) (core : Nat) (buf : Space) (addr n : Nat) (store remote atomic : Bool) (size : Nat)
    (shown : Nat) : Option Miss :=
  let t := teamOf s kc core
  let prot : Option Miss := some ⟨3, cProtection, 0, shown, false, false, false⟩
  if bufSize t buf < addr + n then prot
  else
    let badRegion := match buf with
      | .bufA => (match regionAt t addr n with
        | some r => atomic || (store && (remote || decide (size < 2) || decide (addr % 4 ≠ 0) ||
            !(decide (r.base ≤ addr) && decide (addr + n ≤ r.base + r.bytes))))
        | none => false)
      | _ => false
    if badRegion then prot
    else if rangeLocked s kc core buf addr n store then some ⟨10, cRangeLocked, 0, shown, false, false, false⟩
    else none

/-- The bytes a lane or the drain reads: the present plane inside a region (R198). -/
def bufByte (t : Team) (buf : Space) (a : Nat) : Byte :=
  match buf with
  | .bufW => amGet 0 t.w a
  | .bufA => (match regionAt t a 1 with
    | some r => amGet 0 r.present a
    | none => amGet 0 t.a a)
  | .bufC => amGet 0 t.c a
  | .global => 0

def bufRead (t : Team) (buf : Space) (a n : Nat) : List Byte := (addrsFrom a n).map (bufByte t buf)

/-- A byte of a stepped region as a group reads it: the present value; or, where the group was behind at the last swap,
the one before it; or, where it has arrived in this phase, the one that a swap now would make present: unspecified which
(R202). tag tells the choices apart. -/
def regionByte (s : State) (r : Region) (group tag a : Nat) : Byte :=
  if r.arrived.contains group && Config.freeBit s.fresh (2 ^ 21 + tag) then swapByte r a
  else if r.behind.contains group && Config.freeBit s.fresh (2 ^ 20 + tag) then amGet 0 r.prev a
  else amGet 0 r.present a

/-- What a lane's load reads, or the drain's read of a scale. In a region of its own team, between its group's arrival
and its next acquire, it gets the present value before or after a swap, unspecified which (R201, R202): one choice for
an aligned access, one per byte otherwise (R218, R219).
DEDUCED, unsafe: log entry 78. -/
def laneBufRead (s : State) (t : Team) (own : Bool) (group lane : Nat) (buf : Space) (a n : Nat) : List Byte :=
  (addrsFrom a n).map fun i =>
    match if own && decide (buf = .bufA) then regionAt t i 1 else none with
    | some r => regionByte s r group (lane * 16 + if a % n = 0 then 0 else i - a) i
    | none => bufByte t buf i

/-- Which buffer number a poison mark names. -/
def bufNo : Space → Nat
  | .bufW => 0
  | .bufA => 1
  | .bufC => 2
  | .global => 3

def bufPoisoned (t : Team) (buf : Space) (a n : Nat) : Bool := (partsOf a n).any fun q => t.poison.contains (bufNo buf, q)

/-- Writes bytes of a buffer outside the stepped regions. -/
def bufPut (t : Team) (buf : Space) (a : Nat) (bytes : List Byte) : Team :=
  let t := { t with poison := t.poison.filter fun q => !(q.1 = bufNo buf && decide (a ≤ 16 * q.2) &&
    decide (16 * q.2 + 16 ≤ a + bytes.length)) }
  match buf with
  | .bufW => { t with w := putBytes t.w a bytes }
  | .bufA => { t with a := putBytes t.a a bytes }
  | .bufC => { t with c := putBytes t.c a bytes }
  | .global => t

/-- A lane's store to a buffer: to the next plane inside a region, or held for the plane that follows when
the group has arrived (R198, R202). -/
def bufStore (t : Team) (team group lane prio : Nat) (buf : Space) (a : Nat) (bytes : List Byte) : Team :=
  match buf, regionAt t a bytes.length with
  | .bufA, some r =>
    let r' := if r.arrived.contains group then { r with held := r.held ++ [⟨group, lane, prio, a, bytes⟩] }
      else regionStore r (storeKey prio team group lane) a bytes (bytes.length / 4)
    { t with
      regions := t.regions.map fun q => if q.idx = r.idx then r' else q
      poison := if r.arrived.contains group then t.poison else clearNext t.poison a bytes.length }
  | _, _ => bufPut t buf a bytes

/-- The lanes whose words collide under the fault rule (R200): with the written bits or with another lane's.
DEDUCED, unsafe: log entry 31. -/
def collisions (t : Team) (group : Nat) (ts : List (Nat × Nat × Nat)) : Lanes :=
  let words := fun (e : Nat × Nat × Nat) => (List.range (e.2.2 / 4)).map fun i => e.2.1 / 4 + i
  (ts.filter fun e =>
    match regionAt t e.2.1 e.2.2 with
    | some r =>
      r.rule = 3 && (words e).any fun w =>
        (if r.arrived.contains group then r.held.any fun h => decide (h.addr / 4 ≤ w) && decide (w < (h.addr + h.bytes.length) / 4)
         else amGet false r.written w) ||
        ts.any fun f => f.1 ≠ e.1 && (words f).contains w
    | none => false).map fun e => e.1

/-- A lane load or store in w, a or ar (R192 to R194, R198 to R202, R213). STEP_COLLISION is found once rows 3 and 10 of
R248 have passed in every lane.
DEDUCED, unsafe: log entry 105. -/
def bufAccess (s : State) (c : Issue) (space size d : Nat) (store sext : Bool) (la : Nat) (ts : List Thread) : State :=
  let kc := memberKc c.who
  let k := kcOf s kc
  let core := memberCore c.who
  let n := sizeBytes size
  let buf : Space := if space = 2 then .bufW else .bufA
  let g := memberGroup s c.who
  let dst := if store then [] else dataRegs size d
  let targets := ts.map fun t => (t, bufTarget k core space (t.addr.toNat % 2 ^ 32))
  let checks := targets.filterMap fun t =>
    match t.2 with
    | .error m => some (t.1.lane, m)
    | .ok (tc, off) =>
      if store && space = 2 then some (t.1.lane, ⟨3, cProtection, 0, t.1.addr.toNat % 2 ^ 32, false, false, false⟩)
      else (bufCheck s kc tc buf off n store (tc ≠ core) false size (t.1.addr.toNat % 2 ^ 32)).map fun m => (t.1.lane, m)
  let ok := targets.filterMap fun t =>
    match t.2 with
    | .ok p => some (t.1, p.1, p.2)
    | .error _ => none
  if !checks.isEmpty then raiseMisses s c checks dst (!store)
  else if store then
    let own := (ok.filter fun e => e.2.1 = core).map fun e => (e.1.lane, e.2.2, n)
    let coll := if buf = .bufA then collisions (teamOf s kc core) g.idx own else []
    if !coll.isEmpty then
      trapLanes s c cStepCollision coll (((ts.find? fun t => coll.contains t.lane).map fun t => t.addr.toNat % 2 ^ 32).getD 0)
    else
      let s := ok.foldl (fun s e => updTeam s kc e.2.1 fun t =>
        bufStore t (teamNo k e.2.1) g.idx e.1.lane c.prio.toNat buf e.2.2 e.1.data) s
      retireLanes s c id
  else
    let got := ok.map fun e => (e.1.lane, 0, laneBufRead s (teamOf s kc e.2.1) (decide (e.2.1 = core)) g.idx e.1.lane buf e.2.2 n)
    let late := (ok.filter fun e => bufPoisoned (teamOf s kc e.2.1) buf e.2.2 n).map fun e =>
      (e.1.lane, cDataPoison, e.1.addr.toNat % 2 ^ 32)
    let all := maskOf (ts.map fun t => t.lane)
    endLanes s c la dst ⟨[], late, got, some (d, size, sext), all, false, [], []⟩ []

/-! ### LD, ST, LDO -/

/-- A load or store in every space (R244, R245, R251, R252). -/
structure MemOp where
  g : PredNo
  store : Bool
  sext : Bool
  d : RegField
  a : RegField
  size : Nat
  space : Nat
  sync : Bool
  scope : BitVec 2
  la : Nat

/-- Whether a remote write of a context has not been acknowledged by its target (R240). -/
def fabricPending (s : State) (asid : Asid) : Bool :=
  s.requests.any fun r => r.asid = asid && (match r.target with | .fabric .. => true | .window .. => false) &&
    (match r.kind with | .store _ _ => true | _ => false)

/-- Whether an access is a system-scope release, which takes place only behind the context's earlier writes (R240). -/
def systemRelease (o : MemOp) : Bool := o.store && o.sync && o.scope = 3

/-- Whether an instruction word is an acquire load, or a `tailrd` of CTAIL, which acquires too (R252, R366, R368). -/
def acquires (w : Word) : Bool :=
  (decide (bitsOf w 5 1 = 21) && !bitOf w 27) || (decide (bitsOf w 5 1 = 24) && decide (bitsOf w 27 22 = 32))

/-- Whether an access of the group must be answered before any later access goes out: an acquire (R221, R252, R368), a
store with a part that is still held, or an atomic with lanes not yet sent: a later load of the same thread may not pass
its store or its atomic (R221, R251, R257).
DEDUCED, unsafe: log entry 106. -/
def acquirePending (s : State) (g : Group) : Bool :=
  g.flights.any fun f => match f.ask with
    | some a => acquires f.issue.word || !a.pend.isEmpty || s.requests.any fun r => a.waiting.contains r.id && !r.later.isEmpty
    | none => false

/-- On the spine: one thread, address and data from x or s (R244, R245). A sprue register d is tested, and waited for,
before the rows of R248; when it is FULL again at the answer, the load is sent once more.
DEDUCED, unsafe: log entry 107. -/
def memOnSpine (s : State) (c : Issue) (o : MemOp) : State :=
  let kc := memberKc c.who
  let k := kcOf s kc
  let sprues := (spineSprue o.a).toList
  if !spinePred k.spine o.g then retireNop s c
  else if sprues.any fun i => !readable k i then blockOn s c (.sprueFull (BitVec.ofNat 5 (o.a.toNat - 32)))
  else if systemRelease o && fabricPending s (memberAsid s c.who) then holdBack s c
  else if (sprues.any fun i => (sprueGet k i).poison) || k.spine.poison.contains o.a.toNat ||
      (o.store && k.spine.poison.contains o.d.toNat) then trapAll s c cDataPoison
  else
    let addr : DWord := BitVec.ofNat 64 (spineField k o.a.toNat true)
    let data := if o.store then natToBytes (sizeBytes o.size) (xGet k.spine o.d.toNat).toNat else []
    let w := if o.store || o.d.toNat < 32 then SprueWrite.ok SprueReg.init
      else ssetReg (sprueGet k (o.d.toNat - 32)) (some 0)
    match w with
    | .block => blockOn s c (.sprueEmpty (BitVec.ofNat 5 (o.d.toNat - 32)))
    | .protocol => trapAll s c cSprueProtocol
    | .ok _ =>
      let run := globalAccess (consumeAll s kc sprues) c { r := !o.store, w := o.store } o.sync o.scope
        (o.store && o.sync && o.scope = 0) (sizeBytes o.size) 0 [o.d.toNat]
        (if o.store then none else some (o.d.toNat, o.size, o.sext)) false [⟨0, addr, data⟩]
      -- a read whose instruction traps has not happened, and one that waits happens when it completes (R27)
      if (kcOf run kc).spine.trap.isSome || (kcOf run kc).spine.asked.isSome then
        updKc run kc fun q => { q with sprue := k.sprue }
      else run

/-- On lanes. Run-ahead stops before a store, or a load in the sys space, whatever its operands (R351). A poisoned address
or data register comes before the rows of R248.
DEDUCED, unsafe: log entry 108. -/
def memOnLanes (s : State) (c : Issue) (o : MemOp) : State :=
  let g := memberGroup s c.who
  let act := activeLanes g c o.g
  let buffer := decide (2 ≤ o.space) && decide (o.space ≤ 4)
  let aRegs := if buffer then [o.a.toNat] else [o.a.toNat, o.a.toNat + 1]
  let dRegs := dataRegs o.size o.d.toNat
  let bad := poisonedLanes g act (aRegs ++ if o.store then dRegs else [])
  let addrTainted := match g.runAhead with
    | some ra => act.any fun l => aRegs.any fun r => isTainted ra l r
    | none => false
  let run := fun s =>
    let ts := act.map fun l => (⟨l, laneAddr s g l o.a.toNat (!buffer), if o.store then laneData s g l o.size o.d.toNat else []⟩ : Thread)
    if buffer then bufAccess s c o.space o.size o.d.toNat o.store o.sext o.la ts
    else globalAccess s c { r := !o.store, w := o.store } o.sync o.scope (o.store && o.sync && o.scope = 0)
      (sizeBytes o.size) o.la (if o.store then [] else dRegs) (if o.store then none else some (o.d.toNat, o.size, o.sext))
      (o.sync && !o.store && g.runAhead.isNone) ts
  if g.runAhead.isSome && (o.store || o.space = 5) then endIssue (endRunAhead s c.who) c
  else if !bad.isEmpty then trapLanes s c cDataPoison bad 0 (if o.store then [] else dRegs)
  else if addrTainted && !o.store then passTainted s c dRegs
  else if acquirePending s g || (systemRelease o && fabricPending s (memberAsid s c.who)) then holdBack s c
  else if o.store || o.space = 5 then outside s c run (if o.store then [] else dRegs)
  else
    afterFlights s c (writesTo dRegs) fun s =>
      run (updMember s c.who fun g => spreadTaint g c o.g aRegs dRegs fun l => [l])

/-- A load or store: decoding checks, then the unit. -/
def runMem (s : State) (c : Issue) (o : MemOp) : State :=
  let sp := isSpine c.who
  let g := memberGroup s c.who
  let buffer := decide (2 ≤ o.space) && decide (o.space ≤ 4)
  let regsBad := if sp then o.store && decide (32 ≤ o.d.toNat)
    else !(vOk g.budget (!buffer) o.a.toNat && dataOk g.budget o.size o.d.toNat)
  let ks := if sp then (spineSprue o.a).toList ++ (if o.store then [] else (spineSprue o.d).toList) else []
  checked s c
    [(sp && (buffer || o.size = 4), cWrongUnit), (regsBad, cIllegal), (!spruesOk s c ks, cProtection)]
    (if sp then memOnSpine s c o else memOnLanes s c o)

/-- LD (R251) -/
def execLd (o : OpsLd) (s : State) : Host.Outcome State Fault Refusal :=
  issueBy s fun c => runMem s c ⟨o.g, false, o.x, o.d, o.a, o.size.toNat, o.space.toNat, false, 0, o.la.toNat⟩

/-- ST (R251) -/
def execSt (o : OpsSt) (s : State) : Host.Outcome State Fault Refusal :=
  issueBy s fun c => runMem s c ⟨o.g, true, false, o.d, o.a, o.size.toNat, o.space.toNat, false, 0, o.la.toNat⟩

/-- LD_ACQ (R252) -/
def execLdAcq (o : OpsLdo) (s : State) : Host.Outcome State Fault Refusal :=
  issueBy s fun c => runMem s c ⟨o.g, false, false, o.d, o.a, o.size.toNat, 0, true, o.scope, o.la.toNat⟩

/-- ST_REL (R252, R253) -/
def execStRel (o : OpsLdo) (s : State) : Host.Outcome State Fault Refusal :=
  issueBy s fun c => runMem s c ⟨o.g, true, false, o.d, o.a, o.size.toNat, 0, true, o.scope, o.la.toNat⟩

/-! ### Fences (R254, R255, R345) -/

/-- The threads for which an instruction acts: active lanes, or the spine as lane 0. -/
def actingLanes (s : State) (c : Issue) (g : PredNo) : Lanes :=
  match c.who with
  | .spine kc => if spinePred (kcOf s kc).spine g then [0] else []
  | .group .. => activeLanes (memberGroup s c.who) c g

/-- A fence at a scope: every access of the model is performed at its issue, so it completes at once;
f is what else it does when some thread acts. It acquires (R217). -/
def runFence (s : State) (c : Issue) (g : PredNo) (f : State → State) : State :=
  checked s c [] <|
    if isSpine c.who && (actingLanes s c g).isEmpty then retireNop s c
    else outside s c fun s => retireNop (if (actingLanes s c g).isEmpty then s else acquireSwaps (f s) c.who) c

/-- Fetch by the acting threads sees the stores made up to now (R235). -/
def fenceFetch (s : State) (m : Member) (ls : Lanes) : State :=
  match m with
  | .spine kc => updSpine s kc fun sp => { sp with seenFrom := s.fresh + 1 }
  | .group .. => updMember s m fun g => { g with fenced := ls.foldl (fun f l => amSet 0 f l (s.fresh + 1)) g.fenced }

/-- FENCE_CORE (R254, R235): the threads that ran one are recorded for R253, and their fetch sees earlier stores. -/
def execFenceCore (o : OpsG) (s : State) : Host.Outcome State Fault Refusal :=
  issueBy s fun c => runFence s c o.g fun s => fenceFetch (updCtx s (memberAsid s c.who) fun x =>
    { x with coreFenced := dedup (x.coreFenced ++ (actingLanes s c o.g).map fun l => (c.who, l)) }) c.who (actingLanes s c o.g)

/-- FENCE_CLUSTER (R254) -/
def execFenceCluster (o : OpsG) (s : State) : Host.Outcome State Fault Refusal :=
  issueBy s fun c => runFence s c o.g id

/-- FENCE_DEVICE (R237, R254) -/
def execFenceDevice (o : OpsG) (s : State) : Host.Outcome State Fault Refusal :=
  issueBy s fun c => runFence s c o.g id

/-- A fence that can complete only once nothing of some kind is under way: it waits meanwhile. -/
def waitFence (s : State) (c : Issue) (g : PredNo) (busy : Bool) (f : State → State) : State :=
  checked s c [] <|
    if busy && !(actingLanes s c g).isEmpty && (memberGroup s c.who).runAhead.isNone then holdBack s c else runFence s c g f

/-- FENCE_SYSTEM (R240, R254): every earlier remote write of the context has been acknowledged. -/
def execFenceSystem (o : OpsG) (s : State) : Host.Outcome State Fault Refusal :=
  issueBy s fun c => waitFence s c o.g (fabricPending s (memberAsid s c.who)) id

/-- The context's translations become invalid and its epoch advances (R345). -/
def fenceContext (s : State) (asid : Asid) : State :=
  { updCtx s asid (fun x => { x with epoch := x.epoch + 1 }) with tlb := s.tlb.filter fun e => e.asid ≠ asid }

/-- TFENCE_DEVICE (R345); S1ROOT changes take effect for walks after it (R327). -/
def execTfenceDevice (o : OpsG) (s : State) : Host.Outcome State Fault Refusal :=
  issueBy s fun c => runFence s c o.g fun s =>
    let a := memberAsid s c.who
    updCtx (fenceContext s a) a fun x => { x with s1root := memNat s (x.desc + 0x08) 8 / 65536 % 2 ^ 36 * 65536 }

/-- Whether a request of a peer, translated in a context, has not completed: it is relayed beyond the device (R345). -/
def relayPending (s : State) (asid : Asid) : Bool := s.requests.any fun r => r.asid = asid && r.who.isNone && r.dst ≠ 0

/-- TFENCE_SYSTEM (R345): as TFENCE_DEVICE, and every incoming request translated before it has completed; those
translations are made anew for each request. -/
def execTfenceSystem (o : OpsG) (s : State) : Host.Outcome State Fault Refusal :=
  issueBy s fun c => waitFence s c o.g (relayPending s (memberAsid s c.who)) fun s =>
    let a := memberAsid s c.who
    updCtx (fenceContext s a) a fun x => { x with s1root := memNat s (x.desc + 0x08) 8 / 65536 % 2 ^ 36 * 65536 }

/-- The part of memory that holds the location of a byte (R229). -/
def wholeLoc (p : Piece) : Piece :=
  match p.way with
  | .mem pa cls => { p with way := .mem (pa / 8 * 8) cls, n := 8 }
  | _ => p

/-- Whether a promotion sent to the die of the owning core is answered DIE_OFFLINE_REPLY (R379, R430). -/
def ownerOffline (s : State) (asid : Asid) (die : DieNo) (loc : Nat) : Bool :=
  match amGet none (ctxOf s asid).owners loc with
  | some (_, _, d) => (dieOf s (BitVec.ofNat 2 d)).st ≠ .online || (decide (d ≠ die.toNat) && !circuitUp? s die.toNat d)
  | none => false

/-- The promotion of one location (R229, R255, R430): the mark, or the cause of row 9 for the location, or
DIE_OFFLINE_REPLY. It returns no data, so poison does not matter. -/
def promote (s : State) (c : Issue) (ctx : Ctx) (t : Thread) (a : Asked) : List Piece → State × Asked
  | [] => (s, { a with undone := a.undone &&& ~~~laneBit t.lane })
  | p :: ps =>
    let cause := match (lateOf s (memberDie s c.who) { r := true } (wholeLoc p)).filter fun b => b ≠ cDataPoison with
      | some b => some b
      | none => (match p.way with
        | .mem pa _ => if ownerOffline s ctx.asid (memberDie s c.who) (pa / 8) then some cDieOffline else none
        | _ => none)
    match cause with
    | some b => (s, { a with late := a.late ++ [(t.lane, b, p.va)] })
    | none =>
      let s := match p.way with
        | .mem pa _ => updCtx s ctx.asid fun x => { x with marks := dedup (x.marks ++ [(pa / 8, c.who, t.lane)]) }
        | _ => s
      promote s c ctx t a ps

def promoteAll (s : State) (c : Issue) (ctx : Ctx) : List (Thread × List Piece) → Asked → State × Asked
  | [], a => (s, a)
  | (t, ps) :: rest, a =>
    match promote s c ctx t a ps with
    | (s, a) => promoteAll s c ctx rest a

/-- The address threads of an instruction with a global address in a. -/
def addrThreads (s : State) (c : Issue) (g : PredNo) (a : RegField) : List Thread :=
  match c.who with
  | .spine kc => (actingLanes s c g).map fun l => ⟨l, BitVec.ofNat 64 (spineField (kcOf s kc) a.toNat true), []⟩
  | .group .. =>
    let gr := memberGroup s c.who
    (activeLanes gr c g).map fun l => ⟨l, laneAddr s gr l a.toNat true, []⟩

/-- FENCE_RP (R229, R255): the address is checked as a load's byte is. -/
def execFenceRp (o : OpsFrp) (s : State) : Host.Outcome State Fault Refusal :=
  issueBy s fun c =>
    let sp := isSpine c.who
    let kc := memberKc c.who
    let k := kcOf s kc
    let ks := if sp then (spineSprue o.a).toList else []
    checked s c [(!sp && !vOk (memberGroup s c.who).budget true o.a.toNat, cIllegal), (!spruesOk s c ks, cProtection)]
      (if sp && !spinePred k.spine o.g then retireNop s c
       else if ks.any fun i => !readable k i then blockOn s c (.sprueFull (BitVec.ofNat 5 (o.a.toNat - 32)))
       else if sp && ((ks.any fun i => (sprueGet k i).poison) || k.spine.poison.contains o.a.toNat) then trapAll s c cDataPoison
       else
         let g := memberGroup s c.who
         let bad := if sp then [] else poisonedLanes g (activeLanes g c o.g) [o.a.toNat, o.a.toNat + 1]
         if !bad.isEmpty then trapLanes s c cDataPoison bad else
         let ts := addrThreads s c o.g o.a
         outside s c fun s =>
         let ctx := ctxOf s (memberAsid s c.who)
         match checkAll s ctx { r := true } true false 1 ts with
         | (s', rs) =>
           let ms := missesOf rs
           if !ms.isEmpty then raiseMisses s c ms [] false
           else
             match promoteAll s' c ctx (passedOf rs) (askedInit ts none) with
             | (s, a) => endAccess (if a.late.isEmpty then acquireSwaps (consumeAll s kc ks) c.who else s) c 0 [] a [])

end Sys2Proof.Machine
end

