-- ==== Sys2Proof/Machine/Alu.lean ====
section
/-! DEFINITION. Integer arithmetic, logic, shifts, bit operations, immediates and the 16-bit forms (R106 to R120, R137) -/

namespace Sys2Proof.Machine

/-- Two sources in format L, 32 bits or with x = 1 64 (R107). -/
def opL (o : OpsL) (signed : Bool) (f : Nat → Nat → Nat → Nat × Flags6) : RegOp where
  g := o.g
  srcs := [.reg o.a o.x, .sel o.b o.x]
  dst := .reg o.d o.x false
  signed := signed
  one := fun v => match v with
    | [a, b] => f (if o.x then 64 else 32) a b
    | _ => (0, 0)

/-- Format L with the destination as third source (R108). -/
def opL3 (o : OpsL) (signed : Bool) (f : Nat → Nat → Nat → Nat → Nat × Flags6) : RegOp where
  g := o.g
  srcs := [.reg o.a o.x, .sel o.b o.x]
  dst := .reg o.d o.x true
  signed := signed
  one := fun v => match v with
    | [a, b, d] => f (if o.x then 64 else 32) a b d
    | _ => (0, 0)

/-- Format L without a 64-bit form. -/
def opL1 (o : OpsL1) (signed lanes : Bool) (f : Nat → Nat → Nat × Flags6) : RegOp where
  g := o.g
  srcs := [.reg o.a false, .sel o.b false]
  dst := .reg o.d false false
  lanesOnly := lanes
  signed := signed
  one := fun v => match v with
    | [a, b] => f a b
    | _ => (0, 0)

/-- The same with the destination as third source (R108). -/
def opL13 (o : OpsL1) (signed lanes : Bool) (f : Nat → Nat → Nat → Nat × Flags6) : RegOp where
  g := o.g
  srcs := [.reg o.a false, .sel o.b false]
  dst := .reg o.d false true
  lanesOnly := lanes
  signed := signed
  one := fun v => match v with
    | [a, b, d] => f a b d
    | _ => (0, 0)

/-- One source in format L with the x-bit. -/
def opA (o : OpsA) (f : Nat → Nat → Nat × Flags6) : RegOp where
  g := o.g
  srcs := [.reg o.a o.x]
  dst := .reg o.d o.x false
  one := fun v => match v with
    | [a] => f (if o.x then 64 else 32) a
    | _ => (0, 0)

/-- One source to one destination of given widths; la for the long-latency FX. -/
def opUnary (g : PredNo) (d a : RegField) (dw aw signed : Bool) (la : Nat) (f : Nat → Nat × Flags6) : RegOp where
  g := g
  srcs := [.reg a aw]
  dst := .reg d dw false
  la := la
  signed := signed
  one := fun v => match v with
    | [a] => f a
    | _ => (0, 0)

/-- A source and an immediate: formats I and I2. -/
def opImm (g : PredNo) (x : Bool) (d a : RegField) (signed : Bool) (f : Nat → Nat → Nat × Flags6) : RegOp where
  g := g
  srcs := [.reg a x]
  dst := .reg d x false
  signed := signed
  one := fun v => match v with
    | [a] => f (if x then 64 else 32) a
    | _ => (0, 0)

/-- A 16-bit form (R70, R137): d is destination and first source, a the second. -/
def op16 (o : Ops16) (signed : Bool) (f : Nat → Nat → Nat × Flags6) : RegOp where
  g := 0
  srcs := [.reg (o.a.setWidth 6) false]
  dst := .reg o.d false true
  signed := signed
  one := fun v => match v with
    | [a, d] => f d a
    | _ => (0, 0)

/-! ### The functions -/

/-- Wrapping sum and difference of n bits (R111). -/
def aluAdd (n a b : Nat) : Nat × Flags6 := ((a + b) % 2 ^ n, 0)
def aluSub (n a b : Nat) : Nat × Flags6 := ((a + 2 ^ n - b % 2 ^ n) % 2 ^ n, 0)
/-- Saturating sum and difference (R111). -/
def aluAdds (n a b : Nat) : Nat × Flags6 := satSigned n (sextNat n a + sextNat n b)
def aluSubs (n a b : Nat) : Nat × Flags6 := satSigned n (sextNat n a - sextNat n b)
/-- Minimum and maximum, signed and unsigned (R111). -/
def aluMinS (n a b : Nat) : Nat × Flags6 := (sMinMax n false a b, 0)
def aluMaxS (n a b : Nat) : Nat × Flags6 := (sMinMax n true a b, 0)
def aluMinN (_ a b : Nat) : Nat × Flags6 := (if a ≤ b then a else b, 0)
def aluMaxN (_ a b : Nat) : Nat × Flags6 := (if a ≤ b then b else a, 0)
/-- Products (R112). -/
def aluMulLo (n a b : Nat) : Nat × Flags6 := (a * b % 2 ^ n, 0)
def aluMulhiS (a b : Nat) : Nat × Flags6 := ((BitVec.ofInt 32 (sextNat 32 a * sextNat 32 b / 2 ^ 32)).toNat, 0)
def aluMulhiN (a b : Nat) : Nat × Flags6 := (a * b / 2 ^ 32, 0)
def aluMad (n a b d : Nat) : Nat × Flags6 := ((d + a * b) % 2 ^ n, 0)
/-- One signed part of w bits at bit lo. -/
def part (w lo a : Nat) : Int := sextNat w (a / 2 ^ lo)
/-- Dot products: the exact sum, clamped once (R113). -/
def aluDot2 (a b d : Nat) : Nat × Flags6 := satSigned 32 (sextNat 32 d + part 16 0 a * part 16 0 b + part 16 16 a * part 16 16 b)
def aluDot4 (a b d : Nat) : Nat × Flags6 :=
  satSigned 32 (sextNat 32 d + part 8 0 a * part 8 0 b + part 8 8 a * part 8 8 b + part 8 16 a * part 8 16 b +
    part 8 24 a * part 8 24 b)
/-- Absolute value; the most negative number saturates (R112). -/
def aluAbs (a : Nat) : Nat × Flags6 := satSigned 32 (sextNat 32 a).natAbs
/-- Logic (R114). -/
def aluAnd (_ a b : Nat) : Nat × Flags6 := (a &&& b, 0)
def aluOr (_ a b : Nat) : Nat × Flags6 := (a ||| b, 0)
def aluXor (_ a b : Nat) : Nat × Flags6 := (a ^^^ b, 0)
def aluAndn (n a b : Nat) : Nat × Flags6 := (a &&& (2 ^ n - 1 - b % 2 ^ n), 0)
/-- Shifts and rotate by c below n (R114). -/
def aluShl (n a c : Nat) : Nat × Flags6 := (a * 2 ^ (c % n) % 2 ^ n, 0)
def aluShrN (n a c : Nat) : Nat × Flags6 := (a / 2 ^ (c % n), 0)
def aluShrS (n a c : Nat) : Nat × Flags6 := ((BitVec.ofInt n (sextNat n a / 2 ^ (c % n))).toNat, 0)
def aluRotl (n a c : Nat) : Nat × Flags6 := (a * 2 ^ (c % n) % 2 ^ n + a / 2 ^ (n - c % n), 0)
/-- Rounding arithmetic right shift (R117). -/
def aluShrr (n a c : Nat) : Nat × Flags6 :=
  if c % n = 0 then (a, 0) else ((BitVec.ofInt n ((sextNat n a + 2 ^ (c % n - 1)) / 2 ^ (c % n))).toNat, 0)
/-- Bit counts and reversal (R115). -/
def aluPopc (n a : Nat) : Nat × Flags6 := (((List.range n).filter fun i => a.testBit i).length, 0)
def aluClz (n a : Nat) : Nat × Flags6 := (if a = 0 then n else n - 1 - Nat.log2 a, 0)
def aluBrev (n a : Nat) : Nat × Flags6 :=
  ((List.range n).foldl (fun acc i => acc * 2 + if a.testBit i then 1 else 0) 0, 0)
/-- Clamp to s16, sign-extended (R115). -/
def aluSat16 (a : Nat) : Nat × Flags6 :=
  let r := satSigned 16 (sextNat 32 a)
  ((BitVec.ofInt 32 (sextNat 16 r.1)).toNat, r.2)
def aluPack16 (a b : Nat) : Nat × Flags6 :=
  let lo := satSigned 16 (sextNat 32 a)
  let hi := satSigned 16 (sextNat 32 b)
  (lo.1 + 2 ^ 16 * hi.1, lo.2 ||| hi.2)
/-- Sign extension from bit k (R115). -/
def aluSxt (a b : Nat) : Nat × Flags6 := ((BitVec.ofInt 32 (sextNat (b % 32 + 1) a)).toNat, 0)
/-- One byte that `perm` selects (R116). -/
def permByte (y k : Nat) : Nat :=
  let byte := y / 2 ^ (8 * (k % 8)) % 256
  if k / 8 % 2 = 1 then (if byte / 128 = 1 then 255 else 0) else byte
def aluPerm (a b d : Nat) : Nat × Flags6 :=
  let y := a + 2 ^ 32 * b
  (permByte y (d % 16) + 2 ^ 8 * permByte y (d / 16 % 16) + 2 ^ 16 * permByte y (d / 256 % 16) +
    2 ^ 24 * permByte y (d / 4096 % 16), 0)
/-- A sign-extended immediate of n bits. -/
def immN (n w v : Nat) : Nat := (BitVec.ofInt n (sextNat w v)).toNat

/-! ### The 16-bit forms (R70, R137) -/

/-- MOV_16 (R70, R114) -/
def execMovHalf (o : Ops16) (s : State) : Host.Outcome State Fault Refusal :=
  issueBy s fun c => runReg s c (opUnary 0 o.d (o.a.setWidth 6) false false false 0 fun a => (a, 0))

/-- ADD_16 (R70, R137) -/
def execAddHalf (o : Ops16) (s : State) : Host.Outcome State Fault Refusal :=
  issueBy s fun c => runReg s c (op16 o true (aluAdd 32))

/-- SUB_16 (R70, R137) -/
def execSubHalf (o : Ops16) (s : State) : Host.Outcome State Fault Refusal :=
  issueBy s fun c => runReg s c (op16 o true (aluSub 32))

/-- AND_16 (R70, R137) -/
def execAndHalf (o : Ops16) (s : State) : Host.Outcome State Fault Refusal :=
  issueBy s fun c => runReg s c (op16 o false (aluAnd 32))

/-- OR_16 (R70, R137) -/
def execOrHalf (o : Ops16) (s : State) : Host.Outcome State Fault Refusal :=
  issueBy s fun c => runReg s c (op16 o false (aluOr 32))

/-- XOR_16 (R70, R137) -/
def execXorHalf (o : Ops16) (s : State) : Host.Outcome State Fault Refusal :=
  issueBy s fun c => runReg s c (op16 o false (aluXor 32))

/-- SHL_16 (R70, R137) -/
def execShlHalf (o : Ops16) (s : State) : Host.Outcome State Fault Refusal :=
  issueBy s fun c => runReg s c (op16 o false (aluShl 32))

/-- SHR_N32_16 (R70, R137) -/
def execShrN32Half (o : Ops16) (s : State) : Host.Outcome State Fault Refusal :=
  issueBy s fun c => runReg s c (op16 o false (aluShrN 32))

/-- ADD_F32_16 (R70, R137) -/
def execAddF32Half (o : Ops16) (s : State) : Host.Outcome State Fault Refusal :=
  issueBy s fun c => runReg s c (op16 o false (fAdd fmtF32))

/-- MUL_F32_16 (R70, R137) -/
def execMulF32Half (o : Ops16) (s : State) : Host.Outcome State Fault Refusal :=
  issueBy s fun c => runReg s c (op16 o false (fMul fmtF32))

/-- MIN_F32_16 (R70, R137) -/
def execMinF32Half (o : Ops16) (s : State) : Host.Outcome State Fault Refusal :=
  issueBy s fun c => runReg s c (op16 o false (fMinMax fmtF32 false))

/-- MAX_F32_16 (R70, R137) -/
def execMaxF32Half (o : Ops16) (s : State) : Host.Outcome State Fault Refusal :=
  issueBy s fun c => runReg s c (op16 o false (fMinMax fmtF32 true))

/-- SUB_F32_16 (R70, R137) -/
def execSubF32Half (o : Ops16) (s : State) : Host.Outcome State Fault Refusal :=
  issueBy s fun c => runReg s c (op16 o false (fSub fmtF32))

/-- MIN_S32_16 (R70, R137) -/
def execMinS32Half (o : Ops16) (s : State) : Host.Outcome State Fault Refusal :=
  issueBy s fun c => runReg s c (op16 o true (aluMinS 32))

/-- MAX_S32_16 (R70, R137) -/
def execMaxS32Half (o : Ops16) (s : State) : Host.Outcome State Fault Refusal :=
  issueBy s fun c => runReg s c (op16 o true (aluMaxS 32))

/-- MOVG_16 (R20, R137) -/
def execMovgHalf (o : Ops16) (s : State) : Host.Outcome State Fault Refusal :=
  issueBy s fun c => runReg s c
    { g := 0, srcs := [.sel (BitVec.ofNat 7 (64 + o.a.toNat)) false], dst := .reg o.d false false, lanesOnly := true
      one := fun v => (v.headD 0, 0) }

/-! ### Integer add, subtract, minimum, maximum (R111) -/

/-- ADD (R111) -/
def execAdd (o : OpsL) (s : State) : Host.Outcome State Fault Refusal :=
  issueBy s fun c => runReg s c (opL o true aluAdd)

/-- SUB (R111) -/
def execSub (o : OpsL) (s : State) : Host.Outcome State Fault Refusal :=
  issueBy s fun c => runReg s c (opL o true aluSub)

/-- ADDS_S32 (R111) -/
def execAddsS32 (o : OpsL) (s : State) : Host.Outcome State Fault Refusal :=
  issueBy s fun c => runReg s c (opL o true aluAdds)

/-- SUBS_S32 (R111) -/
def execSubsS32 (o : OpsL) (s : State) : Host.Outcome State Fault Refusal :=
  issueBy s fun c => runReg s c (opL o true aluSubs)

/-- MIN_S32 (R111) -/
def execMinS32 (o : OpsL) (s : State) : Host.Outcome State Fault Refusal :=
  issueBy s fun c => runReg s c (opL o true aluMinS)

/-- MAX_S32 (R111) -/
def execMaxS32 (o : OpsL) (s : State) : Host.Outcome State Fault Refusal :=
  issueBy s fun c => runReg s c (opL o true aluMaxS)

/-- MIN_N32 (R111) -/
def execMinN32 (o : OpsL) (s : State) : Host.Outcome State Fault Refusal :=
  issueBy s fun c => runReg s c (opL o false aluMinN)

/-- MAX_N32 (R111) -/
def execMaxN32 (o : OpsL) (s : State) : Host.Outcome State Fault Refusal :=
  issueBy s fun c => runReg s c (opL o false aluMaxN)

/-! ### Multiply and dot products (R112, R113) -/

/-- MUL_LO (R112) -/
def execMulLo (o : OpsL) (s : State) : Host.Outcome State Fault Refusal :=
  issueBy s fun c => runReg s c (opL o true aluMulLo)

/-- MULHI_S32 (R112) -/
def execMulhiS32 (o : OpsL1) (s : State) : Host.Outcome State Fault Refusal :=
  issueBy s fun c => runReg s c (opL1 o true false aluMulhiS)

/-- MULHI_N32 (R112) -/
def execMulhiN32 (o : OpsL1) (s : State) : Host.Outcome State Fault Refusal :=
  issueBy s fun c => runReg s c (opL1 o false false aluMulhiN)

/-- MAD_LO (R112) -/
def execMadLo (o : OpsL) (s : State) : Host.Outcome State Fault Refusal :=
  issueBy s fun c => runReg s c (opL3 o true aluMad)

/-- DOT2_S16 (R113) -/
def execDot2S16 (o : OpsL1) (s : State) : Host.Outcome State Fault Refusal :=
  issueBy s fun c => runReg s c (opL13 o true false aluDot2)

/-- DOT4_S8 (R113) -/
def execDot4S8 (o : OpsL1) (s : State) : Host.Outcome State Fault Refusal :=
  issueBy s fun c => runReg s c (opL13 o true false aluDot4)

/-- ABS_S32 (R112) -/
def execAbsS32 (o : OpsA1) (s : State) : Host.Outcome State Fault Refusal :=
  issueBy s fun c => runReg s c (opUnary o.g o.d o.a false false true 0 aluAbs)

/-! ### Logic and shifts (R114) -/

/-- AND (R114) -/
def execAnd (o : OpsL) (s : State) : Host.Outcome State Fault Refusal :=
  issueBy s fun c => runReg s c (opL o false aluAnd)

/-- OR (R114) -/
def execOr (o : OpsL) (s : State) : Host.Outcome State Fault Refusal :=
  issueBy s fun c => runReg s c (opL o false aluOr)

/-- XOR (R114) -/
def execXor (o : OpsL) (s : State) : Host.Outcome State Fault Refusal :=
  issueBy s fun c => runReg s c (opL o false aluXor)

/-- ANDN (R114) -/
def execAndn (o : OpsL) (s : State) : Host.Outcome State Fault Refusal :=
  issueBy s fun c => runReg s c (opL o false aluAndn)

/-- SHL (R114) -/
def execShl (o : OpsL) (s : State) : Host.Outcome State Fault Refusal :=
  issueBy s fun c => runReg s c (opL o false aluShl)

/-- SHR_N32 (R114) -/
def execShrN32 (o : OpsL) (s : State) : Host.Outcome State Fault Refusal :=
  issueBy s fun c => runReg s c (opL o false aluShrN)

/-- SHR_S32 (R114) -/
def execShrS32 (o : OpsL) (s : State) : Host.Outcome State Fault Refusal :=
  issueBy s fun c => runReg s c (opL o true aluShrS)

/-- ROTL (R114) -/
def execRotl (o : OpsL) (s : State) : Host.Outcome State Fault Refusal :=
  issueBy s fun c => runReg s c (opL o false aluRotl)

/-! ### Bit operations and packing (R115 to R117) -/

/-- POPC (R115) -/
def execPopc (o : OpsA) (s : State) : Host.Outcome State Fault Refusal :=
  issueBy s fun c => runReg s c (opA o aluPopc)

/-- CLZ (R115) -/
def execClz (o : OpsA) (s : State) : Host.Outcome State Fault Refusal :=
  issueBy s fun c => runReg s c (opA o aluClz)

/-- BREV (R115) -/
def execBrev (o : OpsA) (s : State) : Host.Outcome State Fault Refusal :=
  issueBy s fun c => runReg s c (opA o aluBrev)

/-- SHRR_S32 (R117) -/
def execShrrS32 (o : OpsL1) (s : State) : Host.Outcome State Fault Refusal :=
  issueBy s fun c => runReg s c (opL1 o true false (aluShrr 32))

/-- SAT_S16 (R115) -/
def execSatS16 (o : OpsA1) (s : State) : Host.Outcome State Fault Refusal :=
  issueBy s fun c => runReg s c (opUnary o.g o.d o.a false false true 0 aluSat16)

/-- PACK_S16 (R115) -/
def execPackS16 (o : OpsL1) (s : State) : Host.Outcome State Fault Refusal :=
  issueBy s fun c => runReg s c (opL1 o false false aluPack16)

/-- SXT (R115) -/
def execSxt (o : OpsL1) (s : State) : Host.Outcome State Fault Refusal :=
  issueBy s fun c => runReg s c (opL1 o true false aluSxt)

/-- PERM (R116) -/
def execPerm (o : OpsL1) (s : State) : Host.Outcome State Fault Refusal :=
  issueBy s fun c => runReg s c (opL13 o false false aluPerm)

/-! ### Immediates (R118 to R120) -/

/-- ADDI (R118) -/
def execAddi (o : OpsI) (s : State) : Host.Outcome State Fault Refusal :=
  issueBy s fun c => runReg s c
    (opImm o.g o.x o.d o.a true fun n a => aluAdd n a (immN n 10 o.imm.toNat))

/-- MOVL (R82, R119) -/
def execMovl (o : OpsW) (s : State) : Host.Outcome State Fault Refusal :=
  issueBy s fun c => runReg s c
    { g := o.g, srcs := [.imm (immN 32 16 o.imm.toNat)], dst := .reg o.d false false, signed := true
      one := fun v => (v.headD 0, 0) }

/-- MOVH (R82, R119) -/
def execMovh (o : OpsW) (s : State) : Host.Outcome State Fault Refusal :=
  issueBy s fun c => runReg s c
    { g := o.g, srcs := [.imm o.imm.toNat], dst := .reg o.d false true
      one := fun v => match v with
        | [i, d] => (d % 2 ^ 16 + 2 ^ 16 * i, 0)
        | _ => (0, 0) }

/-- SHLI (R120) -/
def execShli (o : OpsI2) (s : State) : Host.Outcome State Fault Refusal :=
  issueBy s fun c => runReg s c (opImm o.g o.x o.d o.a false fun n a => aluShl n a o.imm.toNat)

/-- SHRI_N (R120) -/
def execShriN (o : OpsI2) (s : State) : Host.Outcome State Fault Refusal :=
  issueBy s fun c => runReg s c (opImm o.g o.x o.d o.a false fun n a => aluShrN n a o.imm.toNat)

/-- SHRI_S (R120) -/
def execShriS (o : OpsI2) (s : State) : Host.Outcome State Fault Refusal :=
  issueBy s fun c => runReg s c (opImm o.g o.x o.d o.a true fun n a => aluShrS n a o.imm.toNat)

/-- SHRRI_S (R120) -/
def execShrriS (o : OpsI2) (s : State) : Host.Outcome State Fault Refusal :=
  issueBy s fun c => runReg s c (opImm o.g o.x o.d o.a true fun n a => aluShrr n a o.imm.toNat)

/-- ROTLI (R120) -/
def execRotli (o : OpsI2) (s : State) : Host.Outcome State Fault Refusal :=
  issueBy s fun c => runReg s c (opImm o.g o.x o.d o.a false fun n a => aluRotl n a o.imm.toNat)

/-- ANDI (R120) -/
def execAndi (o : OpsI2) (s : State) : Host.Outcome State Fault Refusal :=
  issueBy s fun c => runReg s c (opImm o.g o.x o.d o.a false fun n a => aluAnd n a (immN n 7 o.imm.toNat))

/-- ORI (R120) -/
def execOri (o : OpsI2) (s : State) : Host.Outcome State Fault Refusal :=
  issueBy s fun c => runReg s c (opImm o.g o.x o.d o.a false fun n a => aluOr n a (immN n 7 o.imm.toNat))

/-- XORI (R120) -/
def execXori (o : OpsI2) (s : State) : Host.Outcome State Fault Refusal :=
  issueBy s fun c => runReg s c (opImm o.g o.x o.d o.a false fun n a => aluXor n a (immN n 7 o.imm.toNat))

end Sys2Proof.Machine
end

