-- ==== Sys2Proof/Machine/Atom.lean ====
section
/-! DEFINITION. Atomics (R63, R256 to R260): aggregation in the group, execution in memory, in the A buffer, at the
host or at a peer. -/

namespace Sys2Proof.Machine

/-- One combining op of an atomic, by its code (R256, R257): add, addf, min, max, and, or. -/
def atomComb (op : Nat) (wide : Bool) (old b : Nat) : Nat :=
  let n := if wide then 64 else 32
  match op with
  | 0 => addWrap n old b
  | 1 => (fAdd (if wide then fmtF64 else fmtF32) old b).1
  | 2 => sMinMax n false old b
  | 3 => sMinMax n true old b
  | 4 => old &&& b
  | 5 => old ||| b
  | 6 => b
  | _ => old

/-- The new value of one lane of exch or cas: b is the operand, or the compare value of cas (R257). -/
def atomSwap (op : Nat) (old b new : Nat) : Nat := if op = 6 then b else if old = b then new else old

/-- A lane of an atomic: lane, operand (or compare value), new value of cas. -/
structure AtomLane where
  lane : Nat
  b : Nat
  new : Nat

/-- The prefixes of R63: for each lane after the first, the combination of the lanes before it. -/
def prefixes (f : Nat → Nat → Nat) : List AtomLane → Option Nat → List (Nat × Option Nat)
  | [], _ => []
  | l :: ls, acc => (l.lane, acc) :: prefixes f ls (some (match acc with | some p => f p l.b | none => l.b))

/-- The total of an aggregated request (R63). -/
def atomTotal (f : Nat → Nat → Nat) : List AtomLane → Nat
  | [] => 0
  | l :: ls => ls.foldl (fun acc x => f acc x.b) l.b

/-- exch and cas: the lanes apply one at a time in ascending order. -/
def serialSwap (op : Nat) : List AtomLane → Nat → Nat × List (Nat × Nat)
  | [], old => (old, [])
  | l :: ls, old =>
    let r := serialSwap op ls (atomSwap op old l.b l.new)
    (r.1, (l.lane, old) :: r.2)

/-- One address: the new value in memory and what each lane gets back (R63, R257). -/
def atomApply (op : Nat) (wide : Bool) (ls : List AtomLane) (old : Nat) : Nat × List (Nat × Nat) :=
  if op < 6 then
    let f := atomComb op wide
    (f old (atomTotal f ls), (prefixes f ls none).map fun p => (p.1, match p.2 with | some q => f old q | none => old))
  else serialSwap op ls old

/-- The threads of an atomic with equal addresses, in the order of their lowest lanes. -/
def byAddress : List (Thread × List Piece) → List (DWord × List (Thread × List Piece))
  | ts => (dedup (ts.map fun t => t.1.addr)).map fun a => (a, ts.filter fun t => t.1.addr = a)

/-- An atomic's operands of a thread: operand or compare value, then the new value of cas. -/
def atomLaneOf (n : Nat) (t : Thread) : AtomLane :=
  ⟨t.lane, bytesToNat (t.data.take n), bytesToNat ((t.data.drop n).take n)⟩

/-- Whether R259 lets an atomic send a request to a window: row 11 of R248 otherwise. -/
def windowRefuses (s : State) (op : Nat) (scope : BitVec 2) : Way → Bool
  | .window w _ => !(amGet Window.zero s.host.windows w).atomc || scope ≠ 3 || !(op = 0 || op = 6 || op = 7)
  | _ => false

/-- The requests of one address beyond the core (R259): one for all lanes, or lane after lane. -/
def atomRequest (s : State) (c : Issue) (ctx : Ctx) (op : Nat) (wide : Bool) (scope : BitVec 2) (dst : Nat) (tg : Target)
    (va : Nat) (ls : List AtomLane) : Request :=
  let f := atomComb op wide
  let o := BitVec.ofNat 3 op
  if op < 6 then
    ⟨s.nextId, some c.who, (prefixes f ls none).map fun p => (p.1, BitVec.ofNat 64 (p.2.getD 0)), 0, dst, va, scope, ctx.asid, tg,
      .atom o wide (BitVec.ofNat 64 (atomTotal f ls)) 0, [], 0⟩
  else
    let k := fun (l : AtomLane) => ReqKind.atom o wide (BitVec.ofNat 64 l.b) (BitVec.ofNat 64 l.new)
    match ls with
    | [] => ⟨s.nextId, some c.who, [], 0, dst, va, scope, ctx.asid, tg, .atom o wide 0 0, [], 0⟩
    | l :: rest => ⟨s.nextId, some c.who, [(l.lane, 0)], 0, dst, va, scope, ctx.asid, tg, k l, rest.map fun r => (r.lane, k r), 0⟩

/-- The atomic of one address (R258). -/
def atomAt (s : State) (c : Issue) (ctx : Ctx) (op : Nat) (wide : Bool) (scope : BitVec 2) (dst : Nat) (a : Asked)
    (ts : List (Thread × List Piece)) : State × Asked :=
  let n := if wide then 8 else 4
  let ls := ts.map fun t => atomLaneOf n t.1
  match ts.head?.bind fun t => t.2.head? with
  | none => (s, a)
  | some p =>
    match pieceLate s (memberDie s c.who) { r := true, w := true, atomic := true } p with
    | some b => (s, { a with late := a.late ++ ls.map fun l => (l.lane, b, p.va) })
    | none =>
      match p.way with
      | .mem pa cls =>
        let r := atomApply op wide ls (memNat s pa n)
        let s := ls.foldl (fun s l => endMarks s ctx.asid c.who l.lane pa n) s
        let s := ctxWrite s ctx pa cls (natToBytes n r.1)
        let owned := scope = 0 && ls.any fun l => (ctxOf s ctx.asid).coreFenced.contains (c.who, l.lane)
        let s := if owned then setOwner s ctx.asid c.who pa n else s
        (s, { a with got := a.got ++ r.2.map (fun q => (q.1, 0, natToBytes n q.2)),
                     undone := a.undone &&& ~~~maskOf (ls.map fun l => l.lane) })
      | w =>
        match targetOf w with
        | none => (s, a)
        | some tg =>
          let r := atomRequest s c ctx op wide scope dst tg p.va ls
          (sendReq s r false, { a with waiting := a.waiting ++ [r.id] })

def atomAll (s : State) (c : Issue) (ctx : Ctx) (op : Nat) (wide : Bool) (scope : BitVec 2) (dst : Nat) :
    List (DWord × List (Thread × List Piece)) → Asked → State × Asked
  | [], a => (s, a)
  | g :: gs, a =>
    match atomAt s c ctx op wide scope dst a g.2 with
    | (s, a) => atomAll s c ctx op wide scope dst gs a

/-- An atomic access ends; lanes that completed write d even when others met a late cause (R249). -/
def endAtom (s : State) (c : Issue) (la : Nat) (dst : List Nat) (a : Asked) : State :=
  endAccess s c la dst a (if a.late.isEmpty then [] else loadedWrites a)

/-- An atomic to global memory. -/
def atomGlobal (s : State) (c : Issue) (op : Nat) (wide : Bool) (scope : BitVec 2) (d la : Nat) (ts : List Thread) : State :=
  let ctx := ctxOf s (memberAsid s c.who)
  let n := if wide then 8 else 4
  let size := if wide then 3 else 2
  let dst := dataRegs size d
  match checkAll s ctx { r := true, w := true, atomic := true } ((memberFeat s c.who).getLsbD 3) true n ts with
  | (s', rs) =>
    let ms := missesOf rs ++ (passedOf rs).filterMap fun t =>
      match t.2.head? with
      | some p => if windowRefuses s' op scope p.way then some (t.1.lane, ⟨11, cSysAtomic, 0, p.va, false, false, false⟩) else none
      | none => none
    if !ms.isEmpty then raiseMisses s c ms dst false
    else
      match atomAll s' c ctx op wide scope d (byAddress (passedOf rs)) { askedInit ts (some (d, size, false)) with keep := true } with
      | (s, a) => endAtom s c la dst a

/-- The atomics of the A buffer, address by address (R256, x = 1). -/
def atomBufAll (t : Team) (op : Nat) (wide : Bool) : List (DWord × List (Thread × List Piece)) → Team × List (Nat × Nat × List Byte)
  | [] => (t, [])
  | g :: gs =>
    let n := if wide then 8 else 4
    let a := g.1.toNat
    let r := atomApply op wide (g.2.map fun x => atomLaneOf n x.1) (bytesToNat (bufRead t .bufA a n))
    let rest := atomBufAll (bufPut t .bufA a (natToBytes n r.1)) op wide gs
    (rest.1, r.2.map (fun q => (q.1, 0, natToBytes n q.2)) ++ rest.2)

/-- An atomic to the team's A buffer. -/
def atomBuffer (s : State) (c : Issue) (op : Nat) (wide : Bool) (d la : Nat) (ts : List Thread) : State :=
  let kc := memberKc c.who
  let core := memberCore c.who
  let n := if wide then 8 else 4
  let size := if wide then 3 else 2
  let dst := dataRegs size d
  let ms := ts.filterMap fun t =>
    if t.addr.toNat % n ≠ 0 then some (t.lane, (⟨2, cMisaligned, 0, t.addr.toNat, false, false, false⟩ : Miss))
    else (bufCheck s kc core .bufA t.addr.toNat n true false true 2 t.addr.toNat).map fun m => (t.lane, m)
  if !ms.isEmpty then raiseMisses s c ms dst false
  else
    let late := (ts.filter fun t => bufPoisoned (teamOf s kc core) .bufA t.addr.toNat n).map fun t => (t.lane, cDataPoison, t.addr.toNat)
    let good := ts.filter fun t => !late.any fun l => l.1 = t.lane
    let r := atomBufAll (teamOf s kc core) op wide (byAddress (good.map fun t => (t, [])))
    endAtom (updTeam s kc core fun _ => r.1) c la dst
      ⟨[], late, r.2, some (d, size, false), maskOf (late.map fun l => l.1), true, [], []⟩

/-- The registers an atomic reads from d upward: operand, and for cas the new value (R257). -/
def atomRegs (op : Nat) (wide : Bool) (d : Nat) : List Nat :=
  (List.range ((if wide then 2 else 1) * (if op = 7 then 2 else 1))).map fun i => d + i

/-- ATOM (R256 to R258): decoding checks, then the threads' operands. -/
def runAtom (s : State) (c : Issue) (op : Nat) (o : OpsAtom) : State :=
  let sp := isSpine c.who
  let g := memberGroup s c.who
  let kc := memberKc c.who
  let k := kcOf s kc
  let d := o.d.toNat
  let regsBad := if sp then decide (32 ≤ d) || (op = 7 && d = 31)
    else !(vOk g.budget (!o.x) o.a.toNat && (!o.wide || decide (d % 2 = 0)) &&
      (atomRegs op o.wide d).all fun r => decide (r < g.budget) && decide (r < 64))
  let ks := if sp then (spineSprue o.a).toList else []
  checked s c [(sp && o.x, cWrongUnit), (regsBad, cIllegal), (!spruesOk s c ks, cProtection)]
    (if sp then
      (if !spinePred k.spine o.g then retireNop s c
       else if ks.any fun i => !readable k i then blockOn s c (.sprueFull (BitVec.ofNat 5 (o.a.toNat - 32)))
       else if (ks.any fun i => (sprueGet k i).poison) || [o.a.toNat, d, d + 1].any fun r => r < 32 && k.spine.poison.contains r &&
          (r ≠ d + 1 || op = 7) then trapAll s c cDataPoison
       else
         let n := if o.wide then 8 else 4
         let run := atomGlobal (consumeAll s kc ks) c op o.wide o.scope d 0
           [⟨0, BitVec.ofNat 64 (spineField k o.a.toNat true),
             natToBytes n (xGet k.spine d).toNat ++ natToBytes n (xGet k.spine (d + 1)).toNat⟩]
         if (kcOf run kc).spine.trap.isSome || (kcOf run kc).spine.asked.isSome then updKc run kc fun q => { q with sprue := k.sprue } else run)
     else
      let act := activeLanes g c o.g
      let bad := poisonedLanes g act ([o.a.toNat] ++ (if o.x then [] else [o.a.toNat + 1]) ++ atomRegs op o.wide d)
      if !bad.isEmpty then trapLanes s c cDataPoison bad
      else if acquirePending s g then holdBack s c
      else outside s c (fun s =>
        let ts := act.map fun l => (⟨l, laneAddr s g l o.a.toNat (!o.x),
          (atomRegs op o.wide d).flatMap fun r => natToBytes 4 (readV s g (16 + r) l r).toNat⟩ : Thread)
        if o.x then atomBuffer s c op o.wide d o.la.toNat ts
        else atomGlobal s c op o.wide o.scope d o.la.toNat ts) (dataRegs (if o.wide then 3 else 2) d))

/-- ATOM_ADD (R257) -/
def execAtomAdd (o : OpsAtom) (s : State) : Host.Outcome State Fault Refusal :=
  issueBy s fun c => runAtom s c 0 o

/-- ATOM_ADDF (R257) -/
def execAtomAddf (o : OpsAtom) (s : State) : Host.Outcome State Fault Refusal :=
  issueBy s fun c => runAtom s c 1 o

/-- ATOM_MIN (R257) -/
def execAtomMin (o : OpsAtom) (s : State) : Host.Outcome State Fault Refusal :=
  issueBy s fun c => runAtom s c 2 o

/-- ATOM_MAX (R257) -/
def execAtomMax (o : OpsAtom) (s : State) : Host.Outcome State Fault Refusal :=
  issueBy s fun c => runAtom s c 3 o

/-- ATOM_AND (R257) -/
def execAtomAnd (o : OpsAtom) (s : State) : Host.Outcome State Fault Refusal :=
  issueBy s fun c => runAtom s c 4 o

/-- ATOM_OR (R257) -/
def execAtomOr (o : OpsAtom) (s : State) : Host.Outcome State Fault Refusal :=
  issueBy s fun c => runAtom s c 5 o

/-- ATOM_EXCH (R257) -/
def execAtomExch (o : OpsAtom) (s : State) : Host.Outcome State Fault Refusal :=
  issueBy s fun c => runAtom s c 6 o

/-- ATOM_CAS (R257) -/
def execAtomCas (o : OpsAtom) (s : State) : Host.Outcome State Fault Refusal :=
  issueBy s fun c => runAtom s c 7 o

end Sys2Proof.Machine
end

