-- ==== Sys2Proof/Machine/Bar.lean ====
section
/-! DEFINITION. Barrier and step instructions (R271 to R278). -/

namespace Sys2Proof.Machine

/-- Decoding checks of a BAR instruction: lanes only, registers in the budget, slot bound (R19, R94). -/
def barChecked (s : State) (c : Issue) (slot : Nat) (regsOk : Bool) (k : State → State) (dst : List Nat := []) : State :=
  checked s c [(isSpine c.who, cWrongUnit), (!regsOk, cIllegal),
    (decide ((kcOf s (memberKc c.who)).cfgBar ≤ slot), cProtection)] (outside s c k dst)

/-- The value of v in the lowest active lane, and whether it is poisoned. -/
def lowestValue (s : State) (c : Issue) (g : PredNo) (reg : Nat) : Option (Word × Bool) :=
  let gr := memberGroup s c.who
  (activeLanes gr c g).head?.map fun l => (readV s gr 0 l reg, gr.poison.contains (vMark l reg))

/-- What `barm` does to a barrier (R205, R206): none for BARRIER_COUNT. -/
def barmOf (b : Barrier) (e : Nat) : Option Barrier :=
  if 1023 < e then none
  else if b.f then some { b with f := false, e := BitVec.ofNat 10 e, a := b.h, h := 0, eb := 0, lb := 0 }
  else if e = 0 && (b.a ≠ 0 || b.eb ≠ 0 || b.lb ≠ 0) then none
  else some { b with e := BitVec.ofNat 10 e }

/-- BARM (R272)
DEDUCED, unsafe: log entry 12; DEDUCED, unsafe: log entry 36. -/
def execBarm (o : OpsBar) (s : State) : Host.Outcome State Fault Refusal :=
  issueBy s fun c =>
    let src := lowestValue s c o.g o.reg.toNat
    barChecked s c o.slot.toNat (vOk (memberGroup s c.who).budget false o.reg.toNat) fun s =>
    match src with
    | none => retireNop s c
    | some (w, poison) =>
      if poison then trapLanes s c cDataPoison (activeLanes (memberGroup s c.who) c o.g)
      else
        let kc := memberKc c.who
        let core := memberCore c.who
        match barmOf (barOf (teamOf s kc core) o.slot.toNat) w.toNat with
        | none => trapLanes s c cBarrierCount (activeLanes (memberGroup s c.who) c o.g)
        | some b => retireNop (barChange s kc core o.slot.toNat fun _ => b) c

/-- How a group arrival ends (R205, R206): counted, or BARRIER_COUNT with F set or not. -/
inductive Arrival where
  | counted (b : Barrier)
  | refused (b : Barrier)
  deriving DecidableEq, Repr

/-- A group arrival with a count check c; 0 for none. A count that differs sets F at any E and A (R206).
DEDUCED, unsafe: log entry 10. -/
def groupArrive (b : Barrier) (c : Nat) : Arrival :=
  if b.f then .refused b
  else if c ≠ 0 && c ≠ b.e.toNat % 64 then .refused { b with f := true }
  else if b.e = 0 || decide (b.e ≤ b.a) then .refused b
  else .counted { b with a := b.a + 1 }

/-- The waits on a slot end with a fault of its barrier (R206). -/
def faultWait (slot : Nat) (e : Entry) : Entry :=
  match e.wait with
  | some (.phase k _) => if k.toNat = slot then { e with wait := some (.faulted k) } else e
  | _ => e

/-- Every group of a team blocked in `wait` on a slot wakes with BARRIER_COUNT (R206).
DEDUCED, unsafe: log entry 11. -/
def faultWaiters (s : State) (kc core slot : Nat) : State :=
  { s with groups := s.groups.map fun g =>
      if g.kc = kc && g.core = core then { g with regs := { g.regs with frontier := g.regs.frontier.map (faultWait slot) } } else g }

/-- Whether an issuing entry wakes with a fault of its barrier. -/
def wokeFaulted (g : Group) (c : Issue) : Bool :=
  g.regs.frontier.any fun e => e.mask = c.mask && (match e.wait with | some (.faulted _) => true | _ => false)

/-- The group arrives on a slot: it is noted at the slot's regions until the swap (R202). -/
def runArrive (s : State) (c : Issue) (slot count : Nat) : State :=
  let kc := memberKc c.who
  let core := memberCore c.who
  let g := memberGroup s c.who
  match groupArrive (barOf (teamOf s kc core) slot) count with
  | .refused b =>
    let s := updTeam s kc core fun t => setBar t slot b
    trapAll (if b.f then faultWaiters s kc core slot else s) c cBarrierCount
  | .counted b =>
    let s := updTeam s kc core fun t => { t with regions := t.regions.map fun r =>
      if r.slot = slot then { r with arrived := r.arrived ++ [g.idx] } else r }
    retireNop (barChange s kc core slot fun _ => b) c

/-- ARV (R273) -/
def execArv (o : OpsBarK) (s : State) : Host.Outcome State Fault Refusal :=
  issueBy s fun c => barChecked s c o.slot.toNat true fun s => runArrive s c o.slot.toNat o.k6.toNat

/-- WAIT (R274): the phase from the lowest active lane; none active completes at once. Windows end there (R89), and
the group acquires the phase (R202, R207). -/
def execWait (o : OpsBar) (s : State) : Host.Outcome State Fault Refusal :=
  issueBy s fun c =>
    let src := lowestValue s c o.g o.reg.toNat
    barChecked s c o.slot.toNat (vOk (memberGroup s c.who).budget false o.reg.toNat) fun s =>
    let s := updMember s c.who landAll
    match src with
    | none => retireNop s c
    | some (w, poison) =>
      let b := barOf (memberTeam s c.who) o.slot.toNat
      let p : BitVec 16 := w.setWidth 16
      if poison then trapLanes s c cDataPoison (activeLanes (memberGroup s c.who) c o.g)
      else if b.f || wokeFaulted (memberGroup s c.who) c then trapLanes s c cBarrierCount (activeLanes (memberGroup s c.who) c o.g)
      else if b.p ≠ p then
        retireNop (acquireSwaps s c.who) c
      else blockOn s c (.phase o.slot p)

/-- The word of `phrd` (R275). -/
def phaseWord (b : Barrier) : Word :=
  BitVec.ofNat 32 ((if b.x then 2 ^ 27 else 0) + (if b.f then 2 ^ 26 else 0) + b.a.toNat * 2 ^ 16 + b.p.toNat)

/-- PHRD (R207, R275): reading P acquires the phases completed. -/
def execPhrd (o : OpsBar) (s : State) : Host.Outcome State Fault Refusal :=
  issueBy s fun c => barChecked s c o.slot.toNat (vOk (memberGroup s c.who).budget false o.reg.toNat) (fun s =>
    let w := phaseWord (barOf (memberTeam s c.who) o.slot.toNat)
    let act := activeLanes (memberGroup s c.who) c o.g
    retireWrites (acquireSwaps s c.who) c 0 [o.reg.toNat] (act.map fun l => ⟨l, o.reg.toNat, w⟩) []) [o.reg.toNat]

/-- The lowest doorbell index that no barrier holds, from n on (R276). -/
def freeDoor (doors : AMap (Option (Nat × Nat × Nat))) (n : Nat) : Nat → Option Nat
  | 0 => none
  | fuel + 1 => if 16384 ≤ n then none else if (amGet none doors n).isNone then some n else freeDoor doors (n + 1) fuel

/-- The virtual address of a doorbell (R391). -/
def doorAddr (idx : Nat) : Nat := 0xFFFFFFF00000 + 64 * idx

/-- BEXP (R276): exports once per group instruction whatever the guard. -/
def execBexp (o : OpsBar) (s : State) : Host.Outcome State Fault Refusal :=
  issueBy s fun c => barChecked s c o.slot.toNat (vOk (memberGroup s c.who).budget true o.reg.toNat) (fun s =>
    let kc := memberKc c.who
    let core := memberCore c.who
    let slot := o.slot.toNat
    let asid := memberAsid s c.who
    let ctx := ctxOf s asid
    let d := o.reg.toNat
    let give := fun (s : State) (idx : Nat) =>
      retireWrites s c 0 [d, d + 1] ((activeLanes (memberGroup s c.who) c o.g).flatMap fun l => regWrites d true l (doorAddr idx)) []
    match (barOf (teamOf s kc core) slot).door with
    | some idx => give s idx
    | none =>
      match freeDoor ctx.doors 0 (ctx.doors.length + 1) with
      | none => trapAll s c cProtection
      | some idx =>
        let s := updCtx s asid fun x => { x with doors := amSet none x.doors idx (some (kc, core, slot)) }
        give (updTeam s kc core fun t => setBar t slot { barOf t slot with x := true, door := some idx }) idx) [o.reg.toNat, o.reg.toNat + 1]

/-- STEP (R277): an arrival on the region's step barrier; PROTECTION unless the region names the slot. -/
def execStep (o : OpsBarK) (s : State) : Host.Outcome State Fault Refusal :=
  issueBy s fun c => barChecked s c o.slot.toNat true fun s =>
    if (memberTeam s c.who).regions.any fun r => r.idx = o.k6.toNat && r.slot = o.slot.toNat
    then runArrive s c o.slot.toNat 0
    else trapAll s c cProtection

/-- BFREE (R278) -/
def execBfree (o : OpsBarS) (s : State) : Host.Outcome State Fault Refusal :=
  issueBy s fun c => barChecked s c o.slot.toNat true fun s =>
    retireNop (updTeam s (memberKc c.who) (memberCore c.who) fun t =>
      { t with free := t.free ||| BitVec.ofNat 16 (2 ^ o.slot.toNat) }) c

end Sys2Proof.Machine
end

