-- ==== Sys2Proof/Machine/Compare.lean ====
section
/-! DEFINITION. Compares, select and predicate logic (R121 to R125) -/

namespace Sys2Proof.Machine

/-- The comb field of a compare (R79): the result c and the old predicate. -/
def combine (comb : BitVec 3) (c old : Bool) : Bool :=
  match comb with
  | 0 => c
  | 1 => old && c
  | 2 => old || c
  | 3 => !c
  | 4 => old && !c
  | _ => old || !c

/-- Whether a compare reads the old predicate (R121): every form with a comb, and not the plain set form. -/
def readsOld (comb : BitVec 3) : Bool := comb ≠ 0

/-- A compare into a predicate (R121): the old predicate is a source of the forms with a comb. -/
def opP (o : OpsP) (f : Nat → Nat → Nat → Bool × Flags6) : RegOp where
  g := o.g
  srcs := [.reg o.a o.x, .sel o.b o.x]
  dst := .pred o.pd (readsOld o.comb)
  one := fun v => match v with
    | a :: b :: p =>
      let r := f (if o.x then 64 else 32) a b
      (if combine o.comb r.1 (decide (p.headD 0 ≠ 0)) then 1 else 0, r.2)
    | _ => (0, 0)

/-- An integer condition sets no flag (R122). -/
def icmp (f : Nat → Nat → Nat → Bool) (n a b : Nat) : Bool × Flags6 := (f n a b, 0)

/-- The format of a compare or an FA form: f32, or f64 with x = 1. -/
def fmtOf (n : Nat) : FloatFmt := if n = 64 then fmtF64 else fmtF32

/-- Predicate logic with two sources (R125). -/
def opPR (o : OpsPR) (f : Bool → Bool → Bool) : RegOp where
  g := o.g
  srcs := [.pred o.pa, .pred o.pb]
  dst := .pred o.pd false
  one := fun v => match v with
    | [a, b] => (if f (decide (a ≠ 0)) (decide (b ≠ 0)) then 1 else 0, 0)
    | _ => (0, 0)

def opPR1 (o : OpsPR1) (f : Bool → Bool) : RegOp where
  g := o.g
  srcs := [.pred o.pa]
  dst := .pred o.pd false
  one := fun v => (if f (decide (v.headD 0 ≠ 0)) then 1 else 0, 0)

/-- ICMP_EQ (R122) -/
def execIcmpEq (o : OpsP) (s : State) : Host.Outcome State Fault Refusal :=
  issueBy s fun c => runReg s c (opP o (icmp fun _ a b => decide (a = b)))

/-- ICMP_NE (R122) -/
def execIcmpNe (o : OpsP) (s : State) : Host.Outcome State Fault Refusal :=
  issueBy s fun c => runReg s c (opP o (icmp fun _ a b => decide (a ≠ b)))

/-- ICMP_LT_S (R122) -/
def execIcmpLtS (o : OpsP) (s : State) : Host.Outcome State Fault Refusal :=
  issueBy s fun c => runReg s c (opP o (icmp fun n a b => decide (sextNat n a < sextNat n b)))

/-- ICMP_LE_S (R122) -/
def execIcmpLeS (o : OpsP) (s : State) : Host.Outcome State Fault Refusal :=
  issueBy s fun c => runReg s c (opP o (icmp fun n a b => decide (sextNat n a ≤ sextNat n b)))

/-- ICMP_GT_S (R122) -/
def execIcmpGtS (o : OpsP) (s : State) : Host.Outcome State Fault Refusal :=
  issueBy s fun c => runReg s c (opP o (icmp fun n a b => decide (sextNat n b < sextNat n a)))

/-- ICMP_GE_S (R122) -/
def execIcmpGeS (o : OpsP) (s : State) : Host.Outcome State Fault Refusal :=
  issueBy s fun c => runReg s c (opP o (icmp fun n a b => decide (sextNat n b ≤ sextNat n a)))

/-- ICMP_LT_N (R122) -/
def execIcmpLtN (o : OpsP) (s : State) : Host.Outcome State Fault Refusal :=
  issueBy s fun c => runReg s c (opP o (icmp fun _ a b => decide (a < b)))

/-- ICMP_GE_N (R122) -/
def execIcmpGeN (o : OpsP) (s : State) : Host.Outcome State Fault Refusal :=
  issueBy s fun c => runReg s c (opP o (icmp fun _ a b => decide (b ≤ a)))

/-- FCMP_EQ (R123) -/
def execFcmpEq (o : OpsP) (s : State) : Host.Outcome State Fault Refusal :=
  issueBy s fun c => runReg s c (opP o fun n => fCompare (fmtOf n) 0)

/-- FCMP_NE (R123) -/
def execFcmpNe (o : OpsP) (s : State) : Host.Outcome State Fault Refusal :=
  issueBy s fun c => runReg s c (opP o fun n => fCompare (fmtOf n) 1)

/-- FCMP_LT (R123) -/
def execFcmpLt (o : OpsP) (s : State) : Host.Outcome State Fault Refusal :=
  issueBy s fun c => runReg s c (opP o fun n => fCompare (fmtOf n) 2)

/-- FCMP_LE (R123) -/
def execFcmpLe (o : OpsP) (s : State) : Host.Outcome State Fault Refusal :=
  issueBy s fun c => runReg s c (opP o fun n => fCompare (fmtOf n) 3)

/-- FCMP_GT (R123) -/
def execFcmpGt (o : OpsP) (s : State) : Host.Outcome State Fault Refusal :=
  issueBy s fun c => runReg s c (opP o fun n => fCompare (fmtOf n) 4)

/-- FCMP_GE (R123) -/
def execFcmpGe (o : OpsP) (s : State) : Host.Outcome State Fault Refusal :=
  issueBy s fun c => runReg s c (opP o fun n => fCompare (fmtOf n) 5)

/-- FCMP_NAN (R123) -/
def execFcmpNan (o : OpsP) (s : State) : Host.Outcome State Fault Refusal :=
  issueBy s fun c => runReg s c (opP o fun n => fCompare (fmtOf n) 6)

/-- FCMP_NUM (R123) -/
def execFcmpNum (o : OpsP) (s : State) : Host.Outcome State Fault Refusal :=
  issueBy s fun c => runReg s c (opP o fun n => fCompare (fmtOf n) 7)

/-- SEL (R124) -/
def execSel (o : OpsS) (s : State) : Host.Outcome State Fault Refusal :=
  issueBy s fun c => runReg s c
    { g := o.g, srcs := [.reg o.a o.x, .sel o.b o.x, .pred o.ps], dst := .reg o.d o.x false
      one := fun v => match v with
        | [a, b, p] => (if p ≠ 0 then a else b, 0)
        | _ => (0, 0) }

/-- PAND (R125) -/
def execPand (o : OpsPR) (s : State) : Host.Outcome State Fault Refusal :=
  issueBy s fun c => runReg s c (opPR o fun a b => a && b)

/-- POR (R125) -/
def execPor (o : OpsPR) (s : State) : Host.Outcome State Fault Refusal :=
  issueBy s fun c => runReg s c (opPR o fun a b => a || b)

/-- PXOR (R125) -/
def execPxor (o : OpsPR) (s : State) : Host.Outcome State Fault Refusal :=
  issueBy s fun c => runReg s c (opPR o fun a b => a != b)

/-- PANDN (R125) -/
def execPandn (o : OpsPR) (s : State) : Host.Outcome State Fault Refusal :=
  issueBy s fun c => runReg s c (opPR o fun a b => a && !b)

/-- PNOT (R125) -/
def execPnot (o : OpsPR1) (s : State) : Host.Outcome State Fault Refusal :=
  issueBy s fun c => runReg s c (opPR1 o fun a => !a)

/-- PMOV (R125) -/
def execPmov (o : OpsPR1) (s : State) : Host.Outcome State Fault Refusal :=
  issueBy s fun c => runReg s c (opPR1 o fun a => a)

end Sys2Proof.Machine
end

