-- ==== Sys2Proof/Machine/Grid.lean ====
section
/-! DEFINITION. The ends of groups, kernel clusters and grids, completion words, dependence counters, grid
boundaries, and the requests that stop a kernel cluster for a save (R183, R191, R302, R309, R310, R323, R336). -/

namespace Sys2Proof.Machine

/-! ### Dependence counters (R309, R310, R316) -/

/-- A VF's counter range: first and number, from HOLDQ (R393). -/
def counterRange (s : State) (vf : FuncNo) : Nat × Nat :=
  let h := (funcOf s vf).holdq
  (bitsOf h 27 16, bitsOf h 43 32)
def ownsCounter (s : State) (vf : FuncNo) (c : Nat) : Bool :=
  let r := counterRange s vf
  decide (r.1 ≤ c) && decide (c < r.1 + r.2)

/-- Sets a counter; falling from nonzero to zero releases its held records in the order of holding (R310). -/
def setCounter (s : State) (c : Nat) (new : BitVec 16) : State :=
  let old := amGet 0 s.tund.counts c
  let t := { s.tund with counts := amSet 0 s.tund.counts c new }
  if old ≠ 0 && new = 0 then
    let out := t.held.filter fun h => h.1 = c
    { s with
      tund := { t with
        released := t.released ++ out.zipIdx.map fun h => (s.nextId + h.2, h.1.2)
        held := t.held.filter fun h => h.1 ≠ c }
      nextId := s.nextId + out.length }
  else { s with tund := t }

/-- One decrement: at zero it leaves zero (R316). -/
def decCounter (s : State) (c : Nat) : State :=
  let old : BitVec 16 := amGet 0 s.tund.counts c
  if old = 0 then s else setCounter s c (old - 1)

/-! ### Feed queues' control blocks (R303) -/

def queueOf (s : State) (q : BitVec 8) : QueueEntry := amGet QueueEntry.zero s.tund.queues q.toNat
def widxOf (s : State) (e : QueueEntry) : Nat := memNat s e.cb 8
def ridxOf (s : State) (e : QueueEntry) : Nat := memNat s (e.cb + 8) 8

/-- Adds to DROPS of a queue, 32 bits. -/
def addDrops (s : State) (q : BitVec 8) (n : Nat) : State :=
  let e := queueOf s q
  { s with mem := putNat s.mem (e.cb + 0x18) 4 ((memNat s (e.cb + 0x18) 4 + n) % 2 ^ 32) }

/-! ### Stores of the device through a context's translation (R302) -/

/-- An 8-byte aligned store of the tundish: none where it has no translation, lacks W, or meets QUOTA or
FRAME_ALIAS or an append rule. One to a doorbell rings it.
DEDUCED, unsafe: log entry 113. -/
def quietStore (s : State) (c : Ctx) (va : Nat) (bytes : List Byte) : Option State :=
  match resolve s c { w := true } true va bytes.length with
  | (s, .ok [p]) =>
    (match p.way with
     | .mem pa cls =>
       if cls = 1 && (appendWrite (frameEntry s (frameNo pa)) (pa % 65536) bytes.length).isSome then none
       else some (ctxWrite s c pa cls bytes)
     | .door a i _ => some (ringOnce s a i true)
     | w => (targetOf w).map fun tg => sendReq s ⟨s.nextId, none, [], 0, 0, p.va, 3, c.asid, tg, .store bytes false, [], 0⟩ true)
  | _ => none

/-! ### The end of a grid (R302, R324) -/

def recField (bytes : List Byte) (off n : Nat) : Nat := bytesToNat ((bytes.drop off).take n)

/-- The header word of a record (R300). -/
def recHeader (bytes : List Byte) : DWord := BitVec.ofNat 64 (recField bytes 0 8)

/-- The completion word and the SCNT decrement of a launch (R302). -/
def completeLaunch (s : State) (l : Launch) (status cause : Nat) : State :=
  let done := recField l.bytes 0x18 8
  let h := recHeader l.bytes
  let s :=
    if done = 0 then s
    else
      match ctxOf? s l.asid with
      | none => addDrops s l.queue 1
      | some c => (quietStore s c done (natToBytes 8 (status + 256 * cause))).getD (addDrops s l.queue 1)
  if bitOf h 10 then decCounter s (bitsOf h 39 28) else s

/-- Frees what a kernel cluster held: members, team storage, watches, doorbells, and the records bound to its
teams, ring records being counted in DROPS (R183, R208, R318, R367). -/
def dropKc (s : State) (id : Nat) : State :=
  let k := kcOf s id
  let s := leftDie s k
  let lost := s.deques.filter fun r => r.kc = id
  let s := lost.foldl (fun s r => match r.queue with | some q => addDrops s q 1 | none => s) s
  let s := updCtx s k.asid fun c =>
    { c with
      doors := c.doors.filter fun d => (match d.2 with | some x => decide (x.1 ≠ id) | none => true)
      counted := c.counted.filter fun e => (match amGet none c.doors e.1 with | some x => decide (x.1 ≠ id) | none => true)
      slotsUsed := match k.slotNo with | some n => c.slotsUsed.filter fun m => m ≠ n | none => c.slotsUsed
      marks := c.marks.filter fun m => memberKc m.2.1 ≠ id
      coreFenced := c.coreFenced.filter fun m => memberKc m.1 ≠ id }
  { s with
    kcs := s.kcs.filter fun x => x.id ≠ id
    teams := s.teams.filter fun t => t.kc ≠ id
    groups := s.groups.filter fun g => g.kc ≠ id
    transfers := s.transfers.filter fun t => t.kc ≠ id
    watches := s.watches.filter fun w => w.kc ≠ id
    deques := s.deques.filter fun r => r.kc ≠ id
    requests := s.requests.filter fun r => (match r.who with | some m => decide (memberKc m ≠ id) | none => true)
    written := s.written.filter fun w => (match w.frame.whose with
      | .member m => decide (memberKc m ≠ id)
      | .ladle _ m => decide (memberKc m ≠ id)
      | _ => true)
    host := { s.host with funcs := s.host.funcs.map fun f => (f.1, f.2.map fun x =>
      let p := x.pending.filter fun q => q ≠ id
      if p.isEmpty && !x.pending.isEmpty then { x with pending := p, status := 2 } else { x with pending := p }) } }

/-- When a context's last grid ends, its lines are written back and no die is touched any more (R328). -/
def untouchIfIdle (s : State) (asid : Asid) : State :=
  if s.grids.any fun g => g.asid = asid then s
  else match ctxOf? s asid with
    | some c => updCtx { s with mem := putNat s.mem (c.desc + 0x58) 8 0 } asid fun x => { x with dirty := 0, lines := [] }
    | none => s

/-- A grid is gone, with every kernel cluster of it; what it was charged is what its context has spent (R183, R324). -/
def removeGrid (s : State) (g : Grid) : State :=
  let s := (s.kcs.filter fun k => k.grid = g.id).foldl (fun s k => dropKc s k.id) s
  updCtx { s with grids := s.grids.filter fun x => x.id ≠ g.id } g.asid fun c =>
    { c with spent := c.spent + if g.ebudget = 0 then 0 else g.charged }

/-- A grid ends with a status and a cause; quiet for a retirement or a reset, which write nothing (R302,
R394, R397). -/
def endGrid (s : State) (gid : Word) (status cause : Nat) (quiet : Bool := false) : State :=
  match gridOf? s gid with
  | none => s
  | some g =>
    let s := removeGrid s g
    let s := if quiet then s else completeLaunch s g.launch status cause
    untouchIfIdle s g.asid

/-- A start record goes when every group of its team has popped it or ended (R322). -/
def settleStart (s : State) (kc core : Nat) : State :=
  if s.groups.any fun g => g.kc = kc && g.core = core && !g.ended && !g.startPopped then s
  else { s with deques := s.deques.filter fun r => !(r.kc = kc && r.core = core && r.start) }

/-! ### Mode changes under way (R387, R388) -/

/-- The partitions whose die set changes between two modes.
DEDUCED, unsafe: log entry 59. -/
def affected (old new : BitVec 2) : List (BitVec 2) := [0, 1, 2, 3].filter fun p => decide (partDies old p ≠ partDies new p)

/-- The mode of a forced change that is under way. -/
def forcedMode (s : State) : Option (BitVec 2) :=
  match s.host.pmReq with
  | some (m, true) => some m
  | _ => none

/-- Whether a context waits for a forced change: nothing of its is placed or resumed before the mode has changed (R388). -/
def modeBlocks (s : State) (asid : Asid) : Bool :=
  match forcedMode s with
  | some m => (affected s.host.pmode m).contains (ctxOf s asid).part
  | none => false

/-! ### Save slots and stopping (R189, R336) -/

/-- A context's free save slots, in order. -/
def freeSlots (c : Ctx) : List Nat := (List.range c.nslot).filter fun i => !c.slotsUsed.contains i

/-- A group that has nothing to issue: every entry is blocked, or it holds a multicast (R172, R287). -/
def groupSleeps (g : Group) : Bool :=
  (!g.regs.frontier.isEmpty && g.regs.frontier.all fun e => e.wait.isSome) ||
    (match g.hold with | some (.mcast _ _) => true | _ => false)

/-- A pre-emption request: latched for the kernel cluster, with its save slot; a group that sleeps at a yield
point stops there (R185, R189, R336). -/
def requestStop (s : State) (id : Nat) (slot : Nat) (code : Byte) : State :=
  let k := kcOf s id
  let s := updCtx s k.asid fun c => { c with slotsUsed := c.slotsUsed ++ [slot] }
  let s := updKc s id fun k => { k with status := .stopping code, slotNo := some slot }
  { s with groups := s.groups.map fun g =>
      if g.kc = id && !g.ended && g.trap.isNone && !inCrit g.crit && groupSleeps g then stopGroup 65 g else g }

/-- Whether a kernel cluster is running, so that a pre-emption would save it. -/
def isRunning (k : Kc) : Bool := match k.status with | .running => true | _ => false

/-- Stops each kernel cluster that has a save slot; fails with those left over. -/
def stopAll (s : State) (code : Byte) : List Kc → State × List Kc
  | [] => (s, [])
  | k :: ks =>
    match (freeSlots (ctxOf s k.asid)).head? with
    | some n => stopAll (requestStop s k.id n code) code ks
    | none =>
      match stopAll s code ks with
      | (s, r) => (s, k :: r)

/-- Whether every kernel cluster of a list would get a slot of its context. -/
def slotsFor (s : State) (ks : List Kc) : Bool :=
  ks.all fun k => decide ((ks.filter fun x => x.asid = k.asid).length ≤ (freeSlots (ctxOf s k.asid)).length)

/-- A forced pre-emption: a grid with a kernel cluster that cannot be saved is ended with STATUS 2, CAUSE 0 (R336). -/
def forceStop (s : State) (code : Byte) (ks : List Kc) : State :=
  match stopAll s code ks with
  | (s, left) => (dedup (left.map fun k => k.grid)).foldl (fun s g => endGrid s g 2 0) s

/-! ### Waits (R172, R191, R419) -/

/-! ### Boundaries (R191, R323, R414) -/

/-- The started kernel clusters of a grid. -/
def kcsOf (s : State) (gid : Word) : List Kc := s.kcs.filter fun k => k.grid = gid

/-- A die leaves the grid at a completed boundary when DMIN stays and every kernel cluster there has a slot. -/
def leaveDie (s : State) (gid : Word) (d : DieNo) : State :=
  match gridOf? s gid with
  | none => s
  | some g =>
    let there := (kcsOf s gid).filter fun k => (match k.place with | some p => decide (p.die = d) | none => false)
    let run := there.filter isRunning
    let rest := g.dies.filter fun x => x ≠ d
    if g.dies.contains d && decide (g.mould.dmin ≤ rest.length) && slotsFor s run then
      let s := updGrid s gid fun g => { g with dies := rest, leaving := g.leaving.filter fun x => x ≠ d }
      (stopAll s 6 run).1
    else s

/-- A spine that waits in `gstep` at a boundary up to b goes on after it, before any later pre-emption stops it (R189,
step 2, R191, R431). -/
def passBoundary (b : Nat) (sp : Spine) : Spine :=
  match sp.wait with
  | some (.boundary k) => if k ≤ b then { sp with pc := sp.pc + 4, wait := none, crit := sp.crit.map (· + 1) } else sp
  | _ => sp

/-- Dies that firmware policy takes from the grid at a boundary (R323, R422): any of its set, unspecified which, by the
scheduler or at the request of the VF's plug-in on the die, unless that has been stopped; DMIN and the save slots are
looked at for each. -/
def policyDies (s : State) (g : Grid) : List DieNo := g.dies.filter fun d =>
  Config.freeBit s.fresh (2 ^ 21 + d.toNat) ||
    (Config.freeBit s.fresh (2 ^ 21 + 4 + d.toNat) && !(dieOf s d).stopped.contains (ctxOf s g.asid).vf)

/-- Boundary k completes when every live spine of the grid has issued its k-th gstep (R191), and the spines that wait at
it go on; then dies may be removed, and the tundish may add dies in its next round (R323).
DESIGN CHOICE, safe: log entry 25. -/
def settleBoundary (s : State) (gid : Word) : State :=
  match gridOf? s gid with
  | none => s
  | some g =>
    let live := (kcsOf s gid).filter fun k => !k.spine.ended
    if !live.isEmpty && live.all fun k => decide (g.boundary < k.spine.gsteps) then
      let s := updGrid s gid fun g => { g with boundary := g.boundary + 1, grow := true }
      let s := { s with kcs := s.kcs.map fun k => if k.grid = gid then { k with spine := passBoundary (g.boundary + 1) k.spine } else k }
      (dedup (g.leaving ++ policyDies s g)).foldl (fun s d => leaveDie s gid d) s
    else s

/-! ### The end of a kernel cluster (R183) -/

/-- The number of kernel clusters of a grid. -/
def gridSize (g : Grid) : Nat := g.gx * g.gy * g.gz

/-- A kernel cluster ends when its spine and every group have ended and its transfers have landed; a grid when
all its kernel clusters have.
DEDUCED, unsafe: log entry 16. -/
def settleKc (s : State) (id : Nat) : State :=
  let k := kcOf s id
  let done := k.spine.ended && (s.groups.all fun g => g.kc ≠ id || g.ended) && !(s.transfers.any fun t => t.kc = id)
  if !done then settleBoundary s k.grid
  else
    let s := dropKc s id
    match gridOf? s k.grid with
    | none => s
    | some g =>
      if (kcsOf s k.grid).isEmpty && gridSize g ≤ g.nextCluster then endGrid s k.grid 1 0
      else settleBoundary s k.grid

end Sys2Proof.Machine
end

