-- ==== Sys2Proof/Machine/Ladle.lean ====
section
/-! DEFINITION. The ladle (R211, R212, R279 to R291, R352): kicks, landing, holds, ends. -/

namespace Sys2Proof.Machine

/-! ### Request blocks (R281 to R283) -/

/-- A request block: sides, extents, strides (dimensions 1 to 3) and control fields. -/
structure Block where
  src : Nat
  dst : Nat
  e : List Nat
  ss : List Int
  ds : List Int
  esize : Nat
  sspace : Nat
  dspace : Nat
  chan : Nat
  red : Nat
  mcast : Nat
  /-- a reserved field is nonzero or a reserved code is used -/
  bad : Bool

/-- The block in 64 bytes of the A buffer (R281, R282). -/
def parseBlock (bytes : List Byte) : Block :=
  let f := fun (off n : Nat) => recField bytes off n
  let ctl := f 0x34 4
  let stride := fun (off : Nat) => sextNat 32 (f off 4)
  let es := ctl % 8
  let sp := ctl / 8 % 8
  let dp := ctl / 64 % 8
  let red := ctl / 4096 % 8
  { src := f 0 8, dst := f 8 8
    e := [f 0x10 4 % 2 ^ 24, f 0x14 2, f 0x16 2, f 0x18 2]
    ss := [stride 0x1C, stride 0x20, stride 0x24]
    ds := [stride 0x28, stride 0x2C, stride 0x30]
    esize := es, sspace := sp, dspace := dp, chan := ctl / 512 % 8, red := red, mcast := f 0x38 4
    bad := f 0x3C 4 ≠ 0 || f 0x1A 2 ≠ 0 || f 0x10 4 / 2 ^ 24 ≠ 0 || ctl / 2 ^ 15 ≠ 0 || decide (4 < es) || decide (3 < sp) ||
      decide (3 < dp) || decide (2 < red) || f 0x38 4 / 2 ^ 12 ≠ 0 }

/-- Bytes per element. -/
def Block.width (b : Block) : Nat := 2 ^ b.esize
/-- The byte count n of R283. -/
def Block.count (b : Block) : Nat := b.e.foldl (· * ·) 1 * b.width

/-- The offsets of the elements from both bases, in element order: (destination, source). -/
def Block.offsets (b : Block) : List (Int × Int) :=
  let e := fun (i : Nat) => b.e.getD i 0
  let st := fun (l : List Int) (i : Nat) => l.getD i 0
  (List.range (e 3)).flatMap fun (i3 : Nat) => (List.range (e 2)).flatMap fun (i2 : Nat) => (List.range (e 1)).flatMap fun (i1 : Nat) =>
    (List.range (e 0)).map fun (i0 : Nat) =>
      let off := fun (l : List Int) => (i0 : Int) * b.width + i1 * st l 0 + i2 * st l 1 + i3 * st l 2
      (off b.ds, off b.ss)

/-- The lowest offset and one past the highest byte that extents and strides reach (R211). -/
def Block.bounds (b : Block) (strides : List Int) : Int × Int :=
  let e := fun (i : Nat) => (b.e.getD i 0 : Int)
  let reach := [0, 1, 2].map fun i => (e (i + 1) - 1) * strides.getD i 0
  (reach.foldl (fun acc r => acc + (if r < 0 then r else 0)) 0,
   reach.foldl (fun acc r => acc + (if 0 < r then r else 0)) (e 0 * b.width))

/-- A space code. -/
def spaceOf (c : Nat) : Space := match c with | 0 => .global | 1 => .bufW | 2 => .bufA | _ => .bufC

/-- The address an offset gives on a side. -/
def sideAddr (space : Nat) (base : Nat) (off : Int) : Nat :=
  if space = 0 then (((base : Int) + off) % 2 ^ 48).toNat else ((base % 2 ^ 21 : Nat) + off).toNat

/-- The cores that receive the bytes of a bulk kick: with memory as destination, the kicking core counts. -/
def blockCores (core fn : Nat) (b : Block) : List Nat :=
  if fn = 1 then (List.range 12).filter fun i => b.mcast.testBit i
  else if b.dspace = 0 then [core] else [b.dst / 2 ^ 21 % 16]

/-- Row 4 of R284: PROTECTION. fn: 0 lxfr, 1 lmcs, 2 lred. `lmcs` copies whatever RED says, for which R287 asks nothing.
DEDUCED, unsafe: log entry 110. -/
def blockDenied (s : State) (kc core fn : Nat) (b : Block) : Bool :=
  let k := kcOf s kc
  let own := teamOf s kc core
  let sb := b.bounds b.ss
  let db := b.bounds b.ds
  let any := decide (0 < b.count)
  let addrBad := fun (sp a : Nat) => if sp = 0 then decide (2 ^ 48 ≤ a) else decide (2 ^ 25 ≤ a)
  let inside := fun (t : Team) (sp base : Nat) (r : Int × Int) =>
    !any || (decide (0 ≤ ((base % 2 ^ 21 : Nat) : Int) + r.1) && decide (((base % 2 ^ 21 : Nat) : Int) + r.2 ≤ bufSize t (spaceOf sp)))
  let cores := blockCores core fn b
  let cBad := fun (base : Nat) =>
    b.esize ≠ 4 || base % 1024 ≠ 0 || b.e.getD 0 0 % 64 ≠ 0 || decide (512 * 64 < b.e.getD 0 0) || b.e.drop 1 ≠ [1, 1, 1] ||
      base / 2 ^ 21 % 16 ≠ core
  let spaces := match fn with
    | 0 => b.red ≠ 0 || b.mcast ≠ 0
    | 1 => !(b.dspace = 1 || b.dspace = 2) || b.dst / 2 ^ 21 ≠ 0
    | _ => b.mcast ≠ 0 || !(b.dspace = 0 || b.dspace = 2) ||
        !((b.red = 1 && b.esize = 2) || (b.red = 2 && b.esize = 1))
  b.bad || spaces || addrBad b.sspace b.src || addrBad b.dspace b.dst ||
    cores.any (fun i => decide (coresOf k ≤ i)) ||
    (b.sspace ≠ 0 && (b.src / 2 ^ 21 % 16 ≠ core || !inside own b.sspace b.src sb)) ||
    (b.dspace ≠ 0 && cores.any fun i => !inside (teamOf s kc i) b.dspace b.dst db) ||
    (b.dspace = 2 && cores.any fun i => b.offsets.any fun o =>
      inRegion (teamOf s kc i) (sideAddr 2 b.dst o.1) b.width) ||
    (b.sspace = 3 && (cBad b.src || b.dspace ≠ 0)) || (b.dspace = 3 && (cBad b.dst || b.sspace ≠ 0))

/-- Row 5 of R284: MISALIGNED. -/
def blockMisaligned (b : Block) : Bool :=
  b.src % b.width ≠ 0 || b.dst % b.width ≠ 0 || (b.ss ++ b.ds).any fun x => decide (x % b.width ≠ 0)

/-! ### Kicks (R279, R284, R287) -/

/-- Whether a counting barrier refuses a kick: unarmed or faulted (row 6), or its EB overflows (row 7). -/
def kickCause (s : State) (kc slot n : Nat) (cores : List Nat) : Option Byte :=
  let bar := fun (i : Nat) => barOf (teamOf s kc i) slot
  if cores.any fun i => (bar i).e = 0 || (bar i).f then some cBarrierCount
  else if cores.any fun i => decide (2 ^ 32 ≤ (bar i).eb.toNat + n) then some cProtection
  else none

/-- A kick starts: EB rises first; a zero-extent one completes at once with its arrivals (R279). -/
def startKick (s : State) (t : Transfer) (n : Nat) (cores : List Nat) : State :=
  let s := cores.foldl (fun s i => barChange s t.kc i t.slot fun b =>
    if n = 0 then ladleArrive b else { b with eb := b.eb + BitVec.ofNat 32 n }) s
  if n = 0 then s else { s with transfers := s.transfers ++ [{ t with id := s.nextId }], nextId := s.nextId + 1 }

/-- Range-lock entries in use on the hardware core of a team (R211). -/
def locksUsed (s : State) (kc core : Nat) : Nat :=
  let h := hwCore (kcOf s kc) core
  (s.transfers.filter fun t => decide (hwCore (kcOf s t.kc) t.core = h)).foldl (fun acc t => acc + lockEntries t) 0

/-- Whether an earlier transfer of the channel is not complete (R288). -/
def channelBusy (s : State) (kc core chan : Nat) : Bool :=
  let h := hwCore (kcOf s kc) core
  s.transfers.any fun t => decide (t.chan = some chan) && decide (hwCore (kcOf s t.kc) t.core = h)

/-- The 16-byte parts that elements of w bytes at these addresses cover wholly (R220). -/
def wholeParts (w : Nat) (as : List Nat) : List Nat :=
  let as := dedup as
  (dedup (as.map fun a => a / 16)).filter fun q => decide (((as.filter fun a => a / 16 = q).length) * w = 16)

/-- The transfer that a bulk kick makes. -/
def bulkTransfer (s : State) (c : Issue) (fn slot : Nat) (lanes : LaneMask) (block : Nat) (b : Block) (cores : List Nat) : Transfer :=
  let kc := memberKc c.who
  let core := memberCore c.who
  let iv := fun (space base : Nat) (strides : List Int) =>
    if space = 1 || space = 2 then
      let r := b.bounds strides
      some ((((base % 2 ^ 21 : Nat) : Int) + r.1).toNat, (((base % 2 ^ 21 : Nat) : Int) + r.2).toNat)
    else none
  let todo := sortBy (fun e => e.1) (b.offsets.map fun o => (sideAddr b.dspace b.dst o.1, sideAddr b.sspace b.src o.2))
  { id := 0, kc := kc, core := core, group := (memberGroup s c.who).idx, asid := memberAsid s c.who, lanes := lanes
    chan := some b.chan, slot := slot, sspace := spaceOf b.sspace, dspace := spaceOf b.dspace, esize := b.width
    red := if fn = 2 then (if b.red = 1 then .addF32 else .addBf16) else .copy
    srcIv := iv b.sspace b.src b.ss
    dstIv := if cores.contains core then iv b.dspace b.dst b.ds else none
    block := block
    legs := cores.map fun i => ⟨i, todo, false⟩
    started := !channelBusy s kc core b.chan
    stopped := false, retried := false
    whole := wholeParts b.width (todo.map fun e => e.2), fetched := [] }

/-- The team's slot channel follows the latest bulk kick (R290). -/
def setSlotChannel (s : State) (c : Issue) (slot chan : Nat) : State :=
  updTeam s (memberKc c.who) (memberCore c.who) fun t => { t with chans := amSet none t.chans slot (some chan) }

/-- A bulk kick (R284 to R289): the rows in order, then the waits for lock entries and for free-mask bits. With no active
lane, or MCAST 0, row 6 and the arrival look at slot k of the kicking team.
DEDUCED, unsafe: log entry 111. -/
def runBulk (s : State) (c : Issue) (fn : BitVec 2) (o : OpsBulk) : State :=
  let kc := memberKc c.who
  let core := memberCore c.who
  let slot := o.slot.toNat
  let retire := fun (s : State) => retireWrites s c o.la.toNat [] [] []
  let g := memberGroup s c.who
  outside s c fun s =>
    let t := memberTeam s c.who
    match activeLanes g c o.g with
    | [] =>
      match kickCause s kc slot 0 [core] with
      | some b => trapAll s c b
      | none => retire (barChange s kc core slot ladleArrive)
    | l :: ls =>
      let fail := fun (b : Byte) (addr : Nat) => trapLanes s c b (l :: ls) addr
      if g.poison.contains (l * 64 + o.a.toNat) then fail cDataPoison 0
      else
        let addr := (readV s g 0 l o.a.toNat).toNat
        let b := parseBlock (bufRead t .bufA addr 64)
        let f := fn.toNat
        if addr % 64 ≠ 0 then fail cMisaligned addr
        else if decide (t.aSize < addr + 64) || inRegion t addr 64 then fail cProtection addr
        else if rangeLocked s kc core .bufA addr 64 false then fail cRangeLocked addr
        else if bufPoisoned t .bufA addr 64 then fail cDataPoison addr
        else if blockDenied s kc core f b then fail cProtection addr
        else if blockMisaligned b then fail cMisaligned addr
        else
          let cores := blockCores core f b
          let count := if cores.isEmpty then [core] else cores
          let n := if cores.isEmpty then 0 else b.count
          match kickCause s kc slot n count with
          | some cause => fail cause addr
          | none =>
            let tr := bulkTransfer s c f slot (maskOf (l :: ls)) addr b cores
            if decide (0 < n) && decide (32 < locksUsed s kc core + lockEntries tr) then
              endIssue (updMember s c.who fun g => { g with hold := some (.locks c fn o) }) c
            else if f = 1 && cores.any fun i => !(teamOf s kc i).free.getLsbD slot then
              endIssue (updMember s c.who fun g =>
                let g := { g with hold := some (.mcast c o) }
                if stopping (kcOf s kc) && !inCrit g.crit then stopGroup 65 g else g) c
            else
              let s := if f = 1 then cores.foldl (fun s i => updTeam s kc i fun t =>
                  { t with free := t.free &&& ~~~BitVec.ofNat 16 (2 ^ slot) }) s else s
              retire (setSlotChannel (startKick s tr n count) c slot b.chan)

/-- The decoding checks of a LADLE instruction (R94, R95). -/
def ladleChecked (s : State) (c : Issue) (slot : Nat) (regsOk : Bool) (k : State) : State :=
  checked s c [(isSpine c.who, cWrongUnit), (!regsOk, cIllegal),
    (decide ((kcOf s (memberKc c.who)).cfgBar ≤ slot), cProtection)] k

def bulkChecked (s : State) (c : Issue) (fn : BitVec 2) (o : OpsBulk) : State :=
  ladleChecked s c o.slot.toNat (vOk (memberGroup s c.who).budget false o.a.toNat) (runBulk s c fn o)

/-- LXFR (R285) -/
def execLxfr (o : OpsBulk) (s : State) : Host.Outcome State Fault Refusal := issueBy s fun c => bulkChecked s c 0 o

/-- LMCS (R287) -/
def execLmcs (o : OpsBulk) (s : State) : Host.Outcome State Fault Refusal := issueBy s fun c => bulkChecked s c 1 o

/-- LRED (R286) -/
def execLred (o : OpsBulk) (s : State) : Host.Outcome State Fault Refusal := issueBy s fun c => bulkChecked s c 2 o

/-! ### Per-lane copies (R280) -/

/-- The destination of a per-lane copy: buffer and offset, none for PROTECTION. -/
def copyDest (w : Word) : Option (Space × Nat) :=
  if bitsOf w 29 21 ≠ 0 then none
  else match bitsOf w 31 30 with
    | 0 => some (.bufA, bitsOf w 20 0)
    | 1 => some (.bufW, bitsOf w 20 0)
    | _ => none

/-- Destinations of per-lane copies in the W buffer carry this mark above their 21 bits of offset. -/
def wMark : Nat := 2 ^ 21

/-- A per-lane copy of n bytes (R280). The buffer side is checked at row 3 with the source's rows.
DEDUCED, unsafe: log entry 39. -/
def runCopy (s : State) (c : Issue) (n : Nat) (o : OpsLcpy) : State :=
  let kc := memberKc c.who
  let core := memberCore c.who
  let slot := o.slot.toNat
  let g := memberGroup s c.who
  ladleChecked s c slot (vOk g.budget true o.a.toNat && vOk g.budget false o.d.toNat)
    (outside s c fun s =>
      let t := memberTeam s c.who
      let act := activeLanes g c o.g
      let bad := poisonedLanes g act [o.a.toNat, o.a.toNat + 1, o.d.toNat]
      let ts := act.map fun l => (⟨l, laneAddr s g l o.a.toNat true, []⟩ : Thread)
      let dest := fun (l : Nat) => copyDest (readV s g 3 l o.d.toNat)
      let word := fun (l : Nat) => (readV s g 3 l o.d.toNat).toNat
      let destMiss := act.filterMap fun l =>
        if word l % n ≠ 0 then some (l, (⟨2, cMisaligned, 0, word l, false, false, false⟩ : Miss))
        else
          match dest l with
          | none => some (l, ⟨3, cProtection, 0, word l, false, false, false⟩)
          | some (buf, off) =>
            if decide (bufSize t buf < off + n) || (decide (buf = .bufA) && inRegion t off n)
            then some (l, ⟨3, cProtection, 0, word l, false, false, false⟩) else none
      if !bad.isEmpty then trapLanes s c cDataPoison bad
      else
        let ctx := ctxOf s (memberAsid s c.who)
        match checkAll s ctx { r := true } true true n ts with
        | (s', rs) =>
          let ms := missesOf rs ++ destMiss
          if !ms.isEmpty then raiseMisses s c (sortBy (fun m => m.1) ms) [] false
          else
            let total := n * act.length
            match kickCause s' kc slot total [core] with
            | some b => trapAll s c b
            | none =>
              let todo := ts.filterMap fun t => (dest t.lane).map fun b =>
                (if b.1 = .bufW then b.2 + wMark else b.2, t.addr.toNat % 2 ^ 48)
              let tr : Transfer :=
                { id := 0, kc := kc, core := core, group := g.idx, asid := memberAsid s c.who, lanes := maskOf act
                  chan := none, slot := slot, sspace := .global, dspace := .bufA, esize := n, red := .copy, srcIv := none
                  dstIv := none, block := 0, legs := [⟨core, todo, false⟩], started := true, stopped := false, retried := false
                  whole := [], fetched := [] }
              retireWrites (startKick s' tr total [core]) c o.la.toNat [] [] [])

/-- LCPY_4 (R280) -/
def execLcpy4 (o : OpsLcpy) (s : State) : Host.Outcome State Fault Refusal := issueBy s fun c => runCopy s c 4 o

/-- LCPY_8 (R280) -/
def execLcpy8 (o : OpsLcpy) (s : State) : Host.Outcome State Fault Refusal := issueBy s fun c => runCopy s c 8 o

/-- LCPY_16 (R280) -/
def execLcpy16 (o : OpsLcpy) (s : State) : Host.Outcome State Fault Refusal := issueBy s fun c => runCopy s c 16 o

/-! ### The write pointer (R290) -/

/-- Whether two teams lie on one hardware core. -/
def sameCore (s : State) (kc core kc2 core2 : Nat) : Bool := decide (hwCore (kcOf s kc) core = hwCore (kcOf s kc2) core2)

/-- The write pointer of a transfer in progress: the least over its copies, in the destination's layout.
DEDUCED, unsafe: log entry 79. -/
def writePtr (t : Transfer) (last : Nat) : Nat :=
  let p := (t.legs.filter fun l => !l.todo.isEmpty).foldl (fun acc l => min acc (landedPtr t l)) last
  if t.dspace = .global then p % 2 ^ 32
  else p + (if t.legs.length = 1 then (t.legs.headD ⟨0, [], true⟩).core * 2 ^ 21 else 0)

/-- What `lwp` returns for a slot of a team: of the oldest transfer that the core's channel has not completed, whichever
team kicked it (R288, R290).
DEDUCED, unsafe: log entry 79. -/
def lwpValue (s : State) (kc core slot : Nat) : Nat :=
  let t := teamOf s kc core
  match amGet none t.chans slot with
  | none => 0
  | some ch =>
    match s.transfers.find? fun x => decide (x.chan = some ch) && sameCore s x.kc x.core kc core with
    | some x => writePtr x (2 ^ 48)
    | none => amGet 0 t.lastPtr ch

/-- LWP (R290) -/
def execLwp (o : OpsLwp) (s : State) : Host.Outcome State Fault Refusal :=
  issueBy s fun c => ladleChecked s c o.slot.toNat (vOk (memberGroup s c.who).budget false o.d.toNat)
    (outside s c (fun s =>
      let v := BitVec.ofNat 32 (lwpValue s (memberKc c.who) (memberCore c.who) o.slot.toNat)
      let d := o.d.toNat
      retireWrites s c o.la.toNat [d] ((activeLanes (memberGroup s c.who) c o.g).map fun l => ⟨l, d, v⟩) []) [o.d.toNat])

/-! ### Landing (R279, R283, R286, R291) -/

def findTransfer (s : State) (id : Nat) : Option Transfer := s.transfers.find? fun t => t.id = id
def updTransfer (s : State) (id : Nat) (f : Transfer → Transfer) : State :=
  { s with transfers := s.transfers.map fun t => if t.id = id then f t else t }

/-- The die whose core kicked a transfer. -/
def transferDie (s : State) (t : Transfer) : DieNo := memberDie s (.spine t.kc)

/-- n bytes of a global side, as the channel reaches them (R291); poison is no failure. A reducing put also reads its
destination, so that it needs the answer of a host (R286, R379). -/
def ladleSide (s : State) (t : Transfer) (write : Bool) (va n : Nat) : State × Except Miss Piece :=
  let need : Need := { r := !write, w := write }
  match resolve s (ctxOf s t.asid) need true va n with
  | (s, .error m) => (s, .error m)
  | (s, .ok [p]) =>
    (match pieceLate s (transferDie s t) { need with r := !write || t.red ≠ .copy } p with
     | some b => if b = cDataPoison then (s, .ok p) else (s, .error ⟨9, b, 0, va, false, write, false⟩)
     | none => (s, .ok p))
  | (s, .ok _) => (s, .error ⟨2, cMisaligned, 0, va, false, write, false⟩)

/-- A buffer side: the space and offset; a per-lane copy's W offsets carry a mark. -/
def bufSide (t : Transfer) (space : Space) (a : Nat) : Space × Nat :=
  if t.chan.isNone && decide (wMark ≤ a) then (.bufW, a - wMark) else (space, a)

/-- The request of a transfer for a piece beyond the device. -/
def ladleReq (s : State) (t : Transfer) (tg : Target) (k : ReqKind) : Request :=
  ⟨s.nextId, some (.group t.kc t.core t.group), [], t.id, 0, t.block, 3, t.asid, tg, k, [], 0⟩

/-- The bytes of a piece the ladle reads, and whether they are poisoned. What a host or a peer answers is not the
device's to say: bytes, with a poison mark or without, or a failure, which is LINK_ERROR (R396, R400, R411).
DESIGN CHOICE, safe: log entry 112. -/
def ladleRead (s : State) (t : Transfer) (p : Piece) : State × Except Byte (List Byte × Bool) :=
  match p.way with
  | .mem pa cls =>
    let at' := servedAt s (transferDie s t) pa cls
    (if at' = pa then s else useReplica s (transferDie s t) pa, .ok (memRead s at' p.n, memPoisoned s at' p.n))
  | w =>
    match targetOf w with
    | some tg =>
      (bump (sendReq s (ladleReq s t tg (.load p.n)) true),
        match Config.freeNat s.fresh 13 % 3 with
        | 0 => .error cLinkError
        | k => .ok (((List.range 4).flatMap fun i => natToBytes 4 (Config.freeWord s.fresh i).toNat).take p.n, decide (k = 1)))
    | none => (s, .ok (List.replicate p.n 0, false))

/-- A write of the ladle, with the poison mark of its source (R291, R411). One to a host window is posted, and lost where no
circuit reaches the host (R379, R396); one that goes over the fabric is acknowledged by its target (R240); one of 4 or 8
bytes to a doorbell rings it.
DEDUCED, unsafe: log entry 113. -/
def ladleWrite (s : State) (t : Transfer) (p : Piece) (bytes : List Byte) (poison : Bool) : State :=
  match p.way with
  | .mem pa cls =>
    let s := ctxWrite s (ctxOf s t.asid) pa cls bytes
    if poison then { s with memPoison := dedup (s.memPoison ++ partsOf pa bytes.length) } else s
  | .door a i _ => ringOnce s a i
  | w =>
    match targetOf w with
    | some tg =>
      let r := ladleReq s t tg (.store bytes poison)
      (match tg with
       | .window .. => postWindow s (transferDie s t) r
       | .fabric .. => sendReq s r false)
    | none => s

/-- One element's combination at the destination (R286). -/
def redCombine (op : RedOp) (old new : List Byte) : List Byte :=
  match op with
  | .copy => new
  | .addF32 => natToBytes 4 (fAdd fmtF32 (bytesToNat old) (bytesToNat new)).1
  | .addBf16 => natToBytes 2 (fAdd fmtBf16 (bytesToNat old) (bytesToNat new)).1

/-! Sources: a 16-byte part that the range covers wholly is read once, as one; the element alone otherwise (R220). -/

/-- What one access of the source reads for an element at a: first address and length. -/
def sourceUnit (t : Transfer) (a : Nat) : Nat × Nat := if t.whole.contains (a / 16) then (a / 16 * 16, 16) else (a, t.esize)

/-- Source bytes that a transfer has read already. -/
def fetchedBytes (t : Transfer) (a n : Nat) : Option (List Byte × Bool) :=
  ((addrsFrom a n).mapM fun i => (t.fetched.find? fun f => f.1 = i).map fun f => f.2).map fun bs =>
    (bs.map fun b => b.1, bs.any fun b => b.2)

/-- One access of the source. -/
def readSource (s : State) (t : Transfer) (u : Nat × Nat) : State × Except Miss (List Byte × Bool) :=
  if t.sspace = .global then
    match ladleSide s t false u.1 u.2 with
    | (s, .error m) => (s, .error m)
    | (s, .ok p) => (match ladleRead s t p with
      | (s, .ok r) => (s, .ok r)
      | (s, .error b) => (s, .error ⟨9, b, 0, u.1, false, false, false⟩))
  else
    let own := teamOf s t.kc t.core
    (s, .ok (bufRead own t.sspace u.1 u.2, bufPoisoned own t.sspace u.1 u.2))

/-- The source bytes of an element, read now unless the transfer has them. -/
def fetchElem (s : State) (t : Transfer) (a : Nat) : State × Transfer × Except Miss (List Byte × Bool) :=
  match fetchedBytes t a t.esize with
  | some r => (s, t, .ok r)
  | none =>
    let u := sourceUnit t a
    match readSource s t u with
    | (s, .error m) => (s, t, .error m)
    | (s, .ok (bytes, poison)) =>
      let t := { t with fetched := t.fetched ++ bytes.zipIdx.map fun b => (u.1 + b.2, b.1, poison) }
      (s, t, .ok (((bytes.drop (a - u.1)).take t.esize), poison))

/-- The source bytes of the elements of one unit, in order. -/
def fetchUnit (s : State) (t : Transfer) : List (Nat × Nat) → State × Transfer × Except Miss (List (Nat × List Byte × Bool))
  | [] => (s, t, .ok [])
  | e :: es =>
    match fetchElem s t e.2 with
    | (s, t, .error m) => (s, t, .error m)
    | (s, t, .ok b) =>
      match fetchUnit s t es with
      | (s, t, .error m) => (s, t, .error m)
      | (s, t, .ok bs) => (s, t, .ok ((e.1, b) :: bs))

/-- The elements at the head of a bulk transfer's list that land together: those of one aligned 16-byte part of the
destination that they cover wholly, the later of two at one place last (R196, R220, R283); else one.
DEDUCED, unsafe: log entry 90. -/
def unitLen (t : Transfer) : List (Nat × Nat) → Nat
  | [] => 1
  | e :: rest =>
    let same := (e :: rest).takeWhile fun x => x.1 / 16 = e.1 / 16
    if t.chan.isSome && decide ((dedup (same.map fun x => x.1)).length * t.esize = 16) then same.length else 1

/-- The destination of a unit: first address and length. -/
def unitSpan (t : Transfer) (unit : List (Nat × Nat)) : Nat × Nat :=
  match unit with
  | [] => (0, 0)
  | e :: _ => if (dedup (unit.map fun x => x.1)).length * t.esize = 16 then (e.1 / 16 * 16, 16) else (e.1, t.esize)

/-- The bytes of a unit's destination after its elements, in order. -/
def combineUnit (t : Transfer) (a : Nat) (old : List Byte) (es : List (Nat × List Byte × Bool)) : List Byte :=
  es.foldl (fun b e =>
    let k := e.1 - a
    b.take k ++ redCombine t.red ((b.drop k).take t.esize) e.2.1 ++ b.drop (k + t.esize)) old

/-- One unit lands for the copy of one core, whole or not at all. -/
def landUnit (s : State) (t : Transfer) (core : Nat) (unit : List (Nat × Nat)) : State × Transfer × Option Miss :=
  let (a, n) := unitSpan t unit
  match fetchUnit s t unit with
  | (s, t, .error m) => (s, t, some m)
  | (s, t, .ok es) =>
    let poison := es.any fun e => e.2.2
    if t.dspace = .global then
      match ladleSide s t true a n with
      | (s, .error m) => (s, t, some m)
      | (s, .ok p) =>
        -- a reducing put adds to what stands at the destination (R286)
        match (if t.red = .copy then (s, .ok (List.replicate n 0, false)) else ladleRead s t p) with
        | (s, .error b) => (s, t, some ⟨9, b, 0, a, false, true, false⟩)
        | (s, .ok (old, bad)) => (ladleWrite s t p (combineUnit t a old es) (poison || bad), t, none)
    else
      let side := bufSide t t.dspace a
      (updTeam s t.kc core fun tm =>
        let bad := poison || (t.red ≠ .copy && bufPoisoned tm side.1 side.2 n)
        let tm := bufPut tm side.1 side.2 (combineUnit t a (bufRead tm side.1 side.2 n) es)
        if bad then { tm with poison := dedup (tm.poison ++ (partsOf side.2 n).map fun q => (bufNo side.1, q)) } else tm,
       t, none)

/-- A per-lane copy's read ends the mark of its lane (R229, step 5). The elements left tell which lane it is. -/
def endCopyMark (s : State) (t : Transfer) (left : Nat) (va : Nat) : State :=
  if t.chan.isSome then s
  else match (lanesOf 64 t.lanes)[(lanesOf 64 t.lanes).length - left]?, (resolve s (ctxOf s t.asid) { r := true } true va t.esize).2 with
    | some l, .ok [p] => (match p.way with
        | .mem pa _ => endMarks s t.asid (.group t.kc t.core t.group) l pa t.esize
        | _ => s)
    | _, _ => s

/-- What landing has come to: the state, the transfer, the elements left, how many landed, and what stopped it. -/
structure Landed where
  s : State
  t : Transfer
  left : List (Nat × Nat)
  count : Nat := 0
  miss : Option Miss := none

/-- Lands units of one leg until n are done, one is denied, or none is left. -/
def landUnits (s : State) (t : Transfer) (core : Nat) : Nat → List (Nat × Nat) → Landed
  | 0, todo => { s := s, t := t, left := todo }
  | n + 1, todo =>
    let k := unitLen t todo
    match todo.take k with
    | [] => { s := s, t := t, left := [] }
    | e :: es =>
      match landUnit s t core (e :: es) with
      | (s, t, some m) => { s := s, t := t, left := todo, miss := some m }
      | (s, t, none) =>
        let r := landUnits (endCopyMark s t todo.length e.2) t core n (todo.drop k)
        { r with count := r.count + (e :: es).length }

/-- The pointer that a completed transfer leaves behind in its channel, for every team of the core. -/
def leavePtr (s : State) (t : Transfer) (ch p : Nat) : State :=
  let upd := fun (tm : Team) => { tm with lastPtr := amSet 0 tm.lastPtr ch p }
  { s with teams := s.teams.map fun tm => if sameCore s tm.kc tm.core t.kc t.core then upd tm else tm }

/-- The transfer is over: it leaves the channel of its core, whose pointer it leaves behind, and its kernel cluster may
end (R183, R288, R290). -/
def dropTransfer (s : State) (t : Transfer) (ptr : Option Nat) : State :=
  let s := { s with transfers := s.transfers.filter fun x => x.id ≠ t.id }
  let s := match ptr, t.chan with
    | some p, some ch => leavePtr s t ch p
    | _, _ => s
  settleKc s t.kc

/-- The index of the leg that lands next: any of those with bytes left (R287). -/
def landingLeg (s : State) (t : Transfer) : Option (Nat × Leg) :=
  let open' := (t.legs.zipIdx.filter fun l => !l.1.arrived).map fun l => (l.2, l.1)
  open'[Config.freeNat s.fresh 7 % open'.length]?

/-- One past the highest destination byte of a leg that has all landed. -/
def endOf (t : Transfer) (landed : List (Nat × Nat)) (old : Nat) : Nat :=
  landed.foldl (fun acc e => if acc < e.1 + t.esize then e.1 + t.esize else acc) old

/-- The trap of a cause that the ladle met, as it waits for the group's next issue (R291). -/
def ladleTrap (lanes : LaneMask) (block : Nat) (m : Miss) : Trap :=
  { cause := m.cause, code := BitVec.ofNat 8 m.code, late := false, imprecise := true, prio := 0
    lane := BitVec.ofNat 6 (lowestLane lanes), lanes := lanes, pc := 0, addr := BitVec.ofNat 64 block, word := 0, len := 0
    pages := if m.cause = cPageFault then [pageOf m] else [], entry := 0 }

/-- A transfer ends early (R291): EB falls by what will not land, modulo 2^32, the arrivals are made, and the cause goes
to the kicking group's next issue.
DEDUCED, unsafe: log entry 89. -/
def endTransfer (s : State) (t : Transfer) (m : Miss) : State :=
  let s := t.legs.foldl (fun s l =>
    if l.arrived then s
    else
      let s := barChange s t.kc l.core t.slot fun b =>
        if b.f then b else { b with eb := b.eb - BitVec.ofNat 32 (l.todo.length * t.esize) }
      barChange s t.kc l.core t.slot ladleArrive) s
  let s := updGroup s t.kc t.core t.group fun g => if g.ended then g else { g with ladle := g.ladle ++ [ladleTrap t.lanes t.block m] }
  dropTransfer s t none

/-- Some part of the source that the transfer still needs is read ahead of its landing: when, the spec does not say
(R283). -/
def readAhead (s : State) (t : Transfer) : State :=
  let left := t.legs.flatMap fun l => l.todo
  match left[Config.freeNat s.fresh 7 % left.length]? with
  | none => bump s
  | some e => (match fetchElem s t e.2 with
    | (s, t', .ok _) => bump (updTransfer s t.id fun _ => t')
    | (_, _, .error _) => bump s)

/-- Bytes of one leg have landed: LB rises, which may complete a phase, and the last bytes of the leg are followed by its
arrival (R205, R279). -/
def legLanded (s : State) (t : Transfer) (core bytes : Nat) (done : Bool) : State :=
  let s := barChange s t.kc core t.slot fun b => if b.f then b else { b with lb := b.lb + BitVec.ofNat 32 bytes }
  if done then barChange s t.kc core t.slot ladleArrive else s

/-- LADLE_BYTES_LAND (R279, R283, R288): some bytes of a running transfer land, in whole parts (R220); the last make the
arrival. With n = 0 only the source is read on. A request beyond the device that fails ends the transfer (R291). -/
def execLadleBytesLand (id n : Nat) (s : State) : Host.Outcome State Fault Refusal :=
  .next (match findTransfer s id with
    | none => s
    | some t =>
      if !t.started || t.stopped then s
      else if n = 0 then readAhead s t
      else
        match landingLeg s t with
        | none => s
        | some (i, leg) =>
          let r := landUnits s t leg.core ((n + 15) / 16) leg.todo
          let done := r.left.isEmpty
          let s2 := legLanded r.s t leg.core (r.count * t.esize) done
          let legs := t.legs.set i { leg with todo := r.left, arrived := done }
          let t' := { r.t with legs := legs, retried := t.retried && decide (r.count = 0) }
          if legs.all fun l => l.arrived then
            let top := endOf t leg.todo 0
            let p := if t.dspace = .global then top % 2 ^ 32
              else top + (if t.legs.length = 1 then leg.core * 2 ^ 21 else 0)
            bump (dropTransfer s2 t (some p))
          else
            let s3 := bump (updTransfer s2 id fun _ => t')
            match r.miss with
            | some m => if m.cause = cLinkError then endTransfer s3 t' m else s3
            | none => s3)

/-- What the next unit of a transfer meets.
DEDUCED, unsafe: log entry 40. -/
def nextMiss (s : State) (t : Transfer) : Option Miss :=
  (t.legs.find? fun l => !l.todo.isEmpty).bind fun l =>
    (landUnit s t l.core (l.todo.take (unitLen t l.todo))).2.2

/-- LADLE_ACCESS_DENIED (R291): a denied access, or a page the service refused to map. -/
def execLadleAccessDenied (id : Nat) (s : State) : Host.Outcome State Fault Refusal :=
  .next (match findTransfer s id with
    | none => s
    | some t =>
      if !t.started || t.stopped then s
      else match nextMiss s t with
        | some m => if m.cause ≠ cPageFault || t.retried then endTransfer s t m else s
        | none => s)

/-- LADLE_PAGE_FAULT (R352): the channel stops and a frame names the page; the group keeps running. PC is that of its next
instruction, or of the one at which it is blocked.
DEDUCED, unsafe: log entry 40. -/
def execLadlePageFault (id : Nat) (s : State) : Host.Outcome State Fault Refusal :=
  .next (match findTransfer s id with
    | none => s
    | some t =>
      if !t.started || t.stopped then s
      else match nextMiss s t with
        | none => s
        | some m =>
          if m.cause ≠ cPageFault || t.retried then s
          else
            let g := groupOf s t.kc t.core t.group
            let k := kcOf s t.kc
            let e := comingEntry s g
            let tr : Trap :=
              { cause := cPageFault, code := BitVec.ofNat 8 m.code, late := false, imprecise := true
                prio := (e.map fun e => e.prio).getD 0, lane := BitVec.ofNat 6 (lowestLane t.lanes), lanes := t.lanes
                pc := (e.map fun e => e.pc).getD 0, addr := BitVec.ofNat 64 t.block, word := (peekWord s g).getD 0, len := 0
                pages := [pageOf m], entry := 0 }
            let fr : Frame := ⟨t.asid, .ladle id (.group t.kc t.core t.group), tr, k.grid, k.cluster,
              BitVec.ofNat 32 (teamNo k t.core), t.group⟩
            { updTransfer s id (fun t => { t with stopped := true }) with frames := s.frames ++ [fr] })

/-- LADLE_CHANNEL_START (R288): the channel takes up its oldest transfer. -/
def execLadleChannelStart (id : Nat) (s : State) : Host.Outcome State Fault Refusal :=
  .next (match findTransfer s id with
    | none => s
    | some t =>
      let h := hwCore (kcOf s t.kc) t.core
      let first := s.transfers.find? fun x => decide (x.chan = t.chan) && decide (hwCore (kcOf s x.kc) x.core = h)
      if decide ((first.map fun x => x.id) = some id) then updTransfer s id fun t => { t with started := true } else s)

/-! ### The ends of holds (R212, R287) -/

/-- A held kick is tried again: the same issue, its checks made anew; it may be held again. -/
def retryHold (s : State) (m : Member) : State :=
  match (memberGroup s m).hold with
  | some (.locks i fn o) => runBulk (updMember s m fun g => { g with hold := none }) i fn o
  | some (.mcast i o) => runBulk (updMember s m fun g => { g with hold := none }) i 1 o
  | none => s

/-- LADLE_LOCK_WAIT_END (R212) -/
def execLadleLockWaitEnd (m : Member) (s : State) : Host.Outcome State Fault Refusal :=
  .next (match (memberGroup s m).hold with
    | some (.locks _ _ _) => retryHold s m
    | _ => s)

/-- LMCS_HOLD_END (R287): the free-mask bits are cleared as the transfer starts. -/
def execLmcsHoldEnd (m : Member) (s : State) : Host.Outcome State Fault Refusal :=
  .next (match (memberGroup s m).hold with
    | some (.mcast _ _) => retryHold s m
    | _ => s)

end Sys2Proof.Machine
end

