-- ==== Sys2Proof/Machine/Work.lean ====
section
/-! DEFINITION. Deques and the WORK instructions (R311 to R317). -/

namespace Sys2Proof.Machine

/-! ### Deques (R311, R312) -/

/-- Records bound to a team in its core's deque. -/
def boundCount (s : State) (kc core : Nat) : Nat := (s.deques.filter fun r => r.kc = kc && r.core = core).length

/-- Records in the deque of a hardware core. -/
def dequeFill (s : State) (h : DieNo × Nat) : Nat :=
  (s.deques.filter fun r => (kcOf s r.kc).place.isSome && decide (hwCore (kcOf s r.kc) r.core = h)).length

/-- Whether a team's deque has a free slot (R311). -/
def dequeRoom (s : State) (kc core : Nat) : Bool := decide (dequeFill s (hwCore (kcOf s kc) core) < 256)

/-- The WAKE slot of a kernel cluster's teams (R297, R311). -/
def wakeSlot (s : State) (kc : Nat) : Option Nat :=
  match gridOf? s (kcOf s kc).grid with
  | some g => if g.mould.wqv then some g.mould.wake else none
  | none => none

/-- A deposit at the head; the team's first bound record makes the wake arrival (R311, R315). -/
def depositRec (s : State) (kc core : Nat) (queue : Option (BitVec 8)) (bytes : List Byte)
    (poison : List Nat := []) : State :=
  let first := boundCount s kc core = 0
  let s := { s with deques := ⟨kc, core, false, queue, bytes, poison⟩ :: s.deques }
  match wakeSlot s kc with
  | some slot => if first then barChange s kc core slot engineArrive else s
  | none => s

/-- Removes the first record that satisfies p. -/
def takeFirst (p : DequeRec → Bool) : List DequeRec → Option (DequeRec × List DequeRec)
  | [] => none
  | r :: rs => if p r then some (r, rs) else (takeFirst p rs).map fun x => (x.1, r :: x.2)

/-! ### Checks -/

/-- Decoding checks of a WORK instruction (R313). -/
def workChecked (s : State) (c : Issue) (lanesOnly : Bool) (regs : List RegField) (k : State) : State :=
  let sp := isSpine c.who
  let bad := if sp then regs.any fun r => decide (32 ≤ r.toNat)
    else !(regs.all fun r => vOk (memberGroup s c.who).budget false r.toNat)
  checked s c [(sp && lanesOnly, cWrongUnit), (bad, cIllegal)] k

/-- The record area in the A buffer: the checks of R314, as a store or as a load. -/
def areaMiss (s : State) (kc core addr : Nat) (store : Bool) : Option Byte :=
  let t := teamOf s kc core
  if addr % 64 ≠ 0 then some cMisaligned
  else if decide (t.aSize < addr + 64) || (store && inRegion t addr 64) || (!store && inRegion t addr 64) then some cProtection
  else if rangeLocked s kc core .bufA addr 64 store then some cRangeLocked
  else none

/-- What wpop, wsteal and wpush answer when there is no record, or no room. -/
def noRecord : Nat := 0x80000000

/-- A lane WORK instruction that acts once with the area of the lowest active lane (R313). act gives none where the
record it would take or push holds a poisoned part: DATA_POISON late (R412). -/
def runArea (s : State) (c : Issue) (o : OpsM) (store : Bool) (act : State → Nat → Option (State × Nat)) : State :=
  let g := memberGroup s c.who
  outside s c (dst := [o.d.toNat]) fun s =>
    let kc := memberKc c.who
    let core := memberCore c.who
    match activeLanes g c o.g with
    | [] => retireLanes s c id
    | l :: ls =>
      let addr := (readV s g 0 l o.a.toNat).toNat
      if g.poison.contains (l * 64 + o.a.toNat) then trapLanes s c cDataPoison (l :: ls)
      else
        match areaMiss s kc core addr store with
        | some b => trapLanes s c b (l :: ls) addr
        | none =>
          match act s addr with
          | none => endLanes s c 0 [] ⟨[], [(l, cDataPoison, addr)], [], none, maskOf (l :: ls), false, [], []⟩ []
          | some (s, v) => retireWrites s c o.la.toNat [o.d.toNat] ((l :: ls).map fun i => ⟨i, o.d.toNat, BitVec.ofNat 32 v⟩) []

/-! ### wpop, wsteal, wpush (R314, R315) -/

/-- The record lands in the team's A buffer, and the status counts what is left. -/
def landRecord (s : State) (kc core addr : Nat) (bytes : List Byte) : State × Nat :=
  let s := updTeam s kc core fun t => bufPut t .bufA addr bytes
  (s, boundCount s kc core)

/-- A group's pop: the start record at its first, else the bound record nearest the head (R314, R322); none when that
record is poisoned, which stays.
DEDUCED, unsafe: log entry 97. -/
def popRecord (s : State) (m : Member) (addr : Nat) : Option (State × Nat) :=
  let kc := memberKc m
  let core := memberCore m
  let start := s.deques.find? fun r => r.kc = kc && r.core = core && r.start
  match (if (memberGroup s m).startPopped then none else start) with
  | some r =>
    if !r.poison.isEmpty then none else
    let s := settleStart (updMember s m fun g => { g with startPopped := true }) kc core
    some (landRecord s kc core addr r.bytes)
  | none =>
    match takeFirst (fun r => r.kc = kc && r.core = core && !r.start) s.deques with
    | some (r, rest) => if !r.poison.isEmpty then none else some (landRecord { s with deques := rest } kc core addr r.bytes)
    | none => some (s, noRecord)

/-- WPOP (R314) -/
def execWpop (o : OpsM) (s : State) : Host.Outcome State Fault Refusal :=
  issueBy s fun c => workChecked s c true [o.d, o.a] (runArea s c o true fun s addr => popRecord s c.who addr)

/-- Whether a hardware core is one of a kernel cluster's. -/
def hostsKc (k : Kc) (h : DieNo × Nat) : Bool := k.place.isSome && (List.range (coresOf k)).any fun i => decide (hwCore k i = h)

/-- How near a victim's core is: one of the same kernel cluster, or of its hardware cluster, its die, or any (R314). -/
def stealRank (s : State) (kc : Nat) (r : DequeRec) : Nat :=
  match (kcOf s kc).place, (kcOf s r.kc).place with
  | some p, some q =>
    if hostsKc (kcOf s kc) (hwCore (kcOf s r.kc) r.core) then 0 else if p.die = q.die && p.hw = q.hw then 1 else if p.die = q.die then 2 else 3
  | _, _ => 3

/-- The records a steal may take: in each other core's deque the one of the grid nearest the tail. -/
def stealable (s : State) (kc core : Nat) : List DequeRec :=
  let h := fun (r : DequeRec) => hwCore (kcOf s r.kc) r.core
  let here := hwCore (kcOf s kc) core
  let ok := s.deques.filter fun r => !r.start && decide ((kcOf s r.kc).grid = (kcOf s kc).grid) &&
    (kcOf s r.kc).place.isSome && decide (h r ≠ here)
  (dedup (ok.map h)).filterMap fun x => (ok.filter fun r => decide (h r = x)).getLast?

/-- A steal from a nearest core, which of them the device chooses (R314); none when that record is poisoned.
DEDUCED, unsafe: log entry 97. -/
def stealRecord (s : State) (kc core addr : Nat) : Option (State × Nat) :=
  let all := stealable s kc core
  let best := all.foldl (fun acc r => min acc (stealRank s kc r)) 4
  let near := all.filter fun r => stealRank s kc r = best
  match near[Config.freeNat s.fresh 0 % near.length]? with
  | none => some (s, noRecord)
  | some r =>
    let last := takeFirst (fun q => decide (q = r)) s.deques.reverse
    if !r.poison.isEmpty then none else some <| landRecord { s with deques := match last with
      | some (_, rest) => rest.reverse
      | none => s.deques } kc core addr r.bytes

/-- WSTEAL (R314) -/
def execWsteal (o : OpsM) (s : State) : Host.Outcome State Fault Refusal :=
  issueBy s fun c => workChecked s c true [o.d, o.a]
    (runArea s c o true fun s addr => stealRecord s (memberKc c.who) (memberCore c.who) addr)

/-- A push: the status is the bound count after it, or no room (R315). -/
def pushRecord (s : State) (kc core : Nat) (bytes : List Byte) : State × Nat :=
  if dequeRoom s kc core then
    let s := depositRec s kc core none bytes
    (s, boundCount s kc core)
  else (s, noRecord)

/-- The end of a spine's `wpush`, when the record's 64 bytes are there (R315). -/
def endPush (s : State) (c : Issue) (bytes : List Byte) : State :=
  let kc := memberKc c.who
  let d := bitsOf c.word 15 10
  match pushRecord s kc ((xGet (kcOf s kc).spine d).toNat % 16) bytes with
  | (s, v) => retireSpine s c fun sp => { xSet sp d (BitVec.ofNat 64 v) with asked := none }

/-- Whether a word is a `wpush` (R313). -/
def isPush (w : Word) : Bool := decide (bitsOf w 5 1 = 25) && decide (bitsOf w 27 25 = 2)

/-- A spine's `wpush` reads its record as a load of 64 bytes, from memory now or from the host or a peer when the answer
comes (R249, R315, R396). -/
def pushSpine (s : State) (c : Issue) (o : OpsM) : State :=
  let kc := memberKc c.who
  let k := kcOf s kc
  let sp := k.spine
  if !spinePred sp o.g then retireNop s c
  else if sp.poison.contains o.a.toNat || sp.poison.contains o.d.toNat then trapAll s c cDataPoison
  else if coresOf k ≤ (xGet sp o.d.toNat).toNat % 16 then trapAll s c cProtection
  else
    let need : Need := { r := true }
    let t : Thread := ⟨0, xGet sp o.a.toNat, []⟩
    let ctx := ctxOf s k.asid
    match checkThread s ctx need true true 64 t with
    | (s, .error m) => takeTrap s c (raiseOf [(0, m)])
    | (s, .ok ps) =>
      match performAll s c ctx ⟨need, 0, none, false, 0, false⟩ [(t, ps)] (askedInit [t] none) with
      | (s, a) => if a.waiting.isEmpty && a.late.isEmpty then endPush s c (gotBytes a 0) else endSpine s c a

/-- WPUSH (R315) -/
def execWpush (o : OpsM) (s : State) : Host.Outcome State Fault Refusal :=
  issueBy s fun c => workChecked s c false [o.d, o.a]
    (match c.who with
     | .group kc core _ => runArea s c o false fun s addr =>
         if bufPoisoned (teamOf s kc core) .bufA addr 64 then none
         else some (pushRecord s kc core (bufRead (teamOf s kc core) .bufA addr 64))
     | .spine _ => pushSpine s c o)

/-! ### wdep (R316) -/

/-- The new count. -/
def depNew (op : Nat) (old : BitVec 16) (k : Nat) : BitVec 16 :=
  match op with
  | 0 => if old = 0 then 0 else old - 1
  | 1 => BitVec.ofNat 16 (clampInt 0 0xFFFF (old.toNat + sextNat 16 k)).toNat
  | _ => BitVec.ofNat 16 k

/-- Lane after lane: the old counts. -/
def depAll (s : State) (op : Nat) : List (Nat × Nat) → State × List (Nat × Nat)
  | [] => (s, [])
  | (l, w) :: rest =>
    let ctr := w % 4096
    let old : BitVec 16 := amGet 0 s.tund.counts ctr
    match depAll (setCounter s ctr (depNew op old (w / 65536 % 65536))) op rest with
    | (s, vs) => (s, (l, old.toNat) :: vs)

/-- The operands of the active lanes, or of the spine as lane 0: (lane, a[31:0]), and whether one is poisoned. -/
def laneOperands (s : State) (c : Issue) (g : PredNo) (a : RegField) : List (Nat × Nat) × Lanes :=
  match c.who with
  | .spine kc =>
    let sp := (kcOf s kc).spine
    ((actingLanes s c g).map fun l => (l, (xGet sp a.toNat).toNat % 2 ^ 32), if sp.poison.contains a.toNat then [0] else [])
  | .group .. =>
    let gr := memberGroup s c.who
    let act := activeLanes gr c g
    (act.map fun l => (l, (readV s gr 0 l a.toNat).toNat), poisonedLanes gr act [a.toNat])

/-- Gives each acting lane its value: v[d], or x[d] on the spine. -/
def giveLanes (s : State) (c : Issue) (la d : Nat) (vs : List (Nat × Nat)) : State :=
  match c.who with
  | .spine _ =>
    (match vs with
     | [] => retireNop s c
     | v :: _ => retireSpine s c fun sp => xSet sp d (BitVec.ofNat 64 v.2))
  | .group .. => retireWrites s c la [d] (vs.map fun v => ⟨v.1, d, BitVec.ofNat 32 v.2⟩) []

/-- `wdep` (R316). -/
def runDep (s : State) (c : Issue) (op : Nat) (o : OpsM) : State :=
  let r := laneOperands s c o.g o.a
  workChecked s c false [o.d, o.a]
    (outside s c (dst := [o.d.toNat]) fun s =>
      let vf := (ctxOf s (memberAsid s c.who)).vf
      let bad := (r.1.filter fun w => !ownsCounter s vf (w.2 % 4096)).map fun w => w.1
      if !r.1.isEmpty && !r.2.isEmpty then trapLanes s c cDataPoison r.2
      else if !bad.isEmpty then trapLanes s c cProtection bad
      else
        match depAll s op r.1 with
        | (s, vs) => giveLanes s c o.la.toNat o.d.toNat vs)

/-- WDEP_DEC (R316) -/
def execWdepDec (o : OpsM) (s : State) : Host.Outcome State Fault Refusal := issueBy s fun c => runDep s c 0 o

/-- WDEP_ADD (R316) -/
def execWdepAdd (o : OpsM) (s : State) : Host.Outcome State Fault Refusal := issueBy s fun c => runDep s c 1 o

/-- WDEP_SET (R316) -/
def execWdepSet (o : OpsM) (s : State) : Host.Outcome State Fault Refusal := issueBy s fun c => runDep s c 2 o

/-! ### wqry (R317) -/

/-- `wqry.dep` and `wqry.feed`: the value for an operand, none for PROTECTION. -/
def runQuery (s : State) (c : Issue) (o : OpsM) (value : State → FuncNo → Nat → Option Nat) : State :=
  let r := laneOperands s c o.g o.a
  workChecked s c false [o.d, o.a]
    (outside s c (dst := [o.d.toNat]) fun s =>
      let vf := (ctxOf s (memberAsid s c.who)).vf
      let bad := (r.1.filter fun w => (value s vf w.2).isNone).map fun w => w.1
      if !r.1.isEmpty && !r.2.isEmpty then trapLanes s c cDataPoison r.2
      else if !bad.isEmpty then trapLanes s c cProtection bad
      else giveLanes s c o.la.toNat o.d.toNat (r.1.map fun w => (w.1, (value s vf w.2).getD 0)))

/-- WQRY_DEQUE (R317) -/
def execWqryDeque (o : OpsMd) (s : State) : Host.Outcome State Fault Refusal :=
  issueBy s fun c => workChecked s c false [o.d]
    (outside s c (dst := [o.d.toNat]) fun s =>
      let n := match c.who with
        | .spine kc => (s.deques.filter fun r => r.kc = kc).length
        | .group kc core _ => boundCount s kc core
      giveLanes s c o.la.toNat o.d.toNat ((actingLanes s c o.g).map fun l => (l, n)))

/-- WQRY_DEP (R317) -/
def execWqryDep (o : OpsM) (s : State) : Host.Outcome State Fault Refusal :=
  issueBy s fun c => runQuery s c o fun s vf w =>
    if ownsCounter s vf (w % 4096) then some (amGet (0 : BitVec 16) s.tund.counts (w % 4096)).toNat else none

/-- WQRY_FEED (R317) -/
def execWqryFeed (o : OpsM) (s : State) : Host.Outcome State Fault Refusal :=
  issueBy s fun c => runQuery s c o fun s vf w =>
    let e := queueOf s (BitVec.ofNat 8 w)
    if e.vf = vf then some (min (widxOf s e - ridxOf s e) 0xFFFFFFFF) else none

end Sys2Proof.Machine
end

