-- ==== Sys2Proof/Machine/Window.lean ====
section
/-! DEFINITION. Events of members: completions, answers from beyond the core, the end of run-ahead, and the limits
of R186 and R190. -/

namespace Sys2Proof.Machine

/-! ### Completion and answers (R88, R247, R249) -/

/-- The oldest flight with a late cause and nothing before it traps (R91, R249): the window is discarded, the
group's registers, lock-holder state and deadline are those before the instruction, its issues stay counted (R186), and
completed lanes of an atomic or PAGE keep their results. -/
def deliverLate (s : State) (m : Member) : State :=
  match (memberGroup s m).flights with
  | f :: _ =>
    (match f.ask with
     | some a =>
       if a.waiting.isEmpty && !a.late.isEmpty then
         let ws := f.writes ++ if a.keep then loadedWrites a else []
         let s := updMember s m fun g =>
           { g with
             regs := putWrites f.ckpt ws, flights := []
             poison := unmark f.ckptPoison (writeMarks ws)
             ycount := f.ckptYcount, crit := f.ckptCrit, deadline := f.ckptDeadline }
         stopMember s m (lateTrap f.issue a)
       else s
     | none => s)
  | [] => s

/-- LONG_LATENCY_COMPLETE (R88, R91): what waits for nothing completes, and a late cause behind it is delivered. -/
def execLongLatencyComplete (m : Member) (s : State) : Host.Outcome State Fault Refusal :=
  .next (deliverLate (updMember s m landAll) m)

/-- A flight whose answers have all come, with no late cause, waits for nothing any more. -/
def settleFlight (f : Flight) : Flight :=
  match f.ask with
  | some a => if a.waiting.isEmpty && a.late.isEmpty then { f with ask := none, writes := f.writes ++ loadedWrites a } else f
  | none => f

/-- The values an answer gives to the lanes of a request (R63, R259): the first lane of an aggregated atomic gets
the old value, the others that value combined with their prefix. -/
def answerLanes (r : Request) (bytes : List Byte) : List (Nat × Nat × List Byte) :=
  match r.kind with
  | .atom op wide _ _ =>
    let n := if wide then 8 else 4
    let old := bytesToNat bytes
    r.lanes.zipIdx.map fun l =>
      (l.1.1, 0, natToBytes n (if l.2 = 0 || 6 ≤ op.toNat then old else atomComb op.toNat wide old l.1.2.toNat))
  | .load n => r.lanes.map fun l => (l.1, r.off, bytes.take n)
  | .page _ _ _ => r.lanes.zipIdx.map fun l => (l.1.1, 0, (bytes.drop (4 * l.2)).take 4)
  | _ => []

def isLoad : ReqKind → Bool
  | .load _ => true
  | _ => false

def isAtom : ReqKind → Bool
  | .atom .. => true
  | _ => false

/-- The late cause an answer stands for (R260, R379, R396, R402, R412). -/
def answerCause (r : Request) : Answer → Option Byte
  | .data _ => none
  | .unsupported => some (if isAtom r.kind then cSysAtomic else cLinkError)
  | .linkError => some cLinkError
  | .offline => some cDieOffline
  | .poisoned => some cDataPoison
  | .append .outside => some cAppendOutside
  | .append .sealed => some cWriteAfterSeal
  | .append .beyond => some cAppendBeyond

/-- The next request of a serial atomic (R259), sent when the one before it has been answered. Once a window has refused
a request of the instruction, it sends it none any more (R260); no other answer stops it.
DEDUCED, unsafe: log entry 109. -/
def followUp (s : State) (a : Asked) (r : Request) : Option Request :=
  let stopped := match r.target with
    | .window w _ => a.refused.contains w
    | .fabric .. => false
  match r.later with
  | [] => none
  | (l, k) :: rest => if stopped then none else some { r with id := s.nextId, lanes := [(l, 0)], kind := k, later := rest }

/-- The lanes of an answered request that have completed: no other request of theirs waits, and they met no late cause
(R249). -/
def doneLanes (s : State) (a : Asked) (r : Request) : Lanes :=
  (r.lanes.map fun l => l.1).filter fun l =>
    !(a.late.any fun x => x.1 = l) && !(s.requests.any fun q => a.waiting.contains q.id && q.lanes.any fun x => x.1 = l)

/-- The window that refuses an atomic by its answer (R260). -/
def refusedBy (r : Request) (ans : Answer) : List Nat :=
  match ans, r.target with
  | .unsupported, .window w _ => if isAtom r.kind then [w] else []
  | _, _ => []

/-- An answer enters what its instruction waits for: what was got, or the late cause for the lanes of the request. -/
def takeAnswer (a : Asked) (r : Request) (ans : Answer) : Asked :=
  let a := { a with waiting := a.waiting.filter (fun i => i ≠ r.id), refused := a.refused ++ refusedBy r ans }
  match ans, answerCause r ans with
  | .data bytes, _ => { a with got := a.got ++ answerLanes r bytes }
  | _, some b => { a with
      late := a.late ++ r.lanes.map fun l => (l.1, b, r.addr)
      undone := a.undone ||| maskOf (r.lanes.map fun l => l.1) }
  | _, none => a

/-- ATOMC falls when a host refuses an AtomicOp (R260). -/
def clearAtomc (s : State) (r : Request) (ans : Answer) : State :=
  (refusedBy r ans).foldl (fun s w =>
    { s with host := { s.host with windows := amModify Window.zero s.host.windows w fun e => { e with atomc := false } } }) s

/-- A held part of a lane as a piece in memory. -/
def pendPiece (p : Pend) : Piece := ⟨.mem p.pa p.cls, 0, p.bytes.length, p.va⟩

/-- The late cause that a held part in memory meets when it takes effect: it is checked at its home then (R249, R358). -/
def pendLate (s : State) (m : Member) (p : Pend) : Option Byte :=
  if p.target.isSome then none else lateOf s (memberDie s m) { w := true } (pendPiece p)

/-- A held part takes effect. -/
def landPend (s : State) (m : Member) (r : Request) (p : Pend) : State :=
  match p.target with
  | none => ctxWrite (endMarks s r.asid m p.lane p.pa p.bytes.length) (ctxOf s r.asid) p.pa p.cls p.bytes
  | some tg => postWindow s (memberDie s m)
      ⟨s.nextId, some m, [(p.lane, 0)], 0, 0, p.va, r.scope, r.asid, tg, .store p.bytes false, [], 0⟩

/-- A lane whose last request was answered well: the parts of its store that waited are checked and take effect
together, and it has completed, or it meets their late cause (R249, R358). A load completes with its last lane only. -/
def completeLane (m : Member) (r : Request) (sa : State × Asked) (lane : Nat) : State × Asked :=
  let (s, a) := sa
  let mine := a.pend.filter fun p => p.lane = lane
  match mine.findSome? fun p => (pendLate s m p).map fun b => (lane, b, p.va) with
  | some l => (s, { a with late := a.late ++ [l] })
  | none =>
    let a := { a with
      pend := a.pend.filter fun p => p.lane ≠ lane
      undone := if isLoad r.kind then a.undone else a.undone &&& ~~~laneBit lane }
    (mine.foldl (fun s p => landPend s m r p) s, mine.foldl (fun a p => a.stored lane p.target p.pa p.bytes.length) a)

/-- What the access of a member that waits for a request holds. -/
def askedOf (s : State) (m : Member) (id : Nat) : Option Asked :=
  match m with
  | .spine kc => (match (kcOf s kc).spine.asked with
      | some (_, a) => if a.waiting.contains id then some a else none
      | none => none)
  | .group .. => (memberGroup s m).flights.findSome? fun f => match f.ask with
      | some a => if a.waiting.contains id then some a else none
      | none => none

/-- The instruction word of the flight that waits for a request. -/
def askedWord (s : State) (m : Member) (id : Nat) : Word :=
  (((memberGroup s m).flights.find? fun f => match f.ask with
      | some a => a.waiting.contains id
      | none => false).map fun f => f.issue.word).getD 0

/-- The flight that waited for a request goes on with what it holds now. -/
def setAsked (g : Group) (id : Nat) (a : Asked) : Group :=
  { g with flights := g.flights.map fun f => match f.ask with
      | some b => if b.waiting.contains id then settleFlight { f with ask := some a } else f
      | none => f }

/-- The last answer of a spine's access: it completes, with the read of the sprue register that names its address. Where
it must wait for its destination, or traps, nothing has been consumed (R25, R27). -/
def finishSpine (s : State) (kc : Nat) (i : Issue) (a : Asked) : State :=
  let r := if isPush i.word then endPush s i (gotBytes a 0) else endSpine (consumeAll s kc (addrSprue i.word)) i a
  if (kcOf r kc).spine.trap.isSome || (kcOf r kc).spine.wait.isSome then updKc r kc fun q => { q with sprue := (kcOf s kc).sprue } else r

/-- The next request of a chain is sent, and its instruction waits for it. -/
def sendFollow (s : State) (a : Asked) : Option Request → State × Asked
  | some q => (sendReq s q false, { a with waiting := a.waiting ++ [q.id] })
  | none => (s, a)

/-- An answer to a request of a member: the request's chain goes on, and lanes that have completed take their effect. -/
def answerMember (s : State) (m : Member) (r : Request) (ans : Answer) (a : Asked) : State × Asked :=
  let a := takeAnswer a r ans
  let done := if (answerCause r ans).isNone then doneLanes s a r else []
  match sendFollow s a (followUp s a r) with
  | (s, a) => done.foldl (completeLane m r) (s, a)

/-- A request of a ladle transfer that fails ends the transfer, or, once that is over, only delivers its cause (R291,
R400). -/
def answerLadle (s : State) (m : Member) (r : Request) (ans : Answer) : State :=
  match answerCause r ans with
  | none => s
  | some b =>
    let miss : Miss := ⟨9, b, 0, r.addr, false, true, false⟩
    match findTransfer s r.off with
    | some t => endTransfer s t miss
    | none => updMember s m fun g => if g.ended then g else { g with ladle := g.ladle ++ [ladleTrap 0 r.addr miss] }

/-- Whether an answer says that a request has been performed. -/
def gotData (a : Answer) : Bool := match a with | .data _ => true | _ => false

/-- One answer (R249): the instruction completes with its last one, or traps late. An acquire has acquired (R252). -/
def answer (s : State) (id : Nat) (ans : Answer) : State :=
  match s.requests.find? fun r => r.id = id with
  | none => s
  | some r =>
    let s := clearAtomc { s with requests := s.requests.filter fun q => q.id ≠ id } r ans
    match r.who with
    | none => if r.dst = 0 then s else send s (.peer (r.dst - 1) ans)
    | some m =>
      match askedOf s m id with
      | none => if r.lanes.isEmpty then answerLadle s m r ans else s
      | some a0 =>
        match answerMember s m r ans a0 with
        | (s, a) =>
          match m with
          | .spine kc =>
            (match (kcOf s kc).spine.asked with
             | some (i, _) => if a.waiting.isEmpty && a.late.isEmpty then finishSpine s kc i a else endSpine s i a
             | none => s)
          | .group .. =>
            let s := if acquires (askedWord s m id) && gotData ans then acquireSwaps s m else s
            deliverLate (updMember s m fun g => setAsked g id a) m

def markGroup (s : State) (kc core idx mark : Nat) : State :=
  updGroup s kc core idx fun g => { g with poison := dedup (g.poison ++ [mark]) }

/-- An uncorrectable error marks its unit (R410, R411). -/
def markPoison (s : State) : PoisonUnit → State
  | .memPart pa => { s with memPoison := dedup (s.memPoison ++ [pa / 16]) }
  | .bufPart kc core buf part => updTeam s kc core fun t => { t with poison := dedup (t.poison ++ [(buf.val, part)]) }
  | .laneReg kc core idx lane reg => markGroup s kc core idx (vMark lane reg)
  | .lanePred kc core idx lane k => markGroup s kc core idx (pMark lane k)
  | .groupReg kc core idx reg => markGroup s kc core idx (gMark reg)
  | .frontier kc core idx lane => markGroup s kc core idx (frontierMark lane)
  | .spineReg kc reg => updSpine s kc fun sp => { sp with poison := dedup (sp.poison ++ [reg]) }
  | .sprueReg kc reg => setSprue s kc reg { sprueGet (kcOf s kc) reg with poison := true }

/-- MEMORY_RESPONSE (R249, R410, R411) -/
def execMemoryResponse (r : Response) (s : State) : Host.Outcome State Fault Refusal :=
  .next (match r with
    | .answer id a => answer s id a
    | .uncorrectable die u => markPoison (updDie s die fun d => { d with uncorrected := d.uncorrected + 1 }) u
    | .corrected die => updDie s die fun d => { d with corrected := d.corrected + 1 })

/-! ### Run-ahead, deadline, lock-holder limit (R186, R190, R351) -/

/-- RUN_AHEAD (R351, R352): run-ahead ends, the group rolls back and the batch is delivered. -/
def execRunAhead (m : Member) (s : State) : Host.Outcome State Fault Refusal := .next (endRunAhead s m)

/-- The trap of a member that is stopped before it issues, at the entry it would issue next. -/
def trapNext (s : State) (m : Member) (cause : Byte) : Trap :=
  let g := memberGroup s m
  let e := (comingEntry s g).getD ⟨0, 0, 0, none⟩
  { cause := cause, code := 0, late := false, imprecise := false, prio := e.prio, lane := BitVec.ofNat 6 (lowestLane e.mask)
    lanes := e.mask, pc := e.pc, addr := 0, word := (peekWord s g).getD 0, len := 4, pages := [], entry := e.mask }

/-- YIELD_OVERRUN (R186): a frame, and the grid ends with CAUSE 0x0D.
DEDUCED, unsafe: log entry 69. -/
def execYieldOverrun (m : Member) (s : State) : Host.Outcome State Fault Refusal :=
  .next (
    let g := memberGroup s m
    if g.ended || isSpine m || g.ycount.toNat < g.deadline then s
    else
      let s := { s with frames := s.frames ++ [frameOf s m (trapNext s m cYieldOverrun)] }
      endGrid s (kcOf s (memberKc m)).grid 2 cYieldOverrun.toNat)

/-- The lock-holder state falls when its limit is reached. -/
def limitCrit (c : Option Nat) : Option Nat := if inCrit c then c else none

/-- LOCK_HOLDER_LIMIT (R190) -/
def execLockHolderLimit (m : Member) (s : State) : Host.Outcome State Fault Refusal :=
  .next (match m with
    | .spine kc => updSpine s kc fun sp => { sp with crit := limitCrit sp.crit }
    | .group .. => updMember s m fun g => { g with crit := limitCrit g.crit })

/-- A spine's wait abandoned as not issued: a waiting `gstep` is not counted (R189). -/
def abandonWait (sp : Spine) : Spine :=
  match sp.wait with
  | some (.boundary _) => { sp with wait := none, gsteps := sp.gsteps - 1 }
  | _ => { sp with wait := none }

/-- CRIT_DEFER_EXPIRY (R190): a lock holder blocked for 10 µs since the request stops after all. -/
def execCritDeferExpiry (m : Member) (s : State) : Host.Outcome State Fault Refusal :=
  .next (
    if !stopping (kcOf s (memberKc m)) then s
    else match m with
      | .spine kc =>
        let sp := (kcOf s kc).spine
        if inCrit sp.crit && sp.wait.isSome then updSpine s kc fun sp => { abandonWait sp with stopped := true } else s
      | .group .. =>
        let g := memberGroup s m
        if inCrit g.crit && groupSleeps g && !g.ended then updMember s m (stopGroup 65) else s)

end Sys2Proof.Machine
end

