-- ==== Sys2Proof/Machine/Traps.lean ====
section
/-! DEFINITION. Trap frames and answers (R330 to R334, R435) and the deadlock watchdog (R419, R420). -/

namespace Sys2Proof.Machine

/-! ### Writing a frame (R330, R331, R435) -/

/-- TWIDX − TRIDX of a context's trap ring. -/
def ringUsed (s : State) (c : Ctx) : Nat := memNat s (c.desc + 0x28) 8 - memNat s (c.desc + 0x20) 8

/-- The pages a frame reports: one when the ring has one slot (R330). -/
def framePages (c : Ctx) (f : Frame) : List FaultPage := if c.log2n = 0 then f.trap.pages.take 1 else f.trap.pages

/-- Whether a continuation slot follows: several pages, or the page fault of a ladle transfer, whose ADDR names
the request block (R331, R352). -/
def frameCont (c : Ctx) (f : Frame) : Bool :=
  decide (c.log2n ≠ 0) && (decide (1 < (framePages c f).length) ||
    (match f.whose with | .ladle _ _ => true | _ => false))

/-- Whether the ring has room for a frame (R330). -/
def ringRoom (s : State) (c : Ctx) (f : Frame) : Bool :=
  decide (ringUsed s c + (if frameCont c f then 2 else 1) ≤ 2 ^ c.log2n)

/-- HDR bit 8 (R332): clear for causes of the ladle at the next issue, DIE_LOST and DEADLOCK.
DEDUCED, unsafe: log entry 42. -/
def framePrecise (f : Frame) : Bool :=
  match f.whose with
  | .ladle _ _ => true
  | _ => !f.trap.imprecise

def frameSpine (f : Frame) : Bool := match f.whose with | .member (.spine _) => true | _ => false

/-- HDR (R331, R435). -/
def frameHdr (c : Ctx) (f : Frame) : Nat :=
  let t := f.trap
  f.groupNo * 2 ^ 48 + t.lane.toNat * 2 ^ 32 + t.prio.toNat * 2 ^ 24 + t.code.toNat * 2 ^ 16 +
    (if frameCont c f then 2 ^ 12 else 0) + (if t.late then 2 ^ 11 else 0) + (if frameSpine f then 2 ^ 10 else 0) +
    (if causeRetry t.cause then 2 ^ 9 else 0) + (if framePrecise f then 2 ^ 8 else 0) + t.cause.toNat

/-- A mask over the pages of a batch. -/
def pageMask (p : FaultPage → Bool) (ps : List FaultPage) : Nat :=
  ps.zipIdx.foldl (fun acc x => acc + if p x.1 then 2 ^ x.2 else 0) 0

/-- The bytes of a frame's first slot (R331). -/
def frameBytes (c : Ctx) (f : Frame) (seq : Nat) (time : DWord) : List Byte :=
  let t := f.trap
  let ps := framePages c f
  let pf := t.cause = cPageFault
  let q := natToBytes 8
  q seq ++ q (frameHdr c f) ++ q t.pc.toNat ++ q t.lanes.toNat ++ q t.addr.toNat ++
    q (f.team.toNat * 2 ^ 32 + t.word.toNat) ++ q (f.grid.toNat * 2 ^ 32 + f.cluster.toNat) ++ q time.toNat ++
    q (if pf then pageMask (fun p => p.x) ps * 2 ^ 32 + pageMask (fun p => p.w) ps else 0) ++
    q (if pf then ps.length * 2 ^ 32 + pageMask (fun p => p.s2) ps else 0) ++ natToBytes 40 0 ++ q 0

/-- The continuation slot: 32 words, word j bits [47:16] of page j (R331). -/
def contBytes (ps : List FaultPage) : List Byte :=
  (List.range 32).flatMap fun j => natToBytes 4 (((ps[j]?).map fun p => p.page).getD 0)

/-- Where slot i of the ring lies. -/
def ringSlot (c : Ctx) (i : Nat) : Nat := c.tring + 128 * (i % 2 ^ c.log2n)

/-- Whether an answer to a frame would be acted on: its member still exists, and the cause does not end the grid. -/
def answerable (s : State) (f : Frame) : Bool :=
  let live := fun (m : Member) => s.kcs.any fun k => k.id = memberKc m
  match f.whose with
  | .member m => live m && f.trap.cause ≠ cYieldOverrun
  | .ladle _ m => live m
  | _ => false

/-- The first frame of a kernel cluster's members that awaits its answer. -/
def pendingFrame (s : State) (kc : Nat) : Option Written :=
  s.written.find? fun w => match w.frame.whose with
    | .member m => decide (memberKc m = kc)
    | _ => false

/-- Where a kernel cluster's image lies (R327, R336). -/
def imageBase (s : State) (k : Kc) : Nat := (ctxOf s k.asid).saveBase + k.slotNo.getD 0 * 2 ^ 26

/-- The fields CAUSE and TSEQ of a saved kernel cluster's image follow its frames, written and answered (R334, R337). -/
def refreshImage (s : State) (kc : Nat) : State :=
  let k := kcOf s kc
  match k.status with
  | .saved _ =>
    let base := imageBase s k
    let cause := ((pendingFrame s kc).map fun w => w.frame.trap.cause.toNat).getD 0
    let seq := ((pendingFrame s kc).map fun w => w.seq).getD 0
    { s with mem := putNat (putNat s.mem (base + 1) 1 cause) (base + 8) 8 seq }
  | _ => s

/-- A frame is written to the ring, TWIDX is raised and MSI-X TVEC is signalled (R329, R330): one of the 64 vectors of the
function (R389), and nothing for a TVEC beyond them.
DEDUCED, unsafe: log entry 55. -/
def writeFrame (s : State) (c : Ctx) (f : Frame) : State :=
  let s := tick s
  let w := memNat s (c.desc + 0x28) 8
  let at' := ringSlot c w
  let s := memWrite s at' (frameBytes c f (c.seq + 1) (dieOf s (homeDie c.desc)).time)
  let s := if frameCont c f then memWrite s (ringSlot c (w + 1)) (contBytes (framePages c f)) else s
  let s := memWriteNat s (c.desc + 0x28) 8 ((w + if frameCont c f then 2 else 1) % 2 ^ 64)
  let s := updCtx s c.asid fun c => { c with seq := c.seq + 1 }
  let s := if answerable s f then { s with written := s.written ++ [⟨c.asid, c.seq + 1, at' + 0x78, f⟩] } else s
  let s := match f.whose with
    | .member m => refreshImage s (memberKc m)
    | _ => s
  if c.tvec < 64 then send s (.msix c.vf c.tvec) else s

/-- TRAP_FRAME_WRITE (R330): frame i of those that wait, once its ring has room. -/
def execTrapFrameWrite (i : Nat) (s : State) : Host.Outcome State Fault Refusal :=
  .next (match s.frames[i]? with
    | none => s
    | some f =>
      match ctxOf? s f.asid with
      | none => { s with frames := s.frames.eraseIdx i }
      | some c => if ringRoom s c f then writeFrame { s with frames := s.frames.eraseIdx i } c f else s)

/-! ### Answers (R333, R334) -/

/-- The frame an answer is for, while it is unanswered. -/
def findWritten (s : State) (o : FrameRef) : Option Written := s.written.find? fun w => w.asid = o.asid && w.seq = o.seq

/-- END ends the grid, with STATUS 2 and CAUSE of the frame (R333); RETRY and SKIP return from the trap. -/
def actOn (s : State) (m : Member) (a : Answered) (f : Frame) : State :=
  match a with
  | .stop => endGrid s f.grid 2 f.trap.cause.toNat
  | a => returnFromTrap s m a

/-- An answer reaches a member: at once while its kernel cluster runs, else it is kept until its resume (R334). -/
def answerTrapped (s : State) (m : Member) (a : Answered) (f : Frame) : State :=
  if isRunning (kcOf s (memberKc m)) then actOn s m a f
  else match m with
    | .spine kc => updSpine s kc fun sp => if sp.trap.isSome then { sp with answer := some a } else sp
    | .group .. => updMember s m fun g => if g.trap.isSome then { g with answer := some a } else g

/-- The answer to a frame (R333): a channel goes on at the faulting page, or its grid ends (R352). -/
def answerFrame (s : State) (o : FrameRef) (a : Answered) : State :=
  match findWritten s o with
  | none => s
  | some w =>
    let s := { s with written := s.written.filter fun x => !(x.asid = o.asid && x.seq = o.seq) }
    match w.frame.whose with
    | .member m => refreshImage (answerTrapped s m a w.frame) (memberKc m)
    | .ladle id _ =>
      (match a with
       | .stop => endGrid s w.frame.grid 2 w.frame.trap.cause.toNat
       | _ => updTransfer s id fun t => { t with stopped := false, retried := true })
    | _ => s

/-- TRAP_ANSWER_RETRY (R333) -/
def execTrapAnswerRetry (o : FrameRef) (s : State) : Host.Outcome State Fault Refusal := .next (answerFrame s o .retry)

/-- TRAP_ANSWER_SKIP (R333) -/
def execTrapAnswerSkip (o : FrameRef) (s : State) : Host.Outcome State Fault Refusal := .next (answerFrame s o .skip)

/-- TRAP_ANSWER_END (R333) -/
def execTrapAnswerEnd (o : FrameRef) (s : State) : Host.Outcome State Fault Refusal := .next (answerFrame s o .stop)

/-! ### The deadlock watchdog (R419, R420) -/

/-- Whether a barrier's waits are external: doorbell-fed, watch-fed, a WAKE slot, or with a counted transfer in
flight (R419). -/
def externalBar (s : State) (kc core slot : Nat) : Bool :=
  let b := barOf (teamOf s kc core) slot
  b.x || b.door.isSome || decide (b.lb < b.eb) || decide (wakeSlot s kc = some slot) ||
    (s.watches.any fun w => w.kc = kc && w.core = core && w.slot = slot) ||
    s.transfers.any fun t => t.kc = kc && t.slot = slot && t.legs.any fun l => l.core = core && !l.arrived

/-- Whether a wait is internal and has not come (R419). -/
def internalWait (s : State) (m : Member) (w : Wait) : Bool :=
  !waitOver s m w && (match w with
    | .phase slot _ => !externalBar s (memberKc m) (memberCore m) slot.toNat
    | _ => true)

/-- Whether a group is internally blocked (R419): every entry is, or it holds a multicast whose bits are not set. -/
def groupStuck (s : State) (g : Group) : Bool :=
  let m : Member := .group g.kc g.core g.idx
  g.trap.isNone && !hasWaiting g && (match g.hold with
    | some (.mcast i o) =>
      let b := parseBlock (bufRead (teamOf s g.kc g.core) .bufA (vGet g.regs ((activeLanes g i o.g).headD 0) o.a.toNat).toNat 64)
      (blockCores g.core 1 b).any fun c => !(teamOf s g.kc c).free.getLsbD o.slot.toNat
    | some (.locks _ _ _) => false
    | none => !g.regs.frontier.isEmpty && g.regs.frontier.all fun e => (match e.wait with
        | some w => internalWait s m w
        | none => false))

/-- Whether a spine is internally blocked. -/
def spineStuck (s : State) (k : Kc) : Bool :=
  k.spine.trap.isNone && (match k.spine.wait with
    | some w => internalWait s (.spine k.id) w
    | none => false)

/-- Whether every member of a running kernel cluster is internally blocked (R420). -/
def kcStuck (s : State) (k : Kc) : Bool :=
  isRunning k && k.place.isSome && (k.spine.ended || spineStuck s k) &&
    (s.groups.all fun g => g.kc ≠ k.id || g.ended || groupStuck s g) &&
    (!k.spine.ended || s.groups.any fun g => g.kc = k.id && !g.ended)

/-- Whether a kernel cluster has a member in a `gstep` wait. -/
def atGstep (k : Kc) : Bool := match k.spine.wait with | some (.boundary _) => true | _ => false

/-- Whether the watchdog may fire on a kernel cluster: grid-wide with a `gstep` wait (R420). -/
def deadlocked (s : State) (k : Kc) : Bool :=
  kcStuck s k && (!atGstep k || (kcsOf s k.grid).all fun x => kcStuck s x)

/-- DEADLOCK_WATCHDOG (R420): DEADLOCK is reported for the kernel cluster (R435) and the grid ends. -/
def execDeadlockWatchdog (kc : Nat) (s : State) : Host.Outcome State Fault Refusal :=
  .next (
    let k := kcOf s kc
    if deadlocked s k then
      let t : Trap := ⟨cDeadlock, 0, false, true, 0, 0, 0, 0, 0, 0, 0, [], 0⟩
      endGrid { s with frames := s.frames ++ [⟨k.asid, .cluster kc, t, k.grid, k.cluster, 0, 0xFFFF⟩] } k.grid 2 cDeadlock.toNat
    else s)

end Sys2Proof.Machine
end

