-- ==== Sys2Proof/Machine/Place.lean ====
section
/-! DEFINITION. Moulds, placement and the tundish's rounds (R297 to R302, R318 to R325, R408). -/

namespace Sys2Proof.Machine

/-! ### Moulds (R297 to R299) -/

/-- A region descriptor as a region with empty planes (R298). -/
def regionOf (i : Nat) (d : Nat) : Region :=
  let v := BitVec.ofNat 64 d
  { idx := i, base := bitsOf v 20 0, bytes := bitsOf v 41 21, rule := BitVec.ofNat 2 (bitsOf v 45 44), fill := bitOf v 46
    slot := bitsOf v 51 48, present := [], nextPl := [], written := [], keys := [], arrived := [], held := [], prev := [], behind := [] }

/-- Whether a descriptor breaks R298 or R197 by itself: a the declared A bytes, n the barriers. -/
def regionBad (a n : Nat) (d : Nat) : Bool :=
  let v := BitVec.ofNat 64 d
  let ty := bitsOf v 43 42
  let rule := bitsOf v 45 44
  let base := bitsOf v 20 0
  let bytes := bitsOf v 41 21
  if !bitOf v 63 then decide (d ≠ 0)
  else bitsOf v 62 52 ≠ 0 || bitOf v 47 || ty = 3 || decide (n ≤ bitsOf v 51 48) || base % 128 ≠ 0 || bytes % 128 ≠ 0 ||
    bytes = 0 || decide (a < base + bytes) || (rule = 1 && ty ≠ 1) || (rule = 2 && ty ≠ 2)

/-- Whether two regions of a list overlap (R197). -/
def regionsMeet : List Region → Bool
  | [] => false
  | r :: rs => (rs.any fun q => rangesMeet r.base r.bytes q.base q.bytes) || regionsMeet rs

/-- A role descriptor: kind, groups, width in lanes, budget in registers (R297). -/
def roleOf (d : Nat) : BitVec 2 × Nat × Nat × Nat :=
  (BitVec.ofNat 2 (d % 4), d / 512 % 128, 8 * 2 ^ (d / 16 % 4), 8 * (d / 64 % 8 + 1))

/-- An entry PC: bit 0 of a program counter is always zero (R66).
DEDUCED, unsafe: log entry 98. -/
def entryPc (n : Nat) : VAddr := BitVec.ofNat 48 (n / 2 * 2)

/-- The mould in 256 bytes, none where R299 rejects it. -/
def parseMould (addr : Nat) (b : List Byte) : Option Mould :=
  let f := fun (off n : Nat) => recField b off n
  let roleD := [f 0x24 4, f 0x28 4, f 0x2C 4]
  let present := roleD.takeWhile fun d => decide (d % 4 ≠ 0)
  let roles := present.map roleOf
  let shape := f 0x30 4
  let caps := f 0x34 4
  let wa := f 0x38 4
  let c := f 0x3C 4
  let q := f 0x44 4
  let a := wa / 2 ^ 16 % 2 ^ 11
  let bars := c / 2 ^ 16 % 32
  let regs := (List.range 8).map fun i => f (0x50 + 8 * i) 8
  let regions := (regs.zipIdx.filter fun r => decide (2 ^ 63 ≤ r.1)).map fun r => regionOf r.2 r.1
  let rows := shape % 16
  let cols := shape / 16 % 16
  let dmin := shape / 256 % 16
  let dmax := shape / 4096 % 16
  let reserved := f 0x20 4 ≠ 0 || (roleD.any fun d => d / 2 ^ 16 ≠ 0 || d / 4 % 4 ≠ 0) || caps / 2 ^ 12 ≠ 0 || caps / 16 % 16 ≠ 0 ||
    wa / 2 ^ 27 ≠ 0 || wa / 2 ^ 11 % 32 ≠ 0 || c / 2 ^ 30 ≠ 0 || c / 2 ^ 21 % 8 ≠ 0 || c / 2 ^ 10 % 64 ≠ 0 ||
    f 0x40 4 / 4 ≠ 0 || q / 2 ^ 17 ≠ 0 || q / 2 ^ 12 % 16 ≠ 0 || (b.drop 0x90).any fun x => x ≠ 0
  let bad := reserved || present.isEmpty || (roleD.drop present.length).any (fun d => decide (d % 4 ≠ 0)) ||
    (roles.any fun r => r.2.1 = 0) || decide (64 < roles.foldl (fun n r => n + r.2.1) 0) ||
    decide (4096 < roles.foldl (fun n r => n + r.2.1 * r.2.2.1) 0) ||
    decide (32 < c / 2 ^ 24 % 64) || decide (16 < bars) || decide (512 < c % 2 ^ 10) || decide (1536 < a) ||
    decide (1024 < wa % 2 ^ 11) || rows = 0 || decide (3 < rows) || cols = 0 || decide (4 < cols) ||
    dmin = 0 || decide (dmax < dmin) || decide (4 < dmax) || (decide (q / 2 ^ 16 % 2 = 1) && decide (bars ≤ q / 256 % 16)) ||
    (regs.any fun d => regionBad (a * 1024) bars d) || regionsMeet regions ||
    decide (1536 * 1024 < a * 1024 + regions.foldl (fun n r => n + r.bytes) 0)
  if bad then none
  else some
    { addr := addr, spine := entryPc (f 0 8)
      rolePc := ([f 0x08 8, f 0x10 8, f 0x18 8].take present.length).map entryPc
      roles := roles, rows := rows, cols := cols, dmin := dmin, dmax := dmax
      gmin := if shape / 2 ^ 16 = 0 then 1 else shape / 2 ^ 16, caps := BitVec.ofNat 32 caps
      wKib := wa % 2 ^ 11, aKib := a, cKib := c % 2 ^ 10, barriers := bars, sprue := c / 2 ^ 24 % 64, klass := f 0x40 4 % 4
      wqv := decide (q / 2 ^ 16 % 2 = 1), wake := q / 256 % 16, wq := BitVec.ofNat 8 q, ebudget := f 0x48 8, regions := regions }

/-- The mould of a launch as its context reads it (R299). -/
def readMould (s : State) (l : Launch) : Option Mould :=
  let addr := recField l.bytes 0x08 8 % 2 ^ 48
  if addr % 64 ≠ 0 then none
  else match ctxOf? s l.asid with
    | none => none
    | some c => (quietRead s c addr 256).bind (parseMould addr)

/-- GX, GY, GZ of a launch record (R301). -/
def gridDims (l : Launch) : Nat × Nat × Nat :=
  let g := recField l.bytes 0x10 8
  (g % 2 ^ 16, g / 2 ^ 16 % 2 ^ 16, g / 2 ^ 32 % 2 ^ 16)

/-- The kernel clusters of a launch. -/
def launchSize (l : Launch) : Nat := let d := gridDims l; d.1 * d.2.1 * d.2.2

/-- Whether the dimensions are rejected (R301): one is 0, reserved bits, or more than 2^32 teams. -/
def dimsBad (l : Launch) (m : Mould) : Bool :=
  launchSize l = 0 || recField l.bytes 0x10 8 / 2 ^ 48 ≠ 0 || decide (2 ^ 32 < launchSize l * m.rows * m.cols)

/-! ### Resources of a core (R318) -/

/-- A candidate placement (R318): die, hardware cluster, anchor. -/
structure Cand where
  die : DieNo
  hw : BitVec 2
  row : Nat
  col : Nat
  deriving DecidableEq, Repr

/-- The candidates on some dies in the order of R319. -/
def candsOn (dies : List DieNo) (rows cols : Nat) : List Cand :=
  dies.flatMap fun d => (List.range 4).flatMap fun h => (List.range (4 - rows)).flatMap fun r =>
    (List.range (5 - cols)).map fun c => ⟨d, BitVec.ofNat 2 h, r, c⟩

/-- The cores of a rectangle in CORE order, as cores of the die. -/
def candCores (c : Cand) (rows cols : Nat) : List Nat :=
  (List.range rows).flatMap fun i => (List.range cols).map fun j => c.hw.toNat * 12 + (c.row + i) * 4 + (c.col + j)

/-- The CAPS and FEAT bits that a placement requires: a REQ word, with FEAT bit 2 when a region is declared (R318). -/
def withRegion (m : Mould) (req : Word) : Word := req ||| (if m.regions.isEmpty then 0 else 0x400)

/-- The bits that a first placement requires (R297, R318). -/
def mouldReq (m : Mould) : Word := withRegion m m.caps

/-- Whether a core has the bits of a REQ word and is in service (R318, R418). -/
def coreMeets (s : State) (req : Word) (d : DieNo) (c : Nat) : Bool :=
  decide (coreCaps s d c &&& req.setWidth 4 = req.setWidth 4) &&
    decide (coreFeat s d c &&& BitVec.ofNat 4 (bitsOf req 11 8) = BitVec.ofNat 4 (bitsOf req 11 8)) &&
    !(dieOf s d).outOf.contains c

/-- The groups and the teams of the kernel clusters placed on a core. -/
def groupsAt (s : State) (d : DieNo) (c : Nat) : List Group :=
  s.groups.filter fun g => (kcOf s g.kc).place.isSome && decide (hwCore (kcOf s g.kc) g.core = (d, c))
def teamsAt (s : State) (d : DieNo) (c : Nat) : List Team :=
  s.teams.filter fun t => (kcOf s t.kc).place.isSome && decide (hwCore (kcOf s t.kc) t.core = (d, c))

/-- The groups resident on a core: an ended one has freed its slot and octets (R183). -/
def residentAt (s : State) (d : DieNo) (c : Nat) : List Group := (groupsAt s d c).filter fun g => !g.ended

/-- A residency place: issue slot, octet position, place there (R167). -/
abbrev Residency := Nat × Nat × Nat

/-- The residency places that groups take (R167). -/
def takenPlaces (gs : List Group) : List Residency :=
  gs.flatMap fun g => g.place.zipIdx.map fun p => (g.slot, g.octet + p.2, p.1)

/-- The octet positions at which n adjacent ones may start (R167). -/
def octetSpots (n : Nat) : List (Nat × Nat) :=
  (List.range 4).flatMap fun sl => (List.range (8 / n)).map fun j => (sl, j * n)

/-- The lowest free residency place at each of n positions from a spot; none when one of them has none free. -/
def freePlaces (taken : List Residency) (p : Nat × Nat) (n : Nat) : Option (List Nat) :=
  (List.range n).mapM fun i => (List.range 16).find? fun q => !taken.contains (p.1, p.2 + i, q)

/-- Seats groups (GROUP, width), in list order, each at the first spot with free places: (GROUP, slot, octet,
places). -/
def seatGroups : List (Nat × Nat) → List Residency → Option (List (Nat × Nat × Nat × List Nat))
  | [], _ => some []
  | (idx, width) :: rest, taken =>
    let n := width / 8
    match (octetSpots n).findSome? fun p => (freePlaces taken p n).map fun ps => (p, ps) with
    | none => none
    | some (p, ps) =>
      (seatGroups rest (ps.zipIdx.map (fun q => (p.1, p.2 + q.2, q.1)) ++ taken)).map fun seats => (idx, p.1, p.2, ps) :: seats

/-- The groups of a team in mould order: KIND, width, budget, entry PC (R32, R297). -/
def roleGroups (m : Mould) : List (BitVec 2 × Nat × Nat × VAddr) :=
  (m.roles.zip m.rolePc).flatMap fun r => List.replicate r.1.2.1 (r.1.1, r.1.2.2.1, r.1.2.2.2, r.2)

/-- The groups by GROUP and width, widest first, so that seating fails only where none is possible. -/
def seatOrder (m : Mould) : List (Nat × Nat) :=
  sortBy (fun g => 64 - g.2) ((roleGroups m).zipIdx.map fun g => (g.2, g.1.2.1))

/-- Condition 2 of R318 on one core, with recs deque slots for the team's records, and its 8 stepped regions (R5). -/
def coreFits (s : State) (m : Mould) (req : Word) (d : DieNo) (c recs : Nat) : Bool :=
  let gs := residentAt s d c
  let ts := teamsAt s d c
  let new := roleGroups m
  let sum := fun (l : List Nat) => l.foldl (· + ·) 0
  let regs := sum (m.regions.map fun r => r.bytes)
  coreMeets s req d c &&
    decide (gs.length + new.length ≤ 64) &&
    decide (sum (gs.map fun g => g.width) + sum (new.map fun g => g.2.1) ≤ 4096) &&
    decide (sum ((groupsAt s d c).map fun g => g.width * g.budget * 4) + sum (new.map fun g => g.2.1 * g.2.2.1 * 4) ≤ 2 ^ 20) &&
    decide (sum (ts.map fun t => t.wSize) + m.wKib * 1024 ≤ 2 ^ 20) &&
    decide (sum (ts.map fun t => t.aSize + sum (t.regions.map fun r => r.bytes)) + m.aKib * 1024 + regs ≤ 1536 * 1024) &&
    decide (sum (ts.map fun t => t.cSize) + m.cKib * 1024 ≤ 512 * 1024) &&
    decide (sum (ts.map fun t => t.bars.length) + m.barriers ≤ 128) &&
    decide (sum (ts.map fun t => t.regions.length) + m.regions.length ≤ 8) &&
    decide (dequeFill s (d, c) + recs ≤ 256) &&
    (seatGroups (seatOrder m) (takenPlaces gs)).isSome

/-- Spine contexts in use in a hardware cluster. -/
def spinesUsed (s : State) (d : DieNo) (hw : BitVec 2) : List Nat :=
  s.kcs.filterMap fun k => match k.place with
    | some p => if p.die = d ∧ p.hw = hw then some p.ctx else none
    | none => none

/-- The aged heads, in the order in which they aged. -/
def agedHeads (s : State) : List Head := s.tund.heads.filter fun h => h.aged

/-- Whether a core is reserved for another head; one that several reserve is the earliest aged one's (R321).
DEDUCED, unsafe: log entry 99. -/
def coreReserved (s : State) (who : Option HeadKey) (core : Nat × Nat) : Bool :=
  match (agedHeads s).find? fun x => x.cores.contains core with
  | some x => decide (some x.key ≠ who)
  | none => false

/-- The spine contexts of a hardware cluster that are reserved for heads other than one: each head's in turn, of those
left (R321).
DEDUCED, unsafe: log entry 99. -/
def spinesReserved (who : Option HeadKey) (h : Nat) : Nat → List Head → Nat
  | _, [] => 0
  | left, x :: xs =>
    let n := min left (x.spines.filter fun i => i = h).length
    (if some x.key = who then 0 else n) + spinesReserved who h (left - n) xs

/-- Conditions 1 and 3 of R318 and whether the die takes placements (R413). -/
def candOpen (s : State) (who : Option HeadKey) (c : Cand) (rows cols : Nat) : Bool :=
  let kept := spinesReserved who (c.die.toNat * 4 + c.hw.toNat) 4 (agedHeads s)
  decide ((dieOf s c.die).st = .online) && decide ((spinesUsed s c.die c.hw).length + kept < 4) &&
    (candCores c rows cols).all fun i => !coreReserved s who (c.die.toNat, i)

/-- Whether a kernel cluster of the mould can be placed on a candidate now (R318). -/
def fitsAt (s : State) (m : Mould) (req : Word) (who : Option HeadKey) (recs : Nat → Nat) (c : Cand) : Bool :=
  candOpen s who c m.rows m.cols && (candCores c m.rows m.cols).zipIdx.all fun i => coreFits s m req c.die i.1 (recs i.2)

/-! ### Placing a kernel cluster (R322) -/

/-- The start record of a team: the launch record with KIND 3. -/
def startRecord (l : Launch) : List Byte := 3 :: l.bytes.drop 1

/-- A fresh team of a core. -/
def teamInit (m : Mould) (kc core : Nat) : Team :=
  { teamNone with
    kc := kc, core := core, wSize := m.wKib * 1024, aSize := m.aKib * 1024, cSize := m.cKib * 1024
    bars := List.replicate m.barriers Barrier.init, regions := m.regions }

/-- The seats on a core. -/
def seatsAt (s : State) (m : Mould) (d : DieNo) (c : Nat) : List (Nat × Nat × Nat × List Nat) :=
  (seatGroups (seatOrder m) (takenPlaces (residentAt s d c))).getD []

/-- Puts a group at its seat. -/
def seated (seats : List (Nat × Nat × Nat × List Nat)) (g : Group) : Group :=
  match seats.find? fun x => x.1 = g.idx with
  | some x => { g with slot := x.2.1, octet := x.2.2.1, place := x.2.2.2 }
  | none => g

/-- The lowest free spine context of a hardware cluster. -/
def freeSpine (s : State) (c : Cand) : Nat :=
  (((List.range 4).filter fun i => !(spinesUsed s c.die c.hw).contains i).head?).getD 0

/-- Cluster number n of a grid is placed: resources, the state of R36, start records, the touched die. Its members see
every store to text made before (R235). -/
def placeKc (s : State) (g : Grid) (n : Nat) (c : Cand) : State :=
  let m := g.mould
  let id := s.nextId
  let k : Kc :=
    { id := id, grid := g.id, asid := g.asid, cluster := BitVec.ofNat 32 n
      gx := BitVec.ofNat 32 (n % g.gx), gy := BitVec.ofNat 32 (n / g.gx % g.gy), gz := BitVec.ofNat 32 (n / (g.gx * g.gy))
      rows := m.rows, cols := m.cols, cfgSprue := m.sprue, cfgBar := m.barriers
      place := some ⟨c.die, c.hw, c.row, c.col, freeSpine s c⟩, status := .running, slotNo := none
      sprue := [], spine := { spineInit m.spine with gsteps := g.boundary, seenFrom := s.fresh + 1 } }
  let cores := (candCores c m.rows m.cols).zipIdx
  let groups := cores.flatMap fun i => (roleGroups m).zipIdx.map fun r =>
    seated (seatsAt s m c.die i.1) { groupInit id i.2 r.2 r.1.1 r.1.2.1 r.1.2.2.1 r.1.2.2.2 with seenFrom := s.fresh + 1 }
  let s := touch s (ctxOf s g.asid) c.die
  { s with
    nextId := s.nextId + 1
    fresh := s.fresh + 1
    kcs := s.kcs ++ [k]
    teams := s.teams ++ cores.map fun i => teamInit m id i.2
    groups := s.groups ++ groups
    deques := (cores.map fun i => (⟨id, i.2, true, none, startRecord g.launch, g.launch.poison⟩ : DequeRec)) ++ s.deques }

/-! ### Starting a grid (R319, R324) -/

/-- The dies of a context's partition. -/
def ctxDies (s : State) (asid : Asid) : List DieNo :=
  match ctxOf? s asid with
  | some c => partDies s.host.pmode c.part
  | none => []

/-- Whether a grid can never be placed (R319). A FAILED die holds nothing any more (R413).
DEDUCED, unsafe: log entry 50. -/
def unplaceable (s : State) (l : Launch) (m : Mould) : Bool :=
  let dies := ctxDies s l.asid
  let one := (candsOn (dies.filter fun d => (dieOf s d).st ≠ .failed) m.rows m.cols).any fun c =>
    (candCores c m.rows m.cols).all fun i => coreMeets s (mouldReq m) c.die i
  let regs : Nat := (roleGroups m).foldl (fun n g => n + g.2.1 * g.2.2.1 * 4) 0
  decide (launchSize l < m.gmin) || decide (dies.length < m.dmin) || !one || decide (2 ^ 20 < regs)

/-- What a context may still reserve (R324): the allowance less what ended grids were charged and what running
grids have reserved. -/
def allowanceLeft (s : State) (asid : Asid) (except' : Word) : Nat :=
  match ctxOf? s asid with
  | none => 0
  | some c => memNat s (c.desc + 0x48) 8 - c.spent -
      ((s.grids.filter fun g => g.asid = asid && decide (g.id ≠ except')).map fun g => g.ebudget).foldl (· + ·) 0

/-- Energy admission (R324). -/
def energyOk (s : State) (l : Launch) (m : Mould) : Bool := m.ebudget = 0 || decide (m.ebudget ≤ allowanceLeft s l.asid 0)

/-- Whether the next of left placements may use a die, given the dies used so far (R319).
DEDUCED, unsafe: log entry 13. -/
def dieAllowed (m : Mould) (left : Nat) (used : List DieNo) (d : DieNo) : Bool :=
  if used.contains d then !decide (left ≤ m.dmin - used.length) else decide (used.length < m.dmax)

/-- Forms the placements of a start one by one, each in candidate order (R319). -/
def formStart (s : State) (who : Option HeadKey) (g : Grid) (dies : List DieNo) : Nat → Nat → List DieNo → Option (State × List DieNo)
  | 0, _, used => some (s, used)
  | left + 1, n, used =>
    let m := g.mould
    match (candsOn dies m.rows m.cols).find? fun c =>
        dieAllowed m (left + 1) used c.die && fitsAt s m (mouldReq m) who (fun _ => 1) c with
    | none => none
    | some c => formStart (placeKc s g n c) who g dies left (n + 1) (if used.contains c.die then used else used ++ [c.die])

/-- The driver fields that a context takes up again while it has no grid (R327); an ASID that another context has, or
that create would refuse, and a VF in which its slot is taken are not taken up.
DEDUCED, unsafe: log entry 53. -/
def latchDesc (s : State) (c : Ctx) : Ctx :=
  let f := fun (off n : Nat) => memNat s (c.desc + off) n
  let asid : Asid := BitVec.ofNat 16 (f 0 8)
  let vf : FuncNo := BitVec.ofNat 6 (f 0 8 / 2 ^ 16)
  { c with
    asid := if asid = 0 || s.ctxs.any (fun x => x.asid = asid) then c.asid else asid
    vf := if s.ctxs.any fun x => x.vf = vf && x.slot = c.slot && x.asid ≠ c.asid then c.vf else vf
    part := BitVec.ofNat 2 (f 0 8 / 2 ^ 22)
    tring := f 0x10 8 / 4096 % 2 ^ 40 * 4096
    log2n := min (f 0x18 8 % 32) 16
    tvec := BitVec.ofNat 8 (f 0x18 8 / 256)
    dbg := decide (f 0x18 8 / 2 ^ 16 % 2 = 1)
    saveBase := f 0x38 8 / 2 ^ 26 % 2 ^ 26 * 2 ^ 26
    nslot := f 0x38 8 % 2 ^ 12 }

/-- A context without a grid takes up its descriptor (R327); under a new ASID its old translations are gone. -/
def relatch (s : State) (c : Ctx) : State :=
  if s.grids.any fun g => g.asid = c.asid then s
  else
    let c' := latchDesc s c
    let s := updCtx s c.asid fun _ => c'
    if c'.asid = c.asid then s
    else { s with
      tlb := s.tlb.filter fun e => e.asid ≠ c.asid
      frames := s.frames.map fun f => if f.asid = c.asid then { f with asid := c'.asid } else f
      written := s.written.map fun w => if w.asid = c.asid then { w with asid := c'.asid } else w }

/-- Starts a grid: GMIN placements at once, or nothing (R319). Nothing starts in a context that waits for a forced change
of mode (R388).
DESIGN CHOICE, unsafe: log entry 51. -/
def tryStart (s : State) (key : HeadKey) (l : Launch) (m : Mould) : Option State :=
  if !energyOk s l m || modeBlocks s l.asid then none
  else
    let d := gridDims l
    let g : Grid :=
      { id := s.tund.nextGrid, asid := l.asid, launch := l, mould := m, gx := d.1, gy := d.2.1, gz := d.2.2, dies := []
        nextCluster := m.gmin, boundary := 0, ebudget := m.ebudget, charged := 0, suspended := false, leaving := [], grow := false }
    match formStart s (some key) g (ctxDies s l.asid) m.gmin 0 [] with
    | none => none
    | some (s, used) =>
      some { s with
        grids := s.grids ++ [{ g with dies := sortBy (fun d => d.toNat) used }]
        tund := { s.tund with nextGrid := if s.tund.nextGrid = 0xFFFFFFFF then 1 else s.tund.nextGrid + 1 } }

/-! ### Ring heads (R303, R304, R306, R307) -/

/-- Whether the tundish serves a queue (R303, R393). -/
def served (s : State) (q : BitVec 8) : Bool :=
  let e := queueOf s q
  e.en && (e.vf = 0 || (funcOf s e.vf).en) && (match ctxOf? s e.asid with
    | some c => decide (c.vf = e.vf)
    | none => false)

/-- The bytes of the slot at RIDX.
DEDUCED, unsafe: log entry 54. -/
def slotBytes (s : State) (e : QueueEntry) : List Byte := memRead s (e.ring + 64 * (ridxOf s e % 2 ^ e.log2n)) 64

/-- The poisoned 16-byte parts of that slot, which travel with the record (R411). -/
def slotPoison (s : State) (e : QueueEntry) : List Nat :=
  (List.range 4).filter fun i => s.memPoison.contains ((e.ring + 64 * (ridxOf s e % 2 ^ e.log2n)) / 16 + i)

/-- Whether the slot at RIDX is ready: its lap flag (R304). -/
def slotReady (s : State) (e : QueueEntry) : Bool :=
  bitOf (recHeader (slotBytes s e)) 8 = decide (ridxOf s e / 2 ^ e.log2n % 2 = 0)

/-- Whether a record is bad (R307, R309).
DEDUCED, unsafe: log entry 48. -/
def badRecord (s : State) (e : QueueEntry) (bytes : List Byte) : Bool :=
  let h := recHeader bytes
  let kind := bitsOf h 7 0
  let done := recField bytes 0x18 8
  bitsOf h 63 48 ≠ e.vf.toNat || kind ≠ (if e.work then 2 else 1) || bitsOf h 47 40 ≠ 0 || bitsOf h 15 11 ≠ 0 ||
    (bitOf h 10 && kind = 2) || (kind = 1 && (done % 8 ≠ 0 || decide (2 ^ 48 ≤ done))) ||
    (bitOf h 9 && !ownsCounter s e.vf (bitsOf h 27 16)) || (bitOf h 10 && !ownsCounter s e.vf (bitsOf h 39 28))

/-- Whether a good record must be held on its counter (R309). -/
def mustHold (s : State) (bytes : List Byte) : Bool :=
  let h := recHeader bytes
  bitOf h 9 && decide (amGet 0 s.tund.counts (bitsOf h 27 16) ≠ 0)

/-- RIDX rises by one (R306). -/
def raiseRidx (s : State) (e : QueueEntry) : State := memWriteNat s (e.cb + 8) 8 ((ridxOf s e + 1) % 2 ^ 64)

/-- The good, ready record at the head of a ring that goes on at once, if the tundish looks at it. -/
def ringHead (s : State) (q : BitVec 8) : Option Launch :=
  let e := queueOf s q
  let b := slotBytes s e
  if s.tund.looking.contains q && served s q && slotReady s e && !decide (bitsOf (recHeader b) 7 0 = 0) && !badRecord s e b &&
      !mustHold s b
  then some ⟨b, q, e.asid, e.vf, slotPoison s e⟩ else none

/-- The launch record that a head stands for. -/
def headRecord (s : State) (k : HeadKey) : Option Launch :=
  let l : Option Launch := match k with
    | .ring q => if (queueOf s q).work then none else ringHead s q
    | .released n => ((s.tund.released.find? fun r => r.1 = n).map fun r => r.2).filter fun l =>
        decide (bitsOf (recHeader l.bytes) 7 0 = 1)
  l.filter fun l => (ctxOf? s l.asid).isSome

/-- The launch record of a head that can be tried now: not while its context is suspended.
DEDUCED, unsafe: log entry 45. -/
def headLaunch (s : State) (k : HeadKey) : Option Launch := (headRecord s k).filter fun l => !(ctxOf s l.asid).suspended

/-- Whether a head still stands for its record, poison apart. -/
def headStands (s : State) (h : Head) : Bool :=
  decide ((headRecord s h.key).map (fun l => { l with poison := [] }) = some { h.launch with poison := [] })

/-- The record of a head leaves its ring or the released records (R306, R320). -/
def leaveHead (s : State) (k : HeadKey) : State :=
  let s := { s with tund := { s.tund with heads := s.tund.heads.filter fun h => decide (h.key ≠ k) } }
  match k with
  | .ring q =>
    let s := raiseRidx s (queueOf s q)
    { s with tund := { s.tund with rr := (s.tund.rr.filter fun x => x ≠ q) ++ [q] } }
  | .released n => { s with tund := { s.tund with released := s.tund.released.filter fun r => r.1 ≠ n } }

/-- The heads of all queues and the released launch records, in the order in which a class serves them. -/
def allHeads (s : State) : List HeadKey :=
  (s.tund.released.map fun r => HeadKey.released r.1) ++
    (dedup ((s.tund.looking.filter fun q => !s.tund.rr.contains q) ++ s.tund.rr)).map fun q => HeadKey.ring q

def findHead (s : State) (k : HeadKey) : Option Head := s.tund.heads.find? fun h => decide (h.key = k)

/-- A head is tried for the first time: the mould is read and checked (R299, R301, R319). -/
def meetHead (s : State) (k : HeadKey) : State :=
  match headLaunch s k, findHead s k with
  | some l, none =>
    (match readMould s l with
     | none => completeLaunch (leaveHead s k) l 3 0
     | some m =>
       if dimsBad l m then completeLaunch (leaveHead s k) l 3 0
       else if unplaceable s l m then completeLaunch (leaveHead s k) l 4 0
       else { s with tund := { s.tund with heads := s.tund.heads ++ [⟨k, l, m, false, 0, false, [], []⟩] } })
  | _, _ => s

/-! ### Ageing and reservations (R321, R408) -/

/-- How many cores of a rectangle other kernel clusters hold.
DEDUCED, unsafe: log entry 49. -/
def heldCores (s : State) (c : Cand) (m : Mould) : Nat :=
  ((candCores c m.rows m.cols).filter fun i => !(teamsAt s c.die i).isEmpty).length

/-- The best target among candidates: the fewest held cores, the first among equals. -/
def bestTarget (s : State) (m : Mould) : List Cand → Option Cand → Option Cand
  | [], b => b
  | c :: cs, none => bestTarget s m cs (some c)
  | c :: cs, some b => bestTarget s m cs (some (if heldCores s c m < heldCores s b m then c else b))

/-- Targets for the start set, one by one, apart from each other and from earlier reservations where possible. -/
def pickTargets (s : State) (m : Mould) (dies : List DieNo) (taken : List (Nat × Nat)) : Nat → List DieNo → List Cand
  | 0, _ => []
  | left + 1, used =>
    let able := (candsOn dies m.rows m.cols).filter fun c =>
      dieAllowed m (left + 1) used c.die && decide ((dieOf s c.die).st = .online) &&
        (candCores c m.rows m.cols).all fun i => coreMeets s (mouldReq m) c.die i
    let apart := able.filter fun c => (candCores c m.rows m.cols).all fun i => !taken.contains (c.die.toNat, i)
    match bestTarget s m (if apart.isEmpty then able else apart) none with
    | none => []
    | some c =>
      c :: pickTargets s m dies (taken ++ (candCores c m.rows m.cols).map fun i => (c.die.toNat, i)) left
        (if used.contains c.die then used else used ++ [c.die])

/-- Whether only energy, or the suspension of its context, keeps a head from starting. -/
def onlyEnergy (s : State) (h : Head) : Bool :=
  (ctxOf s h.launch.asid).suspended ||
    (!energyOk s h.launch h.mould && (tryStart s h.key h.launch { h.mould with ebudget := 0 }).isSome)

/-- An aged head's reservation: nothing while only energy blocks it, else the targets it has or chooses now (R321). -/
def reserve (s : State) (h : Head) : Head :=
  if onlyEnergy s h then { h with cores := [], spines := [] }
  else if !h.cores.isEmpty then h
  else
    let others := s.tund.heads.filter fun x => decide (x.key ≠ h.key)
    let ts := pickTargets s h.mould (ctxDies s h.launch.asid) (others.flatMap fun x => x.cores) (min h.mould.gmin 64) []
    { h with
      cores := dedup (ts.flatMap fun c => (candCores c h.mould.rows h.mould.cols).map fun i => (c.die.toNat, i))
      spines := ts.map fun c => c.die.toNat * 4 + c.hw.toNat }

/-- A blocked head ages: it reserves, and is served in ageing order. -/
def ageHead (s : State) (h : Head) : State :=
  { s with tund := { s.tund with heads := (s.tund.heads.filter fun x => decide (x.key ≠ h.key)) ++ [reserve s { h with aged := true }] } }

/-- A back-fill counts for every blocked head; one ages at its 64th (R320, R321). -/
def countBackfill (s : State) : State :=
  let s : State := { s with tund := { s.tund with heads := s.tund.heads.map fun h =>
    if h.blocked then { h with backfills := h.backfills + 1 } else h } }
  (s.tund.heads.filter fun h => !h.aged && decide (64 ≤ h.backfills)).foldl ageHead s

/-- A head is served: it starts, or it is blocked (R320); one that has become unplaceable since it was met completes with
status 4 (R319). -/
def serveHead (s : State) (k : HeadKey) : State :=
  match headLaunch s k, findHead s k with
  | some l, some h =>
    if unplaceable s l h.mould then completeLaunch (leaveHead s k) l 4 0 else
    (match tryStart s k l h.mould with
     | some s' => countBackfill (leaveHead s' k)
     | none => { s with tund := { s.tund with heads := s.tund.heads.map fun x =>
         if x.key = k then (let y := { x with blocked := true }; if x.aged then reserve s y else y) else x } })
  | _, _ => s

/-- HEAD_AGEING (R321): 50 µs have passed for the oldest blocked head that came from a queue. -/
def execHeadAgeing (q : BitVec 8) (s : State) : Host.Outcome State Fault Refusal :=
  .next (match s.tund.heads.find? (fun h => h.launch.queue = q && h.blocked && !h.aged) with
    | some h => ageHead s h
    | none => s)

/-! ### Rounds (R320, R323) -/

/-- The dies that the tundish may add to a grid at a completed boundary, for a pending cluster that fits there (R323).
DESIGN CHOICE, safe: log entry 25. -/
def growDies (s : State) (g : Grid) : List DieNo :=
  if g.grow && decide (g.dies.length < g.mould.dmax) && Config.freeBit s.fresh (2 ^ 21 + 8) then
    (ctxDies s g.asid).filter fun d => !g.dies.contains d
  else []

/-- Whether the allowance permits a grid to go on: budget left, or another budget within it (R324).
DESIGN CHOICE, unsafe: log entry 44. -/
def energyPermits (s : State) (g : Grid) : Bool :=
  g.ebudget = 0 || decide (g.charged < g.ebudget) || decide (g.charged + g.mould.ebudget ≤ allowanceLeft s g.asid g.id)

/-- A grid whose budget is used up and that may go on reserves another one (R324). -/
def renewBudget (s : State) (g : Grid) : State :=
  if g.ebudget ≠ 0 && decide (g.ebudget ≤ g.charged) && energyPermits s g then
    updGrid s g.id fun x => { x with ebudget := x.charged + x.mould.ebudget }
  else s

/-- Places pending clusters of a grid while they fit (R319, R320); a device holds at most 64 kernel clusters. A grid
whose budget is used up gets them once the allowance permits (R324). -/
def placePending (s : State) (gid : Word) : Nat → State
  | 0 => s
  | fuel + 1 =>
    match gridOf? s gid with
    | none => s
    | some g =>
      if gridSize g ≤ g.nextCluster || g.suspended || (ctxOf s g.asid).suspended || modeBlocks s g.asid || !energyPermits s g then s
      else
        match (candsOn (g.dies ++ growDies s g) g.mould.rows g.mould.cols).find?
            (fitsAt s g.mould (mouldReq g.mould) none fun _ => 1) with
        | none => s
        | some c => placePending (updGrid (placeKc (renewBudget s g) g g.nextCluster c) gid fun g =>
            { g with
              nextCluster := g.nextCluster + 1
              dies := if g.dies.contains c.die then g.dies else sortBy (fun d => d.toNat) (c.die :: g.dies) }) gid fuel

/-- The heads of one class in their order: aged ones as they aged, then the rest. -/
def classHeads (s : State) (k : Nat) : List HeadKey :=
  let mine := s.tund.heads.filter fun h => h.mould.klass = k
  let aged := (mine.filter fun h => h.aged).map fun h => h.key
  aged ++ (allHeads s).filter fun x => !aged.contains x && mine.any fun h => decide (h.key = x)

/-- PLACEMENT_ROUND (R320): idle contexts take up their descriptors, heads are met, pending clusters are placed by class, then heads are served by class. -/
def execPlacementRound (s : State) : Host.Outcome State Fault Refusal :=
  .next (
    let s := s.ctxs.foldl relatch s
    let s := { s with tund := { s.tund with heads := s.tund.heads.filter (headStands s) } }
    let s := (allHeads s).foldl meetHead s
    let s := [3, 2, 1, 0].foldl (fun s k =>
      ((s.grids.filter fun g => g.mould.klass = k).map fun g => g.id).foldl (fun s g => placePending s g 64) s) s
    let s := { s with grids := s.grids.map fun g => { g with grow := false } }
    [3, 2, 1, 0].foldl (fun s k => (classHeads s k).foldl serveHead s) s)

end Sys2Proof.Machine
end

