-- ==== Sys2Proof/Machine/Tundish.lean ====
section
/-! DEFINITION. The tundish's rings and deposits (R303 to R311) and the energy meter (R324, R426). -/

namespace Sys2Proof.Machine

/-- The tundish looks at a ring.
DEDUCED, unsafe: log entry 52. -/
def lookAt (s : State) (q : BitVec 8) : State := { s with tund := { s.tund with looking := dedup (s.tund.looking ++ [q]) } }

/-- QUEUE_NOTIFY (R303, R306) -/
def execQueueNotify (q : BitVec 8) (s : State) : Host.Outcome State Fault Refusal :=
  .next (if (queueOf s q).en then lookAt s q else s)

/-- The records of a VF held on counters (R308). -/
def heldOf (s : State) (vf : FuncNo) : Nat := (s.tund.held.filter fun h => h.2.vf = vf).length

/-- The hold quota of a VF (R393). -/
def holdQuota (s : State) (vf : FuncNo) : Nat := bitsOf (funcOf s vf).holdq 15 0

/-- What TUNDISH_CONSUME does with the slot at RIDX: a slot that is not ready stops the look; padding, bad and held
records leave the ring; others wait for their round or deposit.
DEDUCED, unsafe: log entry 17. -/
def consumeSlot (s : State) (q : BitVec 8) : State :=
  let e := queueOf s q
  let b := slotBytes s e
  let h := recHeader b
  if !slotReady s e then { s with tund := { s.tund with looking := s.tund.looking.filter fun x => x ≠ q } }
  else if bitsOf h 7 0 = 0 then raiseRidx s e
  else if badRecord s e b then raiseRidx (addDrops s q 1) e
  else if mustHold s b then
    if heldOf s e.vf < holdQuota s e.vf then
      raiseRidx { s with tund := { s.tund with held := s.tund.held ++ [(bitsOf h 27 16, ⟨b, q, e.asid, e.vf, slotPoison s e⟩)] } } e
    else s
  else s

/-- TUNDISH_CONSUME (R306 to R309) -/
def execTundishConsume (q : BitVec 8) (s : State) : Host.Outcome State Fault Refusal :=
  .next (if served s q && s.tund.looking.contains q then consumeSlot s q else s)

/-! ### Work deposits (R311) -/

/-- The worker teams of a queue that can take a record, as (bound records, team), earliest placed first. -/
def workers (s : State) (q : BitVec 8) (asid : Asid) : List (Nat × Team) :=
  (s.teams.filter fun t =>
    let k := kcOf s t.kc
    k.place.isSome && decide (k.asid = asid) && dequeRoom s t.kc t.core && (match gridOf? s k.grid with
      | some g => g.mould.wqv && decide (g.mould.wq = q)
      | none => false)).map fun t => (boundCount s t.kc t.core, t)

/-- The worker with the fewest bound records; ties go to the earliest placed. -/
def chooseWorker (ws : List (Nat × Team)) : Option Team :=
  (ws.foldl (fun acc w => match acc with
    | none => some w
    | some b => if w.1 < b.1 then some w else some b) none).map fun w => w.2

/-- Deposits a work record for a worker of the context that the queue's entry names now; none when no worker can take
it. -/
def depositWork (s : State) (l : Launch) : Option State :=
  (chooseWorker (workers s l.queue (queueOf s l.queue).asid)).map fun t => depositRec s t.kc t.core (some l.queue) l.bytes l.poison

/-- The first released work record of a queue, with its number. -/
def releasedWork (s : State) (q : BitVec 8) : Option (Nat × Launch) :=
  s.tund.released.find? fun r => r.2.queue = q && decide (bitsOf (recHeader r.2.bytes) 7 0 = 2)

/-- WORK_DEPOSIT (R310, R311): a released record of the queue first, then the ring's head. -/
def execWorkDeposit (q : BitVec 8) (s : State) : Host.Outcome State Fault Refusal :=
  .next (match releasedWork s q with
    | some r =>
      (match depositWork s r.2 with
       | some s' => { s' with tund := { s'.tund with released := s'.tund.released.filter fun x => x.1 ≠ r.1 } }
       | none => s)
    | none =>
      if (queueOf s q).work then
        match ringHead s q with
        | some l => (match depositWork s l with
            | some s' => raiseRidx s' (queueOf s' q)
            | none => s)
        | none => s
      else s)

/-! ### The energy meter (R324, R426) -/

/-- The charge of one context and grid at an update. -/
def chargeOne (s : State) (c : Asid × Word × Nat) : State :=
  let s := updCtx s c.1 fun x => { x with energy := x.energy + BitVec.ofNat 64 c.2.2 }
  updGrid s c.2.1 fun g => if g.asid = c.1 then { g with charged := g.charged + c.2.2 } else g

/-- A grid whose EBUD has reached 0 is pre-empted with the status energy, or ended where a save slot is lacking
(R324, R336). -/
def exhaust (s : State) (gid : Word) : State :=
  match gridOf? s gid with
  | some g =>
    if g.ebudget ≠ 0 && decide (g.ebudget ≤ g.charged) && !g.suspended then
      let s := updGrid s gid fun g => { g with suspended := true }
      forceStop s 3 ((kcsOf s gid).filter isRunning)
    else s
  | none => s

/-- S mode may change a die's parameters; while it is being restarted the last ones stand (R422).
DESIGN CHOICE, safe: log entry 103. -/
def retune (s : State) (d : DieNo) : State :=
  let free := fun (i : Nat) => Config.freeNat s.fresh (400 + i)
  bump (updDie s d fun x =>
    if x.boot ≠ some true || !Config.freeBit s.fresh (2 ^ 23) then x
    else if x.restarting then { x with restarting := false }
    else { x with replThreshold := free 0, poolReserve := free 1, meterUs := 1 + free 2 % 100 })

/-- METER_UPDATE (R426): the die's energy is divided; charges and remainder sum to the die's total.
DEDUCED, safe: log entry 116. -/
def execMeterUpdate (o : MeterOps) (s : State) : Host.Outcome State Fault Refusal :=
  .next (
    let total := o.charges.foldl (fun n c => n + c.2.2) o.remainder
    let s := updDie (retune s o.die) o.die fun d => { d with energy := d.energy + BitVec.ofNat 64 total }
    let s := o.charges.foldl chargeOne s
    (dedup (o.charges.map fun c => c.2.1)).foldl exhaust s)

end Sys2Proof.Machine
end

