-- ==== Sys2Proof/Machine/Save.lean ====
section
/-! DEFINITION. Saving a pre-empted kernel cluster and placing it again (R188, R189, R336 to R339, R430). The
sections of the image whose layout R338 leaves open stay in State; the parts that R337 fixes are in memory. -/

namespace Sys2Proof.Machine

/-! ### The image (R337) -/

/-- A kernel cluster's groups in the directory's order. -/
def imageGroups (s : State) (k : Kc) : List Group :=
  (List.range (coresOf k)).flatMap fun c => sortBy (fun g => g.idx) (s.groups.filter fun g => g.kc = k.id && g.core = c)

/-- The number of v registers saved for a group (R188). -/
def savedRegs (g : Group) : Nat :=
  if g.ended then 0 else match g.stopped with
    | some n => min n g.budget
    | none => g.budget

/-- The groups with the offsets of their register blocks, from an offset on. -/
def blockOffsets : List Group → Nat → List (Group × Nat)
  | [], _ => []
  | g :: gs, off => (g, off) :: blockOffsets gs (off + savedRegs g * g.width * 4)

/-- Directory and block offsets of an image: GDIR is 64. -/
def imageLayout (s : State) (k : Kc) : List (Group × Nat) :=
  let gs := imageGroups s k
  blockOffsets gs (64 + 8 * gs.length)

/-- One past the fixed parts of an image. -/
def imageFixed (s : State) (k : Kc) : Nat :=
  (imageLayout s k).foldl (fun n e => max n (e.2 + savedRegs e.1 * e.1.width * 4)) (64 + 8 * (imageGroups s k).length)

/-- The directory entry of a group. -/
def dirEntry (e : Group × Nat) : Nat := e.1.idx * 2 ^ 48 + savedRegs e.1 * 2 ^ 40 + e.1.width * 2 ^ 32 + e.2

/-- A register block: register k of lane i at 4(k × WIDTH + i). -/
def blockBytes (g : Group) : List Byte :=
  (List.range (savedRegs g)).flatMap fun r => (List.range g.width).flatMap fun l => natToBytes 4 (vGet g.regs l r).toNat

/-- The cause of the first trapped member, the spine before the groups. -/
def trappedCause (s : State) (k : Kc) : Option Byte :=
  match k.spine.trap with
  | some t => some t.cause
  | none => (s.groups.findSome? fun g => if g.kc = k.id then g.trap else none).map fun t => t.cause

/-- PLACE of the header. -/
def placeWord (p : Option Place) : Nat :=
  match p with
  | some p => p.col * 2 ^ 12 + p.row * 2 ^ 8 + p.hw.toNat * 2 ^ 4 + 2 ^ p.die.toNat
  | none => 0

/-- The header (R337); the size beyond the fixed parts is the device's (R338). -/
def imageHeader (s : State) (k : Kc) (status : Byte) (time : DWord) : List Byte :=
  let q := natToBytes 8
  let fixed := imageFixed s k
  let cause := (pendingFrame s k.id).map fun w => w.frame.trap.cause
  let mould : Option Mould := (gridOf? s k.grid).map fun g => g.mould
  q ((cause.getD 0).toNat * 256 + status.toNat) ++ q (((pendingFrame s k.id).map fun w => w.seq).getD 0) ++ q ((mould.map fun m => m.addr).getD 0) ++
    q (k.cluster.toNat * 2 ^ 32 + k.grid.toNat) ++ q (placeWord k.place) ++ q ((mould.map fun (m : Mould) => m.caps).getD 0).toNat ++
    q (64 * 2 ^ 32 + (fixed + Config.freeNat s.fresh 1 % (2 ^ 26 + 1 - fixed))) ++ q time.toNat

/-! ### Saving (R189) -/

/-- Whether a group has stopped, or sleeps at a yield point where it stops (R185, R189, R190). -/
def groupStopped (g : Group) : Bool :=
  g.ended || g.trap.isSome || (!hasWaiting g && g.runAhead.isNone &&
    (g.stopped.isSome || (groupSleeps g && !inCrit g.crit)))

/-- Whether a spine can stop at its next instruction boundary (R189, R190). -/
def spineStops (sp : Spine) : Bool := sp.ended || sp.trap.isSome || sp.stopped || (sp.asked.isNone && !inCrit sp.crit)

/-- Whether every member has stopped and the ladle has drained (R189). -/
def saveReady (s : State) (k : Kc) : Bool :=
  stopping k && spineStops k.spine && (s.groups.all fun g => g.kc ≠ k.id || groupStopped g) &&
    !(s.transfers.any fun t => t.kc = k.id)

/-- The code a save was asked with. -/
def stopCode (k : Kc) : Byte := match k.status with | .stopping c => c | _ => 0

/-- A kernel cluster no longer waited for by a suspend command: CTXSTS reads done after the last (R336). -/
def unpend (s : State) (id : Nat) : State :=
  { s with host := { s.host with funcs := s.host.funcs.map fun f => (f.1, f.2.map fun x =>
      let p := x.pending.filter fun q => q ≠ id
      if p.isEmpty && !x.pending.isEmpty then { x with pending := p, status := 2 } else { x with pending := p }) } }

/-- The poisoned v registers among a saved group's entries, with their addresses (R410, R411). -/
def poisonedEntries (base : Nat) (e : Group × Nat) : List BlockMark :=
  (e.1.poison.filter fun q => decide (q < 4096) && decide (q % 64 < savedRegs e.1)).map fun q =>
    ⟨base + e.2 + 4 * (q % 64 * e.1.width + q / 64), e.1.kc, e.1.core, e.1.idx, q⟩

/-- Writes the fixed parts of an image.
DEDUCED, unsafe: log entry 41; DEDUCED, unsafe: log entry 47. -/
def writeImage (s : State) (k : Kc) (status : Byte) : State :=
  let base := imageBase s k
  let lay := imageLayout s k
  let s1 := { s with mem := putBytes s.mem base (imageHeader s k status (dieOf s (memberDie s (.spine k.id))).time) }
  let s2 := lay.zipIdx.foldl (fun s e => { s with mem := putNat s.mem (base + 64 + 8 * e.2) 8 (dirEntry e.1) }) s1
  let s3 := { s2 with blockMarks := (s2.blockMarks.filter fun b => b.kc ≠ k.id) ++ lay.flatMap (poisonedEntries base) }
  bump (lay.foldl (fun s e => { s with mem := putBytes s.mem (base + e.2) (blockBytes e.1) }) s3)

/-- The marks of `fence.rp` that a kernel cluster's threads hold end (R229, step 5). -/
def dropKcMarks (s : State) (k : Kc) : State :=
  updCtx s k.asid fun c => { c with marks := c.marks.filter fun m => memberKc m.2.1 ≠ k.id }

/-- SAVE_COMPLETE (R189): long-latency instructions complete, blocked entries abandon theirs, the image is written, the
resources are free. -/
def execSaveComplete (kc : Nat) (s : State) : Host.Outcome State Fault Refusal :=
  .next (
    if !saveReady s (kcOf s kc) then s
    else
      let s := { s with groups := s.groups.map fun g =>
        if g.kc = kc && !g.ended then
          let g := abandonWaits (landAll g)
          if g.trap.isNone && g.stopped.isNone then stopGroup 65 g else g
        else g }
      let s := updSpine s kc fun sp => if sp.ended || sp.trap.isSome then sp else { abandonWait sp with stopped := true }
      let k := kcOf s kc
      let status : Byte := if (trappedCause s k).isSome then 2 else stopCode k
      let s := writeImage (tick (dropKcMarks (leftDie s k) k)) k status
      let s := updKc s kc fun k => { k with status := .saved status, place := none }
      unpend s kc)

/-! ### Resuming (R339, R429) -/

/-- Whether a die of the partition has a core that meets REQ (R339). -/
def anyCoreMeets (s : State) (asid : Asid) (req : Word) : Bool :=
  (ctxDies s asid).any fun d => decide ((dieOf s d).st ≠ .failed) && (List.range 48).any fun c => coreMeets s req d c

/-- Whether every trapped member of a kernel cluster has been answered. -/
def allAnswered (s : State) (k : Kc) : Bool :=
  (k.spine.trap.isNone || k.spine.answer.isSome) && s.groups.all fun g => g.kc ≠ k.id || g.trap.isNone || g.answer.isSome

/-- Whether a saved kernel cluster's status lets it resume (R339): not before a forced change of mode (R388); after its
frames' answers, whatever command is in force (R335).
DEDUCED, unsafe: log entry 43. -/
def mayResume (s : State) (k : Kc) (g : Grid) : Bool :=
  !modeBlocks s k.asid && (match k.status with
    | .saved c => (c = 2 && allAnswered s k) || (!g.suspended && !(ctxOf s k.asid).suspended &&
        (c = 1 || c = 5 || c = 6 || (c = 3 && energyPermits s g)))
    | _ => false)

/-- A group takes up its image: registers as the block holds them, those above n zero (R188). An entry that the service
has written is no longer poisoned (R411). -/
def reloadGroup (s : State) (base : Nat) (g : Group) (off : Nat) : Group :=
  let n := savedRegs g
  let word := fun (l r : Nat) => BitVec.ofNat 32 (getNat s.mem (base + off + 4 * (r * g.width + l)) 4)
  let cells := (List.range n).flatMap fun r => (List.range g.width).map fun l => (l * 64 + r, word l r)
  let kept := g.regs.v.filter fun e => e.1 % 64 < n
  { g with
    regs := { g.regs with v := amSetAll 0 kept cells }
    poison := g.poison.filter fun q => decide (4096 ≤ q) ||
      s.blockMarks.any fun b => b.kc = g.kc && b.core = g.core && b.idx = g.idx && b.mark = q
    ycount := (match g.stopped with
      | some m => if m ≤ 64 then 0 else g.ycount
      | none => g.ycount)
    crit := none, stopped := none }

/-- An answer that a member kept while it was saved is applied at its resume (R334). -/
def applyKept (s : State) (m : Member × Option Answered × Option Trap) : State :=
  match m.2.1, m.2.2 with
  | some a, some t => actOn s m.1 a (frameOf s m.1 t)
  | _, _ => s

/-- The arrivals counted at the doorbells of a kernel cluster while it was saved are applied to its barriers (R208). -/
def applyCounted (s : State) (kc : Nat) : State :=
  let asid := (kcOf s kc).asid
  let c := ctxOf s asid
  let mine := fun (e : Nat × Nat) => match amGet none c.doors e.1 with | some x => decide (x.1 = kc) | none => false
  (c.counted.filter mine).foldl (fun s e => (List.range e.2).foldl (fun s _ => ringOnce s asid e.1) s)
    (updCtx s asid fun x => { x with counted := x.counted.filter fun e => !mine e })

/-- Records bound to a team. -/
def boundRecs (s : State) (kc : Nat) (core : Nat) : Nat := max 1 (boundCount s kc core)

/-- A kernel cluster runs again on a candidate (R339). -/
def resumeAt (s : State) (k : Kc) (g : Grid) (c : Cand) : State :=
  let m := g.mould
  let base := imageBase s k
  let lay := imageLayout s k
  let cores := candCores c m.rows m.cols
  let place : Place := ⟨c.die, c.hw, c.row, c.col, freeSpine s c⟩
  let back := fun (x : Group) =>
    let x := seated (seatsAt s m c.die (cores.getD x.core 0)) x
    if x.ended then x else
    match lay.find? fun e => e.1.core = x.core && e.1.idx = x.idx with
    | some e => reloadGroup s base x e.2
    | none => x
  let members := (Member.spine k.id, k.spine.answer, k.spine.trap) ::
    (s.groups.filter fun x => x.kc = k.id).map fun x => (Member.group x.kc x.core x.idx, x.answer, x.trap)
  let s := touch s (ctxOf s k.asid) c.die
  let s := updCtx s k.asid fun x => { x with slotsUsed := x.slotsUsed.filter fun n => some n ≠ k.slotNo }
  let s := { s with
    groups := s.groups.map fun x => if x.kc = k.id then { back x with answer := none } else x
    blockMarks := s.blockMarks.filter fun b => b.kc ≠ k.id
    teams := (s.teams.filter fun t => t.kc ≠ k.id) ++ s.teams.filter fun t => t.kc = k.id }
  let s := updKc s k.id fun x =>
    { x with
      place := some place, status := .running, slotNo := none
      spine := { x.spine with stopped := false, answer := none } }
  members.foldl applyKept (applyCounted (renewBudget s g) k.id)

/-- REQ of a saved kernel cluster, with its grid's region need (R339). -/
def resumeReq (s : State) (k : Kc) (g : Grid) : Word :=
  withRegion g.mould (BitVec.ofNat 32 (getNat s.mem (imageBase s k + 0x28) 4))

/-- Where a saved kernel cluster would resume now. -/
def resumeCand (s : State) (k : Kc) (g : Grid) : Option Cand :=
  (candsOn g.dies g.mould.rows g.mould.cols).find? (fitsAt s g.mould (resumeReq s k g) none fun i => boundRecs s k.id i)

/-- Whether a saved kernel cluster can resume now, or gets status 4. -/
def resumable (s : State) (k : Kc) (g : Grid) : Bool :=
  mayResume s k g && (!anyCoreMeets s k.asid (resumeReq s k g) || (resumeCand s k g).isSome)

/-- Whether a kernel cluster of the grid with a lower CLUSTER can resume: it goes first (R319, R431). -/
def resumesLater (s : State) (k : Kc) (g : Grid) : Bool :=
  (kcsOf s g.id).any fun x => decide (x.cluster < k.cluster) && resumable s x g

/-- RESUME (R339): with REQ from the image; STATUS 4 where no core of the partition meets it. -/
def execResume (kc : Nat) (s : State) : Host.Outcome State Fault Refusal :=
  .next (
    let k := kcOf s kc
    match gridOf? s k.grid with
    | none => s
    | some g =>
      if !mayResume s k g || resumesLater s k g then s
      else if !anyCoreMeets s k.asid (resumeReq s k g) then
        updKc { s with mem := putNat s.mem (imageBase s k) 1 4 } kc fun k => { k with status := .saved 4 }
      else
        match resumeCand s k g with
        | none => s
        | some c => resumeAt s k g c)

end Sys2Proof.Machine
end

