-- ==== Sys2Proof/Machine/Contexts.lean ====
section
/-! DEFINITION. Commands on contexts and grids (R326, R327, R336, R339, R394), and freeing frames (R350). -/

namespace Sys2Proof.Machine

/-! ### Frames (R350, R372) -/

/-- A replica is reclaimed: its frame is scrubbed and returns to the pool (R372). -/
def reclaimReplica (s : State) (copy : Nat) : State :=
  if s.replicas.any fun r => r.copy = copy then
    setFrame { s with replicas := s.replicas.filter fun r => r.copy ≠ copy } copy { FrameEntry.zero with st := 1 }
  else s

/-- A frame is freed: its replicas go first, then it is scrubbed (R350, R372). -/
def freeFrame (s : State) (f : Nat) : State :=
  let s := ((s.replicas.filter fun r => r.frame = f).map fun r => r.copy).foldl reclaimReplica s
  setFrame { s with resvs := s.resvs.filter fun r => r.frame ≠ f } f { FrameEntry.zero with st := 1 }

/-- The frames in use that satisfy p. -/
def framesWhere (s : State) (p : FrameEntry → Bool) : List Nat := (s.frameTab.filter fun e => e.2.st = 2 && p e.2).map fun e => e.1

/-! ### Ending contexts (R394, R397) -/

/-- A context is retired: its grids end without a trace, its records are discarded and its ASID is purged. Requests of
peers that are relayed go on. -/
def retireCtx (s : State) (asid : Asid) : State :=
  let s := ((s.grids.filter fun g => g.asid = asid).map fun g => g.id).foldl (fun s g => endGrid s g 2 0 true) s
  { s with
    tund := { s.tund with
      held := s.tund.held.filter fun h => h.2.asid ≠ asid
      released := s.tund.released.filter fun r => r.2.asid ≠ asid
      heads := s.tund.heads.filter fun h => h.launch.asid ≠ asid }
    ctxs := s.ctxs.filter fun c => c.asid ≠ asid
    frames := s.frames.filter fun f => f.asid ≠ asid
    written := s.written.filter fun w => w.asid ≠ asid
    requests := s.requests.filter fun r => r.asid ≠ asid || (r.who.isNone && r.dst ≠ 0)
    tlb := s.tlb.filter fun e => e.asid ≠ asid }

/-! ### Command status (R394) -/

/-- Whether CTXSTS is busy.
DEDUCED, unsafe: log entry 26. -/
def busy (s : State) (f : FuncNo) : Bool := !(funcOf s f).pending.isEmpty

/-- DEDUCED, unsafe: log entry 27. -/
def refuse (s : State) (f : FuncNo) (reason : Byte) : State := updFunc s f fun x => { x with status := 3, reason := reason, slot := 0 }
def finish (s : State) (f : FuncNo) : State := updFunc s f fun x => { x with status := 2, reason := 0, slot := 0 }

/-- A command waits for kernel clusters to be saved; with none it is done. -/
def await (s : State) (f : FuncNo) (ids : List Nat) : State :=
  if ids.isEmpty then finish s f else updFunc s f fun x => { x with status := 1, reason := 0, slot := 0, pending := ids }

/-- Whether a function's BARs answer (R393): not while a function-level reset of it is under way (R397). -/
def funcOn (s : State) (f : FuncNo) : Bool := (f = 0 || (funcOf s f).en) && !(funcOf s f).flr

/-- A command written to CTXCMD: dropped while the function's BARs do not answer, refused while CTXSTS is busy (R393, R394,
R397). -/
def command (s : State) (f : FuncNo) (run : State) : State :=
  if !funcOn s f then s else if busy s f then refuse s f 1 else run

/-- The context that CTXARG names for a function. -/
def argCtx (s : State) (f : FuncNo) : Option Ctx :=
  s.ctxs.find? fun c => c.vf = f && decide (c.desc = (funcOf s f).ctxarg.toNat)

/-! ### Create (R327, R394) -/

/-- Whether a descriptor at an address breaks R327 for a function.
DEDUCED, unsafe: log entry 18; DEDUCED, unsafe: log entry 75. -/
def descBad (s : State) (f : FuncNo) (desc : Nat) : Bool :=
  let w := fun (off : Nat) => BitVec.ofNat 64 (memNat s (desc + off) 8)
  let id := w 0
  let tctl := w 0x18
  let save := w 0x38
  let bw := w 0x50
  let root := w 8
  let ring := w 0x10
  desc % 64 ≠ 0 || !isLocal desc 128 || bitsOf id 63 24 ≠ 0 || bitsOf id 15 0 = 0 || bitsOf id 21 16 ≠ f.toNat ||
    bitsOf id 23 22 ≠ (funcOf s f).partn.toNat || bitsOf root 15 0 ≠ 0 || bitsOf root 63 52 ≠ 0 || bitsOf ring 11 0 ≠ 0 ||
    bitsOf ring 63 52 ≠ 0 || bitsOf tctl 7 5 ≠ 0 || bitsOf tctl 63 17 ≠ 0 || decide (16 < bitsOf tctl 4 0) ||
    bitsOf save 63 52 ≠ 0 || bitsOf save 25 12 ≠ 0 || bitsOf bw 31 24 ≠ 0 || bitsOf bw 63 48 ≠ 0 ||
    (memRead s (desc + 0x60) 32).any fun b => b ≠ 0

/-- The lowest free context slot of a function (R390). -/
def freeCtxSlot (s : State) (f : FuncNo) : Option Nat :=
  (List.range 64).find? fun i => !(s.ctxs.any fun c => c.vf = f && decide (c.slot.toNat = i))

/-- A context as created from its descriptor. -/
def newCtx (s : State) (f : FuncNo) (desc slot : Nat) : Ctx :=
  latchDesc s { ctxNone with
    asid := BitVec.ofNat 16 (memNat s desc 8), vf := f, desc := desc, slot := BitVec.ofNat 6 slot
    s1root := memNat s (desc + 8) 8 / 65536 % 2 ^ 36 * 65536 }

/-- A saved kernel cluster that an image copied from another device holds becomes one of a context, in save slot n, with
its exported doorbells (R337, R339, R421).
DESIGN CHOICE, safe: log entry 100. -/
def adoptImage (s : State) (asid : Asid) (n : Nat) (status : Byte) (im : SavedImage) : State :=
  let id := s.nextId
  let gid := im.kc.grid
  let fresh := (gridOf? s gid).isNone
  let teams := im.teams.map fun t => { t with kc := id }
  let doors := teams.flatMap fun t => t.bars.zipIdx.filterMap fun b => b.1.door.map fun i => (i, id, t.core, b.2)
  let s := { s with
    nextId := id + 1
    grids := if fresh then s.grids ++ [{ im.grid with id := gid, asid := asid, suspended := false, leaving := [], grow := false }] else s.grids
    kcs := s.kcs ++ [{ im.kc with id := id, asid := asid, place := none, status := .saved status, slotNo := some n }]
    groups := s.groups ++ im.groups.map fun g => { g with kc := id }
    teams := s.teams ++ teams
    deques := s.deques ++ im.deques.map fun r => { r with kc := id }
    watches := s.watches ++ im.watches.map fun w => { w with kc := id } }
  updCtx s asid fun c => { c with
    suspended := true
    slotsUsed := dedup (c.slotsUsed ++ [n])
    doors := doors.foldl (fun m d => amSet none m d.1 (some d.2)) c.doors }

/-- The images that lie in the save area of a context when it is created: those of a context that has been copied from
another device (R421). -/
def adoptImages (s : State) (c : Ctx) : State :=
  (List.range c.nslot).foldl (fun s n =>
    let base := c.saveBase + n * 2 ^ 26
    let status := getNat s.mem base 1
    match Config.imageOf (memRead s base (2 ^ 26)) with
    | some im =>
      if 1 ≤ status && status ≤ 6 && (match gridOf? s im.kc.grid with | some g => decide (g.asid = c.asid) | none => true)
      then adoptImage s c.asid n (BitVec.ofNat 8 status) im else s
    | none => s) s

/-- The queues that name an ASID are looked at from now on. -/
def lookAtAll (s : State) (asid : Asid) : State :=
  { s with tund := { s.tund with looking := dedup (s.tund.looking ++
      (s.tund.queues.filter fun e => e.2.en && e.2.asid = asid).map fun e => BitVec.ofNat 8 e.1) } }

/-- CREATE (R327, R394) -/
def execCreate (f : FuncNo) (s : State) : Host.Outcome State Fault Refusal :=
  .next (command s f (
    let desc := (funcOf s f).ctxarg.toNat
    if descBad s f desc then refuse s f 3
    else if (ctxOf? s (BitVec.ofNat 16 (memNat s desc 8))).isSome then refuse s f 4
    else match freeCtxSlot s f with
      | none => refuse s f 5
      | some slot =>
        let c := newCtx s f desc slot
        let m := putNat (putNat (putNat (putNat s.mem (desc + 0x28) 8 0) (desc + 0x20) 8 0) (desc + 0x58) 8 0) (desc + 0x44) 4 0
        let fw := s.host.forwards.filter fun x => x.live || decide (x.asid ≠ c.asid)
        let s := lookAtAll (adoptImages { s with mem := m, ctxs := s.ctxs ++ [c], host := { s.host with forwards := fw } } c) c.asid
        updFunc s f fun x => { x with status := 2, reason := 0, slot := BitVec.ofNat 6 slot }))

/-- RETIRE (R394) -/
def execRetire (f : FuncNo) (s : State) : Host.Outcome State Fault Refusal :=
  .next (command s f (match argCtx s f with
    | none => refuse s f 6
    | some c => finish (retireCtx s c.asid) f))

/-! ### Suspend and resume (R336, R339) -/

/-- Kernel clusters that a command has to wait for: running ones, which it stops, and those already stopping. -/
def liveKcs (ks : List Kc) : List Kc := ks.filter fun k => isRunning k || stopping k

/-- A suspend command over kernel clusters: all get a slot, or nothing happens and it is refused with reason 2. -/
def suspendKcs (s : State) (f : FuncNo) (ks : List Kc) (mark : State → State) : State :=
  let run := ks.filter isRunning
  if slotsFor s run then await (stopAll (mark s) 1 run).1 f ((liveKcs ks).map fun k => k.id) else refuse s f 2

/-- A resume command lets kernel clusters with status 4 be tried again. -/
def retryFour (s : State) (p : Kc → Bool) : State :=
  { s with kcs := s.kcs.map fun k => if p k && decide (k.status = .saved 4) then { k with status := .saved 1 } else k }

/-- SUSPEND_CONTEXT (R336) -/
def execSuspendContext (f : FuncNo) (s : State) : Host.Outcome State Fault Refusal :=
  .next (command s f (match argCtx s f with
    | none => refuse s f 6
    | some c => suspendKcs s f (s.kcs.filter fun k => k.asid = c.asid) fun s => updCtx s c.asid fun x => { x with suspended := true }))

/-- RESUME_CONTEXT (R339): its grids resume with it. -/
def execResumeContext (f : FuncNo) (s : State) : Host.Outcome State Fault Refusal :=
  .next (command s f (match argCtx s f with
    | none => refuse s f 6
    | some c =>
        let s := updCtx s c.asid fun x => { x with suspended := false }
        let s := { s with grids := s.grids.map fun g => if g.asid = c.asid then { g with suspended := false } else g }
        finish (retryFour s fun k => k.asid = c.asid) f))

/-- A grid of a context of a function (R394). -/
def ownGrid (s : State) (f : FuncNo) (gid : Word) : Option Grid := (gridOf? s gid).filter fun g => decide ((ctxOf s g.asid).vf = f)

/-- SUSPEND_GRID (R336) -/
def execSuspendGrid (f : FuncNo) (gid : Word) (s : State) : Host.Outcome State Fault Refusal :=
  .next (command s f (match ownGrid s f gid with
    | none => refuse s f 6
    | some g => suspendKcs s f (kcsOf s g.id) fun s => updGrid s g.id fun x => { x with suspended := true }))

/-- RESUME_GRID (R339) -/
def execResumeGrid (f : FuncNo) (gid : Word) (s : State) : Host.Outcome State Fault Refusal :=
  .next (command s f (match ownGrid s f gid with
    | none => refuse s f 6
    | some g =>
        finish (retryFour (updGrid s g.id fun x => { x with suspended := false }) fun k => k.grid = g.id) f))

end Sys2Proof.Machine
end

