-- ==== Sys2Proof/Machine/Control.lean ====
section
/-! DEFINITION. Branches, jumps, priorities and the SYS instructions (R176 to R191). -/

namespace Sys2Proof.Machine

/-! ### Branches (R176 to R179) -/

/-- The link word of `call` on lanes (R178). -/
def linkWord (ret : VAddr) (prio : BitVec 6) : Nat := ret.toNat + prio.toNat * 2 ^ 56

/-- Whether some lane of the entry has a poisoned guard, or an active one a poisoned source (R351, step 4). -/
def taintStops (g : Group) (c : Issue) (guard : PredNo) (regs : List Nat) : Bool :=
  match g.runAhead with
  | none => false
  | some ra => (lanesOf g.width c.mask).any fun l =>
      isTainted ra l (64 + guard.toNat) || (lanePred g.regs l guard && regs.any fun r => isTainted ra l r)

/-- The target of a branch (R176). -/
def brTarget (c : Issue) (imm : BitVec 16) : VAddr := c.pc + 2 * imm.signExtend 48

/-- `br` and `call` (R177, R179). -/
def runBranch (s : State) (c : Issue) (link : Bool) (o : OpsBr) : State :=
  let target := brTarget c o.imm
  match c.who with
  | .spine kc =>
    if spinePred (kcOf s kc).spine o.g then
      retireSpineTo s c target fun sp => if link then xSet sp 1 ((nextPc c).setWidth 64) else sp
    else retireNop s c
  | .group .. =>
    let g := memberGroup s c.who
    checked s c [(link && decide (g.budget < 64), cIllegal)]
      (if taintStops g c o.g [] then endIssue (endRunAhead s c.who) c
       else afterFlights s c (writesTo (if link then [62, 63] else [])) fun s =>
         let g := memberGroup s c.who
         let act := activeLanes g c o.g
         let t := maskOf act
         let v := linkWord (nextPc c) c.prio
         let ws := if link then act.flatMap fun l => regWrites 62 true l v else []
         retireTo s c [⟨target, o.prio, t, none⟩, ⟨nextPc c, c.prio, c.mask &&& ~~~t, none⟩] fun g =>
           let g := if link then spreadTaint g c o.g [] [62, 63] fun l => [l] else g
           { g with
             regs := putWrites g.regs ws
             poison := g.poison.filter fun q => !(ws.any fun w => w.lane * 64 + w.reg = q) })

/-- BR (R177, R179) -/
def execBr (o : OpsBr) (s : State) : Host.Outcome State Fault Refusal := issueBy s fun c => runBranch s c false o

/-- CALL (R177 to R179) -/
def execCall (o : OpsBr) (s : State) : Host.Outcome State Fault Refusal := issueBy s fun c => runBranch s c true o

/-! ### Indirect jumps and priorities (R180, R181) -/

/-- `jmpi`: the priority is the field, or bits [61:56] of the pair when none is given (R180). A poisoned pair in one
active lane comes before an odd target in another.
DEDUCED, unsafe: log entry 92. -/
def runJump (s : State) (c : Issue) (guard : PredNo) (reg : RegField) (prio : Option (BitVec 6)) : State :=
  let r := reg.toNat
  match c.who with
  | .spine kc =>
    let sp := (kcOf s kc).spine
    let target : VAddr := (xGet sp r).setWidth 48
    checked s c [(decide (32 ≤ r), cIllegal)]
      (if !spinePred sp guard then retireNop s c
       else if sp.poison.contains r then trapAll s c cDataPoison
       else if target.getLsbD 0 then trapAll s c cMisaligned target.toNat
       else retireSpineTo s c target id)
  | .group .. =>
    let g := memberGroup s c.who
    let act := activeLanes g c guard
    let bad := poisonedLanes g act [r, r + 1]
    let word := fun (l : Nat) => joinWords (readV s g 1 l r) (readV s g 2 l (r + 1))
    let target := fun (l : Nat) => ((word l).setWidth 48 : VAddr)
    let pr := fun (l : Nat) => prio.getD (BitVec.ofNat 6 (bitsOf (word l) 61 56))
    let odd := act.filter fun l => (target l).getLsbD 0
    checked s c [(!vOk g.budget true r, cIllegal)]
      (if taintStops g c guard [r, r + 1] then endIssue (endRunAhead s c.who) c
       else if !bad.isEmpty then trapLanes s c cDataPoison bad
       else if !odd.isEmpty then trapLanes s c cMisaligned odd (target (odd.headD 0)).toNat
       else
         let dests := dedup (act.map fun l => (target l, pr l))
         let entries := dests.map fun d =>
           (⟨d.1, d.2, maskOf (act.filter fun l => decide (target l = d.1) && decide (pr l = d.2)), none⟩ : Entry)
         retireTo s c (entries ++ [⟨nextPc c, c.prio, c.mask &&& ~~~maskOf act, none⟩]) id)

/-- JMPI (R180) -/
def execJmpi (o : OpsJmpi) (s : State) : Host.Outcome State Fault Refusal :=
  issueBy s fun c => runJump s c o.g o.reg (some o.prio)

/-- JMPI_L (R180) -/
def execJmpiL (o : OpsReg) (s : State) : Host.Outcome State Fault Refusal :=
  issueBy s fun c => runJump s c o.g o.reg none

/-- PRIO (R181) -/
def execPrio (o : OpsPrio) (s : State) : Host.Outcome State Fault Refusal :=
  issueBy s fun c =>
    if isSpine c.who then retireNop s c
    else checked s c [] <|
      let g := memberGroup s c.who
      if taintStops g c o.g [] then endIssue (endRunAhead s c.who) c
      else
        let t := maskOf (activeLanes g c o.g)
        retireTo s c [⟨nextPc c, o.prio, t, none⟩, ⟨nextPc c, c.prio, c.mask &&& ~~~t, none⟩] id

/-! ### nop, yield, exit, trap, brk (R182 to R188) -/

/-- NOP (R182) -/
def execNop (_ : OpsG) (s : State) : Host.Outcome State Fault Refusal := issueBy s fun c => checked s c [] (retireNop s c)

/-- The live count of the encoding: 63 stands for 64 (R83). -/
def liveOf (f : BitVec 6) : Nat := if f = 63 then 64 else f.toNat

/-- YIELD (R185 to R188): YCOUNT is 0 after it, the deadline may change, and a latched pre-emption stops the
group there unless it holds a lock (R190); windows end (R89). -/
def execYield (o : OpsYield) (s : State) : Host.Outcome State Fault Refusal :=
  issueBy s fun c =>
    if isSpine c.who then retireNop s c
    else if (memberGroup s c.who).runAhead.isSome then endIssue (endRunAhead s c.who) c
    else checked s c [] <|
      let stop := stopping (kcOf s (memberKc c.who))
      let s := retireLanes s c id
      updMember s c.who fun g =>
        let g := { g with
          ycount := 0
          deadline := if o.deadline = 0 then g.deadline else 16 * o.deadline.toNat
          flights := g.flights.map fun f => { f with left := 0 } }
        if stop && !inCrit g.crit then { g with stopped := some (liveOf o.live) } else g

/-- EXIT (R183): the group ends with its last lane, once its long-latency instructions have completed. -/
def execExit (o : OpsG) (s : State) : Host.Outcome State Fault Refusal :=
  issueBy s fun c =>
    match c.who with
    | .spine kc =>
      if spinePred (kcOf s kc).spine o.g then
        settleKc (retireSpine (dropMarks s c.who 1) c fun sp => { sp with ended := true }) kc
      else retireNop s c
    | .group kc core _ => checked s c [] <|
      let g := memberGroup s c.who
      let left := c.mask &&& ~~~maskOf (activeLanes g c o.g)
      let last := left = 0 && g.regs.frontier.all fun e => e.mask = c.mask
      if g.runAhead.isSome then endIssue (endRunAhead s c.who) c
      else if last && hasWaiting g then holdBack s c
      else
        let s := retireTo (dropMarks s c.who (c.mask &&& ~~~left)) c [⟨nextPc c, c.prio, left, none⟩] id
        if last then settleKc (settleStart (updMember s c.who fun g => { landAll g with ended := true }) kc core) kc else s

/-- A software trap (R184): once for the group, with the guarded-on lanes; nothing when there is none. -/
def runSoftTrap (s : State) (c : Issue) (o : OpsCode) (cause : Byte) : State :=
  match c.who with
  | .spine kc => if spinePred (kcOf s kc).spine o.g then takeTrap s c { cause := cause, code := o.code } else retireNop s c
  | .group .. => checked s c [] <|
    let g := memberGroup s c.who
    let act := activeLanes g c o.g
    if g.runAhead.isSome then endIssue (endRunAhead s c.who) c
    else if act.isEmpty then retireNop s c
    else takeTrap s c { cause := cause, code := o.code, lanes := maskOf act }

/-- TRAP (R184) -/
def execTrap (o : OpsCode) (s : State) : Host.Outcome State Fault Refusal :=
  issueBy s fun c => runSoftTrap s c o cUserTrap

/-- BRK (R184): a `nop` where debugging is not enabled. -/
def execBrk (o : OpsCode) (s : State) : Host.Outcome State Fault Refusal :=
  issueBy s fun c =>
    if (ctxOf s (memberAsid s c.who)).dbg then runSoftTrap s c o cDebugBreak
    else checked s c [] <| if (memberGroup s c.who).runAhead.isSome then endIssue (endRunAhead s c.who) c
    else retireNop s c

/-! ### Lock-holder hints (R190) -/

/-- Sets or clears the lock-holder state after the instruction has retired: its own issue is not counted.
In run-ahead it has no effect.
DEDUCED, unsafe: log entry 32. -/
def runCrit (s : State) (c : Issue) (f : Option Nat → Option Nat) : State :=
  match c.who with
  | .spine kc =>
    let was := (kcOf s kc).spine.crit
    updSpine (retireNop s c) kc fun sp => { sp with crit := f was }
  | .group .. => checked s c [] <|
    let g := memberGroup s c.who
    if g.runAhead.isSome then retireNop s c
    else updMember (retireNop s c) c.who fun x => { x with crit := f g.crit }

/-- CRIT_ON (R190): without effect while the state is set. -/
def execCritOn (s : State) : Host.Outcome State Fault Refusal :=
  issueBy s fun c => runCrit s c fun was => if inCrit was then was.map (· + 1) else some 0

/-- CRIT_OFF (R190) -/
def execCritOff (s : State) : Host.Outcome State Fault Refusal := issueBy s fun c => runCrit s c fun _ => none

/-! ### Grid steps (R191) -/

/-- GSTEP (R191): the first issue counts; the spine waits until its boundary has completed. -/
def execGstep (s : State) : Host.Outcome State Fault Refusal :=
  issueBy s fun c =>
    let kc := memberKc c.who
    checked s c [(!isSpine c.who, cWrongUnit)]
      (let gid := (kcOf s kc).grid
       let s := if c.counted then s else settleBoundary (updSpine s kc fun sp => { sp with gsteps := sp.gsteps + 1 }) gid
       let k := (kcOf s kc).spine.gsteps
       match gridOf? s gid with
       | none => retireNop s c
       | some g => if k ≤ g.boundary then retireNop s c else blockOn s c (.boundary k))

end Sys2Proof.Machine
end

