-- ==== Sys2Proof/Machine/Cross.lean ====
section
/-! DEFINITION. Lane crossing and group reductions (R138 to R145) -/

namespace Sys2Proof.Machine

/-- The source lane of a lane crossing and its fill (R138): none when out of range. -/
def crossLane (fn width i n : Nat) : Option Nat :=
  match fn with
  | 0 => some (n % width)
  | 1 => some ((i ^^^ n) % width)
  | 2 => if n ≤ i then some (i - n) else none
  | 3 => if n ≤ i then some (i - n) else none
  | 4 => if i + n < width then some (i + n) else none
  | 5 => if i + n < width then some (i + n) else none
  | _ => some ((i + n) % width)

/-- Every active lane reads before any writes (R138, R139). -/
def crossAll (fn width : Nat) (vals : List (Nat × List Nat)) : List (Nat × Nat × Flags6) :=
  vals.map fun v =>
    let own := (v.2[0]?).getD 0
    let n := (v.2[1]?).getD 0 % 64
    let src := (crossLane fn width v.1 n).bind fun j => vals.find? fun w => w.1 = j
    (v.1, match src with
      | some w => (w.2[0]?).getD 0
      | none => if fn = 2 || fn = 4 then 0 else own, 0)

/-- A lane-crossing instruction. Every lane counts as depending on every other for run-ahead. -/
def opX (o : OpsL) (fn : Nat) : RegOp where
  g := o.g
  srcs := [.reg o.a o.x, .sel o.b o.x]
  dst := .reg o.d o.x false
  lanesOnly := true
  one := fun v => (v.headD 0, 0)
  cross := some (crossAll fn)
  dep := fun _ => List.range 64

/-- How the result of a reduction is extended to 64 bits for a sprue register (R22, R143). -/
inductive RedKind where
  | s32 | other | pair

/-- A reduction: combines the active lanes' values of a group of width 2^k (R141). -/
def reduce (comb : Nat × Flags6 → Nat × Flags6 → Nat × Flags6) (ident width : Nat) (vals : List (Nat × Nat)) :
    Nat × Flags6 :=
  let leaves := (List.range width).map fun i => (vals.find? fun v => v.1 = i).map fun v => (v.2, (0 : Flags6))
  (treeReduce comb (Nat.log2 width) 1 leaves).getD (ident, 0)

/-- A node of a floating tree keeps the flags of the nodes below it (R62). -/
def floatNode (f : Nat → Nat → Nat × Flags6) (x y : Nat × Flags6) : Nat × Flags6 :=
  let r := f x.1 y.1
  (r.1, x.2 ||| y.2 ||| r.2)

def intNode (f : Nat → Nat → Nat) (x y : Nat × Flags6) : Nat × Flags6 := (f x.1 y.1, 0)

/-- A reduction or vote (R141 to R145): one result for the group, to g, or one contribution to s. -/
def runGred (s : State) (c : Issue) (o : OpsA1) (kind : RedKind) (f : Nat → List (Nat × Nat) → Nat × Flags6) : State :=
  let g := memberGroup s c.who
  let d := o.d.toNat
  let pairBad := match kind with
    | .pair => decide (d < 32) && decide (d % 2 = 1)
    | _ => false
  checked s c
    [(isSpine c.who, cWrongUnit),
     (!vOk g.budget false o.a.toNat || pairBad, cIllegal),
     (decide (32 ≤ d) && !spruesOk s c [d - 32], cProtection)]
    (let act := activeLanes g c o.g
     let bad := poisonedLanes g act [o.a.toNat]
     if decide (32 ≤ d) && g.runAhead.isSome then endIssue (endRunAhead s c.who) c
     else if !bad.isEmpty then trapLanes s c cDataPoison act 0 (if d < 32 then (match kind with
       | .pair => [128 + d, 129 + d]
       | _ => [128 + d]) else [])
     else
       let r := f g.width (act.map fun l => (l, (readV s g 0 l o.a.toNat).toNat))
       let fl := fun g : Group => { g with regs := putFlags g.regs (act.map fun l => (l, r.2)) }
       if d < 32 then
         afterFlights s c (fun q => !q.gwrites.isEmpty) fun s =>
           retireLanes s c fun g =>
             let g := fl g
             let codes := match kind with
               | .pair => [128 + d, 129 + d]
               | _ => [128 + d]
             let g := spreadTaint g c o.g [o.a.toNat] codes fun _ => List.range 64
             match kind with
             | .pair =>
               { g with
                 regs := gSet (gSet g.regs d (BitVec.ofNat 32 r.1)) (d + 1) (BitVec.ofNat 32 (r.1 / 2 ^ 32))
                 poison := unmark g.poison [gMark d, gMark (d + 1)] }
             | _ =>
               { g with
                 regs := gSet g.regs d (BitVec.ofNat 32 r.1)
                 poison := unmark g.poison [gMark d] }
       else
         outside s c fun s =>
           let kc := memberKc c.who
           let v : DWord := match kind with
             | .s32 => (BitVec.ofNat 32 r.1).signExtend 64
             | _ => BitVec.ofNat 64 r.1
           match saccReg (sprueGet (kcOf s kc) (d - 32)) (some v) with
           | .block => blockOn s c (.sprueFilling (BitVec.ofNat 5 (d - 32)))
           | .protocol => trapAll s c cSprueProtocol
           | .ok reg => retireLanes (setSprue s kc (d - 32) reg) c fl)

/-- SHFL_IDX (R138 to R140) -/
def execShflIdx (o : OpsL) (s : State) : Host.Outcome State Fault Refusal :=
  issueBy s fun c => runReg s c (opX o 0)

/-- SHFL_XOR (R138 to R140) -/
def execShflXor (o : OpsL) (s : State) : Host.Outcome State Fault Refusal :=
  issueBy s fun c => runReg s c (opX o 1)

/-- SLD_UP_Z (R138 to R140) -/
def execSldUpZ (o : OpsL) (s : State) : Host.Outcome State Fault Refusal :=
  issueBy s fun c => runReg s c (opX o 2)

/-- SLD_UP_K (R138 to R140) -/
def execSldUpK (o : OpsL) (s : State) : Host.Outcome State Fault Refusal :=
  issueBy s fun c => runReg s c (opX o 3)

/-- SLD_DN_Z (R138 to R140) -/
def execSldDnZ (o : OpsL) (s : State) : Host.Outcome State Fault Refusal :=
  issueBy s fun c => runReg s c (opX o 4)

/-- SLD_DN_K (R138 to R140) -/
def execSldDnK (o : OpsL) (s : State) : Host.Outcome State Fault Refusal :=
  issueBy s fun c => runReg s c (opX o 5)

/-- LROT (R138 to R140) -/
def execLrot (o : OpsL) (s : State) : Host.Outcome State Fault Refusal :=
  issueBy s fun c => runReg s c (opX o 6)

/-- RADD_S32 (R141) -/
def execRaddS32 (o : OpsA1) (s : State) : Host.Outcome State Fault Refusal :=
  issueBy s fun c => runGred s c o .s32 (reduce (intNode (addWrap 32)) 0)

/-- RADD_F32 (R62, R141) -/
def execRaddF32 (o : OpsA1) (s : State) : Host.Outcome State Fault Refusal :=
  issueBy s fun c => runGred s c o .other (reduce (floatNode (fAdd fmtF32)) 0)

/-- RMIN_S32 (R141) -/
def execRminS32 (o : OpsA1) (s : State) : Host.Outcome State Fault Refusal :=
  issueBy s fun c => runGred s c o .s32 (reduce (intNode (sMinMax 32 false)) 0x7FFFFFFF)

/-- RMAX_S32 (R141) -/
def execRmaxS32 (o : OpsA1) (s : State) : Host.Outcome State Fault Refusal :=
  issueBy s fun c => runGred s c o .s32 (reduce (intNode (sMinMax 32 true)) 0x80000000)

/-- RMIN_F32 (R45, R141) -/
def execRminF32 (o : OpsA1) (s : State) : Host.Outcome State Fault Refusal :=
  issueBy s fun c => runGred s c o .other (reduce (floatNode (fMinMax fmtF32 false)) (fmtInfCode fmtF32))

/-- RMAX_F32 (R45, R141) -/
def execRmaxF32 (o : OpsA1) (s : State) : Host.Outcome State Fault Refusal :=
  issueBy s fun c => runGred s c o .other
    (reduce (floatNode (fMinMax fmtF32 true)) (fmtSign fmtF32 true + fmtInfCode fmtF32))

/-- BALLOT (R141, R142) -/
def execBallot (o : OpsA1) (s : State) : Host.Outcome State Fault Refusal :=
  issueBy s fun c => runGred s c o .pair fun _ vals =>
    ((vals.filter fun v => v.2 ≠ 0).foldl (fun acc v => acc + 2 ^ v.1) 0, 0)

/-- VCOUNT (R141) -/
def execVcount (o : OpsA1) (s : State) : Host.Outcome State Fault Refusal :=
  issueBy s fun c => runGred s c o .other fun _ vals => ((vals.filter fun v => v.2 ≠ 0).length, 0)

end Sys2Proof.Machine
end

