-- ==== Sys2Proof/Machine/Ctl.lean ====
section
/-! DEFINITION. Control registers (R32 to R36) and the CTL instructions (R133 to R136). -/

namespace Sys2Proof.Machine

/-- The units an index is valid on (lanes, spine) and whether it can be written; none if unlisted (R32). -/
def ctlIndex (i : Nat) : Option (Bool × Bool × Bool) :=
  match i with
  | 0x00 | 0x01 | 0x02 | 0x07 | 0x08 | 0x11 | 0x14 | 0x1A | 0x1B | 0x31 => some (true, false, false)
  | 0x03 | 0x04 | 0x05 | 0x06 | 0x10 | 0x12 | 0x13 | 0x20 | 0x21 | 0x30 | 0x32 => some (true, true, false)
  | 0x18 => some (true, true, true)
  | 0x19 => some (true, false, true)
  | _ => none

/-- EBUD (R32, R324). -/
def ebudOf (s : State) (gid : Word) : Word :=
  match gridOf? s gid with
  | none => 0xFFFFFFFF
  | some g => if g.ebudget = 0 then 0xFFFFFFFF else BitVec.ofNat 32 (min (g.ebudget - g.charged) 0xFFFFFFFF)

/-- A 64-bit counter behind a low index: TIME, LCLK or the context's energy.
DEDUCED, unsafe: log entry 33. -/
def counterAt (s : State) (m : Member) (i : Nat) : DWord :=
  let d := dieOf s (memberDie s m)
  if i = 0x10 then d.time else if i = 0x13 then d.lclk else (ctxOf s (memberAsid s m)).energy

/-- Whether an index is the low half of a 64-bit counter. -/
def isCounter (i : Nat) : Bool := i = 0x10 || i = 0x13 || i = 0x30

/-- The group's snapshot of a counter (R32). -/
def takeSnap (r : GroupRegs) (i : Nat) (v : DWord) : GroupRegs :=
  if i = 0x10 then { r with snapTime := v } else if i = 0x13 then { r with snapLclk := v } else { r with snapEctx := v }

/-- The value of an index on a lane (R32). -/
def laneCtl (s : State) (c : Issue) (i lane : Nat) : Word :=
  let m := c.who
  let g := memberGroup s m
  let k := kcOf s (memberKc m)
  match i with
  | 0x00 => BitVec.ofNat 32 lane
  | 0x01 => BitVec.ofNat 32 g.idx
  | 0x02 => BitVec.ofNat 32 (teamNo k g.core)
  | 0x03 => k.cluster
  | 0x04 => k.gx
  | 0x05 => k.gy
  | 0x06 => k.gz
  | 0x07 => BitVec.ofNat 32 g.core
  | 0x08 => BitVec.ofNat 32 g.width
  | 0x11 => hiWord g.regs.snapTime
  | 0x12 => readTerr s (memberDie s m)
  | 0x14 => hiWord g.regs.snapLclk
  | 0x18 => (amGet 0 g.regs.lstat lane).setWidth 32
  | 0x19 => g.regs.ct
  | 0x1A => c.prio.setWidth 32
  | 0x1B => if c.counted || g.runAhead.isSome || g.ycount = 0xFFFFFFFF then g.ycount else g.ycount + 1
  | 0x20 => (memberCaps s m).setWidth 32
  | 0x21 => (memberFeat s m).setWidth 32
  | 0x31 => hiWord g.regs.snapEctx
  | 0x32 => ebudOf s k.grid
  | i => loWord (counterAt s m i)

/-- The value of an index on the spine (R32): counters are read whole. -/
def spineCtl (s : State) (kc i : Nat) : DWord :=
  let k := kcOf s kc
  let m := Member.spine kc
  match i with
  | 0x03 => k.cluster.setWidth 64
  | 0x04 => k.gx.setWidth 64
  | 0x05 => k.gy.setWidth 64
  | 0x06 => k.gz.setWidth 64
  | 0x12 => (readTerr s (memberDie s m)).setWidth 64
  | 0x18 => k.spine.lstat.setWidth 64
  | 0x20 => (memberCaps s m).setWidth 64
  | 0x21 => (memberFeat s m).setWidth 64
  | 0x32 => (ebudOf s k.grid).setWidth 64
  | i => counterAt s m i

/-- The decoding checks of `rdc` and `wrc` (R32, R87, R95, R134). -/
def ctlChecked (s : State) (c : Issue) (o : OpsCt) (write : Bool) (k : State) : State :=
  let sp := isSpine c.who
  let e := ctlIndex o.idx.toNat
  checked s c
    [(e.isNone, cIllegal),
     (!(match e with | some (l, p, _) => if sp then p else l | none => true), cWrongUnit),
     (if sp then decide (32 ≤ o.reg.toNat) else !vOk (memberGroup s c.who).budget false o.reg.toNat, cIllegal),
     (write && !(match e with | some (_, _, w) => w | none => true), cProtection)] k

/-- RDC (R133, R136). With its guard false in every lane it takes no snapshot of a counter, and a read of LSTAT waits all
the same (R73).
DEDUCED, unsafe: log entry 88. -/
def execRdc (o : OpsCt) (s : State) : Host.Outcome State Fault Refusal :=
  issueBy s fun c => ctlChecked s c o false
    (let i := o.idx.toNat
     let d := o.reg.toNat
     match c.who with
     | .spine kc =>
       if !spinePred (kcOf s kc).spine o.g then retireNop s c
       else
         let s := tick s
         retireSpine s c fun sp => xSet sp d (spineCtl s kc i)
     | .group .. =>
       let g := memberGroup s c.who
       let act := activeLanes g c o.g
       if act.isEmpty && i ≠ 0x18 then retireNop s c
       else afterFlights s c (fun f => i = 0x18 || writesTo [d] f) fun s =>
         let s := tick s
         let s := if isCounter i then updMember s c.who fun g => { g with regs := takeSnap g.regs i (counterAt s c.who i) } else s
         let ws := act.map fun l => (⟨l, d, laneCtl s c i l⟩ : RegWrite)
         retireWrites (updMember s c.who fun g => spreadTaint g c o.g [] [d] fun l => [l]) c 0 [d] ws [])

/-- CT holds bits [18:10] only (R34). -/
def ctMask : Word := 0x0007FC00

/-- WRC (R134, R136, R163): it waits until every earlier instruction of the group has completed, for LSTAT as R136 has
it and for CT too.
DEDUCED, unsafe: log entry 87. -/
def execWrc (o : OpsCt) (s : State) : Host.Outcome State Fault Refusal :=
  issueBy s fun c => ctlChecked s c o true
    (let r := o.reg.toNat
     match c.who with
     | .spine kc =>
       let sp := (kcOf s kc).spine
       if !spinePred sp o.g then retireNop s c
       else if sp.poison.contains r then trapAll s c cDataPoison
       else retireSpine s c fun sp => { sp with lstat := (xGet sp r).setWidth 6 }
     | .group .. =>
       let src := seen s (memberGroup s c.who) 0
       settled s c fun s =>
         let g := memberGroup s c.who
         let act := activeLanes g c o.g
         let used := if o.idx = 0x18 then act else act.take 1
         let bad := poisonedLanes g used [r]
         if !bad.isEmpty then trapLanes s c cDataPoison bad
         else retireLanes s c fun g =>
           if o.idx = 0x18 then
             { g with regs := { g.regs with lstat := used.foldl (fun m l => amSet 0 m l ((vGet src.regs l r).setWidth 6)) g.regs.lstat } }
           else
             match used with
             | l :: _ => { g with regs := { g.regs with ct := vGet src.regs l r &&& ctMask } }
             | [] => g)

/-- V2G (R135) -/
def execV2g (o : OpsV2g) (s : State) : Host.Outcome State Fault Refusal :=
  issueBy s fun c =>
    let g := memberGroup s c.who
    let r := o.reg.toNat
    checked s c [(isSpine c.who, cWrongUnit), (!vOk g.budget false r, cIllegal)]
      (let used := (activeLanes g c o.g).take 1
       let bad := poisonedLanes g used [r]
       if !bad.isEmpty then trapLanes s c cDataPoison bad
       else
         match used with
         | [] => retireLanes s c id
         | l :: _ =>
           let v := readV s g 0 l r
           retireLanes s c fun g =>
             let g := spreadTaint g c o.g [r] [128 + o.k.toNat] fun l => [l]
             { g with regs := gSet g.regs o.k.toNat v, poison := unmark g.poison [gMark o.k.toNat] })

end Sys2Proof.Machine
end

