-- ==== Sys2Proof/Machine/Page.lean ====
section
/-! DEFINITION. Append pages at their home and the PAGE instructions (R354 to R369). -/

namespace Sys2Proof.Machine

/-! ### The home (R356) -/

/-- Writes the append fields of a frame's entry. -/
def apWrite (s : State) (f : Nat) (rtail ctail nres : Nat) (sealw : Bool) (apst : BitVec 2) : State :=
  let e := frameEntry s f
  setFrame s f { e with apstate := apPack rtail ctail nres (apWlog e) (apScopeOf e) sealw (apRepl e), apst := apst }

/-- The tail word (R361). -/
def tailWord (e : FrameEntry) (tail : Nat) : Nat := (if e.apst = 2 then 3 else if apSealw e then 2 else 1) * 2 ^ 30 + tail

/-- The window of a page, in bytes. -/
def apWindow (e : FrameEntry) : Nat := 2 ^ (apWlog e + 10)

/-- The reservations of a page in offset order. -/
def resvsOf (s : State) (f : Nat) : List Resv := sortBy (fun r => r.off) (s.resvs.filter fun r => r.frame = f)

/-- The leading done reservations (R356). -/
def leadingDone : List Resv → List Resv
  | [] => []
  | r :: rs => if r.done then r :: leadingDone rs else []

/-- A watch fires at CTAIL ≥ threshold or when the page is sealed: one engine arrival, and it is freed (R367). -/
def fireWatches (s : State) (f : Nat) : State :=
  let e := frameEntry s f
  let hit := s.watches.filter fun w => w.frame = f && (decide (w.threshold ≤ apCtail e) || e.apst = 2)
  hit.foldl (fun s w => barChange s w.kc w.core w.slot engineArrive)
    { s with watches := s.watches.filter fun w => !hit.contains w }

/-- CTAIL advances across every leading done reservation, which leaves the list; a waiting seal closes the page
when none is left (R356, R365). -/
def advanceTail (s : State) (f : Nat) : State :=
  let e := frameEntry s f
  let done := leadingDone (resvsOf s f)
  let ctail := done.foldl (fun acc r => acc + r.len) (apCtail e)
  let nres := apNres e - done.length
  let s := { s with resvs := s.resvs.filter fun r => !done.contains r }
  let closes := apSealw e && nres = 0
  fireWatches (apWrite s f (apRtail e) ctail nres (apSealw e && !closes) (if closes then 2 else e.apst)) f

/-- The status of a request for n bytes (R362): none when it is granted. -/
def reserveStatus (s : State) (f n : Nat) : Option Nat :=
  let e := frameEntry s f
  let stack := f / 2 ^ 20
  if e.apst ≠ 1 || apSealw e then some 0x80000003
  else if n = 0 || decide (apWindow e < n) then some 0x80000005
  else if 65536 < apRtail e + n then some 0x80000002
  else if apNres e = 16 || decide (8192 ≤ (s.resvs.filter fun r => r.frame / 2 ^ 20 = stack).length) then some 0x80000004
  else if apWindow e < apRtail e + n - apCtail e then some 0x80000001
  else none

/-- What a PAGE request asks at the home. -/
inductive PageReq where
  | reserve (n : Nat)
  | commit
  | append (bytes : List Byte)
  | close (waiting : Bool)
  | tail (reserved : Bool)
  deriving DecidableEq, Repr

/-- One request at its home (R362 to R366): the new state and the value for d, or the late cause. -/
def pageAt (s : State) (ctx : Ctx) (f off : Nat) : PageReq → State × Except Byte Nat
  | .reserve n0 =>
    let n := roundUp n0 4
    let e := frameEntry s f
    match reserveStatus s f n with
    | some st => (s, .ok st)
    | none =>
      (apWrite { s with resvs := s.resvs ++ [⟨f, apRtail e, n, false⟩] } f (apRtail e + n) (apCtail e) (apNres e + 1)
        (apSealw e) e.apst, .ok (apRtail e))
  | .commit =>
    let e := frameEntry s f
    if e.apst = 2 then (s, .error cWriteAfterSeal)
    else if (resvsOf s f).any fun r => r.off = off then
      let s := { s with resvs := s.resvs.map fun r => if r.frame = f ∧ r.off = off then { r with done := true } else r }
      let s := advanceTail s f
      (s, .ok (tailWord (frameEntry s f) (apCtail (frameEntry s f))))
    else (s, .error cAppendOutside)
  | .append bytes =>
    let e := frameEntry s f
    match reserveStatus s f bytes.length with
    | some st => (s, .ok st)
    | none =>
      let at' := apRtail e
      let s := ctxWrite s ctx (f * 65536 + at') 1 bytes
      let s := apWrite { s with resvs := s.resvs ++ [⟨f, at', bytes.length, true⟩] } f (at' + bytes.length) (apCtail e)
        (apNres e + 1) (apSealw e) e.apst
      (advanceTail s f, .ok at')
  | .close waiting =>
    let e := frameEntry s f
    if e.apst = 2 then (s, .ok (tailWord e (apCtail e)))
    else
      let s :=
        if waiting then
          (if apSealw e then s
           else if apNres e = 0 then fireWatches (apWrite s f (apRtail e) (apCtail e) 0 false 2) f
           else apWrite s f (apRtail e) (apCtail e) (apNres e) true e.apst)
        else
          fireWatches (apWrite { s with resvs := s.resvs.filter fun r => r.frame ≠ f } f (apCtail e) (apCtail e) 0 false 2) f
      (s, .ok (tailWord (frameEntry s f) (apCtail (frameEntry s f))))
  | .tail reserved =>
    let e := frameEntry s f
    (s, .ok (tailWord e (if reserved then apRtail e else apCtail e)))

/-! ### The instructions -/

/-- What each thread asks. -/
structure PageThread where
  t : Thread
  req : PageReq

/-- The block of lanes that name one page (R249, R361): all take effect, or none. -/
def pageBlock (s : State) (ctx : Ctx) (f : Nat) : List (PageThread × Piece) → State × List (Nat × Nat) × List (Nat × Byte × Nat)
  | [] => (s, [], [])
  | (p, pc) :: rest =>
    match pageAt s ctx f (pc.va % 65536) p.req with
    | (s, .ok v) =>
      (match pageBlock s ctx f rest with
       | (s, vs, ls) => (s, (p.t.lane, v) :: vs, ls))
    | (s, .error b) =>
      match pageBlock s ctx f rest with
      | (s, vs, ls) => (s, vs, (p.t.lane, b, pc.va) :: ls)

/-- The code of a request to a peer: fn and op of the encoding, and the value it carries. -/
def pageCode : PageReq → BitVec 3 × BitVec 3 × List Byte
  | .reserve n => (0, 0, natToBytes 4 n)
  | .commit => (1, 0, [])
  | .append b => (2, 0, b)
  | .close w => (3, if w then 1 else 0, [])
  | .tail r => (4, if r then 1 else 0, [])

/-- The request of the lanes of one instruction that name one page of a peer: they go together, for the home to decide
as one block (R249, R356, R361). -/
def pageKind (ts : List (PageThread × Piece)) : ReqKind :=
  let q := pageCode ((ts.head?.map fun t => t.1.req).getD (.tail false))
  .page q.1 q.2.1 (ts.map fun t => (t.2.va % 65536, (pageCode t.1.req).2.2))

/-- The page of a target beyond the device. -/
def targetPage : Way → Option (Nat × Nat × Nat)
  | .fabric d e off => some (d, e, off / 65536)
  | .window w off => some (288, w, off / 65536)
  | _ => none

/-- The frame a piece lies in. -/
def pieceFrame (p : Piece) : Option Nat := match p.way with
  | .mem pa _ => some (frameNo pa)
  | _ => none

/-- The appends of a block that were granted end the marks of their threads on those bytes (R229, step 5). -/
def appendMarks (s : State) (asid : Asid) (m : Member) (f : Nat) (blk : List (PageThread × Piece)) (vs : List (Nat × Nat)) : State :=
  vs.foldl (fun s v =>
    match blk.find? fun t => t.1.t.lane = v.1 with
    | some t => (match t.1.req with
      | .append bytes => if v.2 < 65536 then endMarks s asid m v.1 (f * 65536 + v.2) bytes.length else s
      | _ => s)
    | none => s) s

/-- The blocks of one instruction, page by page. -/
def pageBlocks (s : State) (ctx : Ctx) (who : Member) (need : Need) (d : DieNo) (ts : List (PageThread × Piece)) : List Nat → Asked → State × Asked
  | [], a => (s, a)
  | f :: fs, a =>
    let again := fun (s : State) (a : Asked) => pageBlocks s ctx who need d ts fs a
    let blk := ts.filter fun t => pieceFrame t.2 = some f
    let early := blk.filterMap fun t => (pieceLate s d { need with page := true } t.2).map fun b => (t.1.t.lane, b, t.2.va)
    if !early.isEmpty then again s { a with late := a.late ++ early }
    else
      match pageBlock s ctx f blk with
      | (s', vs, ls) =>
        if ls.isEmpty then
          again (appendMarks s' ctx.asid who f blk vs) { a with
            got := a.got ++ vs.map (fun v => (v.1, 0, natToBytes 4 v.2))
            undone := a.undone &&& ~~~maskOf (vs.map fun v => v.1) }
        else again s { a with late := a.late ++ ls }

/-- Requests to append pages of peers: one for each page, with the lanes that name it in ascending order. -/
def pageRemote (s : State) (c : Issue) (ctx : Ctx) (dst : Nat) (ts : List (PageThread × Piece)) :
    List (Nat × Nat × Nat) → Asked → State × Asked
  | [], a => (s, a)
  | pg :: pgs, a =>
    let blk := ts.filter fun t => targetPage t.2.way = some pg
    match blk.head?.bind fun t => (targetOf t.2.way).map fun tg => (t.2.va, tg) with
    | none => pageRemote s c ctx dst ts pgs a
    | some (va, tg) =>
      if !circuitUp? s (memberDie s c.who).toNat (targetPort tg) then
        pageRemote s c ctx dst ts pgs { a with late := a.late ++ blk.map fun t => (t.1.t.lane, cDieOffline, t.2.va) }
      else
        let r : Request := ⟨s.nextId, some c.who, blk.map fun t => (t.1.t.lane, 0), 0, dst, va, 2, ctx.asid, tg, pageKind blk, [], 0⟩
        pageRemote (sendReq s r false) c ctx dst ts pgs { a with waiting := a.waiting ++ [r.id] }

/-- The data registers of a PAGE instruction on lanes: 1, or the pair or four of `apst`. -/
structure PageOp where
  g : PredNo
  d : RegField
  a : RegField
  la : Nat
  size : Nat
  write : Bool
  reads : Bool
  req : List Byte → PageReq

/-- A PAGE instruction but `twatch` (R361): checks, then each page's home. A read of CTAIL acquires (R366, R368).
DEDUCED, unsafe: log entry 9; DEDUCED, unsafe: log entry 21. -/
def runPage (s : State) (c : Issue) (o : PageOp) : State :=
  let sp := isSpine c.who
  let g := memberGroup s c.who
  let kc := memberKc c.who
  let k := kcOf s kc
  let d := o.d.toNat
  let regsBad := if sp then decide (32 ≤ d) else !(vOk g.budget true o.a.toNat && dataOk g.budget o.size d)
  let ks := if sp then (spineSprue o.a).toList else []
  let need : Need := { r := !o.write, w := o.write, page := true }
  checked s c [(sp && o.size = 4, cWrongUnit), (regsBad, cIllegal), (!spruesOk s c ks, cProtection)]
    (if sp && !spinePred k.spine o.g then retireNop s c
     else if ks.any fun i => !readable k i then blockOn s c (.sprueFull (BitVec.ofNat 5 (o.a.toNat - 32)))
     else
       let act := actingLanes s c o.g
       let bad := if sp then [] else poisonedLanes g act ([o.a.toNat, o.a.toNat + 1] ++ if o.reads then dataRegs o.size d else [])
       let spBad := sp && ((ks.any fun i => (sprueGet k i).poison) || k.spine.poison.contains o.a.toNat ||
         (o.reads && k.spine.poison.contains d))
       if spBad then trapAll s c cDataPoison
       else if !bad.isEmpty then trapLanes s c cDataPoison bad
       else
         let dataOf := fun (lane : Nat) =>
           if sp then natToBytes (sizeBytes o.size) (xGet k.spine d).toNat else laneData s g lane o.size d
         let ts := (addrThreads s c o.g o.a).map fun t => { t with data := dataOf t.lane }
         if acquirePending s g then holdBack s c
         else outside s c (fun s =>
         let ctx := ctxOf s (memberAsid s c.who)
         let dst := [d]
         match checkAll s ctx need true false 1 ts with
         | (s', rs) =>
           let ms := missesOf rs
           if !ms.isEmpty then raiseMisses s c ms dst false
           else
             let ps := (passedOf rs).filterMap fun t => t.2.head?.map fun p => ((⟨t.1, o.req t.1.data⟩ : PageThread), p)
             let frames := dedup (ps.filterMap fun p => pieceFrame p.2)
             match pageBlocks s' ctx c.who { need with r := !o.write } (memberDie s c.who) ps frames { askedInit ts (some (d, 2, false)) with keep := true } with
             | (s1, a) =>
               match pageRemote s1 c ctx d ps (dedup (ps.filterMap fun p => targetPage p.2.way)) a with
               | (s2, a) =>
                 let s2 := if a.late.isEmpty && a.waiting.isEmpty then consumeAll s2 kc ks else s2
                 endAccess (acquireIf s2 c (o.req [] = .tail false) a) c o.la dst a (if a.late.isEmpty then [] else loadedWrites a)) [d])

def opPage (o : OpsM) (write reads : Bool) (req : List Byte → PageReq) : PageOp :=
  ⟨o.g, o.d, o.a, o.la.toNat, 2, write, reads, req⟩

/-- APRES (R362) -/
def execApres (o : OpsM) (s : State) : Host.Outcome State Fault Refusal :=
  issueBy s fun c => runPage s c (opPage o true true fun b => .reserve (bytesToNat b % 2 ^ 17))

/-- APCMT (R363) -/
def execApcmt (o : OpsM) (s : State) : Host.Outcome State Fault Refusal :=
  issueBy s fun c => runPage s c (opPage o true false fun _ => .commit)

/-- APST (R364) -/
def execApst (o : OpsApst) (s : State) : Host.Outcome State Fault Refusal :=
  issueBy s fun c => runPage s c ⟨o.g, o.d, o.a, o.la.toNat, o.size.toNat, true, true, fun b => .append b⟩

/-- SEAL (R365) -/
def execSeal (o : OpsM) (s : State) : Host.Outcome State Fault Refusal :=
  issueBy s fun c => runPage s c (opPage o true false fun _ => .close false)

/-- SEAL_W (R365)
DEDUCED, unsafe: log entry 22. -/
def execSealW (o : OpsM) (s : State) : Host.Outcome State Fault Refusal :=
  issueBy s fun c => runPage s c (opPage o true false fun _ => .close true)

/-- TAILRD (R366) -/
def execTailrd (o : OpsM) (s : State) : Host.Outcome State Fault Refusal :=
  issueBy s fun c => runPage s c (opPage o false false fun _ => .tail false)

/-- TAILRD_R (R366) -/
def execTailrdR (o : OpsM) (s : State) : Host.Outcome State Fault Refusal :=
  issueBy s fun c => runPage s c (opPage o false false fun _ => .tail true)

/-- The watches armed on the hardware core of a member (R367). -/
def watchesOn (s : State) (m : Member) : Nat :=
  let h := hwCore (kcOf s (memberKc m)) (memberCore m)
  (s.watches.filter fun w => (kcOf s w.kc).place.isSome && decide (hwCore (kcOf s w.kc) w.core = h)).length

/-- TWATCH (R367): once per group instruction, with the operands of the lowest active lane. -/
def execTwatch (o : OpsM) (s : State) : Host.Outcome State Fault Refusal :=
  issueBy s fun c =>
    let g := memberGroup s c.who
    let kc := memberKc c.who
    let core := memberCore c.who
    checked s c [(isSpine c.who, cWrongUnit), (!(vOk g.budget true o.a.toNat && vOk g.budget false o.d.toNat), cIllegal)]
      (let act := activeLanes g c o.g
       let bad := poisonedLanes g (act.take 1) [o.a.toNat, o.a.toNat + 1, o.d.toNat]
       if !bad.isEmpty then trapLanes s c cDataPoison act
       else if acquirePending s g then holdBack s c
       else outside s c (fun s =>
         match act with
         | [] => retireLanes s c id
         | l :: _ =>
           let w := readV s g 3 l o.d.toNat
           let slot := bitsOf w 23 20
           let th := bitsOf w 16 0
           let give := fun (s : State) (v : Nat) =>
             retireWrites s c o.la.toNat [o.d.toNat] (act.map fun i => ⟨i, o.d.toNat, BitVec.ofNat 32 v⟩) []
           if bitsOf w 31 24 ≠ 0 || bitsOf w 19 17 ≠ 0 || decide ((kcOf s kc).cfgBar ≤ slot) then trapLanes s c cProtection act
           else
             let ctx := ctxOf s (memberAsid s c.who)
             match checkAll s ctx { r := true, page := true } true false 1 [⟨l, laneAddr s g l o.a.toNat true, []⟩] with
             | (s', rs) =>
               let ms := (missesOf rs).flatMap fun m => act.map fun i => (i, m.2)
               if !ms.isEmpty then raiseMisses s c ms [o.d.toNat] false
               else
                 match ((passedOf rs).head?.bind fun t => t.2.head?) with
                 | none => retireLanes s' c id
                 | some p =>
                   match pieceFrame p, pieceLate s' (memberDie s c.who) { r := true, page := true } p with
                   | none, _ => trapLanes s c cProtection act p.va
                   | some _, some b => endLanes s' c 0 [] ⟨[], [(l, b, p.va)], [], none, maskOf act, true, [], []⟩ []
                   | some f, none =>
                     if 16 ≤ watchesOn s' c.who then give s' 0
                     else
                       let e := frameEntry s' f
                       give (fireWatches { s' with watches := s'.watches ++ [⟨kc, core, slot, f, th⟩] } f) (tailWord e (apCtail e))) [o.d.toNat])

end Sys2Proof.Machine
end

