-- ==== Sys2Proof/Machine/Host.lean ====
section
/-! DEFINITION. The host link: BAR registers, doorbells, partitions, circuits, function-level reset, posted writes,
the frame table's driver side (R305, R346 to R350, R371, R378, R387 to R398, R410, R434). -/

namespace Sys2Proof.Machine

/-- The state an event leads to. -/
def afterNext (s : State) : Host.Outcome State Fault Refusal → State
  | .next t => t
  | _ => s

/-! ### Doorbells from the host (R392, R421) -/

/-- An arrival from the host at a context slot's doorbell; it is lost where no circuit joins the host port to the
doorbell's die (R379).
DEDUCED, unsafe: log entry 46. -/
def hostRing (s : State) (f : FuncNo) (slot idx : Nat) : State :=
  match s.ctxs.find? fun c => c.vf = f && decide (c.slot.toNat = slot) with
  | some c => if doorOffline s 12 c.asid idx then s else ringOnce s c.asid idx
  | none =>
    match s.host.forwards.find? fun x => x.live && x.vf = f && decide (x.slot.toNat = slot) with
    | some x => if doorOffline s 12 x.asid idx then s else ringOnce s x.asid idx
    | none => dropRing s f

/-- DOORBELL_WRITE (R208, R392): a host write in BAR2. -/
def execDoorbellWrite (o : HostAccess) (s : State) : Host.Outcome State Fault Refusal :=
  .next (
    if !funcOn s o.f || decide (2 ^ 26 ≤ o.off) then s
    else if (o.size = 4 || o.size = 8) && o.off % o.size = 0 && decide (o.off % 64 + o.size ≤ 8) then
      hostRing s o.f (o.off / 2 ^ 20) (o.off % 2 ^ 20 / 64)
    else dropRing s o.f)

/-! ### Partitions (R386 to R388) -/

/-- PMODE_CHANGE (R387)
DEDUCED, unsafe: log entry 58. -/
def execPmodeChange (mode : BitVec 2) (s : State) : Host.Outcome State Fault Refusal :=
  .next (
    if mode = 3 || s.host.pmReq.isSome then s
    else if s.ctxs.any fun c => (affected s.host.pmode mode).contains c.part then { s with host := { s.host with pmsts := 3 } }
    else { s with host := { s.host with pmReq := some (mode, false), pmsts := 1 } })

/-- The kernel clusters of affected partitions. -/
def affectedKcs (s : State) (mode : BitVec 2) : List Kc :=
  s.kcs.filter fun k => (affected s.host.pmode mode).contains (ctxOf s k.asid).part

/-- PMODE_FORCE (R388): every kernel cluster of the affected partitions is pre-empted. -/
def execPmodeForce (mode : BitVec 2) (s : State) : Host.Outcome State Fault Refusal :=
  .next (
    if mode = 3 || s.host.pmReq.isSome then s
    else
      let s := { s with host := { s.host with pmReq := some (mode, true), pmsts := 1 } }
      forceStop s 5 ((affectedKcs s mode).filter isRunning))

/-- FORCE_PREEMPT_TIMEOUT (R388): what has not stopped ends with CAUSE 0x18. -/
def execForcePreemptTimeout (s : State) : Host.Outcome State Fault Refusal :=
  .next (match forcedMode s with
    | none => s
    | some m =>
      (dedup (((affectedKcs s m).filter fun k => isRunning k || stopping k).map fun k => k.grid)).foldl
        (fun s g => endGrid s g 2 cDeadlock.toNat) s)

/-- The partition of a mode that contains a die. -/
def partOfDie (mode : BitVec 2) (d : DieNo) : BitVec 2 :=
  (([0, 1, 2, 3] : List (BitVec 2)).find? fun p => (partDies mode p).contains d).getD 0

/-- Where a VF of a partition goes: it stays while the partition exists, else to the one with its lowest die (R387). -/
def newPart (old new : BitVec 2) (p : BitVec 2) : BitVec 2 :=
  if (partDies new p).isEmpty then partOfDie new ((partDies old p).headD 0) else p

/-- The new partitions that a context's frames in use lie in. -/
def framesIn (s : State) (new : BitVec 2) (asid : Asid) : List (BitVec 2) :=
  dedup ((framesWhere s fun e => e.kasid = asid && !apRepl e).map fun f => partOfDie new (homeDie (f * 65536)))

/-- A context at a forced change: it moves with its frames to one partition, or ends (R388). -/
def moveCtx (old new : BitVec 2) (s : State) (c : Ctx) : State :=
  if !(affected old new).contains c.part then s
  else
    let go := fun (p : BitVec 2) =>
      let word := memNat s c.desc 8
      let s := updCtx s c.asid fun x => { x with part := p }
      let dies := partDies new p
      let onto := fun (g : Grid) =>
        let kept := g.dies.filter fun d => dies.contains d
        { g with dies := if kept.isEmpty then dies else kept }
      let s := { s with grids := s.grids.map fun (g : Grid) => if g.asid = c.asid then onto g else g }
      { s with
        mem := putNat s.mem c.desc 8 (word - bitsOf (BitVec.ofNat 64 word) 23 22 * 2 ^ 22 + p.toNat * 2 ^ 22)
        frameTab := (framesWhere s fun e => e.kasid = c.asid).foldl (fun t f =>
          amSet FrameEntry.zero t f { amGet FrameEntry.zero t f with part := p }) s.frameTab }
    match framesIn s new c.asid with
    | [] => go (newPart old new c.part)
    | [p] => go p
    | _ =>
      let s := ((s.grids.filter fun g => g.asid = c.asid).map fun g => g.id).foldl (fun s g => endGrid s g 2 0) s
      let s := retireCtx s c.asid
      (framesWhere s fun e => e.kasid = c.asid).foldl freeFrame s

/-- PARTITION_MODE_TAKES_EFFECT (R387, R388): at once, or when every kernel cluster to be saved has been. -/
def execPartitionModeTakesEffect (s : State) : Host.Outcome State Fault Refusal :=
  .next (match s.host.pmReq with
    | none => s
    | some (mode, forced) =>
      if forced && (affectedKcs s mode).any fun k => isRunning k || stopping k then s
      else
        let old := s.host.pmode
        let s := if forced then s.ctxs.foldl (moveCtx old mode) s else s
        let funcs := s.host.funcs.map fun f => (f.1, f.2.map fun x => { x with partn := newPart old mode x.partn })
        { s with host := { s.host with pmode := mode, pmsts := 2, pmReq := none, funcs := funcs } })

/-! ### Stage-2 fences (R346, R393) -/

/-- STAGE2_FENCE (R346) -/
def execStage2Fence (v : FuncNo) (s : State) : Host.Outcome State Fault Refusal :=
  .next (updFunc s v fun x => { x with fencing := true })

/-- STAGE2_FENCE_DONE (R346, R393): the VF's translations are gone and its epochs have advanced. -/
def execStage2FenceDone (v : FuncNo) (s : State) : Host.Outcome State Fault Refusal :=
  .next (
    if (funcOf s v).fencing then
      let s := (s.ctxs.filter fun c => c.vf = v).foldl (fun s c => fenceContext s c.asid) s
      updFunc s v fun x => { x with fencing := false }
    else s)

/-! ### Queue table and VF configuration (R303, R308, R393) -/

/-- The entry in the 256 bits of R393. -/
def queueEntryOf (w : BitVec 256) : QueueEntry where
  ring := bitsOf w 51 6 * 64
  log2n := bitsOf w 69 64
  cb := bitsOf w 115 70 * 64
  work := bitOf w 128
  vf := BitVec.ofNat 6 (bitsOf w 141 136)
  asid := BitVec.ofNat 16 (bitsOf w 175 160)
  en := bitOf w 144

/-- The 256 bits of an entry. -/
def queueBits (e : QueueEntry) : Nat :=
  e.ring + (e.log2n + e.cb / 64 * 2 ^ 6) * 2 ^ 64 + ((if e.work then 1 else 0) + e.vf.toNat * 2 ^ 8 + (if e.en then 2 ^ 16 else 0) +
    e.asid.toNat * 2 ^ 32) * 2 ^ 128

/-- Whether reserved bits of an entry are set. -/
def queueReserved (w : BitVec 256) : Bool := decide (w.toNat ≠ queueBits (queueEntryOf w))

/-- The ring slots of a VF's enabled queues other than q. -/
def slotsUsedBy (s : State) (vf : FuncNo) (q : BitVec 8) : Nat :=
  (s.tund.queues.filter fun e => e.1 ≠ q.toNat && e.2.en && e.2.vf = vf).foldl (fun n e => n + 2 ^ e.2.log2n) 0

/-- QUEUE_TABLE_WRITE (R303, R308): a refused entry keeps EN = 0. -/
def execQueueTableWrite (q : BitVec 8) (entry : BitVec 256) (s : State) : Host.Outcome State Fault Refusal :=
  .next (
    let e := queueEntryOf entry
    let bad := e.en && (queueReserved entry || decide (20 < e.log2n) ||
      decide ((funcOf s e.vf).slotq.toNat < slotsUsedBy s e.vf q + 2 ^ e.log2n))
    let e := { e with en := e.en && !bad }
    let s := { s with tund := { s.tund with queues := amSet QueueEntry.zero s.tund.queues q.toNat e } }
    if e.en then lookAt s q
    else { s with tund := { s.tund with looking := s.tund.looking.filter fun x => x ≠ q } })

/-- VFCFG_WRITE (R393): EN stays set while the VF has a context; VFCFG(0).EN reads 1. -/
def execVfcfgWrite (v : FuncNo) (val : DWord) (s : State) : Host.Outcome State Fault Refusal :=
  .next (
    let has := s.ctxs.any fun c => c.vf = v
    updFunc s v fun x => { x with partn := val.setWidth 2, en := bitOf val 8 || (has && x.en) })

/-! ### Circuits (R378) -/

def circuitAt (s : State) (i : BitVec 8) : Circuit := amGet Circuit.zero s.host.circuits i.toNat
def setCircuit (s : State) (i : BitVec 8) (c : Circuit) : State :=
  { s with host := { s.host with circuits := amSet Circuit.zero s.host.circuits i.toNat c } }

/-- Whether a circuit's ports lie in different partitions (R423). -/
def crossesWall (s : State) (c : Circuit) : Bool :=
  let die := fun (p : Nat) => if p < 4 then some (BitVec.ofNat 2 p) else if p < 12 then some (BitVec.ofNat 2 ((p - 4) / 2)) else none
  match die c.src.toNat, die c.dst.toNat with
  | some a, some b => decide (partOfDie s.host.pmode a ≠ partOfDie s.host.pmode b)
  | _, _ => false

/-- The circuit in place: while it drains, the one that the entry asked for before it was rewritten. -/
def inForce (c : Circuit) : Circuit :=
  match c.held with
  | some (src, dst, lambda, nlam) => { c with src := src, dst := dst, lambda := lambda, nlam := nlam }
  | none => c

/-- Whether a port is that of a FAILED die, whose circuits stay down (R413). -/
def portFailed (s : State) (p : BitVec 5) : Bool := decide (p.toNat < 4) && (dieOf s (BitVec.ofNat 2 p.toNat)).st = .failed

/-- Whether a requested circuit is left down: a reserved port, a FAILED die's port, a repeated up pair, a wavelength in
use on either port, or a partition's wall.
DEDUCED, unsafe: log entry 56. -/
def circuitBad (s : State) (i : BitVec 8) (c : Circuit) : Bool :=
  let others := (s.host.circuits.filter fun e => e.1 ≠ i.toNat && e.2.st ≠ 0).map fun e => (e.1, inForce e.2)
  decide (15 ≤ c.src.toNat) || decide (15 ≤ c.dst.toNat) || portFailed s c.src || portFailed s c.dst || crossesWall s c ||
    (others.any fun e => e.2.v && e.2.st = 2 && e.2.src = c.src && e.2.dst = c.dst) ||
    others.any fun e => (e.2.src = c.src || e.2.dst = c.dst || e.2.src = c.dst || e.2.dst = c.src) &&
      rangesMeet e.2.lambda.toNat (e.2.nlam.toNat + 1) c.lambda.toNat (c.nlam.toNat + 1)

/-- The fields of an entry's low half (R378). -/
def circuitOf (entry : DWord) : Circuit :=
  ⟨bitOf entry 0, BitVec.ofNat 5 (bitsOf entry 7 3), BitVec.ofNat 5 (bitsOf entry 12 8), BitVec.ofNat 3 (bitsOf entry 15 13),
    BitVec.ofNat 6 (bitsOf entry 21 16), 0, none⟩

/-- A circuit that is down starts to train, unless something forbids it. -/
def train (s : State) (i : BitVec 8) (c : Circuit) : State :=
  setCircuit s i { c with st := if circuitBad s i c then 0 else 1, held := none }

/-- The entry takes new fields while its circuit drains. -/
def drainCircuit (s : State) (i : BitVec 8) (old new : Circuit) : State :=
  let was := inForce old
  setCircuit s i { new with st := 3, held := some (was.src, was.dst, was.lambda, was.nlam) }

/-- A write of an entry with V = 1 (R378, R434): one that is down trains; one whose circuit is in place keeps it when the
fields are the same, and otherwise drains it first.
DEDUCED, unsafe: log entry 56. -/
def requestCircuit (s : State) (i : BitVec 8) (new : Circuit) : State :=
  let old := circuitAt s i
  if old.st = 0 then train s i { new with v := true }
  else if old.v && { new with v := true, st := old.st, held := old.held } = old then s
  else drainCircuit s i old { new with v := true }

/-- A write of an entry with V = 0 (R378): its circuit drains. -/
def releaseCircuit (s : State) (i : BitVec 8) (new : Circuit) : State :=
  let old := circuitAt s i
  if old.st = 0 then setCircuit s i { new with v := false, st := 0, held := none } else drainCircuit s i old { new with v := false }

/-- CIRCUIT_REQUEST (R378) -/
def execCircuitRequest (i : BitVec 8) (entry : DWord) (s : State) : Host.Outcome State Fault Refusal :=
  .next (requestCircuit s i (circuitOf entry))

/-- CIRCUIT_RELEASE (R378): V is cleared and the other fields stay. -/
def execCircuitRelease (i : BitVec 8) (s : State) : Host.Outcome State Fault Refusal :=
  .next (releaseCircuit s i (circuitAt s i))

/-- CIRCUIT_UP (R378) -/
def execCircuitUp (i : BitVec 8) (s : State) : Host.Outcome State Fault Refusal :=
  .next (
    let c := circuitAt s i
    if c.st = 1 && c.v && !portFailed s c.src && !portFailed s c.dst then setCircuit s i { c with st := 2 } else s)

/-- Whether a circuit still holds a request that has not been answered. -/
def circuitHolds (s : State) (c : Circuit) : Bool :=
  s.requests.any fun r => decide (targetPort r.target = c.dst.toNat) && (match r.who with
    | some m => decide ((memberDie s m).toNat = c.src.toNat)
    | none => if r.dst ≠ 0 then decide (c.src.toNat = 13) else decide (c.src.toNat < 4))

/-- CIRCUIT_DRAINED (R378): the circuit is down; one that was asked for meanwhile trains. -/
def execCircuitDrained (i : BitVec 8) (s : State) : Host.Outcome State Fault Refusal :=
  .next (
    let c := circuitAt s i
    if c.st = 3 && !circuitHolds s (inForce c) then
      (if c.v then train s i c else setCircuit s i { c with st := 0, held := none })
    else s)

/-! ### BAR0 writes (R393 to R395, R401, R434) -/

/-- A register after a write of an aligned half or whole: o.off locates it. -/
def mergeReg (old : Nat) (o : HostAccess) : DWord :=
  if o.size = 8 then o.val
  else if o.off % 8 = 0 then BitVec.ofNat 64 (old / 2 ^ 32 * 2 ^ 32 + o.val.toNat % 2 ^ 32)
  else BitVec.ofNat 64 (old % 2 ^ 32 + o.val.toNat % 2 ^ 32 * 2 ^ 32)

/-- A wider entry of n bits after such a write at bit position lo. -/
def mergeWide (old lo : Nat) (o : HostAccess) : Nat :=
  let was := old / 2 ^ lo % 2 ^ 64
  old - was * 2 ^ lo + (mergeReg was o).toNat * 2 ^ lo

/-- Bits of a host window entry (R395). -/
def windowBits (e : Window) : Nat :=
  e.hbase.toNat * 2 ^ 64 + e.size.toNat * 2 ^ 24 + e.ovf.toNat * 2 ^ 10 + (if e.atomc then 4 else 0) + (if e.ns then 2 else 0) +
    if e.v then 1 else 0
def windowOf (w : Nat) : Window :=
  let b := BitVec.ofNat 128 w
  ⟨BitVec.ofNat 64 (w / 2 ^ 76 * 2 ^ 12), BitVec.ofNat 24 (bitsOf b 47 24), BitVec.ofNat 6 (bitsOf b 15 10), bitOf b 2, bitOf b 1, bitOf b 0⟩

/-- Bits of an export entry (R401). -/
def exportBits (e : Export) : Nat :=
  e.vabase.toNat * 2 ^ 64 + e.size.toNat * 2 ^ 44 + e.sdev.toNat * 2 ^ 35 + e.svf.toNat * 2 ^ 29 + e.asid.toNat * 2 ^ 13 +
    (if e.ap then 8 else 0) + (if e.w then 4 else 0) + (if e.r then 2 else 0) + if e.v then 1 else 0
def exportOf (w : Nat) : Export :=
  let b := BitVec.ofNat 128 w
  { vabase := BitVec.ofNat 64 (bitsOf b 111 80 * 2 ^ 16), size := BitVec.ofNat 20 (bitsOf b 63 44), sdev := BitVec.ofNat 9 (bitsOf b 43 35)
    svf := BitVec.ofNat 6 (bitsOf b 34 29), asid := BitVec.ofNat 16 (bitsOf b 28 13), ap := bitOf b 3, w := bitOf b 2, r := bitOf b 1
    v := bitOf b 0 }

/-- CTXCMD (R394): the command of an op code. -/
def runCommand (s : State) (f : FuncNo) (op : Nat) (gid : Word) : State :=
  match op with
  | 1 => afterNext s (execCreate f s)
  | 2 => afterNext s (execRetire f s)
  | 3 => afterNext s (execSuspendContext f s)
  | 4 => afterNext s (execResumeContext f s)
  | 5 => afterNext s (execSuspendGrid f gid s)
  | 6 => afterNext s (execResumeGrid f gid s)
  | _ => refuse s f (if busy s f then 1 else 6)

/-- A write in a function's register block (R394). -/
def blockWrite (s : State) (o : HostAccess) (reg : Nat) : State :=
  let low := decide (o.off % 8 = 0)
  match reg with
  | 0x000 => updFunc s o.f fun x => { x with ctxarg := mergeReg x.ctxarg.toNat o }
  | 0x008 =>
    let gid : Word := if o.size = 8 then hiWord o.val else if low then (funcOf s o.f).gridid else loWord o.val
    let s := updFunc s o.f fun x => { x with gridid := gid }
    if low then runCommand s o.f (o.val.toNat % 256) gid else s
  | _ => s

/-- A write of a per-VF register of the PF (R393). -/
def vfRegWrite (s : State) (o : HostAccess) (v : FuncNo) (reg : Nat) : State :=
  let f := funcOf s v
  let low := decide (o.off % 8 = 0)
  match reg with
  | 0x00 => if low then afterNext s (execVfcfgWrite v o.val s) else s
  | 0x08 =>
    let r := mergeReg (f.s2root + if f.s2en then 1 else 0) o
    updFunc s v fun x => { x with s2root := bitsOf r 51 16 * 65536, s2en := bitOf r 0 }
  | 0x10 => if low then afterNext s (execStage2Fence v s) else s
  | 0x18 => updFunc s v fun x => { x with slotq := (mergeReg x.slotq.toNat o).setWidth 21 }
  | 0x20 => updFunc s v fun x => { x with holdq := mergeReg x.holdq.toNat o &&& 0x00000FFF0FFFFFFF }
  | 0x28 => updFunc s v fun x => { x with tqw := (mergeReg x.tqw.toNat o).setWidth 8 }
  | _ => s

/-- A write of TIMESRC (R383, R393): after a change of source each synchronised die is, or is not yet, synchronised to
the new one; TERR is some value that R383 allows.
DESIGN CHOICE, safe: log entry 29. -/
def setTimeSource (s : State) (src : BitVec 2) (pkgok : Bool) : State :=
  let s' : State := { s with host := { s.host with timesrc := src, pkgok := pkgok } }
  if src = s.host.timesrc then s'
  else bump { s' with dies := s'.dies.zipIdx.map fun d =>
    if d.1.terr = 0xFFFFFFFF then d.1
    else { d.1 with terr := if Config.freeBit s.fresh (4096 + d.2) then 0xFFFFFFFF
                            else BitVec.ofNat 32 (Config.freeNat s.fresh 14 % (terrBound src + 1)) } }

/-- A write of a PF register or table (R393). -/
def pfWrite (s : State) (o : HostAccess) : State :=
  let low := decide (o.off % 8 = 0)
  let a := o.off
  let h := s.host
  if a / 8 * 8 = 0 then
    if low then afterNext s (if bitOf o.val 8 then execPmodeForce (o.val.setWidth 2) s else execPmodeChange (o.val.setWidth 2) s) else s
  else if a / 8 * 8 = 0x10 then
    if low then setTimeSource s (o.val.setWidth 2) (bitOf o.val 8) else s
  else if a / 8 * 8 = 0x20 then if low then { s with host := { h with fabid := o.val.setWidth 9 } } else s
  else if 0x1000 ≤ a && a < 0x2000 then vfRegWrite s o (BitVec.ofNat 6 ((a - 0x1000) / 0x40)) (a % 0x40 / 8 * 8)
  else if 0x4000 ≤ a && a < 0x4800 then
    if low then
      let i : BitVec 8 := BitVec.ofNat 8 ((a - 0x4000) / 8)
      if bitOf o.val 0 then requestCircuit s i (circuitOf o.val) else releaseCircuit s i (circuitOf o.val)
    else s
  else if 0x8000 ≤ a && a < 0x9000 then
    let i := (a - 0x8000) / 16
    let w := mergeWide (windowBits (amGet Window.zero h.windows i)) (a % 16 / 8 * 64) o
    { s with host := { h with windows := amSet Window.zero h.windows i (windowOf w) } }
  else if 0xA000 ≤ a && a < 0xA200 then
    let i := (a - 0xA000) / 16
    let w := mergeWide (exportBits (amGet Export.zero h.exports i)) (a % 16 / 8 * 64) o
    { s with host := { h with exports := amSet Export.zero h.exports i (exportOf w) } }
  else if 0xC000 ≤ a && a < 0xE000 then
    let q : BitVec 8 := BitVec.ofNat 8 ((a - 0xC000) / 32)
    let w := mergeWide (queueBits (queueOf s q)) (a % 32 / 8 * 64) o
    afterNext s (execQueueTableWrite q (BitVec.ofNat 256 w) s)
  else s

/-- BAR0_WRITE (R393, R394, R434): naturally aligned writes of 4 or 8 bytes act on the register they name. -/
def execBar0Write (o : HostAccess) (s : State) : Host.Outcome State Fault Refusal :=
  .next (
    if !funcOn s o.f || !((o.size = 4 || o.size = 8) && decide (o.off % o.size = 0)) then s
    else if o.f ≠ 0 then blockWrite s o (o.off / 8 * 8)
    else if 0xE000 ≤ o.off then blockWrite s o ((o.off - 0xE000) / 8 * 8)
    else pfWrite s o)

/-! ### Function-level reset (R397, R398) -/

/-- Step 2 of R397 for one queue: it is disabled and its indices and DROPS are cleared. -/
def flrQueue (s : State) (e : Nat × QueueEntry) : State :=
  { s with
    mem := putNat (putNat s.mem e.2.cb 16 0) (e.2.cb + 0x18) 8 0
    tund := { s.tund with
      queues := amSet QueueEntry.zero s.tund.queues e.1 { e.2 with en := false }
      looking := s.tund.looking.filter fun q => q ≠ BitVec.ofNat 8 e.1
      rr := s.tund.rr.filter fun q => q ≠ BitVec.ofNat 8 e.1 } }

/-- Step 4 of R397: a peer's request that is relayed for a context of the function is answered with an error. -/
def flrRelays (s : State) (f : FuncNo) : State :=
  let mine := fun (r : Request) => r.who.isNone && r.dst ≠ 0 && decide ((ctxOf s r.asid).vf = f) && (ctxOf? s r.asid).isSome
  (s.requests.filter mine).foldl (fun s r => send s (.peer (r.dst - 1) .linkError))
    { s with requests := s.requests.filter fun r => !mine r }

/-- Steps 1 to 6 of R397 (R398): from now on the BARs do not answer; of the configuration space the spec names Device
Control 2, which is cleared.
PRESUMED, unsafe: log entry 115. -/
def flrStart (s : State) (f : FuncNo) : State :=
  let mine := s.tund.queues.filter fun e => e.2.vf = f
  let isMine := fun (q : BitVec 8) => mine.any fun e => e.1 = q.toNat
  let s := mine.foldl flrQueue s
  let s := { s with
    tund := { s.tund with
      held := s.tund.held.filter fun h => h.2.vf ≠ f
      released := s.tund.released.filter fun r => r.2.vf ≠ f
      heads := s.tund.heads.filter fun h => h.launch.vf ≠ f
      counts := amKeep (fun c => !ownsCounter s f c) s.tund.counts }
    deques := s.deques.filter fun r => !(match r.queue with | some q => isMine q | none => false) }
  let s := flrRelays s f
  let asids := (s.ctxs.filter fun c => c.vf = f).map fun c => c.asid
  let s := asids.foldl retireCtx s
  let s := (framesWhere s fun e => e.ovf = f).foldl freeFrame s
  updFunc s f fun x =>
    { x with ctxarg := 0, status := 0, reason := 0, slot := 0, gridid := 0, dbdrop := 0, pending := [], flr := true, devCtl2 := 0 }

/-- FUNCTION_LEVEL_RESET (R397, R398): it starts, or it is complete and the BARs answer again. -/
def execFunctionLevelReset (o : FlrEvent) (s : State) : Host.Outcome State Fault Refusal :=
  .next (if o.done then updFunc s o.f fun x => { x with flr := false } else flrStart s o.f)

/-! ### Device memory from the host (R241, R347, R350, R353, R371, R372, R410) -/

/-- The part of a host write in one frame: without a circuit from the host port it has no effect (R379), nor where the
page's append state forbids it (R358, R359). -/
def hostWritePart (s : State) (pa : Nat) (bytes : List Byte) : State :=
  let e := frameEntry s (frameNo pa)
  let closed := e.st = 2 && e.cls = 1 && (appendWrite e (pa % 65536) bytes.length).isSome
  if !portOffline s 12 pa false && !closed then memWrite s pa bytes else s

/-- The frames that [pa, pa + n) touches. -/
def framesOf (pa n : Nat) : List Nat := (List.range ((pa + n + 65535) / 65536 - pa / 65536)).map fun i => pa / 65536 + i

/-- HOST_POSTED_WRITE (R241), frame by frame. -/
def execHostPostedWrite (o : HostWrite) (s : State) : Host.Outcome State Fault Refusal :=
  .next (
    let n := o.bytes.length
    if funcOn s o.f && isLocal o.addr n then
      (framesOf o.addr n).foldl (fun s f =>
        let lo := max o.addr (f * 65536)
        let hi := min (o.addr + n) ((f + 1) * 65536)
        hostWritePart s lo ((o.bytes.drop (lo - o.addr)).take (hi - lo))) s
    else s)

/-- A read of device memory by the host (R241): an error completion where a part of it has no circuit from the host port
(R379). -/
def hostMemRead (s : State) (o : HostRead) : State :=
  if !isLocal o.off o.size || (framesOf o.off o.size).any fun f => portOffline s 12 (max o.off (f * 65536)) false then send s (.unsupported o.f)
  else if memPoisoned s o.off o.size then send s (.poisonedRead o.f)
  else send s (.readData o.f (memRead s o.off o.size))

/-- The exported barrier whose first 8 bytes a read in BAR2 names: kernel cluster, core, slot (R392). -/
def bar2Door (s : State) (o : HostRead) : Option (Nat × Nat × Nat) :=
  if (o.size = 4 || o.size = 8) && o.off % o.size = 0 && o.off % 64 = 0 && decide (o.off < 2 ^ 26) then
    (s.ctxs.find? fun c => c.vf = o.f && decide (c.slot.toNat = o.off / 2 ^ 20)).bind fun c => amGet none c.doors (o.off % 2 ^ 20 / 64)
  else none

/-- A read in BAR2 (R392): the word of `phrd` for a doorbell's first 8 bytes, else zero; an error completion where no
circuit joins the host port to the barrier's die (R379). -/
def bar2Read (s : State) (o : HostRead) : State :=
  match bar2Door s o with
  | none => send s (.readValue o.f 0)
  | some (kc, core, slot) =>
    if (match (kcOf s kc).place with | some p => !circuitUp? s 12 p.die.toNat | none => false) then send s (.unsupported o.f)
    else send s (.readValue o.f (BitVec.ofNat 64 (phaseWord (barOf (teamOf s kc core) slot)).toNat))

/-- A register of a function's block (R394). -/
def blockReg (x : Func) (reg : Nat) : Nat :=
  match reg with
  | 0x000 => x.ctxarg.toNat
  | 0x010 => x.status.toNat + x.reason.toNat * 2 ^ 8 + x.slot.toNat * 2 ^ 16
  | 0x018 => x.dbdrop.toNat
  | _ => 0

/-- A per-VF register of the PF (R393). -/
def vfReg (x : Func) (v reg : Nat) : Nat :=
  match reg with
  | 0x00 => x.partn.toNat + if v = 0 || x.en then 2 ^ 8 else 0
  | 0x08 => x.s2root + if x.s2en then 1 else 0
  | 0x10 => if x.fencing then 1 else 0
  | 0x18 => x.slotq.toNat
  | 0x20 => x.holdq.toNat
  | 0x28 => x.tqw.toNat
  | _ => 0

/-- The bits of a connection table entry (R378). -/
def circuitBits (c : Circuit) : Nat :=
  c.st.toNat * 2 ^ 30 + c.lambda.toNat * 2 ^ 16 + c.nlam.toNat * 2 ^ 13 + c.dst.toNat * 2 ^ 8 + c.src.toNat * 2 ^ 3 + if c.v then 1 else 0

/-- The 8 bytes at an aligned offset of the PF's registers and tables (R393); every other offset reads as zero. PMODE
reads the mode in force, and FORCE while a forced change is under way.
DEDUCED, unsafe: log entry 101. -/
def pfReg (s : State) (a : Nat) : Nat :=
  let h := s.host
  if a = 0 then h.pmode.toNat + (match h.pmReq with | some (_, true) => 2 ^ 8 | _ => 0)
  else if a = 0x08 then h.pmsts.toNat
  else if a = 0x10 then h.timesrc.toNat + if h.pkgok then 2 ^ 8 else 0
  else if a = 0x18 then h.ptmoff.toNat
  else if a = 0x20 then h.fabid.toNat
  else if 0x1000 ≤ a && a < 0x2000 then vfReg (funcOf s (BitVec.ofNat 6 ((a - 0x1000) / 0x40))) ((a - 0x1000) / 0x40) (a % 0x40)
  else if 0x4000 ≤ a && a < 0x4800 then circuitBits (circuitAt s (BitVec.ofNat 8 ((a - 0x4000) / 8)))
  else if 0x8000 ≤ a && a < 0x9000 then windowBits (amGet Window.zero h.windows ((a - 0x8000) / 16)) / 2 ^ (a % 16 * 8) % 2 ^ 64
  else if 0xA000 ≤ a && a < 0xA200 then exportBits (amGet Export.zero h.exports ((a - 0xA000) / 16)) / 2 ^ (a % 16 * 8) % 2 ^ 64
  else if 0xC000 ≤ a && a < 0xE000 then queueBits (queueOf s (BitVec.ofNat 8 ((a - 0xC000) / 32))) / 2 ^ (a % 32 * 8) % 2 ^ 64
  else if 0xE000 ≤ a && a < 0xF000 then blockReg (funcOf s 0) (a - 0xE000)
  else 0

/-- A read of BAR0 but QRSV (R434): the register, or the addressed half. -/
def bar0Value (s : State) (o : HostRead) : Nat :=
  let a := o.off / 8 * 8
  let reg := if o.f = 0 then pfReg s a else blockReg (funcOf s o.f) a
  if o.size = 8 && o.off % 8 = 0 then reg
  else if o.size = 4 && o.off % 4 = 0 then reg / 2 ^ (o.off % 8 * 8) % 2 ^ 32
  else 0

/-- The feed queue whose QRSV a read of 8 aligned bytes names (R305, R394). -/
def qrsvOf (o : HostRead) : Option (BitVec 8) :=
  let off := if o.f = 0 then o.off - 0xE000 else o.off
  if o.space = .bar0 && o.size = 8 && off % 8 = 0 && decide (0x800 ≤ off) && decide (off < 0x1000) && (o.f ≠ 0 || decide (0xE000 ≤ o.off))
  then some (BitVec.ofNat 8 ((off - 0x800) / 8)) else none

/-- A reservation of one slot of a queue (R305). -/
def reserveSlot (s : State) (f : FuncNo) (q : BitVec 8) : State :=
  let e := queueOf s q
  let w := widxOf s e
  if !e.en || e.vf ≠ f || decide (2 ^ e.log2n < w + 1 - ridxOf s e) then send s (.readValue f 0xFFFFFFFFFFFFFFFF)
  else send (memWriteNat s e.cb 8 ((w + 1) % 2 ^ 64)) (.readValue f (BitVec.ofNat 64 w))

/-- QRSV_READ (R305), and every other read by the host (R241, R392 to R394, R434): the answer leaves for the host. -/
def execQrsvRead (o : HostRead) (s : State) : Host.Outcome State Fault Refusal :=
  .next (
    if !funcOn s o.f then send s (.unsupported o.f)
    else match o.space with
      | .memory => hostMemRead s o
      | .bar2 => bar2Read s o
      | .bar0 =>
        match qrsvOf o with
        | some q => reserveSlot s o.f q
        | none => send s (.readValue o.f (BitVec.ofNat 64 (bar0Value s o))))

/-- The entry in the 128 bits of R347. -/
def frameEntryOf (w : BitVec 128) : FrameEntry where
  vpn := BitVec.ofNat 32 (bitsOf w 127 96)
  kasid := BitVec.ofNat 16 (bitsOf w 95 80)
  part := BitVec.ofNat 2 (bitsOf w 73 72)
  ovf := BitVec.ofNat 6 (bitsOf w 69 64)
  apstate := BitVec.ofNat 48 (bitsOf w 63 16)
  apst := BitVec.ofNat 2 (bitsOf w 7 6)
  cls := BitVec.ofNat 2 (bitsOf w 5 4)
  st := BitVec.ofNat 2 (bitsOf w 3 2)
  hwa := bitOf w 1

/-- FRAME_TABLE_WRITE (R347, R350, R355): a freed frame is scrubbed first, and takes no new entry until it is free; a page
that the driver seals loses its outstanding reservations and fires its watches; a sealed page stays sealed until its
frame is freed (R369).
DEDUCED, unsafe: log entry 114. -/
def execFrameTableWrite (frame : Nat) (entry : BitVec 128) (s : State) : Host.Outcome State Fault Refusal :=
  .next (
    let e := frameEntryOf entry
    let old := frameEntry s frame
    if decide (2 ^ 23 ≤ frame) || old.st = 1 then s
    else if old.st = 2 && old.cls = 1 && old.apst = 2 && decide (2 ≤ e.st.toNat) && (e.cls ≠ 1 || e.apst ≠ 2) then s
    else if e.st = 0 || e.st = 1 then (if old.st = 0 then s else freeFrame s frame)
    else
      let s := setFrame s frame e
      if e.apst = 2 || e.cls ≠ 1 || apNres e = 0 then fireWatches { s with resvs := s.resvs.filter fun r => r.frame ≠ frame } frame
      else s)

/-- TOKEN_BUCKET_FILL (R353): n tokens of 64 bytes, up to DEPTH.
DEDUCED, safe: log entry 66. -/
def execTokenBucketFill (asid : Asid) (die : DieNo) (n : Nat) (s : State) : Host.Outcome State Fault Refusal :=
  .next (
    let depth := match ctxOf? s asid with
      | some c => memNat s (c.desc + 0x54) 2 * 16
      | none => 0
    updCtx s asid fun c => { c with tokens := amModify 0 c.tokens die.toNat fun t => min depth (t + n) })

/-- FRAME_SCRUB (R350) -/
def execFrameScrub (frame : Nat) (s : State) : Host.Outcome State Fault Refusal :=
  .next (if (frameEntry s frame).st = 1 then setFrame (zeroFrame s frame) frame FrameEntry.zero else s)

/-- Copies a frame's bytes and poison marks. -/
def copyFrame (s : State) (src dst : Nat) : State :=
  let moved := (s.mem.filter fun e => e.1 / 65536 = src).map fun e => (dst * 65536 + e.1 % 65536, e.2)
  let marks := (s.memPoison.filter fun q => q / 4096 = src).map fun q => dst * 4096 + q % 4096
  let s := zeroFrame s dst
  { s with mem := amSetAll 0 s.mem moved, memPoison := dedup (s.memPoison ++ marks) }

/-- Whether a sealed page may get a replica in a frame of another die of its partition (R371). -/
def mayReplicate (s : State) (frame copy : Nat) : Bool :=
  let e := frameEntry s frame
  let dies := partDies s.host.pmode e.part
  let there := homeDie (copy * 65536)
  e.st = 2 && e.cls = 1 && e.apst = 2 && (apScopeOf e = 1 || apScopeOf e = 2) && (frameEntry s copy).st = 0 &&
    decide (copy < 2 ^ 23) && dies.contains there && decide (there ≠ homeDie (frame * 65536)) &&
    decide ((dieOf s there).st = .online) &&
    !(s.replicas.any fun r => r.frame = frame && decide (homeDie (r.copy * 65536) = there))

/-- Whether a replica is asked for by a policy plug-in that has been stopped, whose requests are dropped (R422): who asks,
firmware or the driver or the plug-in of the page's function, is free.
DESIGN CHOICE, safe: log entry 103. -/
def replicaDropped (s : State) (frame copy : Nat) : Bool :=
  (dieOf s (homeDie (copy * 65536))).stopped.contains (frameEntry s frame).ovf && Config.freeBit s.fresh (2 ^ 23 + 1)

/-- REPLICA_CREATE (R371, R422) -/
def execReplicaCreate (frame copy : Nat) (s : State) : Host.Outcome State Fault Refusal :=
  .next (
    if replicaDropped s frame copy then bump s
    else if mayReplicate s frame copy then
      let e := frameEntry s frame
      let ap := apPack (apRtail e) (apCtail e) 0 (apWlog e) (apScopeOf e) false true
      let s := copyFrame s frame copy
      setFrame { s with replicas := s.replicas ++ [⟨frame, copy, s.fresh⟩] } copy { e with apstate := ap, hwa := true }
    else s)

/-- The free frames of a partition's pool (R349, R386). -/
def poolSize (s : State) (part : BitVec 2) : Nat :=
  let dies := partDies s.host.pmode part
  dies.length * 2 ^ 21 - (s.frameTab.filter fun e => e.2.st ≠ 0 && dies.contains (homeDie (e.1 * 65536))).length

/-- The reserve that firmware sets for a partition's pool (R372, R422). -/
def poolReserveOf (s : State) (part : BitVec 2) : Nat :=
  (partDies s.host.pmode part).foldl (fun n d => max n (dieOf s d).poolReserve) 0

/-- Whether a replica is reclaimed for its pool: the pool is below its reserve, and no replica of the partition was used
less recently (R372). -/
def reclaimDue (s : State) (copy : Nat) : Bool :=
  let part := (frameEntry s copy).part
  decide (poolSize s part < poolReserveOf s part) && match s.replicas.find? fun r => r.copy = copy with
    | some r => s.replicas.all fun q => (frameEntry s q.copy).part ≠ part || decide (r.used ≤ q.used)
    | none => false

/-- REPLICA_RECLAIM (R372) -/
def execReplicaReclaim (copy : Nat) (s : State) : Host.Outcome State Fault Refusal :=
  .next (if reclaimDue s copy then reclaimReplica s copy else s)

/-- PATROL_READ (R410): the correctable errors that a read of a frame finds are corrected, which changes nothing
that is kept, and counted; how many there are is free.
DESIGN CHOICE, safe: log entry 65. -/
def execPatrolRead (frame : Nat) (s : State) : Host.Outcome State Fault Refusal :=
  .next (if frame < 2 ^ 23 then
    bump (updDie s (homeDie (frame * 65536)) fun d => { d with corrected := d.corrected + BitVec.ofNat 64 (Config.freeNat s.fresh 2) })
  else s)

end Sys2Proof.Machine
end

