-- ==== Sys2Proof/Machine/Dies.lean ====
section
/-! DEFINITION. The die state machine, time and boot (R382 to R385, R413 to R418, R422 to R424). -/

namespace Sys2Proof.Machine

/-! ### Circuits and replicas of a die (R372, R413) -/

/-- Whether a circuit has a die's port at either end. -/
def onDie (d : DieNo) (c : Circuit) : Bool :=
  let c := inForce c
  decide (c.src.toNat = d.toNat) || decide (c.dst.toNat = d.toNat)

/-- A die's circuits go down; those that were up are remembered, to be restored (R413, R415). -/
def dropCircuits (s : State) (d : DieNo) : State :=
  let up := (s.host.circuits.filter fun e => onDie d e.2 && e.2.st = 2).map fun e => e.1
  let cs := (s.host.circuits.filter fun e => onDie d e.2).foldl (fun m e => amSet Circuit.zero m e.1 { e.2 with st := 0, held := none }) s.host.circuits
  updDie { s with host := { s.host with circuits := cs } } d fun x => { x with circuits := dedup (x.circuits ++ up) }

/-- The circuits of a die that were up come up again, where nothing forbids it. -/
def restoreCircuits (s : State) (d : DieNo) : State :=
  let s' := (dieOf s d).circuits.foldl (fun s i =>
    let i : BitVec 8 := BitVec.ofNat 8 i
    let c := circuitAt s i
    if c.v && c.st = 0 && !circuitBad s i c then setCircuit s i { c with st := 2 } else s) s
  updDie s' d fun x => { x with circuits := [] }

/-- Replicas on a die that is withdrawn or lost are reclaimed (R372). -/
def dropReplicas (s : State) (d : DieNo) : State :=
  ((s.replicas.filter fun r => homeDie (r.copy * 65536) = d).map fun r => r.copy).foldl reclaimReplica s

/-- Every line homed on the die is written back, and its bit leaves every touched-dies mask (R328, R413). -/
def untouch (s : State) (d : DieNo) : State :=
  s.ctxs.foldl (fun s c =>
    let w := memNat s (c.desc + 0x58) 1
    if w.testBit d.toNat then { s with mem := putNat s.mem (c.desc + 0x58) 1 (w - 2 ^ d.toNat) } else s)
    { s with ctxs := s.ctxs.map fun c =>
        { c with dirty := c.dirty &&& ~~~dieBit d, lines := c.lines.filter fun l => homeDie (64 * l) ≠ d } }

/-! ### Withdrawal and reset (R413, R414) -/

/-- A management response. -/
def respond (s : State) (f : FuncNo) (status : Byte) (data : List Byte) : State := send s (.mgmt f status data)

/-- Whether an image is accepted under a fused version: its signature and its version; plug-ins are not signed (R424). -/
def imageOk (version : Word) (i : BootImage) : Bool :=
  match i.level with
  | .plugin _ => true
  | _ => i.verifies && decide (version ≤ i.version)

/-- Whether the images of one control processor hold a monitor and a scheduler, and all verify (R424). -/
def imagesOk (version : Word) (mine : List BootImage) : Bool :=
  (mine.any fun i => i.level = .monitor) && (mine.any fun i => i.level = .scheduler) && mine.all (imageOk version)

/-- The highest version among the signed images. -/
def imagesVersion (version : Word) (mine : List BootImage) : Word :=
  mine.foldl (fun v i => match i.level with | .plugin _ => v | _ => if v < i.version then i.version else v) version

/-- The image that staged chunks make. -/
def stagedImage (d : DieNo) (bytes : List Byte) : BootImage :=
  let level := match Config.imagePlugin bytes with
    | some vf => ImageLevel.plugin vf
    | none => if Config.imageMonitor bytes then .monitor else .scheduler
  ⟨d.toNat, level, Config.imageVersion bytes, Config.imageDigest bytes, Config.imageVerifies bytes⟩

/-- What a die boots from at a reset: a staged image takes the place of the one of its level, and the others stay, which
verify as before (R424). -/
def bootStaged (d : DieNo) (x : Die) : Die :=
  if x.staged.isEmpty then x
  else
    let new := stagedImage d x.staged
    let images := (x.images.filter fun i => i.level ≠ new.level) ++ [new]
    let ok := imageOk x.version new && (x.boot = some true || imagesOk x.version images)
    { x with
      staged := [], boot := some ok, images := images
      version := if ok then imagesVersion x.version [new] else x.version }

/-- RESETTING begins: TERR is unsynchronised, and every image that the die boots from is measured (R384, R424). -/
def beginReset (s : State) (d : DieNo) : State :=
  updDie s d fun x =>
    let x := bootStaged d { x with st := .resetting, bypass := true, fails := 0, retraining := false, terr := 0xFFFFFFFF, backlog := 0 }
    { x with log := x.log ++ x.images.map fun i => i.digest }

/-- Grids with kernel clusters on a die are asked to withdraw from it. -/
def askLeave (s : State) (d : DieNo) : State :=
  { s with grids := s.grids.map fun g =>
      if (kcsOf s g.id).any (fun k => (match k.place with | some p => decide (p.die = d) | none => false)) && !g.leaving.contains d
      then { g with leaving := g.leaving ++ [d] } else g }

/-- WARM_RESET (R413, R414, R427): the die's state is looked at first, and only an ONLINE die takes the deadline.
DEDUCED, unsafe: log entry 28. -/
def execWarmReset (f : FuncNo) (die : DieNo) (ms : Nat) (s : State) : Host.Outcome State Fault Refusal :=
  .next (
    if f ≠ 0 then respond s f 3 []
    else match (dieOf s die).st with
      | .failed => respond s f 3 []
      | .online =>
        if ms = 0 || decide (1000 < ms) then respond s f 2 []
        else respond (askLeave (updDie s die fun x => { x with st := .withdrawing, deadline := ms }) die) f 0 []
      | .lost => respond (beginReset (dropCircuits s die) die) f 0 []
      | _ => respond s f 1 [])

/-- The kernel clusters placed on a die. -/
def kcsOnDie (s : State) (d : DieNo) : List Kc :=
  s.kcs.filter fun k => match k.place with | some p => decide (p.die = d) | none => false

/-- WITHDRAW_DONE (R413) -/
def execWithdrawDone (die : DieNo) (s : State) : Host.Outcome State Fault Refusal :=
  .next (
    if (dieOf s die).st = .withdrawing && (kcsOnDie s die).isEmpty then
      let s := { s with grids := s.grids.map fun g => { g with leaving := g.leaving.filter fun x => x ≠ die } }
      updDie (dropReplicas (untouch s die) die) die fun x => { x with st := .bypass, bypass := true }
    else s)

/-- No grid is asked any more to leave a die. -/
def forgetLeave (s : State) (d : DieNo) : State :=
  { s with grids := s.grids.map fun g => { g with leaving := g.leaving.filter fun x => x ≠ d } }

/-- WITHDRAW_DEADLINE (R414): the forced withdrawal; the die stays in the grids' die sets (R429). -/
def execWithdrawDeadline (die : DieNo) (s : State) : Host.Outcome State Fault Refusal :=
  .next (
    if (dieOf s die).st = .withdrawing then forceStop (forgetLeave s die) 6 ((kcsOnDie s die).filter isRunning) else s)

/-- WRITEBACK_DONE (R413): the circuits drain and go down. -/
def execWritebackDone (die : DieNo) (s : State) : Host.Outcome State Fault Refusal :=
  .next (if (dieOf s die).st = .bypass then beginReset (dropCircuits s die) die else s)

/-- A failed self-test or training: the second makes the die FAILED (R413).
DEDUCED, unsafe: log entry 61. -/
def failOnce (x : Die) : Die := if 1 ≤ x.fails then { x with fails := x.fails + 1, st := .failed } else { x with fails := x.fails + 1 }

/-- A faulty crucible clears CAPS bits, or takes its core out of service (R418). -/
def harvest (x : Die) (c : CoreFault) : Die :=
  let bits : BitVec 4 := (if c.rows then 3 else 0) ||| (if c.cols then 5 else 0)
  { x with
    capsOff := amModify 0 x.capsOff c.core fun b => b ||| bits
    outOf := if c.corner then dedup (x.outOf ++ [c.core]) else x.outOf }

/-- SELFTEST_DONE (R413, R418); a die whose image failed verification stays in RESETTING (R424). -/
def execSelftestDone (o : SelftestOps) (s : State) : Host.Outcome State Fault Refusal :=
  .next (
    let x := dieOf s o.die
    if x.st = .resetting && x.boot = some true then
      updDie s o.die fun x =>
        let x := o.faults.foldl harvest x
        if o.pass then { x with st := .training, fails := 0, terr := 0xFFFFFFFF } else failOnce x
    else s)

/-- UCIE_TRAINED (R413): in TRAINING the circuits are restored; a retraining ends. -/
def execUcieTrained (die : DieNo) (pass : Bool) (s : State) : Host.Outcome State Fault Refusal :=
  .next (
    let x := dieOf s die
    if x.st = .training then
      if pass then updDie (restoreCircuits s die) die fun x => { x with st := .syncing, fails := 0, retraining := false }
      else updDie s die failOnce
    else if pass then updDie s die fun x => { x with retraining := false }
    else s)

/-! ### Time (R382 to R385) -/

/-- A correction towards a source's time: a step forward, or a backlog to be absorbed backward (R384). -/
def correctTime (x : Die) (time : DWord) (terr : Nat) : Die :=
  if x.time ≤ time then { x with time := time, backlog := 0, terr := BitVec.ofNat 32 terr }
  else { x with backlog := (x.time - time).toNat, terr := BitVec.ofNat 32 terr }

/-- Whether a die has had its first handshake since its reset (R384). -/
def clocked (x : Die) : Bool := x.st = .online || x.st = .withdrawing || x.st = .bypass

/-- TIME_SOURCE_LOSS (R384) -/
def execTimeSourceLoss (die : DieNo) (s : State) : Host.Outcome State Fault Refusal :=
  .next (updDie s die fun x => { x with terr := 0xFFFFFFFF })

/-- A correction by the source that TIMESRC selects, within its bound; not of a die before its first handshake (R384). -/
def stampTime (s : State) (o : TimeStamp) : State :=
  updDie s o.die fun x => if clocked x then correctTime x o.time (min o.bound.toNat (terrBound s.host.timesrc)) else x

/-- PTM_EXCHANGE (R385, R393) -/
def execPtmExchange (o : TimeStamp) (s : State) : Host.Outcome State Fault Refusal :=
  .next (
    let s := { s with host := { s.host with ptmoff := o.offset } }
    if s.host.timesrc = 1 then stampTime s o else s)

/-! ### Precision time (R385) -/

/-- What IEEE 1588 compares of two clocks' Announce data, in its order. -/
def ptpKey (p : PtpData) : List Nat := [p.prio1, p.klass, p.accuracy, p.variance, p.prio2, p.ident]

/-- Whether the first list is lexicographically below the second. -/
def listBelow : List Nat → List Nat → Bool
  | a :: as, b :: bs => decide (a < b) || (decide (a = b) && listBelow as bs)
  | _, _ => false

/-- Whether one clock's data are better than another's, by the default comparison: of one grandmaster the fewer steps
removed, then the lower sender; of two the lower key. -/
def ptpBetter (a b : PtpData) : Bool :=
  if a.ident = b.ident then listBelow [a.steps, a.sender] [b.steps, b.sender] else listBelow (ptpKey a) (ptpKey b)

/-- Whether the better of two is so by topology only: one grandmaster at equal distance. -/
def ptpSameWay (a b : PtpData) : Bool := a.ident = b.ident && a.steps = b.steps

/-- The best of the data that the ports have received. -/
def ptpBestOf (fab : Fabric) : Option PtpData :=
  (List.range 18).foldl (fun acc l => match amGet none fab.ptpBest l, acc with
    | some a, some b => if ptpBetter a b then some a else some b
    | some a, none => some a
    | none, acc => acc) none

/-- The role of a port by the default best master clock algorithm (R385).
PRESUMED, unsafe: log entry 102. -/
def ptpRole (fab : Fabric) (link : Nat) : PtpRole :=
  let own := fab.ptpOwn
  let here := amGet none fab.ptpBest link
  if own.klass ≤ 127 then
    match here with
    | some e => if ptpBetter own e then .master else .passive
    | none => .master
  else
    match ptpBestOf fab with
    | none => .master
    | some best =>
      if ptpBetter own best then .master
      else if here = some best then .slave
      else match here with
        | some e => if ptpSameWay best e then .passive else .master
        | none => .master

/-- An Announce message that a port receives: the data of its sender, or better data. -/
def ptpHear (s : State) (link : Nat) (p : PtpData) : State :=
  let take := match amGet none s.fab.ptpBest link with
    | some q => decide (q.sender = p.sender) || ptpBetter p q
    | none => true
  if take then { s with fab := { s.fab with ptpBest := amSet none s.fab.ptpBest link (some p) } } else s

/-- A port sends a message of the clock's domain. -/
def ptpSend (s : State) (link : Nat) (kind : PtpKind) (stamp : Option DWord) (data : Option PtpData) : State :=
  send s (.ptp link ⟨kind, s.fab.ptpDomain, stamp, data⟩)

/-- What the clock announces: its own data, or those of the grandmaster that a slave port follows, one step further. -/
def ptpAnnounced (fab : Fabric) : PtpData :=
  match (List.range 18).find? fun l => ptpRole fab l = .slave with
  | some l => (match amGet none fab.ptpBest l with
      | some p => { p with steps := p.steps + 1, sender := fab.ptpOwn.ident }
      | none => fab.ptpOwn)
  | none => fab.ptpOwn

/-- A port in the master role sends an Announce, and a Sync with its timestamp, or a Sync and the timestamp in a
Follow_Up: one-step or two-step, and whether now, are free (R385).
DESIGN CHOICE, safe: log entry 102. -/
def ptpMaster (time : DWord) (s : State) (link : Nat) : State :=
  if s.fab.linksDown.contains link || ptpRole s.fab link ≠ .master then s
  else
    let announced := if Config.freeBit s.fresh (2 ^ 23 + 32 + link) then ptpSend s link .announce none (some (ptpAnnounced s.fab)) else s
    match Config.freeNat s.fresh (256 + link) % 3 with
    | 0 => announced
    | 1 => ptpSend announced link .sync (some time) none
    | _ => ptpSend (ptpSend announced link .sync none none) link .followUp (some time) none

/-- PTP_MESSAGE (R385): domains 0 to 127, no peer delay. A port in the slave role takes corrections and answers a Sync
by a Delay_Req; one in the master role answers a Delay_Req by a Delay_Resp with the time of its arrival, which is free. -/
def execPtpMessage (o : PtpMessage) (s : State) : Host.Outcome State Fault Refusal :=
  .next (
    if decide (127 < o.domain) || o.domain ≠ s.fab.ptpDomain || o.kind = .pdelay || decide (18 ≤ o.link) || s.fab.linksDown.contains o.link then s
    else
      let role := ptpRole s.fab o.link
      let s := match o.stamp with
        | some t => if s.host.timesrc = 2 && role = .slave && o.kind ≠ .delayReq && o.kind ≠ .announce then stampTime s t else s
        | none => s
      match o.kind with
      | .sync => if role = .slave then ptpSend s o.link .delayReq none none else s
      | .delayReq => if role = .master then bump (ptpSend s o.link .delayResp (some (Config.freeWord s.fresh 300 ++ Config.freeWord s.fresh 301)) none) else s
      | .announce => (match o.data with
          | some p => ptpHear s o.link p
          | none => s)
      | _ => s)

/-- PACKAGE_CLOCK_HANDSHAKE (R382, R413): after the first one the die is ONLINE and bypass ends; later ones discipline
its TIME to the package clock, with which it is synchronised where that is the source. TERR is some value within its
bound. The ports of the precision clock take the package clock's time (R385).
DESIGN CHOICE, safe: log entry 62. -/
def execPackageClockHandshake (die : DieNo) (time : DWord) (s : State) : Host.Outcome State Fault Refusal :=
  .next (
    let x := dieOf s die
    let send := fun (s : State) => bump ((List.range 18).foldl (ptpMaster time) s)
    let terr := Config.freeNat s.fresh 3 % (terrBound s.host.timesrc + 1)
    if x.st = .syncing then
      send (updDie s die fun x => { correctTime x time terr with st := .online, bypass := false, fails := 0 })
    else if clocked x then
      send (updDie s die fun x => correctTime x time (if s.host.timesrc = 0 then terr else x.terr.toNat))
    else s)

/-! ### Fatal events (R413, R415, R416) -/

/-- DIE_LOST of a context: one frame, and its grids end with CAUSE 0x10. -/
def loseCtx (s : State) (c : Ctx) : State :=
  let t : Trap := ⟨cDieLost, 0, false, true, 0, 0, 0, 0, 0, 0, 0, [], 0⟩
  let s : State := { s with frames := s.frames ++ [⟨c.asid, .context, t, 0, 0, 0, 0xFFFF⟩] }
  ((s.grids.filter fun g => g.asid = c.asid).map fun g => g.id).foldl (fun s g => endGrid s g 2 cDieLost.toNat) s

/-- The lines dirty in a lost die's L2 are lost: which of those that its contexts have written were still dirty, and what
memory then holds there, is free (R415).
DESIGN CHOICE, safe: log entry 84. -/
def loseLines (s : State) (d : DieNo) : State :=
  let lines := dedup (s.ctxs.flatMap fun c => c.lines.filter fun l => homeDie (64 * l) = d)
  let gone := lines.filter fun l => Config.freeBit s.fresh (2 ^ 22 + l)
  let old := fun (l : Nat) => (List.range 64).map fun i => (Config.freeWord s.fresh (2 ^ 32 + 64 * l + i)).setWidth 8
  bump { s with
    mem := gone.foldl (fun m l => putBytes m (64 * l) (old l)) s.mem
    ctxs := s.ctxs.map fun c => { c with dirty := c.dirty &&& ~~~dieBit d, lines := c.lines.filter fun l => homeDie (64 * l) ≠ d } }

/-- Whether a transfer has still to reach a stack of a die. -/
def touchesDie (s : State) (d : DieNo) (t : Transfer) : Bool :=
  let at' := fun (va : Nat) => match (ctxOf? s t.asid).map fun c => walkBoth s c va with
    | some (.ok x) => isLocal x.pa 1 && decide (homeDie x.pa = d)
    | _ => false
  t.legs.any fun l => l.todo.any fun e => (t.dspace = .global && at' e.1) || (t.sspace = .global && at' e.2)

/-- The ladle transfers that touch a lost die end under R291 (R415).
DEDUCED, unsafe: log entry 40. -/
def endTransfersOn (s : State) (d : DieNo) : State :=
  (s.transfers.filter (touchesDie s d)).foldl (fun s t => endTransfer s t ⟨9, cDieOffline, 0, t.block, false, false, false⟩) s

/-- A fatal event: its dirty lines are lost, the contexts that touched the die are told, transfers to its stacks end, its
circuits go down at once, it is LOST. -/
def loseDie (s : State) (d : DieNo) : State :=
  let x := dieOf s d
  if x.st = .failed || x.st = .lost then s
  else
    let hit := s.ctxs.filter fun c => (touchedOf s c).getLsbD d.toNat
    let s := forgetLeave (endTransfersOn (hit.foldl loseCtx (loseLines s d)) d) d
    updDie (dropReplicas (dropCircuits s d) d) d fun x =>
      { x with st := .lost, bypass := decide (x.st ≠ .online ∧ x.st ≠ .withdrawing) && x.bypass, retraining := false, terr := 0xFFFFFFFF }

/-- UCIE_RETRAIN_START (R413): the 5 ms limit starts. -/
def execUcieRetrainStart (die : DieNo) (s : State) : Host.Outcome State Fault Refusal :=
  .next (
    let x := dieOf s die
    if x.st = .failed || x.st = .lost then s else updDie s die fun x => { x with retraining := true })

/-- UCIE_RETRAIN_TIMEOUT (R413) -/
def execUcieRetrainTimeout (die : DieNo) (s : State) : Host.Outcome State Fault Refusal :=
  .next (if (dieOf s die).retraining then loseDie s die else s)

/-- FATAL_REPORT (R413) -/
def execFatalReport (die : DieNo) (s : State) : Host.Outcome State Fault Refusal := .next (loseDie s die)

/-- HEARTBEAT_MISS (R413): the third in a row. -/
def execHeartbeatMiss (die : DieNo) (s : State) : Host.Outcome State Fault Refusal := .next (loseDie s die)

/-- LOST_BYPASS_ENTER (R415) -/
def execLostBypassEnter (die : DieNo) (s : State) : Host.Outcome State Fault Refusal :=
  .next (if (dieOf s die).st = .lost then updDie s die fun x => { x with bypass := true } else s)

/-! ### Firmware (R422 to R424) -/

/-- The routing die's images (number 4) are verified and measured, at its reset (R424).
DEDUCED, unsafe: log entry 63. -/
def bootRouting (s : State) (images : List BootImage) : State :=
  let mine := images.filter fun i => i.die = 4
  if s.fab.rboot.isSome then s
  else
    let ok := imagesOk s.fab.rversion mine
    { s with fab := { s.fab with
      rboot := some ok
      rversion := if ok then imagesVersion s.fab.rversion mine else s.fab.rversion
      rlog := s.fab.rlog ++ mine.map fun i => i.digest } }

/-- The images of one die are measured and verified; nothing verifies without the routing die's boot. The scheduler then
sets its parameters, at values that are free (R422, R424).
DEDUCED, unsafe: log entry 63; DESIGN CHOICE, safe: log entry 103. -/
def bootDie (s : State) (images : List BootImage) (d : DieNo) : State :=
  let mine := images.filter fun i => i.die = d.toNat
  let free := fun (i : Nat) => Config.freeNat s.fresh (32 + 8 * d.toNat + i)
  if (dieOf s d).st = .resetting && (dieOf s d).boot.isNone then
    updDie s d fun x =>
      let ok := s.fab.rboot = some true && imagesOk x.version mine
      { x with
        boot := some ok
        version := if ok then imagesVersion x.version mine else x.version
        images := mine
        log := x.log ++ mine.map fun i => i.digest
        replThreshold := if ok then free 0 else x.replThreshold
        poolReserve := if ok then free 1 else x.poolReserve
        meterUs := if ok then 1 + free 2 % 100 else x.meterUs
        currentClamp := if ok then free 3 % (Config.fusedCurrent d.toNat + 1) else x.currentClamp }
  else s

/-- The rated rate of a link in MB/s: the host link is 0, Daryesh link p is p + 1 (R389, R399). -/
def ratedRate (i : Nat) : Nat := if i = 0 then 128000 else 400000

/-- The routing die's monitor, once it has verified, sets the limits of R423, at values within their bounds, and locks
them.
DESIGN CHOICE, safe: log entry 103. -/
def lockLimits (s : State) : State :=
  if s.fab.monitorLocked || s.fab.rboot ≠ some true then s
  else
    { s with fab := { s.fab with
      monitorLocked := true
      powerLimit := Config.freeNat s.fresh 96 % 3201
      linkCaps := (List.range 19).map fun i => (i, Config.freeNat s.fresh (97 + i) % (ratedRate i + 1)) } }

/-- DEVICE_BOOT (R423, R424): images are verified and measured, and the monitors lock the limits. -/
def execDeviceBoot (images : List BootImage) (s : State) : Host.Outcome State Fault Refusal :=
  .next (
    let s := ([0, 1, 2, 3] : List DieNo).foldl (fun s d => bootDie s images d) (bootRouting s images)
    bump (lockLimits s))

/-- A limit that the PF driver may have lowered: a locked one never rises (R423). -/
def lowered (s : State) (i old : Nat) : Nat := if Config.freeBit s.fresh (2 ^ 23 + 64 + i) then min old (Config.freeNat s.fresh (320 + i)) else old

/-- The PF driver lowers limits, by means that the spec does not give: which, and how far, is free (R423).
DESIGN CHOICE, safe: log entry 103. -/
def lowerLimits (s : State) : State :=
  if !s.fab.monitorLocked then s
  else bump { s with
    fab := { s.fab with powerLimit := lowered s 0 s.fab.powerLimit, linkCaps := s.fab.linkCaps.map fun e => (e.1, lowered s (5 + e.1) e.2) }
    dies := s.dies.zipIdx.map fun x => { x.1 with currentClamp := lowered s (1 + x.2) x.1.currentClamp } }

/-- POWER_CLAMP (R423): the arithmetic clocks slow while it binds; the limit may have been lowered before. -/
def execPowerClamp (binds : Bool) (s : State) : Host.Outcome State Fault Refusal :=
  let s := lowerLimits s
  .next { s with fab := { s.fab with clamp := binds } }

/-- S_MODE_FAULT (R422): the monitor restarts S mode; placement goes on under the last parameters, and nothing that a
program or the host sees changes. -/
def execSModeFault (die : DieNo) (s : State) : Host.Outcome State Fault Refusal :=
  .next (updDie s die fun x => { x with restarting := true })

/-- PLUGIN_FAULT (R422): the plug-in of a VF on a die is stopped; the tenant is not otherwise affected. -/
def execPluginFault (die : DieNo) (vf : FuncNo) (s : State) : Host.Outcome State Fault Refusal :=
  .next (updDie s die fun x => { x with stopped := dedup (x.stopped ++ [vf]) })

end Sys2Proof.Machine
end

