-- ==== Sys2Proof/Machine/Fabric.lean ====
section
/-! DEFINITION. The Daryesh fabric, completions that fail, and management (R396, R399 to R403, R421, R424 to R427). -/

namespace Sys2Proof.Machine

/-! ### Failing requests (R396, R400) -/

/-- COMPLETION_TIMEOUT (R396) -/
def execCompletionTimeout (req : Nat) (s : State) : Host.Outcome State Fault Refusal :=
  .next (match s.requests.find? fun r => r.id = req with
    | some r => (match r.target with
        | .window _ _ => answer s req .linkError
        | .fabric _ _ _ => s)
    | none => s)

/-- Whether a request travels on a Daryesh link (R399). -/
def onLink (link : Nat) (r : Request) : Bool :=
  match r.target with
  | .window _ _ => false
  | .fabric _ _ _ => decide (r.plane = link)

/-- LINK_FAILURE (R400): each request outstanding on the link fails. -/
def execLinkFailure (link : Nat) (s : State) : Host.Outcome State Fault Refusal :=
  .next (
    if decide (18 ≤ link) || s.fab.linksDown.contains link then s
    else
      let hit := (s.requests.filter (onLink link)).map fun r => r.id
      let s := { s with fab := { s.fab with linksDown := s.fab.linksDown ++ [link] } }
      hit.foldl (fun s i => answer s i .linkError) s)

/-- FLIT_REPLAY (R399): the flit is sent again, and nothing but time changes. -/
def execFlitReplay (_ : Nat) (s : State) : Host.Outcome State Fault Refusal := .next s

/-! ### Requests from peers (R401 to R403) -/

/-- What a request needs (R342, R401). -/
def remoteNeed : RemoteKind → Need
  | .load _ => { r := true }
  | .store _ _ => { w := true }
  | .atom _ _ _ _ => { r := true, w := true, atomic := true }
  | .page fn _ _ => if fn = 4 then { r := true, page := true } else { w := true, page := true }

/-- The bytes a request spans. -/
def remoteSize : RemoteKind → Nat
  | .load n => n
  | .store b _ => b.length
  | .atom _ wide _ _ => if wide then 8 else 4
  | .page _ _ _ => 1

/-- Whether an export lets a request in. -/
def exportAllows (e : Export) (o : RemoteOps) : Bool :=
  let n := remoteNeed o.kind
  e.v && decide (o.off < e.size.toNat * 65536) && (e.sdev = 0x1FF || decide (e.sdev.toNat = o.dev)) && (e.svf = 0x3F || e.svf = o.f) &&
    (!n.page || e.ap) && (!n.r || n.page || e.r) && (!n.w || n.page || e.w)

/-- The request that a PAGE code and value stand for (R361). -/
def pageReqOf (fn op : BitVec 3) (val : List Byte) : PageReq :=
  match fn with
  | 0 => .reserve (bytesToNat val)
  | 1 => .commit
  | 2 => .append val
  | 3 => .close (op = 1)
  | _ => .tail (op = 1)

/-- The answer of a home that refuses an access: poison, or a cause of row 9 (R249, R357). -/
def homeAnswer (b : Byte) : Answer :=
  if b = cDataPoison then .poisoned
  else .append (if b = cWriteAfterSeal then .sealed else if b = cAppendOutside then .outside else .beyond)

/-- The lanes of a PAGE request at its home, one after the other: four bytes each, or the cause of the first that fails,
and then no lane has taken effect (R249, R361). -/
def remotePages (s : State) (c : Ctx) (f : Nat) (fn op : BitVec 3) : List (Nat × List Byte) → Except Byte (State × List Byte)
  | [] => .ok (s, [])
  | l :: ls =>
    match pageAt s c f (l.1 % 65536) (pageReqOf fn op l.2) with
    | (s', .ok v) => (match remotePages s' c f fn op ls with
      | .ok r => .ok (r.1, natToBytes 4 v ++ r.2)
      | .error b => .error b)
    | (_, .error b) => .error b

/-- A request performed on a part of local memory at its home. -/
def remoteMem (s : State) (c : Ctx) (k : RemoteKind) (pa : Nat) (cls : BitVec 2) : State × Answer :=
  match k with
  | .load n => (s, .data (memRead s pa n))
  | .store b poison =>
    let s := ctxWrite s c pa cls b
    (if poison then { s with memPoison := dedup (s.memPoison ++ partsOf pa b.length) } else s, .data [])
  | .atom op wide b new =>
    let n := if wide then 8 else 4
    let old := memNat s pa n
    let v := if op.toNat < 6 then atomComb op.toNat wide old b.toNat else atomSwap op.toNat old b.toNat new.toNat
    (ctxWrite s c pa cls (natToBytes n v), .data (natToBytes n old))
  | .page fn op vals =>
    match remotePages s c (frameNo pa) fn op vals with
    | .ok (s', b) => (s', .data b)
    | .error b => (s, homeAnswer b)

/-- The kind of a request that is relayed. -/
def relayKind : RemoteKind → ReqKind
  | .load n => .load n
  | .store b poison => .store b poison
  | .atom op wide b new => .atom op wide b new
  | .page fn op vals => .page fn op vals

/-- Whether a peer's atomic may not go to a host window, whose host takes only the operations of R259 at system scope and
while ATOMC is set: the target denies it (R389, R402). -/
def relayDenied (s : State) (o : RemoteOps) (w : Way) : Bool :=
  match o.kind with
  | .atom op _ _ _ => windowRefuses s op.toNat o.scope w
  | _ => false

/-- A peer's request that goes on to the host or to another peer: a store to a host window is posted, so that nothing
answers it there and its target acknowledges it at once (R240, R396); anything else waits for its answer. -/
def relay (s : State) (c : Ctx) (o : RemoteOps) (p : Piece) (tg : Target) : State × Option Answer :=
  let r : Request := ⟨s.nextId, none, [], 0, o.dev + 1, p.va, o.scope, c.asid, tg, relayKind o.kind, [], 0⟩
  if relayDenied s o p.way then (s, some .linkError)
  else if postedTo (remoteNeed o.kind) tg then
    (if circuitUp? s 13 12 then sendReq s { r with dst := 0 } true else s, some (.data []))
  else if targetPort tg ≠ 13 && !circuitUp? s 13 (targetPort tg) then (s, some .offline)
  else (sendReq s r false, none)

/-- A permitted piece of a remote request, which comes in at port 13: none when its answer comes later, from the host or
another peer.
DEDUCED, unsafe: log entry 60. -/
def remotePiece (s : State) (c : Ctx) (o : RemoteOps) (p : Piece) : State × Option Answer :=
  match p.way with
  | .mem pa cls =>
    if portOffline s 13 pa (!cached s pa cls) then (s, some .offline)
    else
      match homeLate s (frameEntry s (frameNo pa)) (remoteNeed o.kind) pa p.n cls with
      | some b => (s, some (homeAnswer b))
      | none => match remoteMem s c o.kind pa cls with
        | (s, a) => (s, some a)
  | .door a i _ => if doorOffline s 13 a i then (s, some .offline) else (ringOnce s a i o.release, some (.data []))
  | w =>
    match targetOf w with
    | some tg => relay s c o p tg
    | none => (s, some .linkError)

/-- A doorbell store for a context that has left: forwarded, or dropped once the entry is removed (R421). -/
def forwardedDoor (s : State) (e : Export) (o : RemoteOps) (va : Nat) : Option State :=
  if (s.host.forwards.any fun x => x.asid = e.asid) && decide (0xFFFFFFF00000 ≤ va) then
    match o.kind with
    | .store b _ =>
      if (b.length = 4 || b.length = 8) && va % b.length = 0 && decide (va % 64 + b.length ≤ 8)
      then some (ringOnce s e.asid ((va - 0xFFFFFFF00000) / 64) o.release) else none
    | _ => none
  else none

/-- Whether a piece is a doorbell's. -/
def isDoor (p : Piece) : Bool := match p.way with | .door _ _ _ => true | _ => false

/-- A request at an export: refused without effect, or performed (R402). A context suspended for migration takes
doorbell stores only (R421). -/
def remote (s : State) (o : RemoteOps) : State × Option Answer :=
  let e := amGet Export.zero s.host.exports o.exp.toNat
  let va := (e.vabase.toNat + o.off) % 2 ^ 48
  let n := remoteSize o.kind
  if !exportAllows e o || n = 0 || (o.kind matches .atom .. && va % n ≠ 0) then (s, some .linkError)
  else match ctxOf? s e.asid with
    | none => (match forwardedDoor s e o va with
        | some s => (s, some (.data []))
        | none => (s, some .linkError))
    | some c =>
      match resolve s c (remoteNeed o.kind) true va n with
      | (s', .ok [p]) =>
        if c.suspended && !isDoor p then (s, some .linkError)
        else match remotePiece s' c o p with
          | (t, some a) => (if gotData a then t else s, some a)
          | r => r
      | _ => (s, some .linkError)

/-- REMOTE_REQUEST (R402, R403): the answer goes back to the peer. -/
def execRemoteRequest (o : RemoteOps) (s : State) : Host.Outcome State Fault Refusal :=
  .next (match remote s o with
    | (s, some a) => send s (.peer o.dev a)
    | (s, none) => s)

/-! ### Management (R421, R424 to R427) -/

/-- The codes of DIE_STATUS (R427). -/
def dieCode (x : Die) : Byte :=
  match x.st with
  | .online => 0
  | .withdrawing => 1
  | .bypass => 2
  | .resetting => if x.boot = some false then 7 else 3
  | .training => 4
  | .syncing => 5
  | .lost => 6
  | .failed => 7

/-- A command of the PF; a VF's is refused (R427).
DEDUCED, unsafe: log entry 70. -/
def manage (s : State) (f : FuncNo) (k : State) : State := if f = 0 then k else respond s f 3 []

/-- CAPS of a die's 48 cores, a byte each. -/
def capsBytes (s : State) (d : DieNo) : List Byte := (List.range 48).map fun c => (coreCaps s d c).setWidth 8

/-- DIE_STATUS (R427) -/
def execDieStatus (f : FuncNo) (die : DieNo) (s : State) : Host.Outcome State Fault Refusal :=
  .next (manage s f (respond s f 0 (dieCode (dieOf s die) :: capsBytes s die)))

/-- ERR_READ (R427) -/
def execErrRead (f : FuncNo) (die : DieNo) (s : State) : Host.Outcome State Fault Refusal :=
  .next (manage s f (
    let x := dieOf s die
    if x.st = .failed then respond s f 3 []
    else respond s f 0 (natToBytes 8 x.corrected.toNat ++ natToBytes 8 x.uncorrected.toNat ++ natToBytes 8 x.consumed.toNat)))

/-- ENERGY_READ (R426, R427) -/
def execEnergyRead (f : FuncNo) (o : EnergyOf) (s : State) : Host.Outcome State Fault Refusal :=
  .next (manage s f (match o with
    | .die d => if (dieOf s d).st = .failed then respond s f 3 [] else respond s f 0 (natToBytes 8 (dieOf s d).energy.toNat)
    | .asid a => (match ctxOf? s a with
        | some c => respond s f 0 (natToBytes 8 c.energy.toNat)
        | none => respond s f 2 [])))

/-- The arrivals counted for a context go to the destination of its forwarding entry (R421). -/
def sendCounted (s : State) (c : Ctx) (dev : BitVec 9) (exp : BitVec 5) : State :=
  let s := c.counted.foldl (fun s e =>
    { send s (.fabricReq s.nextId (.fabric dev.toNat exp.toNat (64 * e.1)) (.door e.2 false) 0) with nextId := s.nextId + 1 }) s
  updCtx s c.asid fun x => { x with counted := [] }

/-- DB_FORWARD (R421) -/
def execDbForward (f : FuncNo) (asid : Asid) (dev : BitVec 9) (exp : BitVec 5) (s : State) : Host.Outcome State Fault Refusal :=
  .next (manage s f (match ctxOf? s asid with
    | none => respond s f 2 []
    | some c =>
      if 287 < dev then respond s f 2 []
      else
        let fw := (s.host.forwards.filter fun x => x.asid ≠ asid) ++ [⟨asid, c.vf, c.slot, dev, exp, true⟩]
        respond { sendCounted s c dev exp with host := { s.host with forwards := fw } } f 0 []))

/-- The forwarding entries without that of a context; one that has left keeps it without effect (R392, R421). -/
def unforward (s : State) (asid : Asid) : List Forward :=
  s.host.forwards.flatMap fun x => if x.asid ≠ asid then [x] else if (ctxOf? s asid).isSome then [] else [{ x with live := false }]

/-- DB_UNFORWARD (R421) -/
def execDbUnforward (f : FuncNo) (asid : Asid) (s : State) : Host.Outcome State Fault Refusal :=
  .next (manage s f (
    if s.host.forwards.any fun x => x.asid = asid && x.live then
      respond { s with host := { s.host with forwards := unforward s asid } } f 0 []
    else respond s f 2 []))

/-- The report of R425: versions and logs of the dies, which hold the measurements of images and plug-ins, CAPS of every
core, version and log of the routing die, and the nonce. -/
def report (s : State) (nonce : BitVec 256) : List Byte :=
  (([0, 1, 2, 3] : List DieNo).flatMap fun d =>
    let x := dieOf s d
    natToBytes 4 x.version.toNat ++ capsBytes s d ++ x.log.flatMap fun h => natToBytes 32 h.toNat) ++ natToBytes 4 s.fab.rversion.toNat ++
    (s.fab.rlog.flatMap fun h => natToBytes 32 h.toNat) ++ natToBytes 32 nonce.toNat

/-- ATTEST (R425): each signature uses a fresh index of 2^20. -/
def execAttest (f : FuncNo) (nonce : BitVec 256) (s : State) : Host.Outcome State Fault Refusal :=
  .next (manage s f (
    if 2 ^ 20 ≤ s.fab.attestIdx then respond s f 4 []
    else
      let r := report s nonce
      respond { s with fab := { s.fab with attestIdx := s.fab.attestIdx + 1 } } f 0
        (r ++ Config.attestSignature s.fab.attestIdx r)))

/-- FW_STAGE (R424): a chunk is staged for every die's next warm reset. -/
def execFwStage (f : FuncNo) (chunk : List Byte) (s : State) : Host.Outcome State Fault Refusal :=
  .next (manage s f (respond { s with dies := s.dies.map fun x => { x with staged := x.staged ++ chunk } } f 0 []))

end Sys2Proof.Machine
end

