-- ==== Sys2Proof/Machine/Fx.lean ====
section
/-! DEFINITION. The transcendental and root functions of FX (R129, R130). `rcp` and `sqrt` are correctly
rounded. For the others the exact result is enclosed by fixed-point arithmetic of 256 fraction bits, the
values within the accuracy bound are listed, and `Config.fxChoice` picks one of them: which one the spec
leaves open, but for the exact cases of R130. -/

namespace Sys2Proof.Machine

/-- The fixed-point unit 2^256. -/
def fixOne : Nat := 2 ^ 256
/-- ln 2 in that unit. -/
def fixLn2 : Nat := 80260960185991308862233904206310070533990667611589946606122867505419956976171
/-- π in that unit. -/
def fixPi : Nat := 363771576891766324280234942777729862653393377328392429958772151117938894466185

/-- Product of two fixed-point numbers. -/
def fixMul (a b : Nat) : Nat := a * b / fixOne

/-- Taylor series of e^x − 1 by terms: term t = x^k / k!, for n more terms. -/
def fixExpTail (x : Nat) : Nat → Nat → Nat → Nat
  | 0, _, _ => 0
  | n + 1, k, t => let t' := fixMul t x / k; t' + fixExpTail x n (k + 1) t'

/-- e^x − 1 for 0 ≤ x < 1. -/
def fixExpm1 (x : Nat) : Nat := fixExpTail x 70 1 fixOne

/-- The odd series z + z³/3 + z⁵/5 + …: atanh z for z ≤ 1/3. -/
def fixAtanhTail (z2 : Nat) : Nat → Nat → Nat → Nat
  | 0, _, _ => 0
  | n + 1, k, t => t / k + fixAtanhTail z2 n (k + 2) (fixMul t z2)

def fixAtanh (z : Nat) : Nat := fixAtanhTail (fixMul z z) 100 1 z

/-- The alternating series of sin (k = 1, t = x) and cos (k = 0, t = 1), as a signed number. -/
def fixTrigTail (x2 : Nat) : Nat → Nat → Int → Int
  | 0, _, _ => 0
  | n + 1, k, t => t + fixTrigTail x2 n (k + 2) (-(t * x2 / (fixOne * ((k + 1) * (k + 2)) : Nat)))

def fixSin (x : Nat) : Nat := (fixTrigTail (fixMul x x) 40 1 x).toNat
def fixCos (x : Nat) : Nat := (fixTrigTail (fixMul x x) 40 0 fixOne).toNat

/-- Integer square root, by descending bits. -/
def isqrtGo (n : Nat) : Nat → Nat → Nat
  | 0, r => r
  | k + 1, r => let c := r + 2 ^ k; isqrtGo n k (if c * c ≤ n then c else r)

def isqrt (n : Nat) : Nat := isqrtGo n (floorLog2 n / 2 + 1) 0

/-- 1 / (m × 2^e), correctly rounded: the quotient carries a sticky bit. -/
def rcpRound (neg : Bool) (m : Nat) (e : Int) : Nat × Flags6 :=
  let k := floorLog2 m + 40
  let q := 2 ^ k / m
  let sticky := if 2 ^ k % m = 0 then 0 else 1
  roundTo fmtF32 .rne false neg (2 * q + sticky) (-(e + k + 1))

/-- √(m × 2^e), correctly rounded. -/
def sqrtRound (m : Nat) (e : Int) : Nat × Flags6 :=
  let e2 := if e % 2 = 0 then e else e - 1
  let m2 := (if e % 2 = 0 then m else 2 * m) * 2 ^ 60
  let r := isqrt m2
  let sticky := if r * r = m2 then 0 else 1
  roundTo fmtF32 .rne false false (2 * r + sticky) ((e2 - 60) / 2 - 1)

/-- The magnitude of an f32 pattern as (m, e). -/
def f32Mag (p : Nat) : Nat × Int :=
  match fUnpack fmtF32 p with
  | .fin _ m e => (m, e)
  | _ => (0, 0)

/-- The distance |p − M × 2^E| is at most bound ulp, where the ulp is 2^q. -/
def withinUlp (bound : Nat) (q : Int) (M : Nat) (E : Int) (p : Nat) : Bool :=
  let (m, e) := f32Mag p
  let u := min (min e E) q
  decide ((scaledInt false m e u - scaledInt false M E u).natAbs ≤ bound * 2 ^ (q - u).toNat)

/-- The f32 patterns within the bound of a positive value M × 2^E, at most cap.
DEDUCED, unsafe: log entry 76. -/
def fxCandidates (bound cap M : Nat) (E : Int) : List Nat :=
  let top := E + floorLog2 M
  let qn := top - 23
  let q := if qn < -149 then -149 else qn
  let n := (roundToUnit .rz false M E q).1
  let p := (q + 149).toNat * 2 ^ 23 + n
  ((List.range 7).filterMap fun i => if 4 ≤ p + i then some (p + i - 4) else none).filter fun c =>
    withinUlp bound q M E c && decide (c ≤ cap)

/-- One value within the bound, with the flags of R47, R48 and R130: exact tells that M × 2^E is the
exact result. -/
def fxPick (fn : Nat) (a : Word) (bound cap : Nat) (neg : Bool) (M : Nat) (E : Int) (exact : Bool) : Nat × Flags6 :=
  let cs := fxCandidates bound cap M E
  let c := cs.getD (Config.fxChoice fn a % cs.length) 0
  let (m, e) := f32Mag c
  let u := min e E
  let nx := !exact || decide (scaledInt false m e u ≠ scaledInt false M E u)
  (fmtSign fmtF32 neg + c, flagIf nx flagNX ||| flagIf (nx && decide (c < 2 ^ 23)) flagUF)

/-- The largest finite pattern, and the pattern of 1.0. -/
def capFinite : Nat := 0x7F7FFFFF
def capOne : Nat := 0x3F800000

/-- A dyadic value's integer part (floor) and fraction in the fixed-point unit. -/
def splitDyadic (neg : Bool) (m : Nat) (e : Int) : Int × Nat :=
  if 0 ≤ e then (scaledInt neg m e 0, 0)
  else
    let d : Nat := 2 ^ (-e).toNat
    let v : Int := if neg then -(m : Int) else m
    (v / (d : Int), (v % (d : Int)).toNat * fixOne / d)

/-- 2^(n + f): 2^f = 1 + (e^(f ln 2) − 1). -/
def exp2Value (n : Int) (f : Nat) : Nat × Int := (fixOne + fixExpm1 (fixMul f fixLn2), n - 256)

/-- The result for an operand that is not special (R129), by function code. -/
def fxFinite (fn : Nat) (a : Word) (neg : Bool) (m : Nat) (e : Int) : Nat × Flags6 :=
  match fn with
  | 0 => rcpRound neg m e
  | 1 =>
    let e2 := if e % 2 = 0 then e else e - 1
    let m2 := if e % 2 = 0 then m else 2 * m
    let n := 2 ^ 400 / m2
    let r := isqrt n
    let exact := decide (m2 * (r * r) = 2 ^ 400)
    fxPick fn a 1 capFinite false r (-200 - e2 / 2) exact
  | 2 => sqrtRound m e
  | 3 =>
    let (n, f) := splitDyadic neg m e
    if 128 ≤ n then overflowCode fmtF32 .rne false false
    else if n < -400 then fxPick fn a 2 capFinite false 1 (-400) false
    else if decide (f = 0) && decide (-149 ≤ n) then
      roundTo fmtF32 .rne false false 1 n
    else let (M, E) := exp2Value n f; fxPick fn a 2 capFinite false M E false
  | 4 =>
    let l := floorLog2 m
    let n : Int := e + l
    if m = 2 ^ l then roundTo fmtF32 .rne false (decide (n < 0)) n.natAbs 0
    else
      let x := m * fixOne / 2 ^ l
      let z := (x - fixOne) * fixOne / (x + fixOne)
      let frac := 2 * fixAtanh z * fixOne / fixLn2
      let v : Int := n * fixOne + frac
      fxPick fn a 2 capFinite (decide (v < 0)) v.natAbs (-256) false
  | 5 =>
    let (n, f) := splitDyadic false m e
    if f = 0 then (fmtSign fmtF32 neg, 0)
    else
      let odd := decide (n % 2 = 1)
      let half := fixOne / 2
      let g := if f ≤ half then f else fixOne - f
      if g = half then fxPick fn a 2 capOne (neg != odd) 1 0 true
      else
        let v := if 4 * g ≤ fixOne then fixSin (fixMul g fixPi) else fixCos (fixMul (half - g) fixPi)
        fxPick fn a 2 capOne (neg != odd) v (-256) false
  | 6 =>
    let (n, f) := splitDyadic false m e
    let odd := decide (n % 2 = 1)
    let half := fixOne / 2
    if f = 0 then (fmtSign fmtF32 odd + capOne, 0)
    else if f = half then (0, 0)
    else
      let g := if f < half then half - f else f - half
      let v := if 4 * g ≤ fixOne then fixSin (fixMul g fixPi) else fixCos (fixMul (half - g) fixPi)
      let v := if v < fixOne then v else fixOne - 1
      fxPick fn a 2 capOne ((decide (half < f)) != odd) v (-256) false
  | _ =>
    if e + floorLog2 m < -30 then
      let k := (-2 * e).toNat
      fxPick fn a 2 capOne neg ((m * 2 ^ k * 3 - m * m * m) * 2 ^ 64 / 3) (3 * e - 64) false
    else
      let (n, f) := splitDyadic false (2 * m) e
      if 160 ≤ n then fxPick fn a 2 capOne neg (fixOne - 1) (-256) false
      else
        let t := (n.toNat * fixOne + f) * fixOne / fixLn2
        let k := t / fixOne
        let r := fixMul (t % fixOne) fixLn2
        let ex := (fixOne + fixExpm1 r) * 2 ^ k
        fxPick fn a 2 capOne neg ((ex - fixOne) * fixOne / (ex + fixOne)) (-256) false

/-- FX (R129): the special operands, and the finite ones. -/
def fxEval (fn : Nat) (a : Word) : Nat × Flags6 :=
  let nan : Nat × Flags6 := (fmtF32.nanCode, flagNV)
  let one := capOne
  let inf := fmtInfCode fmtF32
  let sgn := fmtSign fmtF32
  match fUnpack fmtF32 a.toNat with
  | .nan s => (fmtF32.nanCode, flagIf s flagNV)
  | .inf neg =>
    match fn with
    | 0 => (sgn neg, 0)
    | 1 => if neg then nan else (0, 0)
    | 2 => if neg then nan else (inf, 0)
    | 3 => (if neg then 0 else inf, 0)
    | 4 => if neg then nan else (inf, 0)
    | 5 => nan
    | 6 => nan
    | _ => (sgn neg + one, 0)
  | .fin neg m e =>
    if m = 0 then
      match fn with
      | 0 => (sgn neg + inf, flagDZ)
      | 1 => (sgn neg + inf, flagDZ)
      | 2 => (sgn neg, 0)
      | 3 => (one, 0)
      | 4 => (sgn true + inf, flagDZ)
      | 5 => (sgn neg, 0)
      | 6 => (one, 0)
      | _ => (sgn neg, 0)
    else if neg && (fn == 1 || fn == 2 || fn == 4) then nan
    else fxFinite fn a neg m e

end Sys2Proof.Machine
end

