-- ==== Sys2Proof/Machine/FloatOps.lean ====
section
/-! DEFINITION. Floating arithmetic, packed halves, transcendental functions and conversions (R126 to R132) -/

namespace Sys2Proof.Machine

/-- A packed half operation on both halves, flags ORed (R128). -/
def halves2 (f : Nat → Nat → Nat × Flags6) (a b : Nat) : Nat × Flags6 :=
  let lo := f (a % 2 ^ 16) (b % 2 ^ 16)
  let hi := f (a / 2 ^ 16) (b / 2 ^ 16)
  (lo.1 + 2 ^ 16 * hi.1, lo.2 ||| hi.2)

def halves3 (f : Nat → Nat → Nat → Nat × Flags6) (a b d : Nat) : Nat × Flags6 :=
  let lo := f (a % 2 ^ 16) (b % 2 ^ 16) (d % 2 ^ 16)
  let hi := f (a / 2 ^ 16) (b / 2 ^ 16) (d / 2 ^ 16)
  (lo.1 + 2 ^ 16 * hi.1, lo.2 ||| hi.2)

/-- A conversion of f32 to an integer range, as 32 bits (R51). -/
def cvtInt32 (lo hi : Int) (rnd : BitVec 2) (a : Nat) : Nat × Flags6 :=
  let r := cvtToInt lo hi (rndOf rnd) (fUnpack fmtF32 a)
  ((BitVec.ofInt 32 r.1).toNat, r.2)

/-- ADD_F32 (R126, R127) -/
def execAddF32 (o : OpsL) (s : State) : Host.Outcome State Fault Refusal :=
  issueBy s fun c => runReg s c (opL o false fun n => fAdd (fmtOf n))

/-- SUB_F32 (R126, R127) -/
def execSubF32 (o : OpsL) (s : State) : Host.Outcome State Fault Refusal :=
  issueBy s fun c => runReg s c (opL o false fun n => fSub (fmtOf n))

/-- MUL_F32 (R126, R127) -/
def execMulF32 (o : OpsL) (s : State) : Host.Outcome State Fault Refusal :=
  issueBy s fun c => runReg s c (opL o false fun n => fMul (fmtOf n))

/-- FMA_F32 (R126) -/
def execFmaF32 (o : OpsL) (s : State) : Host.Outcome State Fault Refusal :=
  issueBy s fun c => runReg s c (opL3 o false fun n => fFma (fmtOf n) false)

/-- FNMA_F32 (R126) -/
def execFnmaF32 (o : OpsL) (s : State) : Host.Outcome State Fault Refusal :=
  issueBy s fun c => runReg s c (opL3 o false fun n => fFma (fmtOf n) true)

/-- MIN_F32 (R45, R126) -/
def execMinF32 (o : OpsL) (s : State) : Host.Outcome State Fault Refusal :=
  issueBy s fun c => runReg s c (opL o false fun n => fMinMax (fmtOf n) false)

/-- MAX_F32 (R45, R126) -/
def execMaxF32 (o : OpsL) (s : State) : Host.Outcome State Fault Refusal :=
  issueBy s fun c => runReg s c (opL o false fun n => fMinMax (fmtOf n) true)

/-- COPYSIGN_F32 (R126) -/
def execCopysignF32 (o : OpsL) (s : State) : Host.Outcome State Fault Refusal :=
  issueBy s fun c => runReg s c (opL o false fun n a b => (fCopysign (fmtOf n) a b, 0))

/-- HADD_F16X2 (R128) -/
def execHaddF16x2 (o : OpsL1) (s : State) : Host.Outcome State Fault Refusal :=
  issueBy s fun c => runReg s c (opL1 o false true (halves2 (fAdd fmtF16)))

/-- HMUL_F16X2 (R128) -/
def execHmulF16x2 (o : OpsL1) (s : State) : Host.Outcome State Fault Refusal :=
  issueBy s fun c => runReg s c (opL1 o false true (halves2 (fMul fmtF16)))

/-- HFMA_F16X2 (R128) -/
def execHfmaF16x2 (o : OpsL1) (s : State) : Host.Outcome State Fault Refusal :=
  issueBy s fun c => runReg s c (opL13 o false true (halves3 (fFma fmtF16 false)))

/-- HADD_BF16X2 (R128) -/
def execHaddBf16x2 (o : OpsL1) (s : State) : Host.Outcome State Fault Refusal :=
  issueBy s fun c => runReg s c (opL1 o false true (halves2 (fAdd fmtBf16)))

/-- HMUL_BF16X2 (R128) -/
def execHmulBf16x2 (o : OpsL1) (s : State) : Host.Outcome State Fault Refusal :=
  issueBy s fun c => runReg s c (opL1 o false true (halves2 (fMul fmtBf16)))

/-- HFMA_BF16X2 (R128) -/
def execHfmaBf16x2 (o : OpsL1) (s : State) : Host.Outcome State Fault Refusal :=
  issueBy s fun c => runReg s c (opL13 o false true (halves3 (fFma fmtBf16 false)))

/-- HMIN_BF16X2 (R128) -/
def execHminBf16x2 (o : OpsL1) (s : State) : Host.Outcome State Fault Refusal :=
  issueBy s fun c => runReg s c (opL1 o false true (halves2 (fMinMax fmtBf16 false)))

/-- HMAX_BF16X2 (R128) -/
def execHmaxBf16x2 (o : OpsL1) (s : State) : Host.Outcome State Fault Refusal :=
  issueBy s fun c => runReg s c (opL1 o false true (halves2 (fMinMax fmtBf16 true)))

/-- RCP_F32 (R129 to R131) -/
def execRcpF32 (o : OpsM) (s : State) : Host.Outcome State Fault Refusal :=
  issueBy s fun c => runReg s c (opUnary o.g o.d o.a false false false o.la.toNat fun a => fxEval 0 (BitVec.ofNat 32 a))

/-- RSQRT_F32 (R129 to R131) -/
def execRsqrtF32 (o : OpsM) (s : State) : Host.Outcome State Fault Refusal :=
  issueBy s fun c => runReg s c (opUnary o.g o.d o.a false false false o.la.toNat fun a => fxEval 1 (BitVec.ofNat 32 a))

/-- SQRT_F32 (R129 to R131) -/
def execSqrtF32 (o : OpsM) (s : State) : Host.Outcome State Fault Refusal :=
  issueBy s fun c => runReg s c (opUnary o.g o.d o.a false false false o.la.toNat fun a => fxEval 2 (BitVec.ofNat 32 a))

/-- EXP2_F32 (R129 to R131) -/
def execExp2F32 (o : OpsM) (s : State) : Host.Outcome State Fault Refusal :=
  issueBy s fun c => runReg s c (opUnary o.g o.d o.a false false false o.la.toNat fun a => fxEval 3 (BitVec.ofNat 32 a))

/-- LOG2_F32 (R129 to R131) -/
def execLog2F32 (o : OpsM) (s : State) : Host.Outcome State Fault Refusal :=
  issueBy s fun c => runReg s c (opUnary o.g o.d o.a false false false o.la.toNat fun a => fxEval 4 (BitVec.ofNat 32 a))

/-- SINPI_F32 (R129 to R131) -/
def execSinpiF32 (o : OpsM) (s : State) : Host.Outcome State Fault Refusal :=
  issueBy s fun c => runReg s c (opUnary o.g o.d o.a false false false o.la.toNat fun a => fxEval 5 (BitVec.ofNat 32 a))

/-- COSPI_F32 (R129 to R131) -/
def execCospiF32 (o : OpsM) (s : State) : Host.Outcome State Fault Refusal :=
  issueBy s fun c => runReg s c (opUnary o.g o.d o.a false false false o.la.toNat fun a => fxEval 6 (BitVec.ofNat 32 a))

/-- TANH_F32 (R129 to R131) -/
def execTanhF32 (o : OpsM) (s : State) : Host.Outcome State Fault Refusal :=
  issueBy s fun c => runReg s c (opUnary o.g o.d o.a false false false o.la.toNat fun a => fxEval 7 (BitVec.ofNat 32 a))

/-- CVT_F32_S32 (R49, R132) -/
def execCvtF32S32 (o : OpsCvR) (s : State) : Host.Outcome State Fault Refusal :=
  issueBy s fun c => runReg s c (opUnary o.g o.d o.a false false false 0 fun a => cvtFromInt (rndOf o.rnd) (sextNat 32 a))

/-- CVT_S32_F32 (R51, R132) -/
def execCvtS32F32 (o : OpsCvR) (s : State) : Host.Outcome State Fault Refusal :=
  issueBy s fun c => runReg s c (opUnary o.g o.d o.a false false true 0 (cvtInt32 (-2 ^ 31) (2 ^ 31 - 1) o.rnd))

/-- CVT_F32_N32 (R49, R132) -/
def execCvtF32N32 (o : OpsCvR) (s : State) : Host.Outcome State Fault Refusal :=
  issueBy s fun c => runReg s c (opUnary o.g o.d o.a false false false 0 fun a => cvtFromInt (rndOf o.rnd) a)

/-- CVT_N32_F32 (R51, R132) -/
def execCvtN32F32 (o : OpsCvR) (s : State) : Host.Outcome State Fault Refusal :=
  issueBy s fun c => runReg s c (opUnary o.g o.d o.a false false false 0 (cvtInt32 0 (2 ^ 32 - 1) o.rnd))

/-- CVT_F32_F16 (R49, R132) -/
def execCvtF32F16 (o : OpsA1) (s : State) : Host.Outcome State Fault Refusal :=
  issueBy s fun c => runReg s c (opUnary o.g o.d o.a false false false 0 fun a => cvtFloat fmtF16 fmtF32 .rne false (a % 2 ^ 16))

/-- CVT_F16_F32 (R49, R132) -/
def execCvtF16F32 (o : OpsCvS) (s : State) : Host.Outcome State Fault Refusal :=
  issueBy s fun c => runReg s c (opUnary o.g o.d o.a false false false 0 (cvtFloat fmtF32 fmtF16 (rndOf o.rnd) o.sat))

/-- CVT_F32_BF16 (R49, R132) -/
def execCvtF32Bf16 (o : OpsA1) (s : State) : Host.Outcome State Fault Refusal :=
  issueBy s fun c => runReg s c (opUnary o.g o.d o.a false false false 0 fun a => cvtFloat fmtBf16 fmtF32 .rne false (a % 2 ^ 16))

/-- CVT_BF16_F32 (R49, R132) -/
def execCvtBf16F32 (o : OpsCvS) (s : State) : Host.Outcome State Fault Refusal :=
  issueBy s fun c => runReg s c (opUnary o.g o.d o.a false false false 0 (cvtFloat fmtF32 fmtBf16 (rndOf o.rnd) o.sat))

/-- CVT_F32_E4M3 (R49, R132) -/
def execCvtF32E4m3 (o : OpsA1) (s : State) : Host.Outcome State Fault Refusal :=
  issueBy s fun c => runReg s c (opUnary o.g o.d o.a false false false 0 fun a => cvtFloat fmtE4m3 fmtF32 .rne false (a % 2 ^ 8))

/-- CVT_E4M3_F32 (R49, R132) -/
def execCvtE4m3F32 (o : OpsCvS) (s : State) : Host.Outcome State Fault Refusal :=
  issueBy s fun c => runReg s c (opUnary o.g o.d o.a false false false 0 (cvtFloat fmtF32 fmtE4m3 (rndOf o.rnd) o.sat))

/-- CVT_F32_E5M2 (R49, R132) -/
def execCvtF32E5m2 (o : OpsA1) (s : State) : Host.Outcome State Fault Refusal :=
  issueBy s fun c => runReg s c (opUnary o.g o.d o.a false false false 0 fun a => cvtFloat fmtE5m2 fmtF32 .rne false (a % 2 ^ 8))

/-- CVT_E5M2_F32 (R49, R132) -/
def execCvtE5m2F32 (o : OpsCvS) (s : State) : Host.Outcome State Fault Refusal :=
  issueBy s fun c => runReg s c (opUnary o.g o.d o.a false false false 0 (cvtFloat fmtF32 fmtE5m2 (rndOf o.rnd) o.sat))

/-- CVT_F32_L6 (R56) -/
def execCvtF32L6 (o : OpsA1) (s : State) : Host.Outcome State Fault Refusal :=
  issueBy s fun c => runReg s c (opUnary o.g o.d o.a false false false 0 fun a => cvtL6ToF32 (a % 2 ^ 6))

/-- CVT_L6_F32 (R57) -/
def execCvtL6F32 (o : OpsA1) (s : State) : Host.Outcome State Fault Refusal :=
  issueBy s fun c => runReg s c (opUnary o.g o.d o.a false false false 0 fun a => cvtValToL6 (fUnpack fmtF32 a))

/-- CVT_F32_F64 (R49, R132) -/
def execCvtF32F64 (o : OpsCvS) (s : State) : Host.Outcome State Fault Refusal :=
  issueBy s fun c => runReg s c (opUnary o.g o.d o.a false true false 0 (cvtFloat fmtF64 fmtF32 (rndOf o.rnd) o.sat))

/-- CVT_F64_F32 (R49, R132) -/
def execCvtF64F32 (o : OpsA1) (s : State) : Host.Outcome State Fault Refusal :=
  issueBy s fun c => runReg s c (opUnary o.g o.d o.a true false false 0 (cvtFloat fmtF32 fmtF64 .rne false))

end Sys2Proof.Machine
end

