-- ==== Sys2Proof/Machine/Mma.lean ====
section
/-! DEFINITION. Crucible passes, drains and `czero` (R146 to R165). -/

namespace Sys2Proof.Machine

/-! ### Octets and tiles -/

/-- The octets that participate: all eight lanes are in the issuing entry (R146). -/
def octetsOf (width : Nat) (mask : LaneMask) : List Nat :=
  (List.range (width / 8)).filter fun o => (List.range 8).all fun j => mask.getLsbD (8 * o + j)

/-- The lanes of octets. -/
def octetLanes (os : List Nat) : Lanes := os.flatMap fun o => (List.range 8).map fun j => 8 * o + j

/-- The byte address of an octet's C tile (R34, R150). -/
def tileBase (g : Group) (o : Nat) : Nat := g.regs.ct.toNat + 1024 * o

/-- Octets whose tile is not inside the declared C buffer (R150). -/
def tilesOutside (t : Team) (g : Group) (os : List Nat) : List Nat := os.filter fun o => decide (t.cSize < tileBase g o + 1024)

/-- Octets whose tile holds a poisoned part (R412). -/
def tilesPoisoned (t : Team) (g : Group) (os : List Nat) : List Nat := os.filter fun o => bufPoisoned t .bufC (tileBase g o) 1024

/-- Whether the flag word of a tile is poisoned (R155, R410): marks of buffer number 3, one part for each tile.
DEDUCED, unsafe: log entry 91. -/
def flagsPoisoned (t : Team) (base : Nat) : Bool := t.poison.contains (3, base / 1024)

/-- A cause raised by octets: LANES their lanes, ADDR of the lowest. -/
def trapOctets (s : State) (c : Issue) (cause : Byte) (os : List Nat) (addr : Nat := 0) : State :=
  trapLanes s c cause (octetLanes os) addr

/-! ### Fragments (R147 to R149) -/

def shapeRows (shape : BitVec 2) : Nat := if shape.toNat < 2 then 16 else 8
def shapeCols (shape : BitVec 2) : Nat := if shape.toNat % 2 = 0 then 16 else 8
/-- Elements of k in one register: 2 for the 16-bit types, else 4. -/
def typeEpr (type : BitVec 3) : Nat := if type.toNat < 2 then 2 else 4
/-- The reduction depth k. -/
def typeDepth (type : BitVec 3) : Nat := 8 * typeEpr type

/-- Element kk of row (or column) i of a fragment of an octet: per is the rows of each lane. -/
def fragElem (g : Group) (o base per : Nat) (type : BitVec 3) (i kk : Nat) : Nat :=
  let epr := typeEpr type
  let w := vGet g.regs (8 * o + i / per) (base + 8 * (i % per) + kk / epr)
  w.toNat / 2 ^ (32 / epr * (kk % epr)) % 2 ^ (32 / epr)

/-- The exact product of two elements of a floating type; none for inf × 0 (R60). A NaN stays a NaN. -/
def floatProd (type : BitVec 3) (a b : Nat) : Option FVal :=
  match type.toNat with
  | 0 => exactProd (fUnpack fmtBf16 a) (fUnpack fmtBf16 b)
  | 1 => exactProd (fUnpack fmtF16 a) (fUnpack fmtF16 b)
  | 2 => exactProd (fUnpack fmtE4m3 a) (fUnpack fmtE4m3 b)
  | 3 => exactProd (fUnpack fmtE5m2 a) (fUnpack fmtE5m2 b)
  | _ => exactProd (fUnpack fmtE4m3 a) (fUnpack fmtE5m2 b)

/-- The sum of L6 products as one addend (R55); none when a product is NaR. -/
def l6Sum (prods : List (Option Int)) : Option FVal :=
  if prods.any fun p => p.isNone then none
  else
    let t := prods.foldl (fun acc p => acc + p.getD 0) 0
    some (.fin (decide (t < 0)) t.natAbs (-19))

/-- One element of a pass (R151): the old word and the operand pairs give the new word and flags. -/
def passElem (type : BitVec 3) (old : Nat) (ab : List (Nat × Nat)) : Nat × Flags6 :=
  match type.toNat with
  | 6 => passS32 (sextNat 32 old) (ab.map fun p => sextNat 8 p.1 * sextNat 8 p.2)
  | 5 => passF32 [some (fUnpack fmtF32 old), l6Sum (ab.map fun p => l6Prod p.1 p.2)]
  | _ => passF32 (some (fUnpack fmtF32 old) :: ab.map fun p => floatProd type p.1 p.2)

/-- The pass of one octet onto its tile, with B read from octet bo of group gb (R151, R153). -/
def passTile (t : Team) (g gb : Group) (o bo : Nat) (op : OpsMma) : Team :=
  let m := shapeRows op.shape
  let n := shapeCols op.shape
  let base := tileBase g o
  let cells := (List.range m).flatMap fun i => (List.range n).map fun c =>
    let addr := base + 64 * i + 4 * c
    let ab := (List.range (typeDepth op.type)).map fun kk =>
      (fragElem g o op.aBase.toNat (m / 8) op.type i kk, fragElem gb bo op.bBase.toNat (n / 8) op.type c kk)
    (addr, passElem op.type (getNat t.c addr 4) ab)
  let fl := cells.foldl (fun acc e => acc ||| tileFlagsOf e.2.2) 0
  { t with
    c := cells.foldl (fun b e => putNat b e.1 4 e.2.1) t.c
    tileFlags := amModify 0 t.tileFlags (base / 1024) (· ||| fl) }

/-! ### Fusion of `.bs` (R153) -/

/-- The fragment registers that a pass of octet o reads: its A, and its B unless `.bs` takes B from the lowest of the
octets os (R153). -/
def fragRegs (op : OpsMma) (os : List Nat) (o : Nat) : List Nat :=
  ((List.range (8 * (shapeRows op.shape / 8))).map fun q => op.aBase.toNat + q) ++
    if op.bs && o ≠ os.headD 0 then [] else (List.range (8 * (shapeCols op.shape / 8))).map fun q => op.bBase.toNat + q

/-- The octets that read a poisoned fragment register (R412). -/
def fragPoisoned (g : Group) (op : OpsMma) (os : List Nat) : List Nat :=
  os.filter fun x => !(poisonedLanes g (octetLanes [x]) (fragRegs op os x)).isEmpty

/-- Whether an `mma` names registers outside a group's budget. -/
def fragBeyond (g : Group) (op : OpsMma) : Bool :=
  let lim := min g.budget 64
  decide (lim < op.aBase.toNat + 8 * (shapeRows op.shape / 8)) || decide (lim < op.bBase.toNat + 8 * (shapeCols op.shape / 8))

/-- Whether a group issues an entry now without a trap as the `mma` of word w (R153): the identical word, in time, not
waiting for a flight, its registers in the budget and not poisoned, its tiles inside the C buffer. -/
def issuesMma (s : State) (w : Word) (op : OpsMma) (h : Group) (e : Entry) : Bool :=
  let c : Issue := ⟨.group h.kc h.core h.idx, e.pc, e.prio, e.mask, w, 4, false⟩
  let os := octetsOf h.width (issueMask h c)
  e.wait.isNone && decide (peekWord s h = some w) && decide (h.ycount.toNat < h.deadline) && !hasWaiting h &&
    !fragBeyond h op && (poisonedIssue s c).isEmpty && (fragPoisoned h op os).isEmpty &&
    (tilesOutside (teamOf s h.kc h.core) h os).isEmpty

/-- The groups that may be fused below one, each with the entry it issues: packed at octet positions below its own in its
slot, so that both can issue in one clock (R167), and about to issue the identical word, which run-ahead does not
(R351). Their windows that must close first have closed (R89). -/
def fusedWith (s : State) (c : Issue) (g : Group) (op : OpsMma) : List (Group × Entry) :=
  let here := hwCore (kcOf s g.kc) g.core
  (s.groups.filter fun h =>
    decide (hwCore (kcOf s h.kc) h.core = here) && h.slot = g.slot && decide (h.octet + h.width / 8 ≤ g.octet) && !h.ended &&
      h.trap.isNone && h.stopped.isNone && h.hold.isNone && h.runAhead.isNone && h.ladle.isEmpty).filterMap fun h =>
    match nextEntry s h with
    | some e => if issuesMma s c.word op h e then some (landFlights h (mustLand e), e) else none
    | none => none

/-- Which B a pass of octet o reads: its own, or with `.bs` that of its group's lowest participating octet or
of a fused group's, unspecified which. -/
def bSource (s : State) (c : Issue) (g : Group) (op : OpsMma) (os : List Nat) (o : Nat) : Group × Nat :=
  if !op.bs then (g, o)
  else
    let own := (g, os.headD o)
    let others := (fusedWith s c g op).filterMap fun h => ((octetsOf h.1.width h.2.mask).head?).map fun b => (h.1, b)
    match (others[Config.freeNat s.fresh o % (others.length + 1)]?) with
    | some p => p
    | none => own

/-- MMA (R147 to R154). A poisoned fragment register comes before a tile that lies outside.
DEDUCED, unsafe: log entry 92. -/
def execMma (o : OpsMma) (s : State) : Host.Outcome State Fault Refusal :=
  issueBy s fun c =>
    let g := memberGroup s c.who
    checked s c [(isSpine c.who, cWrongUnit), (fragBeyond g o, cIllegal)]
      (outside s c fun s =>
        let caps := memberCaps s c.who
        let feat := memberFeat s c.who
        let absent := !caps.getLsbD o.shape.toNat || (o.type = 5 && !feat.getLsbD 0) || (o.type = 4 && !feat.getLsbD 1)
        let os := octetsOf g.width (issueMask g c)
        let bad := fragPoisoned g o os
        let t := memberTeam s c.who
        let out := tilesOutside t g os
        if absent then trapAll s c cFeatureAbsent
        else if !bad.isEmpty then trapOctets s c cDataPoison bad
        else if !out.isEmpty then trapOctets s c cProtection out
        else
          let t' := os.foldl (fun t oct => let b := bSource s c g o os oct; passTile t (seen s g 1) (seen s b.1 2) oct b.2 o) t
          retireWrites (updTeam s (memberKc c.who) (memberCore c.who) fun _ => t') c o.la.toNat [] [] [])

/-! ### Drains (R156 to R162) -/

/-- A value rounded to a floating format, rne (R158). -/
def drainFloat (f : FloatFmt) (sat : Bool) (v : FVal) : Nat × Flags6 :=
  match v with
  | .nan _ => (f.nanCode, flagNV)
  | .inf neg =>
    if f.noInf then (fmtSign f neg + fmtMaxCode f, flagSAT ||| flagNX) else (fmtSign f neg + fmtInfCode f, 0)
  | .fin neg m e => roundTo f .rne sat neg m e

/-- The out types of R156 on an exact value; a NaN sets NV. -/
def drainConvert (out : BitVec 3) (v : FVal) : Nat × Flags6 :=
  let toInt := fun (n : Nat) =>
    let r := cvtToInt (-(2 ^ (n - 1))) (2 ^ (n - 1) - 1) .rne v
    ((BitVec.ofInt n r.1).toNat, r.2)
  match out.toNat with
  | 0 => drainFloat fmtF32 false v
  | 1 => drainFloat fmtBf16 false v
  | 2 => drainFloat fmtF16 false v
  | 3 => drainFloat fmtE4m3 true v
  | 4 => drainFloat fmtE5m2 true v
  | 5 => toInt 32
  | 6 => toInt 8
  | _ => match v with
    | .nan _ => (0x30, flagNV)
    | v => cvtValToL6 v

/-- The product of the tile element and its scales, exact; 0 × ∞ gives a NaN (R158). -/
def drainValue (out : BitVec 3) (word : Nat) (scales : List Nat) : FVal :=
  let src : FVal := if out = 5 || out = 6 then
      (let i := sextNat 32 word; .fin (decide (i < 0)) i.natAbs 0) else fUnpack fmtF32 word
  scales.foldl (fun acc q => (exactProd acc (fUnpack fmtF32 q)).getD (.nan false)) src

/-- Elements per register of an out type (R160). -/
def outEpr (out : BitVec 3) : Nat := if out = 0 || out = 5 then 1 else if out = 1 || out = 2 then 2 else 4
/-- Registers per lane of an out type (R160). -/
def outRegs (out : BitVec 3) : Nat := 32 / outEpr out

/-- One lane's registers and flags of a drain (R160, R161): j is the lane of the octet, elem the converted elements. -/
def drainLane (out : BitVec 3) (d lane j : Nat) (elem : Nat → Nat → Nat × Flags6) : List RegWrite × Flags6 :=
  let epr := outEpr out
  let per := 16 / epr
  let regs := (List.range (2 * per)).map fun q =>
    let es := (List.range epr).map fun t => elem (2 * j + q / per) (epr * (q % per) + t)
    ((⟨lane, d + q, BitVec.ofNat 32 (es.zipIdx.foldl (fun acc e => acc + e.1.1 * 2 ^ (32 / epr * e.2)) 0)⟩ : RegWrite),
      es.foldl (fun acc e => acc ||| e.2) 0)
  (regs.map fun r => r.1, regs.foldl (fun acc r => acc ||| r.2) 0)

/-- A tile of zeros with no flags and no poison (R162). -/
def clearTile (t : Team) (base : Nat) : Team :=
  { t with
    c := amKeep (fun a => decide (a < base) || decide (base + 1024 ≤ a)) t.c
    tileFlags := amSet 0 t.tileFlags (base / 1024) 0
    poison := t.poison.filter fun q => !(q.1 = bufNo .bufC && decide (base / 16 ≤ q.2) && decide (q.2 < base / 16 + 64)) &&
      q ≠ (3, base / 1024) }

/-- What a drain reads and writes: rows and cols say which scales it takes, a their address. -/
structure DrainOp where
  d : Nat
  a : Option Nat
  out : BitVec 3
  clear : Bool
  la : Nat
  rows : Bool
  cols : Bool

/-- A drain (R157 to R161): every check over all octets, then each octet. DATA_POISON comes first for the address
register and last for what is read; it names the scale address where the lowest octet's scale is poisoned (R435). The
scales are read as lane loads of lane 8o (R157, R202).
DEDUCED, unsafe: log entry 34; DEDUCED, unsafe: log entry 92. -/
def runDrain (s : State) (c : Issue) (o : DrainOp) : State :=
  let g := memberGroup s c.who
  let n := outRegs o.out
  let aBad := match o.a with
    | some a => !vOk g.budget false a
    | none => false
  checked s c [(isSpine c.who, cWrongUnit), (decide (min g.budget 64 < o.d + n) || aBad, cIllegal)]
    (outside s c (dst := (List.range n).map fun q => o.d + q) fun s =>
      let kc := memberKc c.who
      let core := memberCore c.who
      let t := memberTeam s c.who
      let os := octetsOf g.width (issueMask g c)
      let len := (if o.rows then 64 else 0) + (if o.cols then 64 else 0)
      let addr : Nat → Nat := fun oct => match o.a with
        | some a => (readV s g 0 (8 * oct) a).toNat
        | none => 0
      let bad := match o.a with
        | some a => os.filter fun x => !(poisonedLanes g [8 * x] [a]).isEmpty
        | none => []
      let mis := os.filter fun x => decide (addr x % 4 ≠ 0)
      let scaleOut := fun x => decide (0 < len) && decide (t.aSize < addr x + len)
      let out := os.filter fun x => (tilesOutside t g [x]).length ≠ 0 || scaleOut x
      let locked := os.filter fun x => decide (0 < len) && rangeLocked s kc core .bufA (addr x) len false
      let scalePoisoned := fun x => decide (0 < len) && bufPoisoned t .bufA (addr x) len
      let poisoned := os.filter fun x => bufPoisoned t .bufC (tileBase g x) 1024 || flagsPoisoned t (tileBase g x) || scalePoisoned x
      if !bad.isEmpty then trapOctets s c cDataPoison bad
      else if !mis.isEmpty then trapOctets s c cMisaligned mis (addr (mis.headD 0))
      else if !out.isEmpty then trapOctets s c cProtection out (if scaleOut (out.headD 0) then addr (out.headD 0) else 0)
      else if !locked.isEmpty then trapOctets s c cRangeLocked locked (addr (locked.headD 0))
      else if !poisoned.isEmpty then
        trapOctets s c cDataPoison poisoned (if scalePoisoned (poisoned.headD 0) then addr (poisoned.headD 0) else 0)
      else
        let scale := fun (oct off i : Nat) => bytesToNat (laneBufRead s t true g.idx (64 + 32 * oct + off / 4 + i) .bufA (addr oct + off + 4 * i) 4)
        let elem := fun (oct i k : Nat) =>
          let word := getNat t.c (tileBase g oct + 64 * i + 4 * k) 4
          drainConvert o.out (drainValue o.out word
            ((if o.rows then [scale oct 0 i] else []) ++ if o.cols then [scale oct (if o.rows then 64 else 0) k] else []))
        let lanes := os.flatMap fun oct => (List.range 8).map fun j =>
          (8 * oct + j, flagsOfTile (amGet 0 t.tileFlags (tileBase g oct / 1024)), drainLane o.out o.d (8 * oct + j) j (elem oct))
        let s := if o.clear then updTeam s kc core fun t => os.foldl (fun t oct => clearTile t (tileBase g oct)) t else s
        retireWrites s c o.la ((List.range n).map fun q => o.d + q) (lanes.flatMap fun l => l.2.2.1)
          (lanes.map fun l => (l.1, l.2.1 ||| l.2.2.2)))

/-- DRAIN (R156, R158) -/
def execDrain (o : OpsDrn) (s : State) : Host.Outcome State Fault Refusal :=
  issueBy s fun c => runDrain s c ⟨o.d.toNat, none, o.out, o.clear, o.la.toNat, false, false⟩

/-- DRAIN_R (R156 to R158) -/
def execDrainR (o : OpsDrnA) (s : State) : Host.Outcome State Fault Refusal :=
  issueBy s fun c => runDrain s c ⟨o.d.toNat, some o.a.toNat, o.out, o.clear, o.la.toNat, true, false⟩

/-- DRAIN_C (R156 to R158) -/
def execDrainC (o : OpsDrnA) (s : State) : Host.Outcome State Fault Refusal :=
  issueBy s fun c => runDrain s c ⟨o.d.toNat, some o.a.toNat, o.out, o.clear, o.la.toNat, false, true⟩

/-- DRAIN_RC (R156 to R158) -/
def execDrainRc (o : OpsDrnA) (s : State) : Host.Outcome State Fault Refusal :=
  issueBy s fun c => runDrain s c ⟨o.d.toNat, some o.a.toNat, o.out, o.clear, o.la.toNat, true, true⟩

/-- CZERO (R162). A tile that lies outside comes before a poisoned one. The flag word is written and not read.
DEDUCED, unsafe: log entry 92. -/
def execCzero (o : OpsCzero) (s : State) : Host.Outcome State Fault Refusal :=
  issueBy s fun c => checked s c [(isSpine c.who, cWrongUnit)]
    (outside s c fun s =>
      let g := memberGroup s c.who
      let t := memberTeam s c.who
      let os := octetsOf g.width (issueMask g c)
      let out := tilesOutside t g os
      let bad := tilesPoisoned t g os
      if !out.isEmpty then trapOctets s c cProtection out
      else if !bad.isEmpty then trapOctets s c cDataPoison bad
      else
        retireWrites (updTeam s (memberKc c.who) (memberCore c.who) fun t =>
          os.foldl (fun t oct => clearTile t (tileBase g oct)) t) c o.la.toNat [] [] [])

end Sys2Proof.Machine
end

