-- ==== Sys2Proof/Machine/Spr.lean ====
section
/-! DEFINITION. Sprue instructions (R262 to R269). -/

namespace Sys2Proof.Machine

/-- Decoding checks of an SPR instruction (R262): pair wants an even pair on lanes; spineOnly for `sarm`, `sclr`. -/
def sprChecked (s : State) (c : Issue) (o : OpsSpr) (pair spineOnly : Bool) (k : State) : State :=
  let sp := isSpine c.who
  let bad := if sp then decide (32 ≤ o.reg.toNat) || (spineOnly && (o.reg = 0 || o.reg = 31))
    else !vOk (memberGroup s c.who).budget pair o.reg.toNat
  checked s c [(!sp && spineOnly, cWrongUnit), (bad, cIllegal), (!spruesOk s c [o.k.toNat], cProtection)] k

/-- A read of a sprue register: blocks until FULL; consuming for `sget` (R263). It acquires (R29). -/
def runSpRead (s : State) (c : Issue) (o : OpsSpr) (consume : Bool) : State :=
  let kc := memberKc c.who
  let k := kcOf s kc
  let r := sprueGet k o.k.toNat
  sprChecked s c o true false
    (if isSpine c.who && !spinePred k.spine o.g then retireNop s c
     else if !(if consume then readable k o.k.toNat else isFull r) then blockOn s c (.sprueFull o.k)
     else if r.poison then trapAll s c cDataPoison
     else
       let after := fun (s : State) => acquireSwaps (if consume then setSprue s kc o.k.toNat (consumed r) else s) c.who
       if isSpine c.who then retireSpine (after s) c fun sp => xSet sp o.reg.toNat r.value
       else outside s c (fun s =>
         let d := o.reg.toNat
         let act := activeLanes (memberGroup s c.who) c o.g
         retireWrites (after s) c o.la.toNat [d, d + 1] (act.flatMap fun l => regWrites d true l r.value.toNat) [])
        [o.reg.toNat, o.reg.toNat + 1])

/-- SGET (R263) -/
def execSget (o : OpsSpr) (s : State) : Host.Outcome State Fault Refusal := issueBy s fun c => runSpRead s c o true

/-- SPEEK (R263) -/
def execSpeek (o : OpsSpr) (s : State) : Host.Outcome State Fault Refusal := issueBy s fun c => runSpRead s c o false

/-- The value a write sends: x[r], or the pair of the lowest active lane, if any (R264, R266). -/
def spWriteValue (s : State) (c : Issue) (o : OpsSpr) : Option DWord :=
  match c.who with
  | .spine kc => some (xGet (kcOf s kc).spine o.reg.toNat)
  | .group .. =>
    let g := memberGroup s c.who
    (activeLanes g c o.g).head?.map fun l => joinWords (readV s g 1 l o.reg.toNat) (readV s g 2 l (o.reg.toNat + 1))

/-- The poisoned registers a write reads. -/
def spWritePoison (s : State) (c : Issue) (o : OpsSpr) : Bool :=
  match c.who with
  | .spine kc => (kcOf s kc).spine.poison.contains o.reg.toNat
  | .group .. =>
    let g := memberGroup s c.who
    !(poisonedLanes g ((activeLanes g c o.g).take 1) [o.reg.toNat, o.reg.toNat + 1]).isEmpty

/-- A write to a sprue register under R25; on lanes once per group instruction whatever the guard. -/
def runSpWrite (s : State) (c : Issue) (o : OpsSpr) (wait : Wait) (f : SprueReg → Option DWord → SprueWrite) : State :=
  let kc := memberKc c.who
  sprChecked s c o true false
    (if isSpine c.who && !spinePred (kcOf s kc).spine o.g then retireNop s c
     else if spWritePoison s c o then trapAll s c cDataPoison
     else
       let v := spWriteValue s c o
       outside s c fun s =>
       match f (sprueGet (kcOf s kc) o.k.toNat) v with
       | .block => blockOn s c wait
       | .protocol => trapAll s c cSprueProtocol
       | .ok r => retireNop (setSprue s kc o.k.toNat r) c)

/-- SSET (R264) -/
def execSset (o : OpsSpr) (s : State) : Host.Outcome State Fault Refusal :=
  issueBy s fun c => runSpWrite s c o (.sprueEmpty o.k) ssetReg

/-- SACC (R266) -/
def execSacc (o : OpsSpr) (s : State) : Host.Outcome State Fault Refusal :=
  issueBy s fun c => runSpWrite s c o (.sprueFilling o.k) saccReg

/-- The register that `sarm` leaves (R25, R265): FILLING(W), or FULL(R) when W is 0. -/
def armedReg (word preset : DWord) : SprueReg :=
  let r := BitVec.ofNat 12 (bitsOf word 11 0)
  let w := BitVec.ofNat 12 (bitsOf word 23 12)
  ⟨preset, if w = 0 then .full r else .filling w, r, w, BitVec.ofNat 3 (bitsOf word 26 24), preset, false⟩

/-- SARM (R265) -/
def execSarm (o : OpsSpr) (s : State) : Host.Outcome State Fault Refusal :=
  issueBy s fun c =>
    let kc := memberKc c.who
    let k := kcOf s kc
    sprChecked s c o false true
      (if !spinePred k.spine o.g then retireNop s c
       else if k.spine.poison.contains o.reg.toNat || k.spine.poison.contains (o.reg.toNat + 1) then trapAll s c cDataPoison
       else
         let word := xGet k.spine o.reg.toNat
         if bitsOf word 63 27 ≠ 0 || (sprueGet k o.k.toNat).st ≠ .empty then trapAll s c cSprueProtocol
         else retireNop (setSprue s kc o.k.toNat (armedReg word (xGet k.spine (o.reg.toNat + 1)))) c)

/-- The status word of a sprue register (R267). -/
def sprueStatus (r : SprueReg) (waiting : Bool) : DWord :=
  let st := match r.st with
    | .empty => 0
    | .filling w => 0x1000 + w.toNat
    | .full n => 0x2000 + n.toNat
  BitVec.ofNat 64 (r.wcnt.toNat * 2 ^ 32 + r.rcnt.toNat * 2 ^ 20 + r.op.toNat * 2 ^ 16 + (if waiting then 2 ^ 14 else 0) + st)

/-- SSTAT (R267) -/
def execSstat (o : OpsSpr) (s : State) : Host.Outcome State Fault Refusal :=
  issueBy s fun c =>
    let kc := memberKc c.who
    let k := kcOf s kc
    let d := o.reg.toNat
    sprChecked s c o false false
      (let v := sprueStatus (sprueGet k o.k.toNat) (sprueWaited s kc o.k.toNat)
       if isSpine c.who then
         (if spinePred k.spine o.g then retireSpine s c fun sp => xSet sp d v else retireNop s c)
       else afterFlights s c (writesTo [d]) fun s =>
         let act := activeLanes (memberGroup s c.who) c o.g
         retireWrites (updMember s c.who fun g => spreadTaint g c o.g [] [d] fun l => [l]) c o.la.toNat [d]
           (act.flatMap fun l => regWrites d false l v.toNat) [])

/-- SCLR (R268) -/
def execSclr (o : OpsSprK) (s : State) : Host.Outcome State Fault Refusal :=
  issueBy s fun c =>
    let kc := memberKc c.who
    checked s c [(!isSpine c.who, cWrongUnit), (!spruesOk s c [o.k.toNat], cProtection)]
      (if !spinePred (kcOf s kc).spine o.g then retireNop s c
       else retireNop (setSprue s kc o.k.toNat SprueReg.init) c)

end Sys2Proof.Machine
end

