-- ==== Sys2Proof/Machine/Dispatch.lean ====
section
/-! DEFINITION. One arm per constructor of Instr: each is one direct call of its meaning. -/

namespace Sys2Proof.Machine

/-- Runs one instruction or event.
DEDUCED, unsafe: log entry 72. -/
def exec (i : Instr) (s : State) : Host.Outcome State Fault Refusal :=
  match i with
  | .movHalf o => Sys2Proof.Machine.execMovHalf o s
  | .addHalf o => Sys2Proof.Machine.execAddHalf o s
  | .subHalf o => Sys2Proof.Machine.execSubHalf o s
  | .andHalf o => Sys2Proof.Machine.execAndHalf o s
  | .orHalf o => Sys2Proof.Machine.execOrHalf o s
  | .xorHalf o => Sys2Proof.Machine.execXorHalf o s
  | .shlHalf o => Sys2Proof.Machine.execShlHalf o s
  | .shrN32Half o => Sys2Proof.Machine.execShrN32Half o s
  | .addF32Half o => Sys2Proof.Machine.execAddF32Half o s
  | .mulF32Half o => Sys2Proof.Machine.execMulF32Half o s
  | .minF32Half o => Sys2Proof.Machine.execMinF32Half o s
  | .maxF32Half o => Sys2Proof.Machine.execMaxF32Half o s
  | .subF32Half o => Sys2Proof.Machine.execSubF32Half o s
  | .minS32Half o => Sys2Proof.Machine.execMinS32Half o s
  | .maxS32Half o => Sys2Proof.Machine.execMaxS32Half o s
  | .movgHalf o => Sys2Proof.Machine.execMovgHalf o s
  | .add o => Sys2Proof.Machine.execAdd o s
  | .sub o => Sys2Proof.Machine.execSub o s
  | .addsS32 o => Sys2Proof.Machine.execAddsS32 o s
  | .subsS32 o => Sys2Proof.Machine.execSubsS32 o s
  | .minS32 o => Sys2Proof.Machine.execMinS32 o s
  | .maxS32 o => Sys2Proof.Machine.execMaxS32 o s
  | .minN32 o => Sys2Proof.Machine.execMinN32 o s
  | .maxN32 o => Sys2Proof.Machine.execMaxN32 o s
  | .mulLo o => Sys2Proof.Machine.execMulLo o s
  | .mulhiS32 o => Sys2Proof.Machine.execMulhiS32 o s
  | .mulhiN32 o => Sys2Proof.Machine.execMulhiN32 o s
  | .madLo o => Sys2Proof.Machine.execMadLo o s
  | .dot2S16 o => Sys2Proof.Machine.execDot2S16 o s
  | .dot4S8 o => Sys2Proof.Machine.execDot4S8 o s
  | .absS32 o => Sys2Proof.Machine.execAbsS32 o s
  | .and o => Sys2Proof.Machine.execAnd o s
  | .or o => Sys2Proof.Machine.execOr o s
  | .xor o => Sys2Proof.Machine.execXor o s
  | .andn o => Sys2Proof.Machine.execAndn o s
  | .shl o => Sys2Proof.Machine.execShl o s
  | .shrN32 o => Sys2Proof.Machine.execShrN32 o s
  | .shrS32 o => Sys2Proof.Machine.execShrS32 o s
  | .rotl o => Sys2Proof.Machine.execRotl o s
  | .popc o => Sys2Proof.Machine.execPopc o s
  | .clz o => Sys2Proof.Machine.execClz o s
  | .brev o => Sys2Proof.Machine.execBrev o s
  | .shrrS32 o => Sys2Proof.Machine.execShrrS32 o s
  | .satS16 o => Sys2Proof.Machine.execSatS16 o s
  | .packS16 o => Sys2Proof.Machine.execPackS16 o s
  | .sxt o => Sys2Proof.Machine.execSxt o s
  | .perm o => Sys2Proof.Machine.execPerm o s
  | .addi o => Sys2Proof.Machine.execAddi o s
  | .movl o => Sys2Proof.Machine.execMovl o s
  | .movh o => Sys2Proof.Machine.execMovh o s
  | .nop o => Sys2Proof.Machine.execNop o s
  | .yield o => Sys2Proof.Machine.execYield o s
  | .exit o => Sys2Proof.Machine.execExit o s
  | .trap o => Sys2Proof.Machine.execTrap o s
  | .jmpi o => Sys2Proof.Machine.execJmpi o s
  | .jmpiL o => Sys2Proof.Machine.execJmpiL o s
  | .prio o => Sys2Proof.Machine.execPrio o s
  | .critOn => Sys2Proof.Machine.execCritOn s
  | .critOff => Sys2Proof.Machine.execCritOff s
  | .gstep => Sys2Proof.Machine.execGstep s
  | .brk o => Sys2Proof.Machine.execBrk o s
  | .shli o => Sys2Proof.Machine.execShli o s
  | .shriN o => Sys2Proof.Machine.execShriN o s
  | .shriS o => Sys2Proof.Machine.execShriS o s
  | .shrriS o => Sys2Proof.Machine.execShrriS o s
  | .rotli o => Sys2Proof.Machine.execRotli o s
  | .andi o => Sys2Proof.Machine.execAndi o s
  | .ori o => Sys2Proof.Machine.execOri o s
  | .xori o => Sys2Proof.Machine.execXori o s
  | .icmpEq o => Sys2Proof.Machine.execIcmpEq o s
  | .icmpNe o => Sys2Proof.Machine.execIcmpNe o s
  | .icmpLtS o => Sys2Proof.Machine.execIcmpLtS o s
  | .icmpLeS o => Sys2Proof.Machine.execIcmpLeS o s
  | .icmpGtS o => Sys2Proof.Machine.execIcmpGtS o s
  | .icmpGeS o => Sys2Proof.Machine.execIcmpGeS o s
  | .icmpLtN o => Sys2Proof.Machine.execIcmpLtN o s
  | .icmpGeN o => Sys2Proof.Machine.execIcmpGeN o s
  | .fcmpEq o => Sys2Proof.Machine.execFcmpEq o s
  | .fcmpNe o => Sys2Proof.Machine.execFcmpNe o s
  | .fcmpLt o => Sys2Proof.Machine.execFcmpLt o s
  | .fcmpLe o => Sys2Proof.Machine.execFcmpLe o s
  | .fcmpGt o => Sys2Proof.Machine.execFcmpGt o s
  | .fcmpGe o => Sys2Proof.Machine.execFcmpGe o s
  | .fcmpNan o => Sys2Proof.Machine.execFcmpNan o s
  | .fcmpNum o => Sys2Proof.Machine.execFcmpNum o s
  | .sel o => Sys2Proof.Machine.execSel o s
  | .pand o => Sys2Proof.Machine.execPand o s
  | .por o => Sys2Proof.Machine.execPor o s
  | .pxor o => Sys2Proof.Machine.execPxor o s
  | .pandn o => Sys2Proof.Machine.execPandn o s
  | .pnot o => Sys2Proof.Machine.execPnot o s
  | .pmov o => Sys2Proof.Machine.execPmov o s
  | .addF32 o => Sys2Proof.Machine.execAddF32 o s
  | .subF32 o => Sys2Proof.Machine.execSubF32 o s
  | .mulF32 o => Sys2Proof.Machine.execMulF32 o s
  | .fmaF32 o => Sys2Proof.Machine.execFmaF32 o s
  | .fnmaF32 o => Sys2Proof.Machine.execFnmaF32 o s
  | .minF32 o => Sys2Proof.Machine.execMinF32 o s
  | .maxF32 o => Sys2Proof.Machine.execMaxF32 o s
  | .copysignF32 o => Sys2Proof.Machine.execCopysignF32 o s
  | .haddF16x2 o => Sys2Proof.Machine.execHaddF16x2 o s
  | .hmulF16x2 o => Sys2Proof.Machine.execHmulF16x2 o s
  | .hfmaF16x2 o => Sys2Proof.Machine.execHfmaF16x2 o s
  | .haddBf16x2 o => Sys2Proof.Machine.execHaddBf16x2 o s
  | .hmulBf16x2 o => Sys2Proof.Machine.execHmulBf16x2 o s
  | .hfmaBf16x2 o => Sys2Proof.Machine.execHfmaBf16x2 o s
  | .hminBf16x2 o => Sys2Proof.Machine.execHminBf16x2 o s
  | .hmaxBf16x2 o => Sys2Proof.Machine.execHmaxBf16x2 o s
  | .rcpF32 o => Sys2Proof.Machine.execRcpF32 o s
  | .rsqrtF32 o => Sys2Proof.Machine.execRsqrtF32 o s
  | .sqrtF32 o => Sys2Proof.Machine.execSqrtF32 o s
  | .exp2F32 o => Sys2Proof.Machine.execExp2F32 o s
  | .log2F32 o => Sys2Proof.Machine.execLog2F32 o s
  | .sinpiF32 o => Sys2Proof.Machine.execSinpiF32 o s
  | .cospiF32 o => Sys2Proof.Machine.execCospiF32 o s
  | .tanhF32 o => Sys2Proof.Machine.execTanhF32 o s
  | .cvtF32S32 o => Sys2Proof.Machine.execCvtF32S32 o s
  | .cvtS32F32 o => Sys2Proof.Machine.execCvtS32F32 o s
  | .cvtF32N32 o => Sys2Proof.Machine.execCvtF32N32 o s
  | .cvtN32F32 o => Sys2Proof.Machine.execCvtN32F32 o s
  | .cvtF32F16 o => Sys2Proof.Machine.execCvtF32F16 o s
  | .cvtF16F32 o => Sys2Proof.Machine.execCvtF16F32 o s
  | .cvtF32Bf16 o => Sys2Proof.Machine.execCvtF32Bf16 o s
  | .cvtBf16F32 o => Sys2Proof.Machine.execCvtBf16F32 o s
  | .cvtF32E4m3 o => Sys2Proof.Machine.execCvtF32E4m3 o s
  | .cvtE4m3F32 o => Sys2Proof.Machine.execCvtE4m3F32 o s
  | .cvtF32E5m2 o => Sys2Proof.Machine.execCvtF32E5m2 o s
  | .cvtE5m2F32 o => Sys2Proof.Machine.execCvtE5m2F32 o s
  | .cvtF32L6 o => Sys2Proof.Machine.execCvtF32L6 o s
  | .cvtL6F32 o => Sys2Proof.Machine.execCvtL6F32 o s
  | .cvtF32F64 o => Sys2Proof.Machine.execCvtF32F64 o s
  | .cvtF64F32 o => Sys2Proof.Machine.execCvtF64F32 o s
  | .shflIdx o => Sys2Proof.Machine.execShflIdx o s
  | .shflXor o => Sys2Proof.Machine.execShflXor o s
  | .sldUpZ o => Sys2Proof.Machine.execSldUpZ o s
  | .sldUpK o => Sys2Proof.Machine.execSldUpK o s
  | .sldDnZ o => Sys2Proof.Machine.execSldDnZ o s
  | .sldDnK o => Sys2Proof.Machine.execSldDnK o s
  | .lrot o => Sys2Proof.Machine.execLrot o s
  | .raddS32 o => Sys2Proof.Machine.execRaddS32 o s
  | .raddF32 o => Sys2Proof.Machine.execRaddF32 o s
  | .rminS32 o => Sys2Proof.Machine.execRminS32 o s
  | .rmaxS32 o => Sys2Proof.Machine.execRmaxS32 o s
  | .rminF32 o => Sys2Proof.Machine.execRminF32 o s
  | .rmaxF32 o => Sys2Proof.Machine.execRmaxF32 o s
  | .ballot o => Sys2Proof.Machine.execBallot o s
  | .vcount o => Sys2Proof.Machine.execVcount o s
  | .rdc o => Sys2Proof.Machine.execRdc o s
  | .wrc o => Sys2Proof.Machine.execWrc o s
  | .v2g o => Sys2Proof.Machine.execV2g o s
  | .ld o => Sys2Proof.Machine.execLd o s
  | .st o => Sys2Proof.Machine.execSt o s
  | .ldAcq o => Sys2Proof.Machine.execLdAcq o s
  | .stRel o => Sys2Proof.Machine.execStRel o s
  | .fenceCore o => Sys2Proof.Machine.execFenceCore o s
  | .fenceCluster o => Sys2Proof.Machine.execFenceCluster o s
  | .fenceDevice o => Sys2Proof.Machine.execFenceDevice o s
  | .fenceSystem o => Sys2Proof.Machine.execFenceSystem o s
  | .tfenceDevice o => Sys2Proof.Machine.execTfenceDevice o s
  | .tfenceSystem o => Sys2Proof.Machine.execTfenceSystem o s
  | .fenceRp o => Sys2Proof.Machine.execFenceRp o s
  | .atomAdd o => Sys2Proof.Machine.execAtomAdd o s
  | .atomAddf o => Sys2Proof.Machine.execAtomAddf o s
  | .atomMin o => Sys2Proof.Machine.execAtomMin o s
  | .atomMax o => Sys2Proof.Machine.execAtomMax o s
  | .atomAnd o => Sys2Proof.Machine.execAtomAnd o s
  | .atomOr o => Sys2Proof.Machine.execAtomOr o s
  | .atomExch o => Sys2Proof.Machine.execAtomExch o s
  | .atomCas o => Sys2Proof.Machine.execAtomCas o s
  | .apres o => Sys2Proof.Machine.execApres o s
  | .apcmt o => Sys2Proof.Machine.execApcmt o s
  | .apst o => Sys2Proof.Machine.execApst o s
  | .seal o => Sys2Proof.Machine.execSeal o s
  | .sealW o => Sys2Proof.Machine.execSealW o s
  | .tailrd o => Sys2Proof.Machine.execTailrd o s
  | .tailrdR o => Sys2Proof.Machine.execTailrdR o s
  | .twatch o => Sys2Proof.Machine.execTwatch o s
  | .wpop o => Sys2Proof.Machine.execWpop o s
  | .wsteal o => Sys2Proof.Machine.execWsteal o s
  | .wpush o => Sys2Proof.Machine.execWpush o s
  | .wdepDec o => Sys2Proof.Machine.execWdepDec o s
  | .wdepAdd o => Sys2Proof.Machine.execWdepAdd o s
  | .wdepSet o => Sys2Proof.Machine.execWdepSet o s
  | .wqryDeque o => Sys2Proof.Machine.execWqryDeque o s
  | .wqryDep o => Sys2Proof.Machine.execWqryDep o s
  | .wqryFeed o => Sys2Proof.Machine.execWqryFeed o s
  | .barm o => Sys2Proof.Machine.execBarm o s
  | .arv o => Sys2Proof.Machine.execArv o s
  | .wait o => Sys2Proof.Machine.execWait o s
  | .phrd o => Sys2Proof.Machine.execPhrd o s
  | .bexp o => Sys2Proof.Machine.execBexp o s
  | .step o => Sys2Proof.Machine.execStep o s
  | .bfree o => Sys2Proof.Machine.execBfree o s
  | .lcpy4 o => Sys2Proof.Machine.execLcpy4 o s
  | .lcpy8 o => Sys2Proof.Machine.execLcpy8 o s
  | .lcpy16 o => Sys2Proof.Machine.execLcpy16 o s
  | .lxfr o => Sys2Proof.Machine.execLxfr o s
  | .lmcs o => Sys2Proof.Machine.execLmcs o s
  | .lred o => Sys2Proof.Machine.execLred o s
  | .lwp o => Sys2Proof.Machine.execLwp o s
  | .sget o => Sys2Proof.Machine.execSget o s
  | .speek o => Sys2Proof.Machine.execSpeek o s
  | .sset o => Sys2Proof.Machine.execSset o s
  | .sarm o => Sys2Proof.Machine.execSarm o s
  | .sacc o => Sys2Proof.Machine.execSacc o s
  | .sstat o => Sys2Proof.Machine.execSstat o s
  | .sclr o => Sys2Proof.Machine.execSclr o s
  | .mma o => Sys2Proof.Machine.execMma o s
  | .drain o => Sys2Proof.Machine.execDrain o s
  | .drainR o => Sys2Proof.Machine.execDrainR o s
  | .drainC o => Sys2Proof.Machine.execDrainC o s
  | .drainRc o => Sys2Proof.Machine.execDrainRc o s
  | .czero o => Sys2Proof.Machine.execCzero o s
  | .br o => Sys2Proof.Machine.execBr o s
  | .call o => Sys2Proof.Machine.execCall o s
  | .longLatencyComplete m => Sys2Proof.Machine.execLongLatencyComplete m s
  | .memoryResponse r => Sys2Proof.Machine.execMemoryResponse r s
  | .runAhead m => Sys2Proof.Machine.execRunAhead m s
  | .yieldOverrun m => Sys2Proof.Machine.execYieldOverrun m s
  | .lockHolderLimit m => Sys2Proof.Machine.execLockHolderLimit m s
  | .critDeferExpiry m => Sys2Proof.Machine.execCritDeferExpiry m s
  | .ladleBytesLand id n => Sys2Proof.Machine.execLadleBytesLand id n s
  | .ladleAccessDenied id => Sys2Proof.Machine.execLadleAccessDenied id s
  | .ladlePageFault id => Sys2Proof.Machine.execLadlePageFault id s
  | .ladleLockWaitEnd m => Sys2Proof.Machine.execLadleLockWaitEnd m s
  | .ladleChannelStart id => Sys2Proof.Machine.execLadleChannelStart id s
  | .lmcsHoldEnd m => Sys2Proof.Machine.execLmcsHoldEnd m s
  | .doorbellWrite o => Sys2Proof.Machine.execDoorbellWrite o s
  | .queueNotify q => Sys2Proof.Machine.execQueueNotify q s
  | .tundishConsume q => Sys2Proof.Machine.execTundishConsume q s
  | .placementRound => Sys2Proof.Machine.execPlacementRound s
  | .headAgeing q => Sys2Proof.Machine.execHeadAgeing q s
  | .workDeposit q => Sys2Proof.Machine.execWorkDeposit q s
  | .trapFrameWrite n => Sys2Proof.Machine.execTrapFrameWrite n s
  | .trapAnswerRetry o => Sys2Proof.Machine.execTrapAnswerRetry o s
  | .trapAnswerSkip o => Sys2Proof.Machine.execTrapAnswerSkip o s
  | .trapAnswerEnd o => Sys2Proof.Machine.execTrapAnswerEnd o s
  | .saveComplete kc => Sys2Proof.Machine.execSaveComplete kc s
  | .resume kc => Sys2Proof.Machine.execResume kc s
  | .deadlockWatchdog kc => Sys2Proof.Machine.execDeadlockWatchdog kc s
  | .meterUpdate o => Sys2Proof.Machine.execMeterUpdate o s
  | .create f => Sys2Proof.Machine.execCreate f s
  | .retire f => Sys2Proof.Machine.execRetire f s
  | .suspendContext f => Sys2Proof.Machine.execSuspendContext f s
  | .resumeContext f => Sys2Proof.Machine.execResumeContext f s
  | .suspendGrid f gid => Sys2Proof.Machine.execSuspendGrid f gid s
  | .resumeGrid f gid => Sys2Proof.Machine.execResumeGrid f gid s
  | .qrsvRead o => Sys2Proof.Machine.execQrsvRead o s
  | .pmodeChange mode => Sys2Proof.Machine.execPmodeChange mode s
  | .pmodeForce mode => Sys2Proof.Machine.execPmodeForce mode s
  | .forcePreemptTimeout => Sys2Proof.Machine.execForcePreemptTimeout s
  | .stage2Fence v => Sys2Proof.Machine.execStage2Fence v s
  | .queueTableWrite q entry => Sys2Proof.Machine.execQueueTableWrite q entry s
  | .vfcfgWrite v val => Sys2Proof.Machine.execVfcfgWrite v val s
  | .circuitRequest n entry => Sys2Proof.Machine.execCircuitRequest n entry s
  | .circuitRelease n => Sys2Proof.Machine.execCircuitRelease n s
  | .circuitUp n => Sys2Proof.Machine.execCircuitUp n s
  | .circuitDrained n => Sys2Proof.Machine.execCircuitDrained n s
  | .bar0Write o => Sys2Proof.Machine.execBar0Write o s
  | .functionLevelReset o => Sys2Proof.Machine.execFunctionLevelReset o s
  | .warmReset f die ms => Sys2Proof.Machine.execWarmReset f die ms s
  | .dieStatus f die => Sys2Proof.Machine.execDieStatus f die s
  | .errRead f die => Sys2Proof.Machine.execErrRead f die s
  | .energyRead f o => Sys2Proof.Machine.execEnergyRead f o s
  | .dbForward f asid dev exp => Sys2Proof.Machine.execDbForward f asid dev exp s
  | .dbUnforward f asid => Sys2Proof.Machine.execDbUnforward f asid s
  | .attest f nonce => Sys2Proof.Machine.execAttest f nonce s
  | .fwStage f chunk => Sys2Proof.Machine.execFwStage f chunk s
  | .withdrawDone die => Sys2Proof.Machine.execWithdrawDone die s
  | .withdrawDeadline die => Sys2Proof.Machine.execWithdrawDeadline die s
  | .writebackDone die => Sys2Proof.Machine.execWritebackDone die s
  | .selftestDone o => Sys2Proof.Machine.execSelftestDone o s
  | .ucieTrained die pass => Sys2Proof.Machine.execUcieTrained die pass s
  | .packageClockHandshake die time => Sys2Proof.Machine.execPackageClockHandshake die time s
  | .ucieRetrainTimeout die => Sys2Proof.Machine.execUcieRetrainTimeout die s
  | .fatalReport die => Sys2Proof.Machine.execFatalReport die s
  | .heartbeatMiss die => Sys2Proof.Machine.execHeartbeatMiss die s
  | .lostBypassEnter die => Sys2Proof.Machine.execLostBypassEnter die s
  | .timeSourceLoss die => Sys2Proof.Machine.execTimeSourceLoss die s
  | .ptmExchange o => Sys2Proof.Machine.execPtmExchange o s
  | .ptpMessage o => Sys2Proof.Machine.execPtpMessage o s
  | .remoteRequest o => Sys2Proof.Machine.execRemoteRequest o s
  | .flitReplay link => Sys2Proof.Machine.execFlitReplay link s
  | .linkFailure link => Sys2Proof.Machine.execLinkFailure link s
  | .completionTimeout req => Sys2Proof.Machine.execCompletionTimeout req s
  | .replicaCreate frame copy => Sys2Proof.Machine.execReplicaCreate frame copy s
  | .replicaReclaim copy => Sys2Proof.Machine.execReplicaReclaim copy s
  | .frameScrub frame => Sys2Proof.Machine.execFrameScrub frame s
  | .patrolRead frame => Sys2Proof.Machine.execPatrolRead frame s
  | .sModeFault die => Sys2Proof.Machine.execSModeFault die s
  | .pluginFault die vf => Sys2Proof.Machine.execPluginFault die vf s
  | .deviceBoot images => Sys2Proof.Machine.execDeviceBoot images s
  | .powerClamp binds => Sys2Proof.Machine.execPowerClamp binds s
  | .hostPostedWrite o => Sys2Proof.Machine.execHostPostedWrite o s
  | .frameTableWrite frame entry => Sys2Proof.Machine.execFrameTableWrite frame entry s
  | .partitionModeTakesEffect => Sys2Proof.Machine.execPartitionModeTakesEffect s
  | .stage2FenceDone v => Sys2Proof.Machine.execStage2FenceDone v s
  | .tokenBucketFill asid die n => Sys2Proof.Machine.execTokenBucketFill asid die n s
  | .ucieRetrainStart die => Sys2Proof.Machine.execUcieRetrainStart die s

end Sys2Proof.Machine
end

