-- ==== Sys2Proof/WellFormed.lean ====
section
/-! DEFINITION. Which instruction terms an encoding exists for: the checks of R93 that depend on the
fields alone, and not on the unit or on the running kernel (those are made when the instruction issues,
R95). The device steps without words are always well-formed. -/

namespace Sys2Proof

/-- The control-register indices of R32. -/
def listedIndex (i : BitVec 8) : Bool :=
  [0x00, 0x01, 0x02, 0x03, 0x04, 0x05, 0x06, 0x07, 0x08, 0x10, 0x11, 0x12, 0x13, 0x14, 0x18, 0x19,
    0x1A, 0x1B, 0x20, 0x21, 0x30, 0x31, 0x32].contains i.toNat

/-- R93: no reserved code, no disallowed x, count, scope or p0 destination, and not the halfword 0x0000. -/
def Instr.wellFormed : Instr → Bool
  | .movHalf o => !(o.a == 0 && o.d == 0)
  | .addHalf _ => true
  | .subHalf _ => true
  | .andHalf _ => true
  | .orHalf _ => true
  | .xorHalf _ => true
  | .shlHalf _ => true
  | .shrN32Half _ => true
  | .addF32Half _ => true
  | .mulF32Half _ => true
  | .minF32Half _ => true
  | .maxF32Half _ => true
  | .subF32Half _ => true
  | .minS32Half _ => true
  | .maxS32Half _ => true
  | .movgHalf _ => true
  | .add _ => true
  | .sub _ => true
  | .addsS32 _ => true
  | .subsS32 _ => true
  | .minS32 _ => true
  | .maxS32 _ => true
  | .minN32 _ => true
  | .maxN32 _ => true
  | .mulLo _ => true
  | .mulhiS32 _ => true
  | .mulhiN32 _ => true
  | .madLo _ => true
  | .dot2S16 _ => true
  | .dot4S8 _ => true
  | .absS32 _ => true
  | .and _ => true
  | .or _ => true
  | .xor _ => true
  | .andn _ => true
  | .shl _ => true
  | .shrN32 _ => true
  | .shrS32 _ => true
  | .rotl _ => true
  | .popc _ => true
  | .clz _ => true
  | .brev _ => true
  | .shrrS32 _ => true
  | .satS16 _ => true
  | .packS16 _ => true
  | .sxt _ => true
  | .perm _ => true
  | .addi _ => true
  | .movl _ => true
  | .movh _ => true
  | .nop _ => true
  | .yield _ => true
  | .exit _ => true
  | .trap _ => true
  | .jmpi _ => true
  | .jmpiL _ => true
  | .prio _ => true
  | .critOn => true
  | .critOff => true
  | .gstep => true
  | .brk _ => true
  | .shli o => decide (o.imm.toNat < if o.x then 64 else 32)
  | .shriN o => decide (o.imm.toNat < if o.x then 64 else 32)
  | .shriS o => decide (o.imm.toNat < if o.x then 64 else 32)
  | .shrriS o => decide (o.imm.toNat < if o.x then 64 else 32)
  | .rotli o => decide (o.imm.toNat < if o.x then 64 else 32)
  | .andi _ => true
  | .ori _ => true
  | .xori _ => true
  | .icmpEq o => decide (o.comb.toNat < 6) && o.pd != 0
  | .icmpNe o => decide (o.comb.toNat < 6) && o.pd != 0
  | .icmpLtS o => decide (o.comb.toNat < 6) && o.pd != 0
  | .icmpLeS o => decide (o.comb.toNat < 6) && o.pd != 0
  | .icmpGtS o => decide (o.comb.toNat < 6) && o.pd != 0
  | .icmpGeS o => decide (o.comb.toNat < 6) && o.pd != 0
  | .icmpLtN o => decide (o.comb.toNat < 6) && o.pd != 0
  | .icmpGeN o => decide (o.comb.toNat < 6) && o.pd != 0
  | .fcmpEq o => decide (o.comb.toNat < 6) && o.pd != 0
  | .fcmpNe o => decide (o.comb.toNat < 6) && o.pd != 0
  | .fcmpLt o => decide (o.comb.toNat < 6) && o.pd != 0
  | .fcmpLe o => decide (o.comb.toNat < 6) && o.pd != 0
  | .fcmpGt o => decide (o.comb.toNat < 6) && o.pd != 0
  | .fcmpGe o => decide (o.comb.toNat < 6) && o.pd != 0
  | .fcmpNan o => decide (o.comb.toNat < 6) && o.pd != 0
  | .fcmpNum o => decide (o.comb.toNat < 6) && o.pd != 0
  | .sel _ => true
  | .pand o => o.pd != 0
  | .por o => o.pd != 0
  | .pxor o => o.pd != 0
  | .pandn o => o.pd != 0
  | .pnot o => o.pd != 0
  | .pmov o => o.pd != 0
  | .addF32 _ => true
  | .subF32 _ => true
  | .mulF32 _ => true
  | .fmaF32 _ => true
  | .fnmaF32 _ => true
  | .minF32 _ => true
  | .maxF32 _ => true
  | .copysignF32 _ => true
  | .haddF16x2 _ => true
  | .hmulF16x2 _ => true
  | .hfmaF16x2 _ => true
  | .haddBf16x2 _ => true
  | .hmulBf16x2 _ => true
  | .hfmaBf16x2 _ => true
  | .hminBf16x2 _ => true
  | .hmaxBf16x2 _ => true
  | .rcpF32 _ => true
  | .rsqrtF32 _ => true
  | .sqrtF32 _ => true
  | .exp2F32 _ => true
  | .log2F32 _ => true
  | .sinpiF32 _ => true
  | .cospiF32 _ => true
  | .tanhF32 _ => true
  | .cvtF32S32 _ => true
  | .cvtS32F32 _ => true
  | .cvtF32N32 _ => true
  | .cvtN32F32 _ => true
  | .cvtF32F16 _ => true
  | .cvtF16F32 _ => true
  | .cvtF32Bf16 _ => true
  | .cvtBf16F32 _ => true
  | .cvtF32E4m3 _ => true
  | .cvtE4m3F32 _ => true
  | .cvtF32E5m2 _ => true
  | .cvtE5m2F32 _ => true
  | .cvtF32L6 _ => true
  | .cvtL6F32 _ => true
  | .cvtF32F64 _ => true
  | .cvtF64F32 _ => true
  | .shflIdx _ => true
  | .shflXor _ => true
  | .sldUpZ _ => true
  | .sldUpK _ => true
  | .sldDnZ _ => true
  | .sldDnK _ => true
  | .lrot _ => true
  | .raddS32 _ => true
  | .raddF32 _ => true
  | .rminS32 _ => true
  | .rmaxS32 _ => true
  | .rminF32 _ => true
  | .rmaxF32 _ => true
  | .ballot _ => true
  | .vcount _ => true
  | .rdc o => listedIndex o.idx
  | .wrc o => listedIndex o.idx
  | .v2g _ => true
  | .ld o => decide (o.size.toNat ≤ 4) && decide (o.space.toNat ≤ 5) && (!o.x || decide (o.size.toNat ≤ 1))
  | .st o => decide (o.size.toNat ≤ 4) && decide (o.space.toNat ≤ 5)
  | .ldAcq o => decide (o.size.toNat ≤ 4)
  | .stRel o => decide (o.size.toNat ≤ 4)
  | .fenceCore _ => true
  | .fenceCluster _ => true
  | .fenceDevice _ => true
  | .fenceSystem _ => true
  | .tfenceDevice _ => true
  | .tfenceSystem _ => true
  | .fenceRp _ => true
  | .atomAdd o => !o.x || o.scope == 0
  | .atomAddf o => !o.x || o.scope == 0
  | .atomMin o => !o.x || o.scope == 0
  | .atomMax o => !o.x || o.scope == 0
  | .atomAnd o => !o.x || o.scope == 0
  | .atomOr o => !o.x || o.scope == 0
  | .atomExch o => !o.x || o.scope == 0
  | .atomCas o => !o.x || o.scope == 0
  | .apres _ => true
  | .apcmt _ => true
  | .apst o => o.size == 2 || o.size == 3 || o.size == 4
  | .seal _ => true
  | .sealW _ => true
  | .tailrd _ => true
  | .tailrdR _ => true
  | .twatch _ => true
  | .wpop _ => true
  | .wsteal _ => true
  | .wpush _ => true
  | .wdepDec _ => true
  | .wdepAdd _ => true
  | .wdepSet _ => true
  | .wqryDeque _ => true
  | .wqryDep _ => true
  | .wqryFeed _ => true
  | .barm _ => true
  | .arv _ => true
  | .wait _ => true
  | .phrd _ => true
  | .bexp _ => true
  | .step o => decide (o.k6.toNat ≤ 7)
  | .bfree _ => true
  | .lcpy4 _ => true
  | .lcpy8 _ => true
  | .lcpy16 _ => true
  | .lxfr _ => true
  | .lmcs _ => true
  | .lred _ => true
  | .lwp _ => true
  | .sget _ => true
  | .speek _ => true
  | .sset _ => true
  | .sarm _ => true
  | .sacc _ => true
  | .sstat _ => true
  | .sclr _ => true
  | .mma o => decide (o.type.toNat ≤ 6)
  | .drain _ => true
  | .drainR _ => true
  | .drainC _ => true
  | .drainRc _ => true
  | .czero _ => true
  | .br _ => true
  | .call _ => true
  | .longLatencyComplete _ => true
  | .memoryResponse _ => true
  | .runAhead _ => true
  | .yieldOverrun _ => true
  | .lockHolderLimit _ => true
  | .critDeferExpiry _ => true
  | .ladleBytesLand _ _ => true
  | .ladleAccessDenied _ => true
  | .ladlePageFault _ => true
  | .ladleLockWaitEnd _ => true
  | .ladleChannelStart _ => true
  | .lmcsHoldEnd _ => true
  | .doorbellWrite _ => true
  | .queueNotify _ => true
  | .tundishConsume _ => true
  | .placementRound => true
  | .headAgeing _ => true
  | .workDeposit _ => true
  | .trapFrameWrite _ => true
  | .trapAnswerRetry _ => true
  | .trapAnswerSkip _ => true
  | .trapAnswerEnd _ => true
  | .saveComplete _ => true
  | .resume _ => true
  | .deadlockWatchdog _ => true
  | .meterUpdate _ => true
  | .create _ => true
  | .retire _ => true
  | .suspendContext _ => true
  | .resumeContext _ => true
  | .suspendGrid _ _ => true
  | .resumeGrid _ _ => true
  | .qrsvRead _ => true
  | .pmodeChange _ => true
  | .pmodeForce _ => true
  | .forcePreemptTimeout => true
  | .stage2Fence _ => true
  | .queueTableWrite _ _ => true
  | .vfcfgWrite _ _ => true
  | .circuitRequest _ _ => true
  | .circuitRelease _ => true
  | .circuitUp _ => true
  | .circuitDrained _ => true
  | .bar0Write _ => true
  | .functionLevelReset _ => true
  | .warmReset _ _ _ => true
  | .dieStatus _ _ => true
  | .errRead _ _ => true
  | .energyRead _ _ => true
  | .dbForward _ _ _ _ => true
  | .dbUnforward _ _ => true
  | .attest _ _ => true
  | .fwStage _ _ => true
  | .withdrawDone _ => true
  | .withdrawDeadline _ => true
  | .writebackDone _ => true
  | .selftestDone _ => true
  | .ucieTrained _ _ => true
  | .packageClockHandshake _ _ => true
  | .ucieRetrainTimeout _ => true
  | .fatalReport _ => true
  | .heartbeatMiss _ => true
  | .lostBypassEnter _ => true
  | .timeSourceLoss _ => true
  | .ptmExchange _ => true
  | .ptpMessage _ => true
  | .remoteRequest _ => true
  | .flitReplay _ => true
  | .linkFailure _ => true
  | .completionTimeout _ => true
  | .replicaCreate _ _ => true
  | .replicaReclaim _ => true
  | .frameScrub _ => true
  | .patrolRead _ => true
  | .sModeFault _ => true
  | .pluginFault _ _ => true
  | .deviceBoot _ => true
  | .powerClamp _ => true
  | .hostPostedWrite _ => true
  | .frameTableWrite _ _ => true
  | .partitionModeTakesEffect => true
  | .stage2FenceDone _ => true
  | .tokenBucketFill _ _ _ => true
  | .ucieRetrainStart _ => true

end Sys2Proof
end

