-- ==== Sys2Proof/Decode.lean ====
section
/-! DEFINITION. The decoder, from halfwords to an instruction or a named refusal (R65–R93), and the
encoder. Decoding follows the field maps of R69 and R76–R87: a reserved code, a spare bit that is set or
a value R93 forbids is refused by name, and every refusal is the ILLEGAL of R93. The encoder lists each
row's fields low bits first, as the opcode table gives them. -/

namespace Sys2Proof

/-- Why bytes name no instruction; every reason is ILLEGAL (R93), but for the two of R67. -/
inductive Reject where
  /-- a reserved major function, op, selector or code (R78) -/
  | reserved
  /-- a nonzero spare field, or a guard that must be 0 (R12, R85, R182) -/
  | spare
  /-- a field value that R93 does not allow -/
  | badField
  /-- no first halfword (R67) -/
  | noFirstHalf
  /-- no second halfword of a 32-bit instruction (R67) -/
  | noSecondHalf
  deriving DecidableEq, Repr

/-- Bits [lo + n − 1 : lo] of an instruction word. -/
def fld (w lo n : Nat) : Nat := w / 2 ^ lo % 2 ^ n

/-- One bit of an instruction word. -/
def bit (w lo : Nat) : Bool := decide (w / 2 ^ lo % 2 = 1)

/-- Fields placed from bit 0 upward: (value, width), low bits first. -/
def pack : List (Nat × Nat) → Nat
  | [] => 0
  | (v, n) :: rest => v % 2 ^ n + 2 ^ n * pack rest

/-! ### Field maps (R76) -/

def fldG (w : Nat) : PredNo := BitVec.ofNat 3 (fld w 6 3)
def fldD (w : Nat) : RegField := BitVec.ofNat 6 (fld w 10 6)
def fldA (w : Nat) : RegField := BitVec.ofNat 6 (fld w 16 6)
def fldB (w : Nat) : BitVec 7 := BitVec.ofNat 7 (fld w 22 7)
def fldX (w : Nat) : Bool := bit w 9
def fldLa (w : Nat) : BitVec 4 := BitVec.ofNat 4 (fld w 28 4)
def fld3 (w lo : Nat) : BitVec 3 := BitVec.ofNat 3 (fld w lo 3)

def opsL (w : Nat) : OpsL := ⟨fldG w, fldX w, fldD w, fldA w, fldB w⟩
def opsL1 (w : Nat) : OpsL1 := ⟨fldG w, fldD w, fldA w, fldB w⟩
def opsA (w : Nat) : OpsA := ⟨fldG w, fldX w, fldD w, fldA w⟩
def opsA1 (w : Nat) : OpsA1 := ⟨fldG w, fldD w, fldA w⟩
def opsM (w : Nat) : OpsM := ⟨fldG w, fldD w, fldA w, fldLa w⟩
def opsI2 (w : Nat) : OpsI2 := ⟨fldG w, fldX w, fldD w, fldA w, BitVec.ofNat 7 (fld w 25 7)⟩
def opsP (w : Nat) : OpsP := ⟨fldG w, fldX w, fld3 w 10, fldA w, fldB w, fld3 w 29⟩
def opsAtom (w : Nat) : OpsAtom :=
  ⟨fldG w, fldX w, fldD w, fldA w, BitVec.ofNat 2 (fld w 25 2), bit w 27, fldLa w⟩
def opsLdo (w : Nat) : OpsLdo := ⟨fldG w, fldD w, fldA w, fld3 w 22, BitVec.ofNat 2 (fld w 25 2), fldLa w⟩
def opsSpr (w : Nat) : OpsSpr := ⟨fldG w, fldD w, BitVec.ofNat 5 (fld w 16 5), fldLa w⟩
def opsBar (w : Nat) : OpsBar := ⟨fldG w, fldD w, BitVec.ofNat 4 (fld w 16 4)⟩
def opsLcpy (w : Nat) : OpsLcpy := ⟨fldG w, fldD w, fldA w, BitVec.ofNat 4 (fld w 22 4), fldLa w⟩
def opsBulk (w : Nat) : OpsBulk := ⟨fldG w, fldA w, BitVec.ofNat 4 (fld w 22 4), fldLa w⟩

/-- A decoded instruction whose spare bits must satisfy c (R12). -/
def whenSpare (c : Bool) (i : Instr) : Except Reject Instr := if c then .ok i else .error .spare

/-! ### The majors (R78) -/

/-- IA, major 0 (R111). -/
def decIA (w : Nat) : Except Reject Instr :=
  match fld w 29 3 with
  | 0 => .ok (.add (opsL w)) | 1 => .ok (.sub (opsL w))
  | 2 => .ok (.addsS32 (opsL w)) | 3 => .ok (.subsS32 (opsL w))
  | 4 => .ok (.minS32 (opsL w)) | 5 => .ok (.maxS32 (opsL w))
  | 6 => .ok (.minN32 (opsL w)) | _ => .ok (.maxN32 (opsL w))

/-- IM, major 1 (R112). -/
def decIM (w : Nat) : Except Reject Instr :=
  match fld w 29 3 with
  | 0 => .ok (.mulLo (opsL w))
  | 1 => whenSpare (!fldX w) (.mulhiS32 (opsL1 w))
  | 2 => whenSpare (!fldX w) (.mulhiN32 (opsL1 w))
  | 3 => .ok (.madLo (opsL w))
  | 4 => whenSpare (!fldX w) (.dot2S16 (opsL1 w))
  | 5 => whenSpare (!fldX w) (.dot4S8 (opsL1 w))
  | 6 => whenSpare (!fldX w && fldB w == 0) (.absS32 (opsA1 w))
  | _ => .error .reserved

/-- IL, major 2 (R114). -/
def decIL (w : Nat) : Except Reject Instr :=
  match fld w 29 3 with
  | 0 => .ok (.and (opsL w)) | 1 => .ok (.or (opsL w))
  | 2 => .ok (.xor (opsL w)) | 3 => .ok (.andn (opsL w))
  | 4 => .ok (.shl (opsL w)) | 5 => .ok (.shrN32 (opsL w))
  | 6 => .ok (.shrS32 (opsL w)) | _ => .ok (.rotl (opsL w))

/-- IB, major 3 (R115). -/
def decIB (w : Nat) : Except Reject Instr :=
  match fld w 29 3 with
  | 0 => whenSpare (fldB w == 0) (.popc (opsA w))
  | 1 => whenSpare (fldB w == 0) (.clz (opsA w))
  | 2 => whenSpare (fldB w == 0) (.brev (opsA w))
  | 3 => whenSpare (!fldX w) (.shrrS32 (opsL1 w))
  | 4 => whenSpare (!fldX w && fldB w == 0) (.satS16 (opsA1 w))
  | 5 => whenSpare (!fldX w) (.packS16 (opsL1 w))
  | 6 => whenSpare (!fldX w) (.sxt (opsL1 w))
  | _ => whenSpare (!fldX w) (.perm (opsL1 w))

/-- SYS, major 6 (R83, R182). -/
def decSys (w : Nat) : Except Reject Instr :=
  let g : OpsG := ⟨fldG w⟩
  let plain := decide (fld w 14 18 = 0) && !fldX w
  let noGuard := decide (fld w 6 3 = 0)
  match fld w 10 4 with
  | 0 => whenSpare plain (.nop g)
  | 1 => whenSpare (noGuard && !fldX w) (.yield ⟨BitVec.ofNat 12 (fld w 20 12), BitVec.ofNat 6 (fld w 14 6)⟩)
  | 2 => whenSpare plain (.exit g)
  | 3 => whenSpare (decide (fld w 22 10 = 0) && !fldX w) (.trap ⟨fldG w, BitVec.ofNat 8 (fld w 14 8)⟩)
  | 4 =>
    if fldX w then
      whenSpare (decide (fld w 20 12 = 0)) (.jmpiL ⟨fldG w, BitVec.ofNat 6 (fld w 14 6)⟩)
    else
      whenSpare (decide (fld w 26 6 = 0))
        (.jmpi ⟨fldG w, BitVec.ofNat 6 (fld w 14 6), BitVec.ofNat 6 (fld w 20 6)⟩)
  | 5 => whenSpare (decide (fld w 20 12 = 0) && !fldX w) (.prio ⟨fldG w, BitVec.ofNat 6 (fld w 14 6)⟩)
  | 6 => whenSpare (plain && noGuard) .critOn
  | 7 => whenSpare (plain && noGuard) .critOff
  | 8 => whenSpare (plain && noGuard) .gstep
  | 9 => whenSpare (decide (fld w 22 10 = 0) && !fldX w) (.brk ⟨fldG w, BitVec.ofNat 8 (fld w 14 8)⟩)
  | _ => .error .reserved

/-- IS, major 7 (R120). -/
def decIS (w : Nat) : Except Reject Instr :=
  match fld w 22 3 with
  | 0 => .ok (.shli (opsI2 w)) | 1 => .ok (.shriN (opsI2 w))
  | 2 => .ok (.shriS (opsI2 w)) | 3 => .ok (.shrriS (opsI2 w))
  | 4 => .ok (.rotli (opsI2 w)) | 5 => .ok (.andi (opsI2 w))
  | 6 => .ok (.ori (opsI2 w)) | _ => .ok (.xori (opsI2 w))

/-- ICMP, major 8 (R122). -/
def decIcmp (w : Nat) : Except Reject Instr :=
  match fld w 13 3 with
  | 0 => .ok (.icmpEq (opsP w)) | 1 => .ok (.icmpNe (opsP w))
  | 2 => .ok (.icmpLtS (opsP w)) | 3 => .ok (.icmpLeS (opsP w))
  | 4 => .ok (.icmpGtS (opsP w)) | 5 => .ok (.icmpGeS (opsP w))
  | 6 => .ok (.icmpLtN (opsP w)) | _ => .ok (.icmpGeN (opsP w))

/-- FCMP, major 9 (R123). -/
def decFcmp (w : Nat) : Except Reject Instr :=
  match fld w 13 3 with
  | 0 => .ok (.fcmpEq (opsP w)) | 1 => .ok (.fcmpNe (opsP w))
  | 2 => .ok (.fcmpLt (opsP w)) | 3 => .ok (.fcmpLe (opsP w))
  | 4 => .ok (.fcmpGt (opsP w)) | 5 => .ok (.fcmpGe (opsP w))
  | 6 => .ok (.fcmpNan (opsP w)) | _ => .ok (.fcmpNum (opsP w))

/-- PRED, major 11 (R125). -/
def decPred (w : Nat) : Except Reject Instr :=
  let o : OpsPR := ⟨fldG w, fld3 w 10, fld3 w 13, fld3 w 16⟩
  let o1 : OpsPR1 := ⟨fldG w, fld3 w 10, fld3 w 13⟩
  let ok := decide (fld w 22 10 = 0) && !fldX w
  let ok1 := ok && decide (fld w 16 3 = 0)
  match fld w 19 3 with
  | 0 => whenSpare ok (.pand o) | 1 => whenSpare ok (.por o)
  | 2 => whenSpare ok (.pxor o) | 3 => whenSpare ok (.pandn o)
  | 4 => whenSpare ok1 (.pnot o1) | 5 => whenSpare ok1 (.pmov o1)
  | _ => .error .reserved

/-- FA, major 12 (R126). -/
def decFA (w : Nat) : Except Reject Instr :=
  match fld w 29 3 with
  | 0 => .ok (.addF32 (opsL w)) | 1 => .ok (.subF32 (opsL w))
  | 2 => .ok (.mulF32 (opsL w)) | 3 => .ok (.fmaF32 (opsL w))
  | 4 => .ok (.fnmaF32 (opsL w)) | 5 => .ok (.minF32 (opsL w))
  | 6 => .ok (.maxF32 (opsL w)) | _ => .ok (.copysignF32 (opsL w))

/-- FH, major 13 (R128). -/
def decFH (w : Nat) : Except Reject Instr :=
  let o := opsL1 w
  whenSpare (!fldX w) (match fld w 29 3 with
  | 0 => .haddF16x2 o | 1 => .hmulF16x2 o | 2 => .hfmaF16x2 o
  | 3 => .haddBf16x2 o | 4 => .hmulBf16x2 o | 5 => .hfmaBf16x2 o
  | 6 => .hminBf16x2 o | _ => .hmaxBf16x2 o)

/-- FX, major 14 (R129). -/
def decFX (w : Nat) : Except Reject Instr :=
  let o := opsM w
  whenSpare (decide (fld w 25 3 = 0) && !fldX w) (match fld w 22 3 with
  | 0 => .rcpF32 o | 1 => .rsqrtF32 o | 2 => .sqrtF32 o | 3 => .exp2F32 o
  | 4 => .log2F32 o | 5 => .sinpiF32 o | 6 => .cospiF32 o | _ => .tanhF32 o)

/-- CV, major 15 (R49, R80). -/
def decCV (w : Nat) : Except Reject Instr :=
  let e := opsA1 w
  let r : OpsCvR := ⟨fldG w, fldD w, fldA w, BitVec.ofNat 2 (fld w 26 2)⟩
  let s : OpsCvS := ⟨fldG w, fldD w, fldA w, BitVec.ofNat 2 (fld w 26 2), bit w 28⟩
  let spare := decide (fld w 29 3 = 0) && !fldX w
  let noSat := spare && !bit w 28
  let exact := noSat && decide (fld w 26 2 = 0)
  match fld w 22 4 with
  | 0 => whenSpare noSat (.cvtF32S32 r) | 1 => whenSpare noSat (.cvtS32F32 r)
  | 2 => whenSpare noSat (.cvtF32N32 r) | 3 => whenSpare noSat (.cvtN32F32 r)
  | 4 => whenSpare exact (.cvtF32F16 e) | 5 => whenSpare spare (.cvtF16F32 s)
  | 6 => whenSpare exact (.cvtF32Bf16 e) | 7 => whenSpare spare (.cvtBf16F32 s)
  | 8 => whenSpare exact (.cvtF32E4m3 e) | 9 => whenSpare spare (.cvtE4m3F32 s)
  | 10 => whenSpare exact (.cvtF32E5m2 e) | 11 => whenSpare spare (.cvtE5m2F32 s)
  | 12 => whenSpare exact (.cvtF32L6 e) | 13 => whenSpare exact (.cvtL6F32 e)
  | 14 => whenSpare spare (.cvtF32F64 s) | _ => whenSpare exact (.cvtF64F32 e)

/-- XL, major 16 (R138). -/
def decXL (w : Nat) : Except Reject Instr :=
  match fld w 29 3 with
  | 0 => .ok (.shflIdx (opsL w)) | 1 => .ok (.shflXor (opsL w))
  | 2 => .ok (.sldUpZ (opsL w)) | 3 => .ok (.sldUpK (opsL w))
  | 4 => .ok (.sldDnZ (opsL w)) | 5 => .ok (.sldDnK (opsL w))
  | 6 => .ok (.lrot (opsL w)) | _ => .error .reserved

/-- GRED, major 17 (R141). -/
def decGred (w : Nat) : Except Reject Instr :=
  let o := opsA1 w
  whenSpare (decide (fld w 22 7 = 0) && !fldX w) (match fld w 29 3 with
  | 0 => .raddS32 o | 1 => .raddF32 o | 2 => .rminS32 o | 3 => .rmaxS32 o
  | 4 => .rminF32 o | 5 => .rmaxF32 o | 6 => .ballot o | _ => .vcount o)

/-- CTL, major 18 (R87, R133–R135). -/
def decCtl (w : Nat) : Except Reject Instr :=
  let spare := decide (fld w 28 4 = 0) && !fldX w
  let o : OpsCt := ⟨fldG w, fldD w, BitVec.ofNat 8 (fld w 16 8)⟩
  match fld w 24 4 with
  | 0 => whenSpare spare (.rdc o)
  | 1 => whenSpare spare (.wrc o)
  | 2 => whenSpare (spare && decide (fld w 21 3 = 0)) (.v2g ⟨fldG w, fldD w, BitVec.ofNat 5 (fld w 16 5)⟩)
  | _ => .error .reserved

/-- FENCE, major 22 (R254). -/
def decFence (w : Nat) : Except Reject Instr :=
  let g : OpsG := ⟨fldG w⟩
  let noA := decide (fld w 16 6 = 0)
  let spare := decide (fld w 25 7 = 0) && decide (fld w 10 6 = 0) && !fldX w
  match fld w 22 3 with
  | 0 => whenSpare (spare && noA) (.fenceCore g) | 1 => whenSpare (spare && noA) (.fenceCluster g)
  | 2 => whenSpare (spare && noA) (.fenceDevice g) | 3 => whenSpare (spare && noA) (.fenceSystem g)
  | 4 => whenSpare (spare && noA) (.tfenceDevice g) | 5 => whenSpare (spare && noA) (.tfenceSystem g)
  | 6 => whenSpare spare (.fenceRp ⟨fldG w, fldA w⟩)
  | _ => .error .reserved

/-- ATOM, major 23 (R256). -/
def decAtom (w : Nat) : Except Reject Instr :=
  let o := opsAtom w
  match fld w 22 3 with
  | 0 => .ok (.atomAdd o) | 1 => .ok (.atomAddf o) | 2 => .ok (.atomMin o) | 3 => .ok (.atomMax o)
  | 4 => .ok (.atomAnd o) | 5 => .ok (.atomOr o) | 6 => .ok (.atomExch o) | _ => .ok (.atomCas o)

/-- PAGE, major 24 (R361–R367). -/
def decPage (w : Nat) : Except Reject Instr :=
  let o := opsM w
  if fldX w then .error .spare else
  match fld w 25 3, fld w 22 3 with
  | 0, 0 => .ok (.apres o) | 1, 0 => .ok (.apcmt o)
  | 2, _ => .ok (.apst ⟨fldG w, fldD w, fldA w, fld3 w 22, fldLa w⟩)
  | 3, 0 => .ok (.seal o) | 3, 1 => .ok (.sealW o)
  | 4, 0 => .ok (.tailrd o) | 4, 1 => .ok (.tailrdR o)
  | 5, 0 => .ok (.twatch o)
  | _, _ => .error .reserved

/-- WORK, major 25 (R313). -/
def decWork (w : Nat) : Except Reject Instr :=
  let o := opsM w
  if fldX w then .error .spare else
  match fld w 25 3, fld w 22 3 with
  | 0, 0 => .ok (.wpop o) | 1, 0 => .ok (.wsteal o) | 2, 0 => .ok (.wpush o)
  | 3, 0 => .ok (.wdepDec o) | 3, 1 => .ok (.wdepAdd o) | 3, 2 => .ok (.wdepSet o)
  | 4, 0 => whenSpare (decide (fld w 16 6 = 0)) (.wqryDeque ⟨fldG w, fldD w, fldLa w⟩)
  | 4, 1 => .ok (.wqryDep o) | 4, 2 => .ok (.wqryFeed o)
  | _, _ => .error .reserved

/-- BAR, major 26 (R86, R271). -/
def decBar (w : Nat) : Except Reject Instr :=
  let o := opsBar w
  let k : OpsBarK := ⟨fldG w, BitVec.ofNat 4 (fld w 16 4), BitVec.ofNat 6 (fld w 23 6)⟩
  let spare := decide (fld w 29 3 = 0) && !fldX w
  let noK := spare && decide (fld w 23 6 = 0)
  let noR := decide (fld w 10 6 = 0)
  match fld w 20 3 with
  | 0 => whenSpare noK (.barm o)
  | 1 => whenSpare (spare && noR) (.arv k)
  | 2 => whenSpare noK (.wait o)
  | 3 => whenSpare noK (.phrd o)
  | 4 => whenSpare noK (.bexp o)
  | 5 => whenSpare (spare && noR) (.step k)
  | 6 => whenSpare (noK && noR) (.bfree ⟨fldG w, BitVec.ofNat 4 (fld w 16 4)⟩)
  | _ => .error .reserved

/-- LADLE, major 27 (R84). -/
def decLadle (w : Nat) : Except Reject Instr :=
  let noD := decide (fld w 10 6 = 0)
  if fldX w then
    match fld w 26 2 with
    | 0 => whenSpare noD (.lxfr (opsBulk w))
    | 1 => whenSpare noD (.lmcs (opsBulk w))
    | 2 => whenSpare noD (.lred (opsBulk w))
    | _ => whenSpare (decide (fld w 16 6 = 0)) (.lwp ⟨fldG w, fldD w, BitVec.ofNat 4 (fld w 22 4), fldLa w⟩)
  else
    match fld w 26 2 with
    | 0 => .ok (.lcpy4 (opsLcpy w)) | 1 => .ok (.lcpy8 (opsLcpy w)) | 2 => .ok (.lcpy16 (opsLcpy w))
    | _ => .error .reserved

/-- SPR, major 28 (R262). -/
def decSpr (w : Nat) : Except Reject Instr :=
  let o := opsSpr w
  let spare := decide (fld w 25 3 = 0) && !bit w 21 && !fldX w
  match fld w 22 3 with
  | 0 => whenSpare spare (.sget o) | 1 => whenSpare spare (.speek o) | 2 => whenSpare spare (.sset o)
  | 3 => whenSpare spare (.sarm o) | 4 => whenSpare spare (.sacc o) | 5 => whenSpare spare (.sstat o)
  | 6 => whenSpare (spare && decide (fld w 10 6 = 0)) (.sclr ⟨fldG w, BitVec.ofNat 5 (fld w 16 5), fldLa w⟩)
  | _ => .error .reserved

/-- DRN, major 30 (R156); the guard must be 0 (R85). -/
def decDrn (w : Nat) : Except Reject Instr :=
  let noGuard := decide (fld w 6 3 = 0)
  let n : OpsDrn := ⟨fldD w, fld3 w 22, fldX w, fldLa w⟩
  let a : OpsDrnA := ⟨fldD w, fldA w, fld3 w 22, fldX w, fldLa w⟩
  match fld w 25 3 with
  | 0 => whenSpare (noGuard && decide (fld w 16 6 = 0)) (.drain n)
  | 1 => whenSpare noGuard (.drainR a)
  | 2 => whenSpare noGuard (.drainC a)
  | 3 => whenSpare noGuard (.drainRc a)
  | 4 => whenSpare (noGuard && decide (fld w 9 16 = 0)) (.czero ⟨fldLa w⟩)
  | _ => .error .reserved

/-- The 16-bit forms (R69, R70). -/
def decode16 (w : Nat) : Except Reject Instr :=
  let o : Ops16 := ⟨BitVec.ofNat 5 (fld w 11 5), BitVec.ofNat 6 (fld w 5 6)⟩
  .ok (match fld w 1 4 with
  | 0 => .movHalf o | 1 => .addHalf o | 2 => .subHalf o | 3 => .andHalf o
  | 4 => .orHalf o | 5 => .xorHalf o | 6 => .shlHalf o | 7 => .shrN32Half o
  | 8 => .addF32Half o | 9 => .mulF32Half o | 10 => .minF32Half o | 11 => .maxF32Half o
  | 12 => .subF32Half o | 13 => .minS32Half o | 14 => .maxS32Half o | _ => .movgHalf o)

/-- The 32-bit forms by major (R78). -/
def decode32 (w : Nat) : Except Reject Instr :=
  match fld w 1 5 with
  | 0 => decIA w | 1 => decIM w | 2 => decIL w | 3 => decIB w
  | 4 => .ok (.addi ⟨fldG w, fldX w, fldD w, fldA w, BitVec.ofNat 10 (fld w 22 10)⟩)
  | 5 =>
    if fldX w then .ok (.movh ⟨fldG w, fldD w, BitVec.ofNat 16 (fld w 16 16)⟩)
    else .ok (.movl ⟨fldG w, fldD w, BitVec.ofNat 16 (fld w 16 16)⟩)
  | 6 => decSys w | 7 => decIS w | 8 => decIcmp w | 9 => decFcmp w
  | 10 => .ok (.sel ⟨fldG w, fldX w, fldD w, fldA w, fldB w, fld3 w 29⟩)
  | 11 => decPred w | 12 => decFA w | 13 => decFH w | 14 => decFX w | 15 => decCV w
  | 16 => decXL w | 17 => decGred w | 18 => decCtl w
  | 19 => .ok (.ld ⟨fldG w, fldX w, fldD w, fldA w, fld3 w 22, fld3 w 25, fldLa w⟩)
  | 20 => whenSpare (!fldX w) (.st ⟨fldG w, fldD w, fldA w, fld3 w 22, fld3 w 25, fldLa w⟩)
  | 21 => whenSpare (!fldX w) (if bit w 27 then .stRel (opsLdo w) else .ldAcq (opsLdo w))
  | 22 => decFence w | 23 => decAtom w | 24 => decPage w | 25 => decWork w
  | 26 => decBar w | 27 => decLadle w | 28 => decSpr w
  | 29 =>
    whenSpare (decide (fld w 6 3 = 0) && !bit w 24)
      (.mma ⟨BitVec.ofNat 6 (fld w 10 6), BitVec.ofNat 6 (fld w 16 6), fldX w,
        BitVec.ofNat 2 (fld w 22 2), fld3 w 25, fldLa w⟩)
  | 30 => decDrn w
  | _ =>
    if fldX w then .ok (.call ⟨fldG w, BitVec.ofNat 6 (fld w 10 6), BitVec.ofNat 16 (fld w 16 16)⟩)
    else .ok (.br ⟨fldG w, BitVec.ofNat 6 (fld w 10 6), BitVec.ofNat 16 (fld w 16 16)⟩)

/-- The checks of R93 on the fields. -/
def checked (r : Except Reject Instr) : Except Reject Instr :=
  match r with
  | .ok i => if i.wellFormed then .ok i else .error .badField
  | .error e => .error e

/-- The instruction that a word names: 16 bits when bit 0 is 0, else 32 (R65). -/
def decodeWord (w : Nat) : Except Reject Instr :=
  checked (if w % 2 = 0 then decode16 (w % 65536) else decode32 (w % 4294967296))

/-- The length in bytes that bit 0 of the first halfword gives (R65). -/
def lengthOf (w : Nat) : Nat := if w % 2 = 0 then 2 else 4

/-- A little-endian halfword from its two bytes. -/
def halfOf (lo hi : Byte) : Nat := lo.toNat + 256 * hi.toNat

/-- The decoder on bytes in memory order (R65, R10): the instruction and its length. -/
def decode : List Byte → Except Reject (Instr × Nat)
  | b0 :: b1 :: rest =>
    if halfOf b0 b1 % 2 = 0 then (decodeWord (halfOf b0 b1)).map fun i => (i, 2)
    else match rest with
      | b2 :: b3 :: _ => (decodeWord (halfOf b0 b1 + 65536 * halfOf b2 b3)).map fun i => (i, 4)
      | _ => .error .noSecondHalf
  | _ => .error .noFirstHalf

/-- The bytes of a word in memory order. -/
def wordBytes : Nat → Nat → List Byte
  | 0, _ => []
  | n + 1, w => BitVec.ofNat 8 w :: wordBytes n (w / 256)

/-- What the decoder reads from the bits w of the opcode table, laid out as the hardware stores them. -/
def decodeTableWord (nbits w : Nat) : Option Instr :=
  match decode (wordBytes (max 4 (nbits / 8)) w) with
  | .ok (i, _) => some i
  | .error _ => none

/-! ### The encoder -/

/-- An instruction's length in bytes and its fields, low bits first: (value, width). A device step has
no word. -/
def encodeFields : Instr → Option (Nat × List (Nat × Nat))
  | .movHalf o => some (2, [(0, 5), (o.d.toNat, 6), (o.a.toNat, 5)])
  | .addHalf o => some (2, [(2, 5), (o.d.toNat, 6), (o.a.toNat, 5)])
  | .subHalf o => some (2, [(4, 5), (o.d.toNat, 6), (o.a.toNat, 5)])
  | .andHalf o => some (2, [(6, 5), (o.d.toNat, 6), (o.a.toNat, 5)])
  | .orHalf o => some (2, [(8, 5), (o.d.toNat, 6), (o.a.toNat, 5)])
  | .xorHalf o => some (2, [(10, 5), (o.d.toNat, 6), (o.a.toNat, 5)])
  | .shlHalf o => some (2, [(12, 5), (o.d.toNat, 6), (o.a.toNat, 5)])
  | .shrN32Half o => some (2, [(14, 5), (o.d.toNat, 6), (o.a.toNat, 5)])
  | .addF32Half o => some (2, [(16, 5), (o.d.toNat, 6), (o.a.toNat, 5)])
  | .mulF32Half o => some (2, [(18, 5), (o.d.toNat, 6), (o.a.toNat, 5)])
  | .minF32Half o => some (2, [(20, 5), (o.d.toNat, 6), (o.a.toNat, 5)])
  | .maxF32Half o => some (2, [(22, 5), (o.d.toNat, 6), (o.a.toNat, 5)])
  | .subF32Half o => some (2, [(24, 5), (o.d.toNat, 6), (o.a.toNat, 5)])
  | .minS32Half o => some (2, [(26, 5), (o.d.toNat, 6), (o.a.toNat, 5)])
  | .maxS32Half o => some (2, [(28, 5), (o.d.toNat, 6), (o.a.toNat, 5)])
  | .movgHalf o => some (2, [(30, 5), (o.d.toNat, 6), (o.a.toNat, 5)])
  | .add o => some (4, [(1, 6), (o.g.toNat, 3), (o.x.toNat, 1), (o.d.toNat, 6), (o.a.toNat, 6), (o.b.toNat, 7), (0, 3)])
  | .sub o => some (4, [(1, 6), (o.g.toNat, 3), (o.x.toNat, 1), (o.d.toNat, 6), (o.a.toNat, 6), (o.b.toNat, 7), (1, 3)])
  | .addsS32 o => some (4, [(1, 6), (o.g.toNat, 3), (o.x.toNat, 1), (o.d.toNat, 6), (o.a.toNat, 6), (o.b.toNat, 7), (2, 3)])
  | .subsS32 o => some (4, [(1, 6), (o.g.toNat, 3), (o.x.toNat, 1), (o.d.toNat, 6), (o.a.toNat, 6), (o.b.toNat, 7), (3, 3)])
  | .minS32 o => some (4, [(1, 6), (o.g.toNat, 3), (o.x.toNat, 1), (o.d.toNat, 6), (o.a.toNat, 6), (o.b.toNat, 7), (4, 3)])
  | .maxS32 o => some (4, [(1, 6), (o.g.toNat, 3), (o.x.toNat, 1), (o.d.toNat, 6), (o.a.toNat, 6), (o.b.toNat, 7), (5, 3)])
  | .minN32 o => some (4, [(1, 6), (o.g.toNat, 3), (o.x.toNat, 1), (o.d.toNat, 6), (o.a.toNat, 6), (o.b.toNat, 7), (6, 3)])
  | .maxN32 o => some (4, [(1, 6), (o.g.toNat, 3), (o.x.toNat, 1), (o.d.toNat, 6), (o.a.toNat, 6), (o.b.toNat, 7), (7, 3)])
  | .mulLo o => some (4, [(3, 6), (o.g.toNat, 3), (o.x.toNat, 1), (o.d.toNat, 6), (o.a.toNat, 6), (o.b.toNat, 7), (0, 3)])
  | .mulhiS32 o => some (4, [(3, 6), (o.g.toNat, 3), (0, 1), (o.d.toNat, 6), (o.a.toNat, 6), (o.b.toNat, 7), (1, 3)])
  | .mulhiN32 o => some (4, [(3, 6), (o.g.toNat, 3), (0, 1), (o.d.toNat, 6), (o.a.toNat, 6), (o.b.toNat, 7), (2, 3)])
  | .madLo o => some (4, [(3, 6), (o.g.toNat, 3), (o.x.toNat, 1), (o.d.toNat, 6), (o.a.toNat, 6), (o.b.toNat, 7), (3, 3)])
  | .dot2S16 o => some (4, [(3, 6), (o.g.toNat, 3), (0, 1), (o.d.toNat, 6), (o.a.toNat, 6), (o.b.toNat, 7), (4, 3)])
  | .dot4S8 o => some (4, [(3, 6), (o.g.toNat, 3), (0, 1), (o.d.toNat, 6), (o.a.toNat, 6), (o.b.toNat, 7), (5, 3)])
  | .absS32 o => some (4, [(3, 6), (o.g.toNat, 3), (0, 1), (o.d.toNat, 6), (o.a.toNat, 6), (768, 10)])
  | .and o => some (4, [(5, 6), (o.g.toNat, 3), (o.x.toNat, 1), (o.d.toNat, 6), (o.a.toNat, 6), (o.b.toNat, 7), (0, 3)])
  | .or o => some (4, [(5, 6), (o.g.toNat, 3), (o.x.toNat, 1), (o.d.toNat, 6), (o.a.toNat, 6), (o.b.toNat, 7), (1, 3)])
  | .xor o => some (4, [(5, 6), (o.g.toNat, 3), (o.x.toNat, 1), (o.d.toNat, 6), (o.a.toNat, 6), (o.b.toNat, 7), (2, 3)])
  | .andn o => some (4, [(5, 6), (o.g.toNat, 3), (o.x.toNat, 1), (o.d.toNat, 6), (o.a.toNat, 6), (o.b.toNat, 7), (3, 3)])
  | .shl o => some (4, [(5, 6), (o.g.toNat, 3), (o.x.toNat, 1), (o.d.toNat, 6), (o.a.toNat, 6), (o.b.toNat, 7), (4, 3)])
  | .shrN32 o => some (4, [(5, 6), (o.g.toNat, 3), (o.x.toNat, 1), (o.d.toNat, 6), (o.a.toNat, 6), (o.b.toNat, 7), (5, 3)])
  | .shrS32 o => some (4, [(5, 6), (o.g.toNat, 3), (o.x.toNat, 1), (o.d.toNat, 6), (o.a.toNat, 6), (o.b.toNat, 7), (6, 3)])
  | .rotl o => some (4, [(5, 6), (o.g.toNat, 3), (o.x.toNat, 1), (o.d.toNat, 6), (o.a.toNat, 6), (o.b.toNat, 7), (7, 3)])
  | .popc o => some (4, [(7, 6), (o.g.toNat, 3), (o.x.toNat, 1), (o.d.toNat, 6), (o.a.toNat, 6), (0, 10)])
  | .clz o => some (4, [(7, 6), (o.g.toNat, 3), (o.x.toNat, 1), (o.d.toNat, 6), (o.a.toNat, 6), (128, 10)])
  | .brev o => some (4, [(7, 6), (o.g.toNat, 3), (o.x.toNat, 1), (o.d.toNat, 6), (o.a.toNat, 6), (256, 10)])
  | .shrrS32 o => some (4, [(7, 6), (o.g.toNat, 3), (0, 1), (o.d.toNat, 6), (o.a.toNat, 6), (o.b.toNat, 7), (3, 3)])
  | .satS16 o => some (4, [(7, 6), (o.g.toNat, 3), (0, 1), (o.d.toNat, 6), (o.a.toNat, 6), (512, 10)])
  | .packS16 o => some (4, [(7, 6), (o.g.toNat, 3), (0, 1), (o.d.toNat, 6), (o.a.toNat, 6), (o.b.toNat, 7), (5, 3)])
  | .sxt o => some (4, [(7, 6), (o.g.toNat, 3), (0, 1), (o.d.toNat, 6), (o.a.toNat, 6), (o.b.toNat, 7), (6, 3)])
  | .perm o => some (4, [(7, 6), (o.g.toNat, 3), (0, 1), (o.d.toNat, 6), (o.a.toNat, 6), (o.b.toNat, 7), (7, 3)])
  | .addi o => some (4, [(9, 6), (o.g.toNat, 3), (o.x.toNat, 1), (o.d.toNat, 6), (o.a.toNat, 6), (o.imm.toNat, 10)])
  | .movl o => some (4, [(11, 6), (o.g.toNat, 3), (0, 1), (o.d.toNat, 6), (o.imm.toNat, 16)])
  | .movh o => some (4, [(11, 6), (o.g.toNat, 3), (1, 1), (o.d.toNat, 6), (o.imm.toNat, 16)])
  | .nop o => some (4, [(13, 6), (o.g.toNat, 3), (0, 23)])
  | .yield o => some (4, [(1037, 14), (o.live.toNat, 6), (o.deadline.toNat, 12)])
  | .exit o => some (4, [(13, 6), (o.g.toNat, 3), (4, 23)])
  | .trap o => some (4, [(13, 6), (o.g.toNat, 3), (6, 5), (o.code.toNat, 8), (0, 10)])
  | .jmpi o => some (4, [(13, 6), (o.g.toNat, 3), (8, 5), (o.reg.toNat, 6), (o.prio.toNat, 6), (0, 6)])
  | .jmpiL o => some (4, [(13, 6), (o.g.toNat, 3), (9, 5), (o.reg.toNat, 6), (0, 12)])
  | .prio o => some (4, [(13, 6), (o.g.toNat, 3), (10, 5), (o.prio.toNat, 6), (0, 12)])
  | .critOn => some (4, [(6157, 32)])
  | .critOff => some (4, [(7181, 32)])
  | .gstep => some (4, [(8205, 32)])
  | .brk o => some (4, [(13, 6), (o.g.toNat, 3), (18, 5), (o.code.toNat, 8), (0, 10)])
  | .shli o => some (4, [(15, 6), (o.g.toNat, 3), (o.x.toNat, 1), (o.d.toNat, 6), (o.a.toNat, 6), (0, 3), (o.imm.toNat, 7)])
  | .shriN o => some (4, [(15, 6), (o.g.toNat, 3), (o.x.toNat, 1), (o.d.toNat, 6), (o.a.toNat, 6), (1, 3), (o.imm.toNat, 7)])
  | .shriS o => some (4, [(15, 6), (o.g.toNat, 3), (o.x.toNat, 1), (o.d.toNat, 6), (o.a.toNat, 6), (2, 3), (o.imm.toNat, 7)])
  | .shrriS o => some (4, [(15, 6), (o.g.toNat, 3), (o.x.toNat, 1), (o.d.toNat, 6), (o.a.toNat, 6), (3, 3), (o.imm.toNat, 7)])
  | .rotli o => some (4, [(15, 6), (o.g.toNat, 3), (o.x.toNat, 1), (o.d.toNat, 6), (o.a.toNat, 6), (4, 3), (o.imm.toNat, 7)])
  | .andi o => some (4, [(15, 6), (o.g.toNat, 3), (o.x.toNat, 1), (o.d.toNat, 6), (o.a.toNat, 6), (5, 3), (o.imm.toNat, 7)])
  | .ori o => some (4, [(15, 6), (o.g.toNat, 3), (o.x.toNat, 1), (o.d.toNat, 6), (o.a.toNat, 6), (6, 3), (o.imm.toNat, 7)])
  | .xori o => some (4, [(15, 6), (o.g.toNat, 3), (o.x.toNat, 1), (o.d.toNat, 6), (o.a.toNat, 6), (7, 3), (o.imm.toNat, 7)])
  | .icmpEq o => some (4, [(17, 6), (o.g.toNat, 3), (o.x.toNat, 1), (o.pd.toNat, 3), (0, 3), (o.a.toNat, 6), (o.b.toNat, 7), (o.comb.toNat, 3)])
  | .icmpNe o => some (4, [(17, 6), (o.g.toNat, 3), (o.x.toNat, 1), (o.pd.toNat, 3), (1, 3), (o.a.toNat, 6), (o.b.toNat, 7), (o.comb.toNat, 3)])
  | .icmpLtS o => some (4, [(17, 6), (o.g.toNat, 3), (o.x.toNat, 1), (o.pd.toNat, 3), (2, 3), (o.a.toNat, 6), (o.b.toNat, 7), (o.comb.toNat, 3)])
  | .icmpLeS o => some (4, [(17, 6), (o.g.toNat, 3), (o.x.toNat, 1), (o.pd.toNat, 3), (3, 3), (o.a.toNat, 6), (o.b.toNat, 7), (o.comb.toNat, 3)])
  | .icmpGtS o => some (4, [(17, 6), (o.g.toNat, 3), (o.x.toNat, 1), (o.pd.toNat, 3), (4, 3), (o.a.toNat, 6), (o.b.toNat, 7), (o.comb.toNat, 3)])
  | .icmpGeS o => some (4, [(17, 6), (o.g.toNat, 3), (o.x.toNat, 1), (o.pd.toNat, 3), (5, 3), (o.a.toNat, 6), (o.b.toNat, 7), (o.comb.toNat, 3)])
  | .icmpLtN o => some (4, [(17, 6), (o.g.toNat, 3), (o.x.toNat, 1), (o.pd.toNat, 3), (6, 3), (o.a.toNat, 6), (o.b.toNat, 7), (o.comb.toNat, 3)])
  | .icmpGeN o => some (4, [(17, 6), (o.g.toNat, 3), (o.x.toNat, 1), (o.pd.toNat, 3), (7, 3), (o.a.toNat, 6), (o.b.toNat, 7), (o.comb.toNat, 3)])
  | .fcmpEq o => some (4, [(19, 6), (o.g.toNat, 3), (o.x.toNat, 1), (o.pd.toNat, 3), (0, 3), (o.a.toNat, 6), (o.b.toNat, 7), (o.comb.toNat, 3)])
  | .fcmpNe o => some (4, [(19, 6), (o.g.toNat, 3), (o.x.toNat, 1), (o.pd.toNat, 3), (1, 3), (o.a.toNat, 6), (o.b.toNat, 7), (o.comb.toNat, 3)])
  | .fcmpLt o => some (4, [(19, 6), (o.g.toNat, 3), (o.x.toNat, 1), (o.pd.toNat, 3), (2, 3), (o.a.toNat, 6), (o.b.toNat, 7), (o.comb.toNat, 3)])
  | .fcmpLe o => some (4, [(19, 6), (o.g.toNat, 3), (o.x.toNat, 1), (o.pd.toNat, 3), (3, 3), (o.a.toNat, 6), (o.b.toNat, 7), (o.comb.toNat, 3)])
  | .fcmpGt o => some (4, [(19, 6), (o.g.toNat, 3), (o.x.toNat, 1), (o.pd.toNat, 3), (4, 3), (o.a.toNat, 6), (o.b.toNat, 7), (o.comb.toNat, 3)])
  | .fcmpGe o => some (4, [(19, 6), (o.g.toNat, 3), (o.x.toNat, 1), (o.pd.toNat, 3), (5, 3), (o.a.toNat, 6), (o.b.toNat, 7), (o.comb.toNat, 3)])
  | .fcmpNan o => some (4, [(19, 6), (o.g.toNat, 3), (o.x.toNat, 1), (o.pd.toNat, 3), (6, 3), (o.a.toNat, 6), (o.b.toNat, 7), (o.comb.toNat, 3)])
  | .fcmpNum o => some (4, [(19, 6), (o.g.toNat, 3), (o.x.toNat, 1), (o.pd.toNat, 3), (7, 3), (o.a.toNat, 6), (o.b.toNat, 7), (o.comb.toNat, 3)])
  | .sel o => some (4, [(21, 6), (o.g.toNat, 3), (o.x.toNat, 1), (o.d.toNat, 6), (o.a.toNat, 6), (o.b.toNat, 7), (o.ps.toNat, 3)])
  | .pand o => some (4, [(23, 6), (o.g.toNat, 3), (0, 1), (o.pd.toNat, 3), (o.pa.toNat, 3), (o.pb.toNat, 3), (0, 13)])
  | .por o => some (4, [(23, 6), (o.g.toNat, 3), (0, 1), (o.pd.toNat, 3), (o.pa.toNat, 3), (o.pb.toNat, 3), (1, 13)])
  | .pxor o => some (4, [(23, 6), (o.g.toNat, 3), (0, 1), (o.pd.toNat, 3), (o.pa.toNat, 3), (o.pb.toNat, 3), (2, 13)])
  | .pandn o => some (4, [(23, 6), (o.g.toNat, 3), (0, 1), (o.pd.toNat, 3), (o.pa.toNat, 3), (o.pb.toNat, 3), (3, 13)])
  | .pnot o => some (4, [(23, 6), (o.g.toNat, 3), (0, 1), (o.pd.toNat, 3), (o.pa.toNat, 3), (32, 16)])
  | .pmov o => some (4, [(23, 6), (o.g.toNat, 3), (0, 1), (o.pd.toNat, 3), (o.pa.toNat, 3), (40, 16)])
  | .addF32 o => some (4, [(25, 6), (o.g.toNat, 3), (o.x.toNat, 1), (o.d.toNat, 6), (o.a.toNat, 6), (o.b.toNat, 7), (0, 3)])
  | .subF32 o => some (4, [(25, 6), (o.g.toNat, 3), (o.x.toNat, 1), (o.d.toNat, 6), (o.a.toNat, 6), (o.b.toNat, 7), (1, 3)])
  | .mulF32 o => some (4, [(25, 6), (o.g.toNat, 3), (o.x.toNat, 1), (o.d.toNat, 6), (o.a.toNat, 6), (o.b.toNat, 7), (2, 3)])
  | .fmaF32 o => some (4, [(25, 6), (o.g.toNat, 3), (o.x.toNat, 1), (o.d.toNat, 6), (o.a.toNat, 6), (o.b.toNat, 7), (3, 3)])
  | .fnmaF32 o => some (4, [(25, 6), (o.g.toNat, 3), (o.x.toNat, 1), (o.d.toNat, 6), (o.a.toNat, 6), (o.b.toNat, 7), (4, 3)])
  | .minF32 o => some (4, [(25, 6), (o.g.toNat, 3), (o.x.toNat, 1), (o.d.toNat, 6), (o.a.toNat, 6), (o.b.toNat, 7), (5, 3)])
  | .maxF32 o => some (4, [(25, 6), (o.g.toNat, 3), (o.x.toNat, 1), (o.d.toNat, 6), (o.a.toNat, 6), (o.b.toNat, 7), (6, 3)])
  | .copysignF32 o => some (4, [(25, 6), (o.g.toNat, 3), (o.x.toNat, 1), (o.d.toNat, 6), (o.a.toNat, 6), (o.b.toNat, 7), (7, 3)])
  | .haddF16x2 o => some (4, [(27, 6), (o.g.toNat, 3), (0, 1), (o.d.toNat, 6), (o.a.toNat, 6), (o.b.toNat, 7), (0, 3)])
  | .hmulF16x2 o => some (4, [(27, 6), (o.g.toNat, 3), (0, 1), (o.d.toNat, 6), (o.a.toNat, 6), (o.b.toNat, 7), (1, 3)])
  | .hfmaF16x2 o => some (4, [(27, 6), (o.g.toNat, 3), (0, 1), (o.d.toNat, 6), (o.a.toNat, 6), (o.b.toNat, 7), (2, 3)])
  | .haddBf16x2 o => some (4, [(27, 6), (o.g.toNat, 3), (0, 1), (o.d.toNat, 6), (o.a.toNat, 6), (o.b.toNat, 7), (3, 3)])
  | .hmulBf16x2 o => some (4, [(27, 6), (o.g.toNat, 3), (0, 1), (o.d.toNat, 6), (o.a.toNat, 6), (o.b.toNat, 7), (4, 3)])
  | .hfmaBf16x2 o => some (4, [(27, 6), (o.g.toNat, 3), (0, 1), (o.d.toNat, 6), (o.a.toNat, 6), (o.b.toNat, 7), (5, 3)])
  | .hminBf16x2 o => some (4, [(27, 6), (o.g.toNat, 3), (0, 1), (o.d.toNat, 6), (o.a.toNat, 6), (o.b.toNat, 7), (6, 3)])
  | .hmaxBf16x2 o => some (4, [(27, 6), (o.g.toNat, 3), (0, 1), (o.d.toNat, 6), (o.a.toNat, 6), (o.b.toNat, 7), (7, 3)])
  | .rcpF32 o => some (4, [(29, 6), (o.g.toNat, 3), (0, 1), (o.d.toNat, 6), (o.a.toNat, 6), (0, 6), (o.la.toNat, 4)])
  | .rsqrtF32 o => some (4, [(29, 6), (o.g.toNat, 3), (0, 1), (o.d.toNat, 6), (o.a.toNat, 6), (1, 6), (o.la.toNat, 4)])
  | .sqrtF32 o => some (4, [(29, 6), (o.g.toNat, 3), (0, 1), (o.d.toNat, 6), (o.a.toNat, 6), (2, 6), (o.la.toNat, 4)])
  | .exp2F32 o => some (4, [(29, 6), (o.g.toNat, 3), (0, 1), (o.d.toNat, 6), (o.a.toNat, 6), (3, 6), (o.la.toNat, 4)])
  | .log2F32 o => some (4, [(29, 6), (o.g.toNat, 3), (0, 1), (o.d.toNat, 6), (o.a.toNat, 6), (4, 6), (o.la.toNat, 4)])
  | .sinpiF32 o => some (4, [(29, 6), (o.g.toNat, 3), (0, 1), (o.d.toNat, 6), (o.a.toNat, 6), (5, 6), (o.la.toNat, 4)])
  | .cospiF32 o => some (4, [(29, 6), (o.g.toNat, 3), (0, 1), (o.d.toNat, 6), (o.a.toNat, 6), (6, 6), (o.la.toNat, 4)])
  | .tanhF32 o => some (4, [(29, 6), (o.g.toNat, 3), (0, 1), (o.d.toNat, 6), (o.a.toNat, 6), (7, 6), (o.la.toNat, 4)])
  | .cvtF32S32 o => some (4, [(31, 6), (o.g.toNat, 3), (0, 1), (o.d.toNat, 6), (o.a.toNat, 6), (0, 4), (o.rnd.toNat, 2), (0, 4)])
  | .cvtS32F32 o => some (4, [(31, 6), (o.g.toNat, 3), (0, 1), (o.d.toNat, 6), (o.a.toNat, 6), (1, 4), (o.rnd.toNat, 2), (0, 4)])
  | .cvtF32N32 o => some (4, [(31, 6), (o.g.toNat, 3), (0, 1), (o.d.toNat, 6), (o.a.toNat, 6), (2, 4), (o.rnd.toNat, 2), (0, 4)])
  | .cvtN32F32 o => some (4, [(31, 6), (o.g.toNat, 3), (0, 1), (o.d.toNat, 6), (o.a.toNat, 6), (3, 4), (o.rnd.toNat, 2), (0, 4)])
  | .cvtF32F16 o => some (4, [(31, 6), (o.g.toNat, 3), (0, 1), (o.d.toNat, 6), (o.a.toNat, 6), (4, 10)])
  | .cvtF16F32 o => some (4, [(31, 6), (o.g.toNat, 3), (0, 1), (o.d.toNat, 6), (o.a.toNat, 6), (5, 4), (o.rnd.toNat, 2), (o.sat.toNat, 1), (0, 3)])
  | .cvtF32Bf16 o => some (4, [(31, 6), (o.g.toNat, 3), (0, 1), (o.d.toNat, 6), (o.a.toNat, 6), (6, 10)])
  | .cvtBf16F32 o => some (4, [(31, 6), (o.g.toNat, 3), (0, 1), (o.d.toNat, 6), (o.a.toNat, 6), (7, 4), (o.rnd.toNat, 2), (o.sat.toNat, 1), (0, 3)])
  | .cvtF32E4m3 o => some (4, [(31, 6), (o.g.toNat, 3), (0, 1), (o.d.toNat, 6), (o.a.toNat, 6), (8, 10)])
  | .cvtE4m3F32 o => some (4, [(31, 6), (o.g.toNat, 3), (0, 1), (o.d.toNat, 6), (o.a.toNat, 6), (9, 4), (o.rnd.toNat, 2), (o.sat.toNat, 1), (0, 3)])
  | .cvtF32E5m2 o => some (4, [(31, 6), (o.g.toNat, 3), (0, 1), (o.d.toNat, 6), (o.a.toNat, 6), (10, 10)])
  | .cvtE5m2F32 o => some (4, [(31, 6), (o.g.toNat, 3), (0, 1), (o.d.toNat, 6), (o.a.toNat, 6), (11, 4), (o.rnd.toNat, 2), (o.sat.toNat, 1), (0, 3)])
  | .cvtF32L6 o => some (4, [(31, 6), (o.g.toNat, 3), (0, 1), (o.d.toNat, 6), (o.a.toNat, 6), (12, 10)])
  | .cvtL6F32 o => some (4, [(31, 6), (o.g.toNat, 3), (0, 1), (o.d.toNat, 6), (o.a.toNat, 6), (13, 10)])
  | .cvtF32F64 o => some (4, [(31, 6), (o.g.toNat, 3), (0, 1), (o.d.toNat, 6), (o.a.toNat, 6), (14, 4), (o.rnd.toNat, 2), (o.sat.toNat, 1), (0, 3)])
  | .cvtF64F32 o => some (4, [(31, 6), (o.g.toNat, 3), (0, 1), (o.d.toNat, 6), (o.a.toNat, 6), (15, 10)])
  | .shflIdx o => some (4, [(33, 6), (o.g.toNat, 3), (o.x.toNat, 1), (o.d.toNat, 6), (o.a.toNat, 6), (o.b.toNat, 7), (0, 3)])
  | .shflXor o => some (4, [(33, 6), (o.g.toNat, 3), (o.x.toNat, 1), (o.d.toNat, 6), (o.a.toNat, 6), (o.b.toNat, 7), (1, 3)])
  | .sldUpZ o => some (4, [(33, 6), (o.g.toNat, 3), (o.x.toNat, 1), (o.d.toNat, 6), (o.a.toNat, 6), (o.b.toNat, 7), (2, 3)])
  | .sldUpK o => some (4, [(33, 6), (o.g.toNat, 3), (o.x.toNat, 1), (o.d.toNat, 6), (o.a.toNat, 6), (o.b.toNat, 7), (3, 3)])
  | .sldDnZ o => some (4, [(33, 6), (o.g.toNat, 3), (o.x.toNat, 1), (o.d.toNat, 6), (o.a.toNat, 6), (o.b.toNat, 7), (4, 3)])
  | .sldDnK o => some (4, [(33, 6), (o.g.toNat, 3), (o.x.toNat, 1), (o.d.toNat, 6), (o.a.toNat, 6), (o.b.toNat, 7), (5, 3)])
  | .lrot o => some (4, [(33, 6), (o.g.toNat, 3), (o.x.toNat, 1), (o.d.toNat, 6), (o.a.toNat, 6), (o.b.toNat, 7), (6, 3)])
  | .raddS32 o => some (4, [(35, 6), (o.g.toNat, 3), (0, 1), (o.d.toNat, 6), (o.a.toNat, 6), (0, 10)])
  | .raddF32 o => some (4, [(35, 6), (o.g.toNat, 3), (0, 1), (o.d.toNat, 6), (o.a.toNat, 6), (128, 10)])
  | .rminS32 o => some (4, [(35, 6), (o.g.toNat, 3), (0, 1), (o.d.toNat, 6), (o.a.toNat, 6), (256, 10)])
  | .rmaxS32 o => some (4, [(35, 6), (o.g.toNat, 3), (0, 1), (o.d.toNat, 6), (o.a.toNat, 6), (384, 10)])
  | .rminF32 o => some (4, [(35, 6), (o.g.toNat, 3), (0, 1), (o.d.toNat, 6), (o.a.toNat, 6), (512, 10)])
  | .rmaxF32 o => some (4, [(35, 6), (o.g.toNat, 3), (0, 1), (o.d.toNat, 6), (o.a.toNat, 6), (640, 10)])
  | .ballot o => some (4, [(35, 6), (o.g.toNat, 3), (0, 1), (o.d.toNat, 6), (o.a.toNat, 6), (768, 10)])
  | .vcount o => some (4, [(35, 6), (o.g.toNat, 3), (0, 1), (o.d.toNat, 6), (o.a.toNat, 6), (896, 10)])
  | .rdc o => some (4, [(37, 6), (o.g.toNat, 3), (0, 1), (o.reg.toNat, 6), (o.idx.toNat, 8), (0, 8)])
  | .wrc o => some (4, [(37, 6), (o.g.toNat, 3), (0, 1), (o.reg.toNat, 6), (o.idx.toNat, 8), (1, 8)])
  | .v2g o => some (4, [(37, 6), (o.g.toNat, 3), (0, 1), (o.reg.toNat, 6), (o.k.toNat, 5), (16, 11)])
  | .ld o => some (4, [(39, 6), (o.g.toNat, 3), (o.x.toNat, 1), (o.d.toNat, 6), (o.a.toNat, 6), (o.size.toNat, 3), (o.space.toNat, 3), (o.la.toNat, 4)])
  | .st o => some (4, [(41, 6), (o.g.toNat, 3), (0, 1), (o.d.toNat, 6), (o.a.toNat, 6), (o.size.toNat, 3), (o.space.toNat, 3), (o.la.toNat, 4)])
  | .ldAcq o => some (4, [(43, 6), (o.g.toNat, 3), (0, 1), (o.d.toNat, 6), (o.a.toNat, 6), (o.size.toNat, 3), (o.scope.toNat, 2), (0, 1), (o.la.toNat, 4)])
  | .stRel o => some (4, [(43, 6), (o.g.toNat, 3), (0, 1), (o.d.toNat, 6), (o.a.toNat, 6), (o.size.toNat, 3), (o.scope.toNat, 2), (1, 1), (o.la.toNat, 4)])
  | .fenceCore o => some (4, [(45, 6), (o.g.toNat, 3), (0, 23)])
  | .fenceCluster o => some (4, [(45, 6), (o.g.toNat, 3), (8192, 23)])
  | .fenceDevice o => some (4, [(45, 6), (o.g.toNat, 3), (16384, 23)])
  | .fenceSystem o => some (4, [(45, 6), (o.g.toNat, 3), (24576, 23)])
  | .tfenceDevice o => some (4, [(45, 6), (o.g.toNat, 3), (32768, 23)])
  | .tfenceSystem o => some (4, [(45, 6), (o.g.toNat, 3), (40960, 23)])
  | .fenceRp o => some (4, [(45, 6), (o.g.toNat, 3), (0, 7), (o.a.toNat, 6), (6, 10)])
  | .atomAdd o => some (4, [(47, 6), (o.g.toNat, 3), (o.x.toNat, 1), (o.d.toNat, 6), (o.a.toNat, 6), (0, 3), (o.scope.toNat, 2), (o.wide.toNat, 1), (o.la.toNat, 4)])
  | .atomAddf o => some (4, [(47, 6), (o.g.toNat, 3), (o.x.toNat, 1), (o.d.toNat, 6), (o.a.toNat, 6), (1, 3), (o.scope.toNat, 2), (o.wide.toNat, 1), (o.la.toNat, 4)])
  | .atomMin o => some (4, [(47, 6), (o.g.toNat, 3), (o.x.toNat, 1), (o.d.toNat, 6), (o.a.toNat, 6), (2, 3), (o.scope.toNat, 2), (o.wide.toNat, 1), (o.la.toNat, 4)])
  | .atomMax o => some (4, [(47, 6), (o.g.toNat, 3), (o.x.toNat, 1), (o.d.toNat, 6), (o.a.toNat, 6), (3, 3), (o.scope.toNat, 2), (o.wide.toNat, 1), (o.la.toNat, 4)])
  | .atomAnd o => some (4, [(47, 6), (o.g.toNat, 3), (o.x.toNat, 1), (o.d.toNat, 6), (o.a.toNat, 6), (4, 3), (o.scope.toNat, 2), (o.wide.toNat, 1), (o.la.toNat, 4)])
  | .atomOr o => some (4, [(47, 6), (o.g.toNat, 3), (o.x.toNat, 1), (o.d.toNat, 6), (o.a.toNat, 6), (5, 3), (o.scope.toNat, 2), (o.wide.toNat, 1), (o.la.toNat, 4)])
  | .atomExch o => some (4, [(47, 6), (o.g.toNat, 3), (o.x.toNat, 1), (o.d.toNat, 6), (o.a.toNat, 6), (6, 3), (o.scope.toNat, 2), (o.wide.toNat, 1), (o.la.toNat, 4)])
  | .atomCas o => some (4, [(47, 6), (o.g.toNat, 3), (o.x.toNat, 1), (o.d.toNat, 6), (o.a.toNat, 6), (7, 3), (o.scope.toNat, 2), (o.wide.toNat, 1), (o.la.toNat, 4)])
  | .apres o => some (4, [(49, 6), (o.g.toNat, 3), (0, 1), (o.d.toNat, 6), (o.a.toNat, 6), (0, 6), (o.la.toNat, 4)])
  | .apcmt o => some (4, [(49, 6), (o.g.toNat, 3), (0, 1), (o.d.toNat, 6), (o.a.toNat, 6), (8, 6), (o.la.toNat, 4)])
  | .apst o => some (4, [(49, 6), (o.g.toNat, 3), (0, 1), (o.d.toNat, 6), (o.a.toNat, 6), (o.size.toNat, 3), (2, 3), (o.la.toNat, 4)])
  | .seal o => some (4, [(49, 6), (o.g.toNat, 3), (0, 1), (o.d.toNat, 6), (o.a.toNat, 6), (24, 6), (o.la.toNat, 4)])
  | .sealW o => some (4, [(49, 6), (o.g.toNat, 3), (0, 1), (o.d.toNat, 6), (o.a.toNat, 6), (25, 6), (o.la.toNat, 4)])
  | .tailrd o => some (4, [(49, 6), (o.g.toNat, 3), (0, 1), (o.d.toNat, 6), (o.a.toNat, 6), (32, 6), (o.la.toNat, 4)])
  | .tailrdR o => some (4, [(49, 6), (o.g.toNat, 3), (0, 1), (o.d.toNat, 6), (o.a.toNat, 6), (33, 6), (o.la.toNat, 4)])
  | .twatch o => some (4, [(49, 6), (o.g.toNat, 3), (0, 1), (o.d.toNat, 6), (o.a.toNat, 6), (40, 6), (o.la.toNat, 4)])
  | .wpop o => some (4, [(51, 6), (o.g.toNat, 3), (0, 1), (o.d.toNat, 6), (o.a.toNat, 6), (0, 6), (o.la.toNat, 4)])
  | .wsteal o => some (4, [(51, 6), (o.g.toNat, 3), (0, 1), (o.d.toNat, 6), (o.a.toNat, 6), (8, 6), (o.la.toNat, 4)])
  | .wpush o => some (4, [(51, 6), (o.g.toNat, 3), (0, 1), (o.d.toNat, 6), (o.a.toNat, 6), (16, 6), (o.la.toNat, 4)])
  | .wdepDec o => some (4, [(51, 6), (o.g.toNat, 3), (0, 1), (o.d.toNat, 6), (o.a.toNat, 6), (24, 6), (o.la.toNat, 4)])
  | .wdepAdd o => some (4, [(51, 6), (o.g.toNat, 3), (0, 1), (o.d.toNat, 6), (o.a.toNat, 6), (25, 6), (o.la.toNat, 4)])
  | .wdepSet o => some (4, [(51, 6), (o.g.toNat, 3), (0, 1), (o.d.toNat, 6), (o.a.toNat, 6), (26, 6), (o.la.toNat, 4)])
  | .wqryDeque o => some (4, [(51, 6), (o.g.toNat, 3), (0, 1), (o.d.toNat, 6), (2048, 12), (o.la.toNat, 4)])
  | .wqryDep o => some (4, [(51, 6), (o.g.toNat, 3), (0, 1), (o.d.toNat, 6), (o.a.toNat, 6), (33, 6), (o.la.toNat, 4)])
  | .wqryFeed o => some (4, [(51, 6), (o.g.toNat, 3), (0, 1), (o.d.toNat, 6), (o.a.toNat, 6), (34, 6), (o.la.toNat, 4)])
  | .barm o => some (4, [(53, 6), (o.g.toNat, 3), (0, 1), (o.reg.toNat, 6), (o.slot.toNat, 4), (0, 12)])
  | .arv o => some (4, [(53, 6), (o.g.toNat, 3), (0, 7), (o.slot.toNat, 4), (1, 3), (o.k6.toNat, 6), (0, 3)])
  | .wait o => some (4, [(53, 6), (o.g.toNat, 3), (0, 1), (o.reg.toNat, 6), (o.slot.toNat, 4), (2, 12)])
  | .phrd o => some (4, [(53, 6), (o.g.toNat, 3), (0, 1), (o.reg.toNat, 6), (o.slot.toNat, 4), (3, 12)])
  | .bexp o => some (4, [(53, 6), (o.g.toNat, 3), (0, 1), (o.reg.toNat, 6), (o.slot.toNat, 4), (4, 12)])
  | .step o => some (4, [(53, 6), (o.g.toNat, 3), (0, 7), (o.slot.toNat, 4), (5, 3), (o.k6.toNat, 6), (0, 3)])
  | .bfree o => some (4, [(53, 6), (o.g.toNat, 3), (0, 7), (o.slot.toNat, 4), (6, 12)])
  | .lcpy4 o => some (4, [(55, 6), (o.g.toNat, 3), (0, 1), (o.d.toNat, 6), (o.a.toNat, 6), (o.slot.toNat, 4), (0, 2), (o.la.toNat, 4)])
  | .lcpy8 o => some (4, [(55, 6), (o.g.toNat, 3), (0, 1), (o.d.toNat, 6), (o.a.toNat, 6), (o.slot.toNat, 4), (1, 2), (o.la.toNat, 4)])
  | .lcpy16 o => some (4, [(55, 6), (o.g.toNat, 3), (0, 1), (o.d.toNat, 6), (o.a.toNat, 6), (o.slot.toNat, 4), (2, 2), (o.la.toNat, 4)])
  | .lxfr o => some (4, [(55, 6), (o.g.toNat, 3), (1, 7), (o.a.toNat, 6), (o.slot.toNat, 4), (0, 2), (o.la.toNat, 4)])
  | .lmcs o => some (4, [(55, 6), (o.g.toNat, 3), (1, 7), (o.a.toNat, 6), (o.slot.toNat, 4), (1, 2), (o.la.toNat, 4)])
  | .lred o => some (4, [(55, 6), (o.g.toNat, 3), (1, 7), (o.a.toNat, 6), (o.slot.toNat, 4), (2, 2), (o.la.toNat, 4)])
  | .lwp o => some (4, [(55, 6), (o.g.toNat, 3), (1, 1), (o.d.toNat, 6), (0, 6), (o.slot.toNat, 4), (3, 2), (o.la.toNat, 4)])
  | .sget o => some (4, [(57, 6), (o.g.toNat, 3), (0, 1), (o.reg.toNat, 6), (o.k.toNat, 5), (0, 7), (o.la.toNat, 4)])
  | .speek o => some (4, [(57, 6), (o.g.toNat, 3), (0, 1), (o.reg.toNat, 6), (o.k.toNat, 5), (2, 7), (o.la.toNat, 4)])
  | .sset o => some (4, [(57, 6), (o.g.toNat, 3), (0, 1), (o.reg.toNat, 6), (o.k.toNat, 5), (4, 7), (o.la.toNat, 4)])
  | .sarm o => some (4, [(57, 6), (o.g.toNat, 3), (0, 1), (o.reg.toNat, 6), (o.k.toNat, 5), (6, 7), (o.la.toNat, 4)])
  | .sacc o => some (4, [(57, 6), (o.g.toNat, 3), (0, 1), (o.reg.toNat, 6), (o.k.toNat, 5), (8, 7), (o.la.toNat, 4)])
  | .sstat o => some (4, [(57, 6), (o.g.toNat, 3), (0, 1), (o.reg.toNat, 6), (o.k.toNat, 5), (10, 7), (o.la.toNat, 4)])
  | .sclr o => some (4, [(57, 6), (o.g.toNat, 3), (0, 7), (o.k.toNat, 5), (12, 7), (o.la.toNat, 4)])
  | .mma o => some (4, [(59, 9), (o.bs.toNat, 1), (o.aBase.toNat, 6), (o.bBase.toNat, 6), (o.shape.toNat, 2), (0, 1), (o.type.toNat, 3), (o.la.toNat, 4)])
  | .drain o => some (4, [(61, 9), (o.clear.toNat, 1), (o.d.toNat, 6), (0, 6), (o.out.toNat, 3), (0, 3), (o.la.toNat, 4)])
  | .drainR o => some (4, [(61, 9), (o.clear.toNat, 1), (o.d.toNat, 6), (o.a.toNat, 6), (o.out.toNat, 3), (1, 3), (o.la.toNat, 4)])
  | .drainC o => some (4, [(61, 9), (o.clear.toNat, 1), (o.d.toNat, 6), (o.a.toNat, 6), (o.out.toNat, 3), (2, 3), (o.la.toNat, 4)])
  | .drainRc o => some (4, [(61, 9), (o.clear.toNat, 1), (o.d.toNat, 6), (o.a.toNat, 6), (o.out.toNat, 3), (3, 3), (o.la.toNat, 4)])
  | .czero o => some (4, [(134217789, 28), (o.la.toNat, 4)])
  | .br o => some (4, [(63, 6), (o.g.toNat, 3), (0, 1), (o.prio.toNat, 6), (o.imm.toNat, 16)])
  | .call o => some (4, [(63, 6), (o.g.toNat, 3), (1, 1), (o.prio.toNat, 6), (o.imm.toNat, 16)])
  | .longLatencyComplete _ => none
  | .memoryResponse _ => none
  | .runAhead _ => none
  | .yieldOverrun _ => none
  | .lockHolderLimit _ => none
  | .critDeferExpiry _ => none
  | .ladleBytesLand _ _ => none
  | .ladleAccessDenied _ => none
  | .ladlePageFault _ => none
  | .ladleLockWaitEnd _ => none
  | .ladleChannelStart _ => none
  | .lmcsHoldEnd _ => none
  | .doorbellWrite _ => none
  | .queueNotify _ => none
  | .tundishConsume _ => none
  | .placementRound => none
  | .headAgeing _ => none
  | .workDeposit _ => none
  | .trapFrameWrite _ => none
  | .trapAnswerRetry _ => none
  | .trapAnswerSkip _ => none
  | .trapAnswerEnd _ => none
  | .saveComplete _ => none
  | .resume _ => none
  | .deadlockWatchdog _ => none
  | .meterUpdate _ => none
  | .create _ => none
  | .retire _ => none
  | .suspendContext _ => none
  | .resumeContext _ => none
  | .suspendGrid _ _ => none
  | .resumeGrid _ _ => none
  | .qrsvRead _ => none
  | .pmodeChange _ => none
  | .pmodeForce _ => none
  | .forcePreemptTimeout => none
  | .stage2Fence _ => none
  | .queueTableWrite _ _ => none
  | .vfcfgWrite _ _ => none
  | .circuitRequest _ _ => none
  | .circuitRelease _ => none
  | .circuitUp _ => none
  | .circuitDrained _ => none
  | .bar0Write _ => none
  | .functionLevelReset _ => none
  | .warmReset _ _ _ => none
  | .dieStatus _ _ => none
  | .errRead _ _ => none
  | .energyRead _ _ => none
  | .dbForward _ _ _ _ => none
  | .dbUnforward _ _ => none
  | .attest _ _ => none
  | .fwStage _ _ => none
  | .withdrawDone _ => none
  | .withdrawDeadline _ => none
  | .writebackDone _ => none
  | .selftestDone _ => none
  | .ucieTrained _ _ => none
  | .packageClockHandshake _ _ => none
  | .ucieRetrainTimeout _ => none
  | .fatalReport _ => none
  | .heartbeatMiss _ => none
  | .lostBypassEnter _ => none
  | .timeSourceLoss _ => none
  | .ptmExchange _ => none
  | .ptpMessage _ => none
  | .remoteRequest _ => none
  | .flitReplay _ => none
  | .linkFailure _ => none
  | .completionTimeout _ => none
  | .replicaCreate _ _ => none
  | .replicaReclaim _ => none
  | .frameScrub _ => none
  | .patrolRead _ => none
  | .sModeFault _ => none
  | .pluginFault _ _ => none
  | .deviceBoot _ => none
  | .powerClamp _ => none
  | .hostPostedWrite _ => none
  | .frameTableWrite _ _ => none
  | .partitionModeTakesEffect => none
  | .stage2FenceDone _ => none
  | .tokenBucketFill _ _ _ => none
  | .ucieRetrainStart _ => none
/-- The word of an instruction. -/
def encode (i : Instr) : Option Nat := (encodeFields i).map fun p => pack p.2

/-- The bytes of an instruction in memory order. -/
def encodeBytes (i : Instr) : Option (List Byte) := (encodeFields i).map fun p => wordBytes p.1 (pack p.2)

end Sys2Proof
end

