-- ==== Sys2Proof/Machine/Fetch.lean ====
section
/-! DEFINITION. What a step does next: the members that can issue, the events the device itself has under way, and
the fetch of an instruction (R67, R89, R95, R170, R174, R186, R190). Also the state in which one placed word is
fetched next. -/

namespace Sys2Proof.Machine

/-! ### Who can issue -/

/-- Whether a spine can issue: placed, and neither ended, trapped, stopped, waiting for an answer nor due to stop
(R175, R189, R190, R329). -/
def spineReady (s : State) (k : Kc) : Bool :=
  let sp := k.spine
  k.place.isSome && !sp.ended && sp.trap.isNone && !sp.stopped && sp.asked.isNone && !(stopping k && !inCrit sp.crit) &&
    (match sp.wait with
     | some w => waitOver s (.spine k.id) w
     | none => true)

/-- Whether a group can issue an entry now. -/
def groupReady (s : State) (g : Group) : Bool :=
  (kcOf s g.kc).place.isSome && !g.ended && g.trap.isNone && g.stopped.isNone && g.hold.isNone &&
    (match nextEntry s g with
     | some e => !(g.flights.any fun f => mustLand e f && inFlight f)
     | none => g.runAhead.isSome)

/-- Whether two groups share an issue slot. -/
def sameSlot (s : State) (g h : Group) : Bool :=
  g.slot = h.slot && decide (hwCore (kcOf s g.kc) g.core = hwCore (kcOf s h.kc) h.core)

/-- Whether a group goes before another ready one of its slot: inside a lock-holder section before outside, then the one
that issued longer ago (R174). -/
def goesBefore (h g : Group) : Bool :=
  (inCrit h.crit && !inCrit g.crit) || (inCrit h.crit == inCrit g.crit && decide (h.turn < g.turn))

/-- The members that can issue: on each slot, the ready group whose turn it is (R174). -/
def readyMembers (s : State) : List Member :=
  let gs := s.groups.filter fun g => groupReady s g
  let served := gs.filter fun g => !(gs.any fun h => goesBefore h g && sameSlot s g h)
  ((s.kcs.filter fun k => spineReady s k).map fun k => Member.spine k.id) ++ served.map fun g => Member.group g.kc g.core g.idx

/-! ### Events under way in the device -/

/-- Events of transfers and held kicks. -/
def ladleEvents (s : State) : List Instr :=
  (s.transfers.flatMap fun t =>
    [.ladleBytesLand t.id (Config.freeNat s.fresh 12 % 4097), .ladleAccessDenied t.id, .ladlePageFault t.id, .ladleChannelStart t.id]) ++
  s.groups.flatMap fun g => match g.hold with
    | some (.locks _ _ _) => [.ladleLockWaitEnd (.group g.kc g.core g.idx)]
    | some (.mcast _ _) => [.lmcsHoldEnd (.group g.kc g.core g.idx)]
    | none => []

/-- Events of members. -/
def memberEvents (s : State) : List Instr :=
  ((s.groups.filter fun g => g.flights.any fun f => !inFlight f).map fun g => Instr.longLatencyComplete (.group g.kc g.core g.idx)) ++
  (((s.kcs.filter fun k => stopping k).flatMap fun k => Instr.critDeferExpiry (.spine k.id) ::
    (s.groups.filter fun g => g.kc = k.id && inCrit g.crit).map fun g => Instr.critDeferExpiry (.group g.kc g.core g.idx)))

/-- Events of kernel clusters and frames. -/
def clusterEvents (s : State) : List Instr :=
  ((List.range s.frames.length).map fun i => Instr.trapFrameWrite i) ++
  s.kcs.flatMap fun k => match k.status with
    | .stopping _ => [.saveComplete k.id]
    | .saved _ => [.resume k.id]
    | .running => if deadlocked s k then [.deadlockWatchdog k.id] else []
    | .ended => []

/-- Events of the tundish. -/
def tundishEvents (s : State) : List Instr :=
  (s.tund.looking.flatMap fun q => [.tundishConsume q, .workDeposit q]) ++
  (s.tund.released.map fun r => .workDeposit r.2.queue) ++
  (if s.tund.looking.isEmpty && s.tund.released.isEmpty && s.grids.isEmpty then [] else [.placementRound]) ++
  (s.tund.heads.filter fun h => h.blocked && !h.aged).map fun h => .headAgeing h.launch.queue

/-- Events of dies, circuits, frames, partitions and fences. -/
def deviceEvents (s : State) : List Instr :=
  (([0, 1, 2, 3] : List DieNo).flatMap fun d => match (dieOf s d).st with
    | .withdrawing => [.withdrawDone d, .withdrawDeadline d]
    | .bypass => [.writebackDone d]
    | .lost => [.lostBypassEnter d]
    | _ => []) ++
  (s.host.circuits.flatMap fun e =>
    if e.2.st = 1 then [Instr.circuitUp (BitVec.ofNat 8 e.1)] else if e.2.st = 3 then [.circuitDrained (BitVec.ofNat 8 e.1)] else []) ++
  ((s.frameTab.filter fun e => e.2.st = 1).map fun e => .frameScrub e.1) ++
  (match s.host.pmReq with
   | some (_, true) => [.partitionModeTakesEffect, .forcePreemptTimeout]
   | some (_, false) => [.partitionModeTakesEffect]
   | none => []) ++
  s.host.funcs.flatMap fun f => match f.2 with
    | some x => (if x.fencing then [.stage2FenceDone (BitVec.ofNat 6 f.1)] else []) ++
        if x.flr then [.functionLevelReset ⟨BitVec.ofNat 6 f.1, true⟩] else []
    | none => []

/-- What may come next: events under way, then issues. The spec orders none of them before another. -/
def choices (s : State) : List Todo :=
  ((ladleEvents s ++ memberEvents s ++ clusterEvents s ++ tundishEvents s ++ deviceEvents s).map Todo.event) ++
    (readyMembers s).map Todo.issue

/-- The choice among them is free.
DEDUCED, safe: log entry 74. -/
def chooseTodo (s : State) : Option Todo :=
  let cs := choices s
  cs[Config.freeNat s.fresh 11 % cs.length]?

/-! ### Fetching (R67, R95, R435) -/

/-- The bytes of the instruction at an address: two, or four when bit 0 of the first halfword is 1; or what a
halfword met, with the instruction word as far as it was fetched. Stores to text before seen are seen (R235). -/
def fetchBytes (s : State) (c : Ctx) (d : DieNo) (pc : VAddr) (seen : Nat) : State × Except (Miss × Word) (List Byte) :=
  match fetchHalf s c d pc.toNat seen with
  | (s, .error m) => (s, .error (m, 0))
  | (s, .ok lo) =>
    if bytesToNat lo % 2 = 0 then (s, .ok lo)
    else match fetchHalf s c d (pc.toNat + 2) seen with
      | (s, .error m) => (s, .error (m, BitVec.ofNat 32 (bytesToNat lo)))
      | (s, .ok hi) => (s, .ok (lo ++ hi))

/-- What a member's issue comes to. -/
inductive Prep where
  /-- nothing can issue -/
  | idle
  /-- an event comes instead -/
  | event (i : Instr)
  /-- the issue is over: it trapped at fetch or decoding -/
  | done (s : State)
  /-- the instruction runs, its issue being in cur -/
  | run (i : Instr) (s : State)

/-- From when on the fetch of an issue may miss a store to text: the latest point that one of its threads must see
(R235). -/
def seenPoint (s : State) (c : Issue) : Nat :=
  match c.who with
  | .spine kc => (kcOf s kc).spine.seenFrom
  | .group .. =>
    let g := memberGroup s c.who
    (lanesOf g.width c.mask).foldl (fun n l => max n (amGet 0 g.fenced l)) g.seenFrom

/-- The bytes of an issue's instruction. -/
def fetchIssue (s : State) (c : Issue) : State × Except (Miss × Word) (List Byte) :=
  fetchBytes s (ctxOf s (memberAsid s c.who)) (memberDie s c.who) c.pc (seenPoint s c)

/-- Fetches and decodes for an issue: a fetch cause, ILLEGAL, or the instruction (R95). An instruction that cannot be
fetched has not issued, and does not count (R67, R186). -/
def fetchRun (s : State) (c : Issue) : Prep :=
  match fetchIssue s c with
  | (s, .error (m, w)) =>
    .done (trapBefore s { c with word := w, counted := true }
      { cause := m.cause, code := BitVec.ofNat 8 m.code, lanes := c.mask, addr := m.addr
        pages := if m.cause = cPageFault then [pageOf m] else [] })
  | (s, .ok bytes) =>
    let c := { c with word := BitVec.ofNat 32 (bytesToNat bytes), len := bytes.length }
    match decode bytes with
    | .error _ => .done (trapBefore s c { cause := cIllegal, lanes := c.mask })
    | .ok (i, _) => .run i { s with cur := some c }

/-- Whether the instruction at an issue can be fetched and is no `yield`: at the deadline it is YIELD_OVERRUN (R186). -/
def notYield (s : State) (c : Issue) : Bool :=
  match (fetchIssue s c).2 with
  | .ok bytes => (match decode bytes with
      | .ok (.yield _, _) => false
      | _ => true)
  | .error _ => false

/-- Whether run-ahead has come to its limits (R351). -/
def runAheadFull (g : Group) : Bool :=
  match g.runAhead with
  | some ra => decide (512 ≤ ra.count) || decide (32 ≤ ra.trap.pages.length)
  | none => false

/-- A ladle cause is delivered before the group's next issue (R291). -/
def deliverLadle (s : State) (m : Member) (e : Entry) (t : Trap) : State :=
  let w := (wordAt s (ctxOf s (memberAsid s m)) e.pc).getD 0
  stopMember (updMember s m fun g => { g with ladle := g.ladle.drop 1 }) m { t with pc := e.pc, prio := e.prio, word := w }

/-- A group's next issue, once the flights that it must wait for have completed. -/
def prepGroup (s : State) (m : Member) (g : Group) : Prep :=
  match nextEntry s g with
  | none => if g.runAhead.isSome then .event (.runAhead m) else .idle
  | some e =>
    match g.ladle with
    | t :: _ =>
      if g.runAhead.isSome then .event (.runAhead m)
      else if hasWaiting g then .idle
      else .done (deliverLadle (updMember s m landAll) m e t)
    | [] =>
      if g.crit.isSome && !inCrit g.crit then .event (.lockHolderLimit m)
      else if runAheadFull g then .event (.runAhead m)
      else
        let c : Issue := ⟨m, e.pc, e.prio, e.mask, 0, 4, e.wait.isSome⟩
        if g.runAhead.isNone && !c.counted && decide (g.deadline ≤ g.ycount.toNat) && notYield s c then .event (.yieldOverrun m)
        else fetchRun (updMember s m fun g => landFlights g (mustLand e)) c

/-- A member's next issue; a group's counts as its turn on its slot (R174). -/
def prepare (s : State) (m : Member) : Prep :=
  match m with
  | .spine kc =>
    let k := kcOf s kc
    if !spineReady s k then .idle
    else if k.spine.crit.isSome && !inCrit k.spine.crit then .event (.lockHolderLimit m)
    else fetchRun s ⟨m, k.spine.pc, 0, 1, 0, 4, k.spine.wait.isSome⟩
  | .group kc core idx =>
    let g := groupOf s kc core idx
    if groupReady s g then prepGroup (updMember s m fun g => { g with turn := s.fresh + 1 }) m { g with turn := s.fresh + 1 } else .idle

/-! ### A placed word -/

/-- Whether a word's instruction runs on the spine only (R94). -/
def spineWord (nbits w : Nat) : Bool :=
  match decodeTableWord nbits w with
  | some (.sarm _) => true
  | some (.sclr _) => true
  | some .gstep => true
  | _ => false

/-- Page tables that map virtual page 0 to frame 4 with R, W and X, and the word there. -/
def placedMem (nbits w : Nat) (m : AMap Byte) : AMap Byte :=
  let entry := fun (m : AMap Byte) (a v : Nat) => putNat m a 8 v
  let m := entry (entry (entry m 0x10000 0x20001) 0x20000 0x30001) 0x30000 0x4003D
  putBytes m 0x40000 (wordBytes (max 4 (nbits / 8)) w ++ List.replicate 12 0)

/-- The kernel cluster that a placed word runs in: one core of die 0. -/
def placedKc (id : Nat) : Kc :=
  { kcNone with id := id, grid := 0, asid := 1, cfgSprue := 32, cfgBar := 16, place := some ⟨0, 0, 0, 0, 0⟩, status := .running, spine := spineInit 0 }

/-- The state with a word placed where the next step fetches: a context, its page tables, an ONLINE die 0 and a
kernel cluster with a spine and a group of width 8. -/
def placeWord' (s : State) (nbits w : Nat) : State :=
  let id := s.nextId
  let frame : FrameEntry := { FrameEntry.zero with kasid := 1, st := 2 }
  { s with
    nextId := id + 1
    ctxs := { ctxNone with asid := 1, desc := 0x1000, s1root := 0x10000, nslot := 1 } :: s.ctxs.filter fun c => c.asid ≠ 1
    tlb := s.tlb.filter fun e => e.asid ≠ 1
    kcs := placedKc id :: s.kcs
    teams := { teamNone with kc := id, core := 0, wSize := 4096, aSize := 4096, cSize := 4096, bars := List.replicate 16 Barrier.init } :: s.teams
    groups := groupInit id 0 0 1 8 64 0 :: s.groups
    frameTab := amSet FrameEntry.zero s.frameTab 4 frame
    dies := s.dies.modify 0 fun d => { d with st := .online, bypass := false }
    mem := placedMem nbits w s.mem
    memPoison := s.memPoison.filter fun q => q / 4096 ≠ 4
    oldText := s.oldText.filter fun e => e.1 / 65536 ≠ 4
    replicas := s.replicas.filter fun r => r.frame ≠ 4
    host := { s.host with funcs := amSet none s.host.funcs 0 none, pmode := 0 }
    cur := none
    agenda := [.issue (if spineWord nbits w then .spine id else .group id 0 0)] }

end Sys2Proof.Machine
end

