-- ==== Sys2Proof/Machine/Step.lean ====
section
/-! DEFINITION. One step of the device: what is on the agenda, else one of the things under way. -/

namespace Sys2Proof.Machine

/-- One member's issue. -/
def issueStep (s : State) (m : Member) : Host.Outcome State Fault Refusal :=
  match prepare s m with
  | .idle => .next (bump s)
  | .event i => exec i s
  | .done t => .next t
  | .run i t => exec i t

/-- One thing to do. -/
def runTodo (s : State) : Todo → Host.Outcome State Fault Refusal
  | .event i => exec i s
  | .issue m => issueStep s m

/-- One step: the agenda first, else a free choice among what is under way; with nothing under way the device waits. -/
def step (s : State) : Host.Outcome State Fault Refusal :=
  match s.agenda with
  | t :: rest => runTodo { s with agenda := rest } t
  | [] =>
    match chooseTodo s with
    | some t => runTodo (bump s) t
    | none => .next s

/-- The state with a word placed where the next step fetches its instruction.
DEDUCED, safe: log entry 71. -/
def State.withFetchWord (s : State) (nbits w : Nat) : State := placeWord' s nbits w

end Sys2Proof.Machine
end

