-- ==== Sys2Proof/Safety.lean ====
section
/-! DEFINITION. The terms that claims about the machine are stated in: who issues, when operands are ready, what
an instruction does to the registers of a group or a spine, what it leaves alone, and the invariant of a step. -/

namespace Sys2Proof.Machine

/-! ### Who issues -/

/-- The issue under way is one of group g, which the state holds and which is not in run-ahead; no lane of it has a
poisoned frontier entry or guard (R412). -/
structure OnLanes (s : State) (c : Issue) (g : Group) : Prop where
  cur : s.cur = some c
  who : c.who = .group g.kc g.core g.idx
  here : s.groups.find? (fun x => x.kc = g.kc ∧ x.core = g.core ∧ x.idx = g.idx) = some g
  normal : g.runAhead = none
  clean : poisonedIssue s c = []

/-- The issue under way is one of the spine of kernel cluster k, which the state holds. -/
structure OnSpine (s : State) (c : Issue) (k : Kc) : Prop where
  cur : s.cur = some c
  who : c.who = .spine k.id
  here : s.kcs.find? (fun x => x.id = k.id) = some k

/-! ### Effects on lanes -/

/-- What an instruction does to a group's registers: the v registers (lane, register), predicates and g registers
it writes, the sticky flags it adds to a lane, and where each lane of the entry goes on, with which priority. -/
structure Effect where
  v : Nat → Nat → Option Word := fun _ _ => none
  p : Nat → PredNo → Option Bool := fun _ _ => none
  g : Nat → Option Word := fun _ => none
  flags : Nat → Flags6 := fun _ => 0
  goes : Nat → VAddr × BitVec 6

/-- No register written: the lanes go on at the next instruction. -/
def Effect.none (c : Issue) : Effect := { goes := fun _ => (nextPc c, c.prio) }

/-- A lane stands in an entry at pc, under priority prio, with the wait w (none when it is not blocked). -/
def LaneAt (r : GroupRegs) (lane : Nat) (pc : VAddr) (prio : BitVec 6) (w : Option Wait) : Prop :=
  ∃ en ∈ r.frontier, en.pc = pc ∧ en.prio = prio ∧ en.mask.getLsbD lane = true ∧ en.wait = w

/-- From s to t the group of the issue changes by exactly the effect e: every other register keeps its value, every
lane outside the issuing entry stands where it stood (pc, priority and wait), the rest of the group but its counts,
windows, retry mark and poison is as before, and so is every other group. -/
structure LaneRegs (s t : State) (c : Issue) (e : Effect) : Prop where
  v : ∀ lane r, r < 64 → vGet (memberGroup t c.who).regs lane r =
    (e.v lane r).getD (vGet (memberGroup s c.who).regs lane r)
  p : ∀ lane k, lanePred (memberGroup t c.who).regs lane k =
    (e.p lane k).getD (lanePred (memberGroup s c.who).regs lane k)
  g : ∀ r, gGet (memberGroup t c.who).regs r = (e.g r).getD (gGet (memberGroup s c.who).regs r)
  flags : ∀ lane, amGet 0 (memberGroup t c.who).regs.lstat lane =
    amGet 0 (memberGroup s c.who).regs.lstat lane ||| e.flags lane
  special : (memberGroup t c.who).regs.ct = (memberGroup s c.who).regs.ct ∧
    (memberGroup t c.who).regs.snapTime = (memberGroup s c.who).regs.snapTime ∧
    (memberGroup t c.who).regs.snapLclk = (memberGroup s c.who).regs.snapLclk ∧
    (memberGroup t c.who).regs.snapEctx = (memberGroup s c.who).regs.snapEctx
  goes : ∀ lane, c.mask.getLsbD lane = true →
    LaneAt (memberGroup t c.who).regs lane (e.goes lane).1 (e.goes lane).2 Option.none
  stays : ∀ lane, c.mask.getLsbD lane = false → ∀ pc prio w,
    LaneAt (memberGroup t c.who).regs lane pc prio w ↔ LaneAt (memberGroup s c.who).regs lane pc prio w
  rest : { memberGroup t c.who with
      regs := (memberGroup s c.who).regs, ycount := (memberGroup s c.who).ycount, crit := (memberGroup s c.who).crit
      flights := (memberGroup s c.who).flights, retry := (memberGroup s c.who).retry
      poison := (memberGroup s c.who).poison } = memberGroup s c.who
  others : ∀ kc core idx, Member.group kc core idx ≠ c.who → groupOf t kc core idx = groupOf s kc core idx

/-- Everything in the state but groups, the issue and the counter of free values is as before. -/
def OnlyGroups (s t : State) : Prop := { t with groups := s.groups, cur := s.cur, fresh := s.fresh } = s

/-- Everything in the state but groups, kernel clusters, the issue and the counter of free values is as before. -/
def OnlyMembers (s t : State) : Prop :=
  { t with groups := s.groups, kcs := s.kcs, cur := s.cur, fresh := s.fresh } = s

/-- The state in which sprue registers ks have been read by a member: a read acquires, so that the member sees the
completed swaps of its team (R29, R202). -/
def acquired (s : State) (m : Member) (ks : List Nat) : State := if ks.isEmpty then s else acquireSwaps s m

/-- The sprue registers of kernel cluster kc become f of what they were; nothing else of it changes, and nothing
of any other kernel cluster. -/
def SprueBecomes (s t : State) (kc : Nat) (f : Nat → SprueReg → SprueReg) : Prop :=
  (∀ k, sprueGet (kcOf t kc) k = f k (sprueGet (kcOf s kc) k)) ∧
    { kcOf t kc with sprue := (kcOf s kc).sprue } = kcOf s kc ∧ ∀ id, id ≠ kc → kcOf t id = kcOf s id

/-! ### Effects on a spine -/

/-- From s to t the spine of kernel cluster kc changes by exactly: the x registers and predicates written, flags
added to LSTAT, and pc; x0 reads 0 whatever is written to it (R15). -/
structure SpineRegs (s t : State) (kc : Nat) (x : Nat → Option DWord) (p : PredNo → Option Bool) (fl : Flags6)
    (pc : VAddr) : Prop where
  x : ∀ r, xGet (kcOf t kc).spine r = if r = 0 then 0 else (x r).getD (xGet (kcOf s kc).spine r)
  p : ∀ k, spinePred (kcOf t kc).spine k = (p k).getD (spinePred (kcOf s kc).spine k)
  flags : (kcOf t kc).spine.lstat = (kcOf s kc).spine.lstat ||| fl
  pc : (kcOf t kc).spine.pc = pc
  unblocked : (kcOf t kc).spine.wait = none
  rest : { (kcOf t kc).spine with
      x := (kcOf s kc).spine.x, p := (kcOf s kc).spine.p, lstat := (kcOf s kc).spine.lstat, pc := (kcOf s kc).spine.pc
      wait := (kcOf s kc).spine.wait, crit := (kcOf s kc).spine.crit, poison := (kcOf s kc).spine.poison } =
    (kcOf s kc).spine
  cluster : { kcOf t kc with spine := (kcOf s kc).spine, sprue := (kcOf s kc).sprue } = kcOf s kc
  others : ∀ id, id ≠ kc → kcOf t id = kcOf s id

/-- Everything in the state but kernel clusters, the issue and the counter of free values is as before. -/
def OnlyKcs (s t : State) : Prop := { t with kcs := s.kcs, cur := s.cur, fresh := s.fresh } = s

/-! ### Register instructions -/

/-- All sources, the destination last when the instruction also reads it. -/
def operands (srcs : List Src) (dst : Dst) : List Src :=
  srcs ++ match dst with
    | .reg d w true => [.reg d w]
    | .pred pd true => [.pred pd]
    | _ => []

/-- The sprue registers read, each once. -/
def spruesRead (spine : Bool) (srcs : List Src) : List Nat := dedup (srcs.flatMap (srcSprue spine))

/-- On lanes: every register named is legal, every sprue register read is in the mould's count, FULL (with a read that
no access under way has reserved) and not poisoned, no active lane reads a poisoned register or predicate, and no long-latency instruction still writes the destination. -/
structure LanesReady (s : State) (c : Issue) (g : Group) (gd : PredNo) (srcs : List Src) (dst : Dst) : Prop where
  legal : (srcs.all (srcOk false g.budget) && dstOk false g.budget dst) = true
  counted : ∀ k ∈ srcs.flatMap (srcSprue false), k < (kcOf s g.kc).cfgSprue
  full : ∀ k ∈ spruesRead false (operands srcs dst), readable (kcOf s g.kc) k = true ∧
    (sprueGet (kcOf s g.kc) k).poison = false
  clean : badLanes g (activeLanes g c gd) (operands srcs dst) = []
  settled : flightWrites g (dstV dst) = false ∧ (spruesRead false (operands srcs dst) = [] ∨ hasWaiting g = false)

/-- The source values of a lane. -/
def laneVals (s : State) (g : Group) (srcs : List Src) (lane : Nat) : List Nat :=
  srcs.zipIdx.map fun q => laneSrc s (kcOf s g.kc) g q.2 lane q.1

/-- The effect of writing each active lane's result to the destination. -/
def resultEffect (c : Issue) (act : List Nat) (dst : Dst) (res : Nat → Nat × Flags6) : Effect where
  v := fun lane r => match dst with
    | .reg d w _ =>
      if lane ∈ act then
        (if r = d.toNat then some (BitVec.ofNat 32 (res lane).1)
         else if w = true ∧ r = d.toNat + 1 then some (BitVec.ofNat 32 ((res lane).1 / 2 ^ 32)) else none)
      else none
    | .pred .. => none
  p := fun lane k => match dst with
    | .pred pd _ => if lane ∈ act ∧ k = pd then some (decide ((res lane).1 ≠ 0)) else none
    | .reg .. => none
  flags := fun lane => if lane ∈ act then (res lane).2 else 0
  goes := fun _ => (nextPc c, c.prio)

/-- On lanes the instruction computes: each active lane's destination receives res of the group's width, the active
lanes' values and the lane; each sprue register read is consumed once (R26) and acquires (R29); nothing else changes. -/
def LanesCompute (i : Instr) (gd : PredNo) (srcs : List Src) (dst : Dst)
    (res : Nat → List Nat → (Nat → List Nat) → Nat → Nat × Flags6) : Prop :=
  ∀ s c g, OnLanes s c g → LanesReady s c g gd srcs dst →
    ∃ t, exec i s = .next t ∧ OnlyMembers (acquired s c.who (spruesRead false (operands srcs dst))) t ∧
      SprueBecomes s t g.kc (fun k r => if k ∈ spruesRead false (operands srcs dst) then consumed r else r) ∧
      LaneRegs s t c (resultEffect c (activeLanes g c gd) dst
        (res g.width (activeLanes g c gd) (laneVals s g (operands srcs dst))))

/-- On lanes with a lookahead the instruction stays in flight: no register has changed yet, and the flight holds what
it will write in each active lane when it completes, with the flags (R88). -/
def LanesComputeLater (i : Instr) (gd : PredNo) (srcs : List Src) (d : RegField) (res : List Nat → Nat × Flags6) : Prop :=
  ∀ s c g, OnLanes s c g → LanesReady s c g gd srcs (.reg d false false) →
    ∃ t, exec i s = .next t ∧ OnlyMembers (acquired s c.who (spruesRead false srcs)) t ∧
      SprueBecomes s t g.kc (fun k r => if k ∈ spruesRead false srcs then consumed r else r) ∧
      LaneRegs s t c (Effect.none c) ∧
      ∃ f ∈ (memberGroup t c.who).flights, f.issue = c ∧ f.ask = none ∧ f.gwrites = [] ∧
        f.writes = (activeLanes g c gd).flatMap (fun l => regWrites d.toNat false l (res (laneVals s g srcs l)).1) ∧
        f.flags = (activeLanes g c gd).map fun l => (l, (res (laneVals s g srcs l)).2)

/-- On the spine: every register named is legal, every sprue register read or written is in the mould's count; those
read are FULL and nothing read is poisoned; a sprue destination is EMPTY. -/
structure SpineReady (k : Kc) (srcs : List Src) (dst : Dst) : Prop where
  legal : (srcs.all (srcOk true 0) && dstOk true 0 dst) = true
  counted : ∀ i ∈ srcs.flatMap (srcSprue true) ++ dstSprue true dst, i < k.cfgSprue
  full : ∀ i ∈ spruesRead true (operands srcs dst), readable k i = true ∧ (sprueGet k i).poison = false
  clean : ∀ r ∈ (operands srcs dst).flatMap srcX, k.spine.poison.contains r = false
  empty : ∀ i ∈ dstSprue true dst, (sprueGet k i).st = .empty

/-- A sprue register after a completed write: FULL with the value and the read count of its last `sarm` (R25). -/
def written (r : SprueReg) (v : DWord) : SprueReg := { r with value := v, st := .full r.rcnt, poison := false }

/-- On the spine the instruction computes, once, when its guard is true, and otherwise only goes on; 32-bit results
are zero-extended, or sign-extended when signed (R22). -/
def SpineComputes (i : Instr) (gd : PredNo) (srcs : List Src) (dst : Dst) (signed : Bool) (res : List Nat → Nat × Flags6) : Prop :=
  ∀ s c k, OnSpine s c k → SpineReady k srcs dst →
    ∃ t, exec i s = .next t ∧ OnlyKcs s t ∧
      (let on := spinePred k.spine gd
       let r := res ((operands srcs dst).map (spineSrc k))
       SprueBecomes s (updSpine t k.id fun _ => k.spine) k.id (fun j q =>
         if on = true ∧ j ∈ spruesRead true (operands srcs dst) then consumed q
         else match dst with
           | .reg d w _ => if on = true ∧ j + 32 = d.toNat then written q (spineResult w signed r.1) else q
           | .pred .. => q) ∧
       SpineRegs s t k.id
         (fun j => match dst with
           | .reg d w _ => if on = true ∧ j = d.toNat ∧ j < 32 then some (spineResult w signed r.1) else none
           | .pred .. => none)
         (fun q => match dst with
           | .pred pd _ => if on = true ∧ q = pd then some (decide (r.1 ≠ 0)) else none
           | .reg .. => none)
         (if on then r.2 else 0) (nextPc c))

/-- A register instruction of both units with one result per lane or for the spine. -/
def Computes (i : Instr) (gd : PredNo) (srcs : List Src) (dst : Dst) (signed : Bool) (res : List Nat → Nat × Flags6) : Prop :=
  LanesCompute i gd srcs dst (fun _ _ vals lane => res (vals lane)) ∧ SpineComputes i gd srcs dst signed res

/-- On the spine the instruction takes WRONG_UNIT at its issue (R94). -/
def WrongOnSpine (i : Instr) : Prop :=
  ∀ s c k, OnSpine s c k → ∃ t, exec i s = .next t ∧
    (kcOf t k.id).spine.trap = some (trapOf c { cause := cWrongUnit, lanes := c.mask })

/-! ### Traps -/

/-- The group or spine of the issue has stopped with a trap, whose frame waits behind those that waited before (R329). -/
structure TrapTaken (s t : State) (c : Issue) (tr : Trap) : Prop where
  frame : t.frames = s.frames ++ [frameOf s c.who tr]
  stopped : match c.who with
    | .spine kc => (kcOf t kc).spine.trap = some tr
    | .group kc core idx => (groupOf t kc core idx).trap = some tr

/-! ### The invariant -/

/-- Memory is canonical and the device has its four dies. -/
structure State.Inv (s : State) : Prop where
  mem : Memory.wf s.mem
  dies : s.dies.length = 4

end Sys2Proof.Machine
end

