-- ==== Sys2Proof/Certificates/Slice0/Obligations.lean ====
section
/-! DEFINITION. The statements for the provers. What an instruction computes is written here a second time, over bit
vectors and integers as the spec's tables read, and each statement says that the machine computes exactly that, where
the result goes, and that nothing else changes. -/

namespace Sys2Proof.Claims

open Sys2Proof.Machine

/-! ### Results written as the spec's tables read -/

/-- The operand width n of the x-bit. -/
def width (x : Bool) : Nat := if x then 64 else 32

/-- A result of n bits and the flags it adds. -/
abbrev Result (n : Nat) := BitVec n × Flags6

/-- A function of operands of n, m and k bits as a result from values. -/
def of1 {n r : Nat} (f : BitVec n → Result r) : List Nat → Nat × Flags6
  | [a] => ((f (BitVec.ofNat n a)).1.toNat, (f (BitVec.ofNat n a)).2)
  | _ => (0, 0)
def of2 {n m r : Nat} (f : BitVec n → BitVec m → Result r) : List Nat → Nat × Flags6
  | [a, b] => ((f (BitVec.ofNat n a) (BitVec.ofNat m b)).1.toNat, (f (BitVec.ofNat n a) (BitVec.ofNat m b)).2)
  | _ => (0, 0)
def of3 {n m k r : Nat} (f : BitVec n → BitVec m → BitVec k → Result r) : List Nat → Nat × Flags6
  | [a, b, d] => ((f (BitVec.ofNat n a) (BitVec.ofNat m b) (BitVec.ofNat k d)).1.toNat,
      (f (BitVec.ofNat n a) (BitVec.ofNat m b) (BitVec.ofNat k d)).2)
  | _ => (0, 0)

/-- A truth value as a predicate's source value is read, and as a result. -/
def ofPred (f : Bool → Bool → Bool) : List Nat → Nat × Flags6
  | [a, b] => (if f (decide (a = 1)) (decide (b = 1)) then 1 else 0, 0)
  | _ => (0, 0)

/-- No flag. -/
def plain {n : Nat} (v : BitVec n) : Result n := (v, 0)

/-- clamp_sn of an exact integer: its bits, with SAT when it was clamped (R38, R111). -/
def clampTo (n : Nat) (v : Int) : Result n :=
  if v < -2 ^ (n - 1) then (BitVec.ofInt n (-2 ^ (n - 1)), flagSAT)
  else if 2 ^ (n - 1) - 1 < v then (BitVec.ofInt n (2 ^ (n - 1) - 1), flagSAT)
  else (BitVec.ofInt n v, 0)

/-! ### Operand shapes -/

/-- Format L on both units: d := f(a, b), of 32 bits or with x = 1 of 64. -/
def FormL (mk : OpsL → Instr) (signed : Bool) (f : (n : Nat) → BitVec n → BitVec n → Result n) : Prop :=
  ∀ o, Computes (mk o) o.g [.reg o.a o.x, .sel o.b o.x] (.reg o.d o.x false) signed (of2 (f (width o.x)))

/-- Format L with d read as the third operand. -/
def FormL3 (mk : OpsL → Instr) (signed : Bool) (f : (n : Nat) → BitVec n → BitVec n → BitVec n → Result n) : Prop :=
  ∀ o, Computes (mk o) o.g [.reg o.a o.x, .sel o.b o.x] (.reg o.d o.x true) signed (of3 (f (width o.x)))

/-- Format L with 32-bit operands only. -/
def FormL1 (mk : OpsL1 → Instr) (signed : Bool) (f : Word → Word → Result 32) : Prop :=
  ∀ o, Computes (mk o) o.g [.reg o.a false, .sel o.b false] (.reg o.d false false) signed (of2 f)
def FormL13 (mk : OpsL1 → Instr) (signed : Bool) (f : Word → Word → Word → Result 32) : Prop :=
  ∀ o, Computes (mk o) o.g [.reg o.a false, .sel o.b false] (.reg o.d false true) signed (of3 f)

/-- One source, 32 bits or with x = 1 64. -/
def FormA (mk : OpsA → Instr) (f : (n : Nat) → BitVec n → Result n) : Prop :=
  ∀ o, Computes (mk o) o.g [.reg o.a o.x] (.reg o.d o.x false) false (of1 (f (width o.x)))

/-- One 32-bit source. -/
def FormA1 (mk : OpsA1 → Instr) (signed : Bool) (f : Word → Result 32) : Prop :=
  ∀ o, Computes (mk o) o.g [.reg o.a false] (.reg o.d false false) signed (of1 f)

/-- Format I2: a and imm7. ok bounds the immediates that the encoding admits. -/
def FormI2 (mk : OpsI2 → Instr) (signed : Bool) (ok : (n : Nat) → BitVec 7 → Prop) (f : (n : Nat) → BitVec n → BitVec 7 → Result n) : Prop :=
  ∀ o, ok (width o.x) o.imm → Computes (mk o) o.g [.reg o.a o.x] (.reg o.d o.x false) signed (of1 fun a => f (width o.x) a o.imm)

/-- A 16-bit form: d is destination and first source, a the second. -/
def Form16 (mk : Ops16 → Instr) (signed : Bool) (f : Word → Word → Result 32) : Prop :=
  ∀ o, Computes (mk o) 0 [.reg (o.a.setWidth 6) false] (.reg o.d false true) signed (of2 fun a d => f d a)

/-- Lanes only, format L, 32 bits; on the spine WRONG_UNIT. -/
def LaneL1 (mk : OpsL1 → Instr) (f : Word → Word → Result 32) : Prop :=
  ∀ o, LanesCompute (mk o) o.g [.reg o.a false, .sel o.b false] (.reg o.d false false) (fun _ _ vals l => of2 f (vals l)) ∧
    WrongOnSpine (mk o)
def LaneL13 (mk : OpsL1 → Instr) (f : Word → Word → Word → Result 32) : Prop :=
  ∀ o, LanesCompute (mk o) o.g [.reg o.a false, .sel o.b false] (.reg o.d false true) (fun _ _ vals l => of3 f (vals l)) ∧
    WrongOnSpine (mk o)

/-! ### The functions -/

/-- The shift count of n-bit operands: b[4:0], or b[5:0] (R114). -/
def count {n : Nat} (b : BitVec n) : Nat := b.toNat % n
/-- Rounding right shift, half upward (R117). -/
def roundShift (n : Nat) (a : BitVec n) (k : Nat) : BitVec n :=
  if k = 0 then a else BitVec.ofInt n ((a.toInt + 2 ^ (k - 1)) / 2 ^ k)
/-- The number of 1 bits, and of leading zeros (R115). -/
def ones {n : Nat} (a : BitVec n) : Nat := (List.range n).countP fun i => a.getLsbD i
def leadingZeros {n : Nat} (a : BitVec n) : Nat := ((List.range n).takeWhile fun i => !a.getLsbD (n - 1 - i)).length
/-- The signed half or byte at bit lo. -/
def piece (w lo : Nat) (a : Word) : Int := (a.extractLsb' lo w).toInt
/-- One byte of `perm` (R116). -/
def permOut (a b d : Word) (j : Nat) : BitVec 8 :=
  let y := b ++ a
  let k := d.extractLsb' (4 * j) 4
  let byte := y.extractLsb' (8 * (k.toNat % 8)) 8
  if k.getLsbD 3 then (if byte.msb then 0xFF else 0) else byte
/-- A floating function of n bits. -/
def float2 {n : Nat} (f : Nat → Nat → Nat × Flags6) (a b : BitVec n) : Result n := (BitVec.ofNat n (f a.toNat b.toNat).1, (f a.toNat b.toNat).2)
def float3 {n : Nat} (f : Nat → Nat → Nat → Nat × Flags6) (a b d : BitVec n) : Result n :=
  (BitVec.ofNat n (f a.toNat b.toNat d.toNat).1, (f a.toNat b.toNat d.toNat).2)
def float1 {n m : Nat} (f : Nat → Nat × Flags6) (a : BitVec n) : Result m := (BitVec.ofNat m (f a.toNat).1, (f a.toNat).2)
/-- f32, or f64 with x = 1. -/
def fmtW (n : Nat) : FloatFmt := if n = 64 then fmtF64 else fmtF32
/-- Both halves of a word by a 16-bit operation, with the flags of both. -/
def halves (f : Nat → Nat → Nat × Flags6) (a b : Word) : Result 32 :=
  let lo := float2 f (a.extractLsb' 0 16) (b.extractLsb' 0 16)
  let hi := float2 f (a.extractLsb' 16 16) (b.extractLsb' 16 16)
  (hi.1 ++ lo.1, lo.2 ||| hi.2)
def halvesFma (fmt : FloatFmt) (a b d : Word) : Result 32 :=
  let at' := fun lo => float3 (fFma fmt false) (a.extractLsb' lo 16) (b.extractLsb' lo 16) (d.extractLsb' lo 16)
  ((at' 16).1 ++ (at' 0).1, (at' 0).2 ||| (at' 16).2)

/-! ### Exact values -/

/-- (−1)^neg × m × 2^e. -/
def exactly (neg : Bool) (m : Nat) (e : Int) : ℚ := (if neg then -1 else 1) * (m : ℚ) * (2 : ℚ) ^ e

/-- The value of a code of the format's width (R40, R41); none for an infinity or a NaN. -/
def valueOf (f : FloatFmt) (w : Nat) : Option ℚ := match fUnpack f w with
  | .fin neg m e => if w < 2 ^ (fmtSignPos f + 1) then some (exactly neg m e) else none
  | _ => none

/-- A rational rounded to an integer under a mode (R46). -/
def roundInt (r : Rnd) (x : ℚ) : Int := match r with
  | .rne => if x - ⌊x⌋ < 1 / 2 then ⌊x⌋ else if 1 / 2 < x - ⌊x⌋ then ⌊x⌋ + 1 else if ⌊x⌋ % 2 = 0 then ⌊x⌋ else ⌊x⌋ + 1
  | .rz => if 0 ≤ x then ⌊x⌋ else ⌈x⌉
  | .rdn => ⌊x⌋
  | .rup => ⌈x⌉

/-- v rounded to a multiple of 2^q. -/
def roundAt (r : Rnd) (q : Int) (v : ℚ) : ℚ := roundInt r (v / (2 : ℚ) ^ q) * (2 : ℚ) ^ q

/-- The weight of the last significand bit of v, as an exponent, when the exponent range is unbounded. -/
def unitOf (f : FloatFmt) (v : ℚ) : Int := Int.log 2 |v| - f.mbits
/-- v rounded with unbounded exponent range. -/
def unbounded (f : FloatFmt) (r : Rnd) (v : ℚ) : ℚ := roundAt r (unitOf f v) v
def largest (f : FloatFmt) : ℚ := (fmtMaxMant f : ℚ) * (2 : ℚ) ^ fmtMaxQ f
/-- v rounded into the format, subnormals included. -/
def nearest (f : FloatFmt) (r : Rnd) (v : ℚ) : ℚ := roundAt r (max (unitOf f v) (fmtQmin f)) v

/-- res is the exact value v, not 0, rounded once (R46 to R48), saturating when sat is set (R50). -/
def Rounded (f : FloatFmt) (r : Rnd) (sat : Bool) (v : ℚ) (res : Nat × Flags6) : Prop :=
  let sign := fmtSign f (decide (v < 0))
  if largest f < |unbounded f r v| then
    if sat then res = (sign + fmtMaxCode f, flagSAT ||| flagNX)
    else if r = .rne ∨ (r = .rdn ∧ v < 0) ∨ (r = .rup ∧ 0 < v) then
      res = (if f.noInf then f.nanCode else sign + fmtInfCode f, flagOF ||| flagNX)
    else res = (sign + fmtMaxCode f, flagOF ||| flagNX)
  else
    valueOf f res.1 = some (nearest f r v) ∧ res.1 / 2 ^ fmtSignPos f = (if v < 0 then 1 else 0) ∧
      res.2 = flagIf (decide (nearest f r v ≠ v)) flagNX |||
        flagIf (decide (nearest f r v ≠ v ∧ |unbounded f r v| < (2 : ℚ) ^ fmtEmin f)) flagUF

/-- res is v rounded, or when v is 0 the zero of the sign given, without flags (R42). -/
def RoundedOrZero (f : FloatFmt) (r : Rnd) (sat : Bool) (v : ℚ) (neg : Bool) (res : Nat × Flags6) : Prop :=
  (v ≠ 0 → Rounded f r sat v res) ∧ (v = 0 → res = (fmtSign f neg, 0))

def signOf (f : FloatFmt) (a : Nat) : Bool := decide (a / 2 ^ fmtSignPos f % 2 = 1)

/-- Sums, products and fused products of finite values are the exact ones rounded rne (R46 to R48, R126); minimum,
maximum and order are those of the values, −0 below +0 (R45). -/
def SumExact (f : FloatFmt) : Prop := ∀ a b x y, valueOf f a = some x → valueOf f b = some y →
  RoundedOrZero f .rne false (x + y) (decide (x = 0) && signOf f a && signOf f b) (fAdd f a b)
def ProductExact (f : FloatFmt) : Prop := ∀ a b x y, valueOf f a = some x → valueOf f b = some y →
  RoundedOrZero f .rne false (x * y) (signOf f a != signOf f b) (fMul f a b)
def DifferenceExact (f : FloatFmt) : Prop := ∀ a b x y, valueOf f a = some x → valueOf f b = some y →
  RoundedOrZero f .rne false (x - y) (decide (x = 0) && signOf f a && !signOf f b) (fSub f a b)
def FusedExact (f : FloatFmt) : Prop := ∀ neg a b d x y z, valueOf f a = some x → valueOf f b = some y → valueOf f d = some z →
  RoundedOrZero f .rne false ((if neg then -1 else 1) * (x * y) + z)
    (decide (z = 0) && (neg != (signOf f a != signOf f b)) && signOf f d) (fFma f neg a b d)
def MinMaxExact (f : FloatFmt) : Prop := ∀ a b x y, valueOf f a = some x → valueOf f b = some y →
  (x < y → fMinMax f false a b = (a, 0) ∧ fMinMax f true a b = (b, 0) ∧ fMinMax f false b a = (a, 0) ∧ fMinMax f true b a = (b, 0)) ∧
  (x = 0 → y = 0 → signOf f (fMinMax f false a b).1 = (signOf f a || signOf f b) ∧
    signOf f (fMinMax f true a b).1 = (signOf f a && signOf f b))
def OrderExact (f : FloatFmt) : Prop := ∀ a b x y, valueOf f a = some x → valueOf f b = some y →
  (fLess false (fUnpack f a) (fUnpack f b) = true ↔ x < y)

/-- A value into an integer range: rounded, then clamped (R51). -/
def ClampedInt (lo hi : Int) (r : Rnd) (x : ℚ) (res : Int × Flags6) : Prop :=
  res = if roundInt r x < lo then (lo, flagSAT ||| flagNX) else if hi < roundInt r x then (hi, flagSAT ||| flagNX)
    else (roundInt r x, flagIf (decide ((roundInt r x : ℚ) ≠ x)) flagNX)

/-! NaN and infinite operands, by the fields of their codes (R40, R43). -/

/-- Whether a code is a NaN, a signalling one, or an infinity. -/
def isNan (f : FloatFmt) (w : Nat) : Bool :=
  if f.noInf then decide (w % 2 ^ fmtSignPos f = 2 ^ fmtSignPos f - 1)
  else decide (w / 2 ^ f.mbits % 2 ^ f.ebits = 2 ^ f.ebits - 1 ∧ w % 2 ^ f.mbits ≠ 0)
def isSnan (f : FloatFmt) (w : Nat) : Bool := f.hasSnan && isNan f w && decide (w % 2 ^ f.mbits < 2 ^ (f.mbits - 1))
def isInf (f : FloatFmt) (w : Nat) : Bool :=
  !f.noInf && decide (w / 2 ^ f.mbits % 2 ^ f.ebits = 2 ^ f.ebits - 1 ∧ w % 2 ^ f.mbits = 0)

/-- The infinity of a sign. -/
def infinity (f : FloatFmt) (neg : Bool) : Nat := (if neg then 2 ^ fmtSignPos f else 0) + (2 ^ f.ebits - 1) * 2 ^ f.mbits

/-- The canonical NaN, with NV when an operand signals (R43, R44); and of an invalid operation (R58). -/
def nanOf (f : FloatFmt) (ws : List Nat) : Nat × Flags6 := (f.nanCode, if ws.any (isSnan f) then flagNV else 0)
def invalid (f : FloatFmt) : Nat × Flags6 := (f.nanCode, flagNV)

/-- Sums, differences and products with a NaN or an infinity (R43, R44, R58). -/
def SpecialExact (f : FloatFmt) : Prop := ∀ a b, a < 2 ^ (fmtSignPos f + 1) → b < 2 ^ (fmtSignPos f + 1) →
  let s := signOf f a
  let t := signOf f b
  (isNan f a = true ∨ isNan f b = true → fAdd f a b = nanOf f [a, b] ∧ fSub f a b = nanOf f [a, b] ∧ fMul f a b = nanOf f [a, b]) ∧
  (isInf f a = true → isInf f b = true → fAdd f a b = (if s = t then (a, 0) else invalid f) ∧
    fSub f a b = (if s = t then invalid f else (a, 0)) ∧ fMul f a b = (infinity f (s != t), 0)) ∧
  (∀ y, isInf f a = true → valueOf f b = some y →
    fAdd f a b = (a, 0) ∧ fAdd f b a = (a, 0) ∧ fSub f a b = (a, 0) ∧ fSub f b a = (infinity f (!s), 0) ∧
    fMul f a b = (if y = 0 then invalid f else (infinity f (s != t), 0)) ∧ fMul f b a = fMul f a b)

/-- Whether a product is 0 × ∞, and whether it is infinite. -/
def ZeroTimesInf (f : FloatFmt) (a b : Nat) : Prop :=
  (isInf f a = true ∧ valueOf f b = some 0) ∨ (valueOf f a = some 0 ∧ isInf f b = true)
def InfProduct (f : FloatFmt) (a b : Nat) : Prop :=
  (isInf f a = true ∧ (isInf f b = true ∨ ∃ y, valueOf f b = some y ∧ y ≠ 0)) ∨ (isInf f b = true ∧ ∃ x, valueOf f a = some x ∧ x ≠ 0)

/-- Fused products with a NaN or an infinity: 0 × ∞ is invalid whatever d is (R58, R126). -/
def FusedSpecial (f : FloatFmt) : Prop := ∀ neg a b d,
  a < 2 ^ (fmtSignPos f + 1) → b < 2 ^ (fmtSignPos f + 1) → d < 2 ^ (fmtSignPos f + 1) →
  let p := neg != (signOf f a != signOf f b)
  (ZeroTimesInf f a b → fFma f neg a b d = invalid f) ∧
  (¬ZeroTimesInf f a b → isNan f a = true ∨ isNan f b = true ∨ isNan f d = true → fFma f neg a b d = nanOf f [a, b, d]) ∧
  (InfProduct f a b → isNan f d = false →
    fFma f neg a b d = if isInf f d = true ∧ signOf f d ≠ p then invalid f else (infinity f p, 0)) ∧
  (∀ x y, valueOf f a = some x → valueOf f b = some y → isInf f d = true → fFma f neg a b d = (d, 0))

/-- Minimum and maximum with a NaN, which gives way to a number, or an infinity (R43 to R45). -/
def MinMaxSpecial (f : FloatFmt) : Prop := ∀ a b, a < 2 ^ (fmtSignPos f + 1) → b < 2 ^ (fmtSignPos f + 1) →
  let nv := if isSnan f a = true ∨ isSnan f b = true then flagNV else 0
  (∀ m, isNan f a = true → isNan f b = true → fMinMax f m a b = (f.nanCode, nv)) ∧
  (∀ m, isNan f a = true → isNan f b = false → fMinMax f m a b = (b, nv) ∧ fMinMax f m b a = (b, nv)) ∧
  (isInf f a = true → isNan f b = false →
    fMinMax f false a b = (if signOf f a then a else b, 0) ∧ fMinMax f true a b = (if signOf f a then b else a, 0))

/-- Conversions of NaN and infinity between formats (R43, R44, R50). -/
def ConvertSpecial (src dst : FloatFmt) : Prop := ∀ r sat a,
  (isNan src a = true → cvtFloat src dst r sat a = (dst.nanCode, if isSnan src a then flagNV else 0)) ∧
  (isInf src a = true → cvtFloat src dst r sat a =
    if dst.noInf then (if sat then ((if signOf src a then 0x80 else 0) + 0x7E, flagSAT ||| flagNX) else (0x7F, flagNV))
    else (infinity dst (signOf src a), 0))

/-- Conversions of finite values (R49 to R51). -/
def ConvertExact (src dst : FloatFmt) : Prop := ∀ r sat a x, valueOf src a = some x →
  RoundedOrZero dst r sat x (signOf src a) (cvtFloat src dst r sat a)

/-- tval of a logarithm (R53). -/
def tval (l : Int) : ℚ := exactly false (l6Tval l).1 (l6Tval l).2

/-- A value to l6: the nearest table value, ties to the even logarithm (R57). -/
def NearestL6 (x : ℚ) (res : Nat × Flags6) : Prop :=
  if x = 0 then res = (0x10, 0)
  else if |x| ≤ tval (-15) / 2 then res = (0x10, flagUF ||| flagNX)
  else if tval 15 < |x| then res = (l6Code (decide (x < 0)) 15, flagSAT ||| flagNX)
  else ∃ l, -15 ≤ l ∧ l ≤ 15 ∧ res = (l6Code (decide (x < 0)) l, flagIf (decide (|x| ≠ tval l)) flagNX) ∧
    ∀ m, -15 ≤ m → m ≤ 15 → m ≠ l → abs (tval l - |x|) < abs (tval m - |x|) ∨
      (abs (tval l - |x|) = abs (tval m - |x|) ∧ l % 2 = 0)

/-- One pass over finite terms: the sum in the 64-bit window, rounded once (R60). -/
def WindowRounded (ts : List ℚ) (res : Nat × Flags6) : Prop :=
  if ∀ t ∈ ts, t = 0 then res = (0, 0)
  else ∃ emax : Int, (∀ t ∈ ts, t ≠ 0 → Int.log 2 |t| ≤ emax) ∧ (∃ t ∈ ts, t ≠ 0 ∧ Int.log 2 |t| = emax) ∧
    (let cutAt := fun t => roundAt .rz (emax - 63) t
     let s := (ts.map cutAt).sum
     let cut := decide (∃ t ∈ ts, cutAt t ≠ t)
     if s = 0 then res = (0, flagIf cut flagNX)
     else ∃ out, Rounded fmtF32 .rne false s out ∧ res.1 = out.1 ∧
       (let nx := cut || out.2.getLsbD 4
        res.2 = flagIf nx flagNX ||| flagIf (out.2.getLsbD 2) flagOF |||
          flagIf (decide (nx = true ∧ |unbounded fmtF32 .rne s| < (2 : ℚ) ^ fmtEmin fmtF32)) flagUF))

/-- A pass of a floating type with operands in formats fa and fb (R151). -/
def PassExact (type : BitVec 3) (fa fb : FloatFmt) : Prop := ∀ old x (ab : List (Nat × Nat)) (vals : List (ℚ × ℚ)),
  valueOf fmtF32 old = some x → ab.map (fun p => (valueOf fa p.1, valueOf fb p.2)) = vals.map (fun p => (some p.1, some p.2)) →
    WindowRounded (x :: vals.map fun p => p.1 * p.2) (passElem type old ab)

/-- The signs of the infinite terms of a pass. -/
def infSigns (fa fb : FloatFmt) (old : Nat) (ab : List (Nat × Nat)) : List Bool :=
  (if isInf fmtF32 old then [signOf fmtF32 old] else []) ++
    ab.flatMap fun p => if isInf fa p.1 || isInf fb p.2 then [signOf fa p.1 != signOf fb p.2] else []

/-- A pass with a NaN or an infinite term (R60). -/
def PassSpecial (type : BitVec 3) (fa fb : FloatFmt) : Prop := ∀ old (ab : List (Nat × Nat)),
  let bad := isNan fmtF32 old = true ∨ ∃ p ∈ ab, isNan fa p.1 = true ∨ isNan fb p.2 = true ∨
    (isInf fa p.1 = true ∧ valueOf fb p.2 = some 0) ∨ (valueOf fa p.1 = some 0 ∧ isInf fb p.2 = true)
  (bad → passElem type old ab = (0x7FC00000, flagNV)) ∧
  (¬bad → (∀ p ∈ ab, p.1 < 2 ^ (fmtSignPos fa + 1) ∧ p.2 < 2 ^ (fmtSignPos fb + 1)) →
    (true ∈ infSigns fa fb old ab ∧ false ∈ infSigns fa fb old ab → passElem type old ab = (0x7FC00000, flagNV)) ∧
    (∀ n, n ∈ infSigns fa fb old ab → (!n) ∉ infSigns fa fb old ab → passElem type old ab = (infinity fmtF32 n, 0)))

/-- The product of two l6 codes (R54). -/
def l6Times (a b : Nat) : Option ℚ := match l6Unpack a, l6Unpack b with
  | .nar, _ => none
  | _, .nar => none
  | .zero, _ => some 0
  | _, .zero => some 0
  | .real s l, .real s' l' => some ((if s = s' then 1 else -1) * tval (l + l'))

/-- The passes of the l6 and s8 types (R55, R61). -/
def PassExactL6 : Prop := ∀ old x (ab : List (Nat × Nat)) (vals : List ℚ), valueOf fmtF32 old = some x →
  ab.map (fun p => l6Times p.1 p.2) = vals.map some → WindowRounded [x, vals.sum] (passElem 5 old ab)
/-- An l6 pass with NaR, or over a NaN or an infinity (R55, R60). -/
def PassSpecialL6 : Prop := ∀ old (ab : List (Nat × Nat)),
  (isNan fmtF32 old = true ∨ (∃ p ∈ ab, l6Times p.1 p.2 = none) → passElem 5 old ab = (0x7FC00000, flagNV)) ∧
  (isInf fmtF32 old = true → (∀ p ∈ ab, l6Times p.1 p.2 ≠ none) → passElem 5 old ab = (infinity fmtF32 (signOf fmtF32 old), 0))
def PassExactS8 : Prop := ∀ (old : Word) (ab : List (BitVec 8 × BitVec 8)),
  passElem 6 old.toNat (ab.map fun p => (p.1.toNat, p.2.toNat)) =
    (let r := clampTo 32 (old.toInt + (ab.map fun p => p.1.toInt * p.2.toInt).sum); (r.1.toNat, r.2))

/-- A drained element: the exact product of the tile's value and its scales, rounded into the out type (R156, R158). -/
def DrainExact : Prop := ∀ (word : Nat) (scales : List Nat) (qs : List ℚ), scales.map (valueOf fmtF32) = qs.map some →
  (∀ (out : BitVec 3) x, valueOf fmtF32 word = some x →
    (let v := x * qs.prod
     let neg := scales.foldl (fun acc q => acc != signOf fmtF32 q) (signOf fmtF32 word)
     let res := drainConvert out (drainValue out word scales)
     (out = 0 → RoundedOrZero fmtF32 .rne false v neg res) ∧ (out = 1 → RoundedOrZero fmtBf16 .rne false v neg res) ∧
     (out = 2 → RoundedOrZero fmtF16 .rne false v neg res) ∧ (out = 3 → RoundedOrZero fmtE4m3 .rne true v neg res) ∧
     (out = 4 → RoundedOrZero fmtE5m2 .rne true v neg res) ∧ (out = 7 → NearestL6 v res))) ∧
  (word < 2 ^ 32 →
    (let v := ((BitVec.ofNat 32 word).toInt : ℚ) * qs.prod
     (∃ r, ClampedInt (-2 ^ 31) (2 ^ 31 - 1) .rne v r ∧ drainConvert 5 (drainValue 5 word scales) = ((BitVec.ofInt 32 r.1).toNat, r.2)) ∧
     (∃ r, ClampedInt (-2 ^ 7) (2 ^ 7 - 1) .rne v r ∧ drainConvert 6 (drainValue 6 word scales) = ((BitVec.ofInt 8 r.1).toNat, r.2))))

/-- The ulp of f32 at a positive real (R130). -/
noncomputable def ulpAt (v : ℝ) : ℝ := (2 : ℝ) ^ max (Int.log 2 v - 23) (-149)

/-- The special operands of R129: zeros, infinities, NaN, and what lies below the domain. -/
def FxSpecial : Prop :=
  (∀ a : Word, a = 0 ∨ a = 0x80000000 →
    fxEval 0 a = ((a ||| 0x7F800000).toNat, flagDZ) ∧ fxEval 1 a = ((a ||| 0x7F800000).toNat, flagDZ) ∧ fxEval 2 a = (a.toNat, 0) ∧
    fxEval 3 a = (0x3F800000, 0) ∧ fxEval 4 a = (0xFF800000, flagDZ) ∧ fxEval 5 a = (a.toNat, 0) ∧ fxEval 6 a = (0x3F800000, 0) ∧
    fxEval 7 a = (a.toNat, 0)) ∧
  (fxEval 0 0x7F800000 = (0, 0) ∧ fxEval 1 0x7F800000 = (0, 0) ∧ fxEval 2 0x7F800000 = (0x7F800000, 0) ∧
    fxEval 3 0x7F800000 = (0x7F800000, 0) ∧ fxEval 4 0x7F800000 = (0x7F800000, 0) ∧ fxEval 5 0x7F800000 = (0x7FC00000, flagNV) ∧
    fxEval 6 0x7F800000 = (0x7FC00000, flagNV) ∧ fxEval 7 0x7F800000 = (0x3F800000, 0)) ∧
  (fxEval 0 0xFF800000 = (0x80000000, 0) ∧ fxEval 1 0xFF800000 = (0x7FC00000, flagNV) ∧ fxEval 2 0xFF800000 = (0x7FC00000, flagNV) ∧
    fxEval 3 0xFF800000 = (0, 0) ∧ fxEval 4 0xFF800000 = (0x7FC00000, flagNV) ∧ fxEval 5 0xFF800000 = (0x7FC00000, flagNV) ∧
    fxEval 6 0xFF800000 = (0x7FC00000, flagNV) ∧ fxEval 7 0xFF800000 = (0xBF800000, 0)) ∧
  (∀ (a : Word) x, valueOf fmtF32 a.toNat = some x → x < 0 →
    fxEval 1 a = (0x7FC00000, flagNV) ∧ fxEval 2 a = (0x7FC00000, flagNV) ∧ fxEval 4 a = (0x7FC00000, flagNV)) ∧
  (∀ (a : Word) fn, fn < 8 → isNan fmtF32 a.toNat = true → fxEval fn a = (0x7FC00000, if isSnan fmtF32 a.toNat then flagNV else 0))

/-- R129, R130 over exact values: `rcp` and `sqrt` correctly rounded, `rsqrt` within 1 ulp, and the cases of the others
that R130 makes exact, or bounds by 1. -/
def FxExact : Prop := ∀ (a : Word) (x : ℚ), valueOf fmtF32 a.toNat = some x →
  (x ≠ 0 → Rounded fmtF32 .rne false (1 / x) (fxEval 0 a)) ∧
  (0 < x → ∃ y : ℚ, valueOf fmtF32 (fxEval 2 a).1 = some y ∧ (fxEval 2 a).2 = flagIf (decide (y * y ≠ x)) flagNX ∧
    ∀ w z, valueOf fmtF32 w = some z → |Real.sqrt x - y| ≤ |Real.sqrt x - z|) ∧
  (0 < x → ∃ y : ℚ, valueOf fmtF32 (fxEval 1 a).1 = some y ∧ (fxEval 1 a).2 = flagIf (decide (y * y * x ≠ 1)) flagNX ∧
    |(y : ℝ) - 1 / Real.sqrt x| ≤ ulpAt (1 / Real.sqrt x)) ∧
  (∀ n : Int, -149 ≤ n → n ≤ 127 → (x = n → valueOf fmtF32 (fxEval 3 a).1 = some ((2 : ℚ) ^ n) ∧ (fxEval 3 a).2 = 0) ∧
    (x = (2 : ℚ) ^ n → valueOf fmtF32 (fxEval 4 a).1 = some (n : ℚ) ∧ (fxEval 4 a).2 = 0)) ∧
  (∀ n : Int, x = n → fxEval 5 a = (fmtSign fmtF32 (signOf fmtF32 a.toNat), 0) ∧
    valueOf fmtF32 (fxEval 6 a).1 = some (if n % 2 = 0 then 1 else -1) ∧ (fxEval 6 a).2 = 0) ∧
  (∀ n : Int, x = n + 1 / 2 → fxEval 6 a = (0, 0)) ∧
  (∀ fn, 5 ≤ fn → fn ≤ 7 → ∃ y : ℚ, valueOf fmtF32 (fxEval fn a).1 = some y ∧ |y| ≤ 1)

/-! ### Compares -/

/-- What comb makes of the condition c and the old predicate (R79). -/
def comb (k : BitVec 3) (c old : Bool) : Bool :=
  if k = 0 then c else if k = 1 then old && c else if k = 2 then old || c else if k = 3 then !c
  else if k = 4 then old && !c else old || !c

/-- Format P on both units: pd becomes comb of the condition and its old value, which the plain form does not read. -/
def FormP (mk : OpsP → Instr) (f : (n : Nat) → BitVec n → BitVec n → Bool × Flags6) : Prop :=
  ∀ o, Computes (mk o) o.g [.reg o.a o.x, .sel o.b o.x] (.pred o.pd (decide (o.comb ≠ 0))) false fun v => match v with
    | a :: b :: p =>
      let r := f (width o.x) (BitVec.ofNat _ a) (BitVec.ofNat _ b)
      (if comb o.comb r.1 (decide (p.headD 0 = 1)) then 1 else 0, r.2)
    | _ => (0, 0)

/-- An integer condition, which sets no flag. -/
def cond (f : {n : Nat} → BitVec n → BitVec n → Bool) (n : Nat) (a b : BitVec n) : Bool × Flags6 := (f a b, 0)

/-- Floating compare (R123): ordered and the relation, or unordered; NV for a signalling NaN, or for any NaN. -/
def fcond (unordered : Bool) (rel : Bool → Bool → Bool) (anyNan : Bool) (n : Nat) (a b : BitVec n) : Bool × Flags6 :=
  let x := fUnpack (fmtW n) a.toNat
  let y := fUnpack (fmtW n) b.toNat
  let un := fIsNan x || fIsNan y
  (if un then unordered else rel (fLess false x y) (fLess false y x),
   if (if anyNan then un else fIsSnan x || fIsSnan y) then flagNV else 0)

/-! ### Conversions -/

def FormCvR (mk : OpsCvR → Instr) (signed : Bool) (f : Rnd → Word → Result 32) : Prop :=
  ∀ o, Computes (mk o) o.g [.reg o.a false] (.reg o.d false false) signed (of1 (f (rndOf o.rnd)))
def FormCvS (mk : OpsCvS → Instr) (f : Rnd → Bool → Word → Result 32) : Prop :=
  ∀ o, Computes (mk o) o.g [.reg o.a false] (.reg o.d false false) false (of1 (f (rndOf o.rnd) o.sat))

/-- To a 32-bit integer range, rounded and then clamped (R51). -/
def toInt32 (lo hi : Int) (r : Rnd) (a : Word) : Result 32 :=
  (BitVec.ofInt 32 (cvtToInt lo hi r (fUnpack fmtF32 a.toNat)).1, (cvtToInt lo hi r (fUnpack fmtF32 a.toNat)).2)
/-- The low n bits of a, widened to f32. -/
def widen (n : Nat) (fmt : FloatFmt) (a : Word) : Result 32 := float1 (cvtFloat fmt fmtF32 .rne false) (a.setWidth n)
/-- From f32 to a narrower format, zero-extended. -/
def narrow (fmt : FloatFmt) (r : Rnd) (sat : Bool) (a : Word) : Result 32 := float1 (cvtFloat fmtF32 fmt r sat) a

/-- A transcendental function of one 32-bit value (R129 to R131). -/
def fx (fn : Nat) : List Nat → Nat × Flags6
  | [a] => fxEval fn (BitVec.ofNat 32 a)
  | _ => (0, 0)

/-- FX at once and with a lookahead, on lanes and on the spine. -/
def FormFx (mk : OpsM → Instr) (fn : Nat) : Prop :=
  ∀ o, SpineComputes (mk o) o.g [.reg o.a false] (.reg o.d false false) false (fx fn) ∧
    (o.la = 0 → LanesCompute (mk o) o.g [.reg o.a false] (.reg o.d false false) fun _ _ vals l => fx fn (vals l)) ∧
    (o.la ≠ 0 → LanesComputeLater (mk o) o.g [.reg o.a false] o.d (fx fn))

/-! ### Lane crossing -/

/-- Lanes only, format L with pairs: lane l receives what res takes from the active lanes' first sources, or its fill. -/
def FormX (mk : OpsL → Instr) (src : Nat → Nat → Nat → Option Nat) (zero : Bool) : Prop :=
  ∀ o, LanesCompute (mk o) o.g [.reg o.a o.x, .sel o.b o.x] (.reg o.d o.x false)
    (fun w act vals l =>
      (match src w l ((vals l).getD 1 0 % 64) with
       | some j => if j ∈ act then (vals j).getD 0 0 else if zero then 0 else (vals l).getD 0 0
       | none => if zero then 0 else (vals l).getD 0 0, 0)) ∧
    WrongOnSpine (mk o)

end Sys2Proof.Claims

open Sys2Proof Sys2Proof.Machine Sys2Proof.Claims

/-! ### Register instructions -/

/-- R111: integer add, subtract, minimum and maximum, wrapping or saturating, of 32 or 64 bits, on both units. -/
def Obligations.IntegerAddSubMinMax : Prop :=
  FormL .add true (fun _ a b => plain (a + b)) ∧
  FormL .sub true (fun _ a b => plain (a - b)) ∧
  FormL .addsS32 true (fun n a b => clampTo n (a.toInt + b.toInt)) ∧
  FormL .subsS32 true (fun n a b => clampTo n (a.toInt - b.toInt)) ∧
  FormL .minS32 true (fun _ a b => plain (if a.toInt ≤ b.toInt then a else b)) ∧
  FormL .maxS32 true (fun _ a b => plain (if a.toInt ≤ b.toInt then b else a)) ∧
  FormL .minN32 false (fun _ a b => plain (if a ≤ b then a else b)) ∧
  FormL .maxN32 false (fun _ a b => plain (if a ≤ b then b else a))

/-- R112, R113: products, multiply-add, dot products with one clamp of the exact sum, absolute value. -/
def Obligations.MultiplyAndDot : Prop :=
  FormL .mulLo true (fun _ a b => plain (a * b)) ∧
  FormL1 .mulhiS32 true (fun a b => plain ((a.signExtend 64 * b.signExtend 64).extractLsb' 32 32)) ∧
  FormL1 .mulhiN32 false (fun a b => plain ((a.setWidth 64 * b.setWidth 64).extractLsb' 32 32)) ∧
  FormL3 .madLo true (fun _ a b d => plain (d + a * b)) ∧
  FormL13 .dot2S16 true (fun a b d => clampTo 32 (d.toInt + piece 16 0 a * piece 16 0 b + piece 16 16 a * piece 16 16 b)) ∧
  FormL13 .dot4S8 true (fun a b d => clampTo 32 (d.toInt + piece 8 0 a * piece 8 0 b + piece 8 8 a * piece 8 8 b +
    piece 8 16 a * piece 8 16 b + piece 8 24 a * piece 8 24 b)) ∧
  FormA1 .absS32 true (fun a => clampTo 32 |a.toInt|)

/-- R114: logic, shifts by the low bits of b, rotate. -/
def Obligations.LogicAndShifts : Prop :=
  FormL .and false (fun _ a b => plain (a &&& b)) ∧
  FormL .or false (fun _ a b => plain (a ||| b)) ∧
  FormL .xor false (fun _ a b => plain (a ^^^ b)) ∧
  FormL .andn false (fun _ a b => plain (a &&& ~~~b)) ∧
  FormL .shl false (fun _ a b => plain (a <<< count b)) ∧
  FormL .shrN32 false (fun _ a b => plain (a >>> count b)) ∧
  FormL .shrS32 true (fun _ a b => plain (a.sshiftRight (count b))) ∧
  FormL .rotl false (fun _ a b => plain (a.rotateLeft (count b)))

/-- R115 to R117: bit counts and reversal, rounding shift, saturation, packing, sign extension, byte permutation. -/
def Obligations.BitOperationsAndPacking : Prop :=
  FormA .popc (fun n a => plain (BitVec.ofNat n (ones a))) ∧
  FormA .clz (fun n a => plain (BitVec.ofNat n (leadingZeros a))) ∧
  FormA .brev (fun _ a => plain a.reverse) ∧
  FormL1 .shrrS32 true (fun a b => plain (roundShift 32 a (b.toNat % 32))) ∧
  FormA1 .satS16 true (fun a => ((clampTo 16 a.toInt).1.signExtend 32, (clampTo 16 a.toInt).2)) ∧
  FormL1 .packS16 false (fun a b => ((clampTo 16 b.toInt).1 ++ (clampTo 16 a.toInt).1, (clampTo 16 a.toInt).2 ||| (clampTo 16 b.toInt).2)) ∧
  FormL1 .sxt true (fun a b => plain ((a <<< (31 - b.toNat % 32)).sshiftRight (31 - b.toNat % 32))) ∧
  FormL13 .perm false (fun a b d => plain (permOut a b d 3 ++ permOut a b d 2 ++ permOut a b d 1 ++ permOut a b d 0))

/-- R82, R118 to R120: add immediate, constants, immediate shifts below the operand width, immediate logic. -/
def Obligations.Immediates : Prop :=
  (∀ o, Computes (.addi o) o.g [.reg o.a o.x] (.reg o.d o.x false) true
    (of1 (n := width o.x) fun a => plain (a + o.imm.signExtend (width o.x)))) ∧
  (∀ o, Computes (.movl o) o.g [.imm (o.imm.signExtend 32).toNat] (.reg o.d false false) true (of1 (n := 32) (r := 32) fun i => plain i)) ∧
  (∀ o, Computes (.movh o) o.g [.imm o.imm.toNat] (.reg o.d false true) false
    (of2 fun (i : BitVec 16) (d : Word) => plain (i ++ d.extractLsb' 0 16))) ∧
  FormI2 .shli false (fun n i => i.toNat < n) (fun _ a i => plain (a <<< i.toNat)) ∧
  FormI2 .shriN false (fun n i => i.toNat < n) (fun _ a i => plain (a >>> i.toNat)) ∧
  FormI2 .shriS true (fun n i => i.toNat < n) (fun _ a i => plain (a.sshiftRight i.toNat)) ∧
  FormI2 .shrriS true (fun n i => i.toNat < n) (fun n a i => plain (roundShift n a i.toNat)) ∧
  FormI2 .rotli false (fun n i => i.toNat < n) (fun _ a i => plain (a.rotateLeft i.toNat)) ∧
  FormI2 .andi false (fun _ _ => True) (fun n a i => plain (a &&& i.signExtend n)) ∧
  FormI2 .ori false (fun _ _ => True) (fun n a i => plain (a ||| i.signExtend n)) ∧
  FormI2 .xori false (fun _ _ => True) (fun n a i => plain (a ^^^ i.signExtend n))

/-- R70, R137: the 16-bit forms have the effect of the 32-bit instructions, d being also the first source. -/
def Obligations.HalfwordForms : Prop :=
  (∀ o, Computes (.movHalf o) 0 [.reg (o.a.setWidth 6) false] (.reg o.d false false) false (of1 (n := 32) (r := 32) fun a => plain a)) ∧
  Form16 .addHalf true (fun d a => plain (d + a)) ∧
  Form16 .subHalf true (fun d a => plain (d - a)) ∧
  Form16 .andHalf false (fun d a => plain (d &&& a)) ∧
  Form16 .orHalf false (fun d a => plain (d ||| a)) ∧
  Form16 .xorHalf false (fun d a => plain (d ^^^ a)) ∧
  Form16 .shlHalf false (fun d a => plain (d <<< count a)) ∧
  Form16 .shrN32Half false (fun d a => plain (d >>> count a)) ∧
  Form16 .addF32Half false (float2 (fAdd fmtF32)) ∧
  Form16 .mulF32Half false (float2 (fMul fmtF32)) ∧
  Form16 .minF32Half false (float2 (fMinMax fmtF32 false)) ∧
  Form16 .maxF32Half false (float2 (fMinMax fmtF32 true)) ∧
  Form16 .subF32Half false (float2 (fSub fmtF32)) ∧
  Form16 .minS32Half true (fun d a => plain (if d.toInt ≤ a.toInt then d else a)) ∧
  Form16 .maxS32Half true (fun d a => plain (if d.toInt ≤ a.toInt then a else d)) ∧
  (∀ o, LanesCompute (.movgHalf o) 0 [.sel (BitVec.ofNat 7 (64 + o.a.toNat)) false] (.reg o.d false false)
      (fun _ _ vals l => of1 (n := 32) (r := 32) (fun a => plain a) (vals l)) ∧ WrongOnSpine (.movgHalf o))

/-- R79, R121, R122: the integer conditions, combined with the old predicate; no flag. -/
def Obligations.IntegerCompares : Prop :=
  FormP .icmpEq (cond fun a b => decide (a = b)) ∧
  FormP .icmpNe (cond fun a b => decide (a ≠ b)) ∧
  FormP .icmpLtS (cond fun a b => a.slt b) ∧
  FormP .icmpLeS (cond fun a b => a.sle b) ∧
  FormP .icmpGtS (cond fun a b => b.slt a) ∧
  FormP .icmpGeS (cond fun a b => b.sle a) ∧
  FormP .icmpLtN (cond fun a b => a.ult b) ∧
  FormP .icmpGeN (cond fun a b => b.ule a)

/-- R79, R121, R123: the floating conditions and their flags, combined with the old predicate; the order of finite
values is that of the numbers they stand for. -/
def Obligations.FloatCompares : Prop :=
  OrderExact fmtF32 ∧ OrderExact fmtF64 ∧
  FormP .fcmpEq (fcond false (fun lt gt => !lt && !gt) false) ∧
  FormP .fcmpNe (fcond true (fun lt gt => lt || gt) false) ∧
  FormP .fcmpLt (fcond false (fun lt _ => lt) true) ∧
  FormP .fcmpLe (fcond false (fun lt gt => lt || !gt) true) ∧
  FormP .fcmpGt (fcond false (fun _ gt => gt) true) ∧
  FormP .fcmpGe (fcond false (fun lt gt => gt || !lt) true) ∧
  FormP .fcmpNan (fcond true (fun _ _ => false) false) ∧
  FormP .fcmpNum (fcond false (fun _ _ => true) false)

/-- R124, R125: select copies bits unchanged, and predicate logic writes pd. -/
def Obligations.SelectAndPredicates : Prop :=
  (∀ o, Computes (.sel o) o.g [.reg o.a o.x, .sel o.b o.x, .pred o.ps] (.reg o.d o.x false) false
    (of3 (n := width o.x) (m := width o.x) (k := 1) fun a b p => plain (if p = 1 then a else b))) ∧
  (∀ o, Computes (.pand o) o.g [.pred o.pa, .pred o.pb] (.pred o.pd false) false (ofPred fun a b => a && b)) ∧
  (∀ o, Computes (.por o) o.g [.pred o.pa, .pred o.pb] (.pred o.pd false) false (ofPred fun a b => a || b)) ∧
  (∀ o, Computes (.pxor o) o.g [.pred o.pa, .pred o.pb] (.pred o.pd false) false (ofPred fun a b => a != b)) ∧
  (∀ o, Computes (.pandn o) o.g [.pred o.pa, .pred o.pb] (.pred o.pd false) false (ofPred fun a b => a && !b)) ∧
  (∀ o, Computes (.pnot o) o.g [.pred o.pa] (.pred o.pd false) false (of1 (n := 1) fun a => plain (~~~a))) ∧
  (∀ o, Computes (.pmov o) o.g [.pred o.pa] (.pred o.pd false) false (of1 (n := 1) fun a => plain a))

/-- R42 to R48, R58, R126: floating arithmetic in f32, or f64 with x = 1; sums, differences, products and fused products
of finite values are the exact ones, rounded once to the nearest with the flags of R47 and R48; and what NaN and infinite
operands give.
Of the model's own readings it rests on log entry 94. -/
def Obligations.FloatArithmetic : Prop :=
  (∀ f ∈ [fmtF32, fmtF64], SumExact f ∧ DifferenceExact f ∧ ProductExact f ∧ FusedExact f ∧ MinMaxExact f ∧
    SpecialExact f ∧ FusedSpecial f ∧ MinMaxSpecial f) ∧
  fmtF32.nanCode = 0x7FC00000 ∧ fmtF64.nanCode = 0x7FF8000000000000 ∧
  FormL .addF32 false (fun n => float2 (fAdd (fmtW n))) ∧
  FormL .subF32 false (fun n => float2 (fSub (fmtW n))) ∧
  FormL .mulF32 false (fun n => float2 (fMul (fmtW n))) ∧
  FormL3 .fmaF32 false (fun n => float3 (fFma (fmtW n) false)) ∧
  FormL3 .fnmaF32 false (fun n => float3 (fFma (fmtW n) true)) ∧
  FormL .minF32 false (fun n => float2 (fMinMax (fmtW n) false)) ∧
  FormL .maxF32 false (fun n => float2 (fMinMax (fmtW n) true)) ∧
  FormL .copysignF32 false (fun n a b => plain (BitVec.cons b.msb (a.setWidth (n - 1)) |>.setWidth n))

/-- R128: packed halves, each in its format, flags of both ORed; lanes only. Each half of finite values is the exact
result rounded once (R46 to R48), and NaN and infinite halves give what R43 to R45 and R58 say.
Of the model's own readings it rests on log entry 94. -/
def Obligations.PackedHalves : Prop :=
  (∀ f ∈ [fmtF16, fmtBf16], SumExact f ∧ ProductExact f ∧ FusedExact f ∧ SpecialExact f ∧ FusedSpecial f) ∧
  MinMaxExact fmtBf16 ∧ MinMaxSpecial fmtBf16 ∧ fmtF16.nanCode = 0x7E00 ∧ fmtBf16.nanCode = 0x7FC0 ∧
  LaneL1 .haddF16x2 (halves (fAdd fmtF16)) ∧
  LaneL1 .hmulF16x2 (halves (fMul fmtF16)) ∧
  LaneL13 .hfmaF16x2 (halvesFma fmtF16) ∧
  LaneL1 .haddBf16x2 (halves (fAdd fmtBf16)) ∧
  LaneL1 .hmulBf16x2 (halves (fMul fmtBf16)) ∧
  LaneL13 .hfmaBf16x2 (halvesFma fmtBf16) ∧
  LaneL1 .hminBf16x2 (halves (fMinMax fmtBf16 false)) ∧
  LaneL1 .hmaxBf16x2 (halves (fMinMax fmtBf16 true))

/-- R88, R129, R131: the transcendental functions give the value of their operand, on the spine and with la = 0 at once,
else in flight; `rcp` and `sqrt` are correctly rounded, `rsqrt` lies within 1 ulp, the exact cases of R130 are exact, `sinpi`,
`cospi` and `tanh` stay within 1, and the special operands give what the table of R129 says. The 2-ulp bound of the five
others is the model's list of candidates (log entry 76), and is not stated.
Of the model's own readings it rests on log entries 4, 37, 76 and 94. -/
def Obligations.TranscendentalFunctions : Prop :=
  FxExact ∧ FxSpecial ∧
  FormFx .rcpF32 0 ∧ FormFx .rsqrtF32 1 ∧ FormFx .sqrtF32 2 ∧ FormFx .exp2F32 3 ∧ FormFx .log2F32 4 ∧ FormFx .sinpiF32 5 ∧
  FormFx .cospiF32 6 ∧ FormFx .tanhF32 7

/-- R43, R44, R49 to R57, R132: conversions between f32 and integers, narrow formats, L6 and f64; of finite values each is
the exact value rounded under its mode, and saturated where it saturates; NaN and infinity convert as R50, R51 and R57 say.
Of the model's own readings it rests on log entry 94. -/
def Obligations.Conversions : Prop :=
  (∀ f ∈ [fmtF64, fmtF16, fmtBf16, fmtE4m3, fmtE5m2], ConvertExact f fmtF32 ∧ ConvertExact fmtF32 f ∧
    ConvertSpecial f fmtF32 ∧ ConvertSpecial fmtF32 f) ∧
  fmtE4m3.nanCode = 0x7F ∧ fmtE5m2.nanCode = 0x7E ∧
  (∀ lo hi r a, (isNan fmtF32 a = true → cvtToInt lo hi r (fUnpack fmtF32 a) = (0, flagNV)) ∧
    (isInf fmtF32 a = true → cvtToInt lo hi r (fUnpack fmtF32 a) = (if signOf fmtF32 a then lo else hi, flagSAT ||| flagNX))) ∧
  (∀ a, (isNan fmtF32 a = true → cvtValToL6 (fUnpack fmtF32 a) = (0x30, if isSnan fmtF32 a then flagNV else 0)) ∧
    (isInf fmtF32 a = true → cvtValToL6 (fUnpack fmtF32 a) = (l6Code (signOf fmtF32 a) 15, flagSAT ||| flagNX))) ∧
  (∀ w, l6Unpack w = .nar → cvtL6ToF32 w = (0x7FC00000, 0)) ∧
  (∀ r (v : Int), RoundedOrZero fmtF32 r false v false (cvtFromInt r v)) ∧
  (∀ lo hi r a x, lo ≤ 0 → 0 ≤ hi → valueOf fmtF32 a = some x → ClampedInt lo hi r x (cvtToInt lo hi r (fUnpack fmtF32 a))) ∧
  (∀ w s l, l6Unpack w = .real s l → (cvtL6ToF32 w).2 = 0 ∧
    valueOf fmtF32 (cvtL6ToF32 w).1 = some ((if s then -1 else 1) * tval l)) ∧
  (∀ a x, valueOf fmtF32 a = some x → NearestL6 x (cvtValToL6 (fUnpack fmtF32 a))) ∧
  FormCvR .cvtF32S32 false (fun r a => (BitVec.ofNat 32 (cvtFromInt r a.toInt).1, (cvtFromInt r a.toInt).2)) ∧
  FormCvR .cvtS32F32 true (toInt32 (-2 ^ 31) (2 ^ 31 - 1)) ∧
  FormCvR .cvtF32N32 false (fun r a => (BitVec.ofNat 32 (cvtFromInt r a.toNat).1, (cvtFromInt r a.toNat).2)) ∧
  FormCvR .cvtN32F32 false (toInt32 0 (2 ^ 32 - 1)) ∧
  FormA1 .cvtF32F16 false (widen 16 fmtF16) ∧
  FormCvS .cvtF16F32 (narrow fmtF16) ∧
  FormA1 .cvtF32Bf16 false (widen 16 fmtBf16) ∧
  FormCvS .cvtBf16F32 (narrow fmtBf16) ∧
  FormA1 .cvtF32E4m3 false (widen 8 fmtE4m3) ∧
  FormCvS .cvtE4m3F32 (narrow fmtE4m3) ∧
  FormA1 .cvtF32E5m2 false (widen 8 fmtE5m2) ∧
  FormCvS .cvtE5m2F32 (narrow fmtE5m2) ∧
  FormA1 .cvtF32L6 false (fun a => float1 cvtL6ToF32 (a.setWidth 6)) ∧
  FormA1 .cvtL6F32 false (float1 fun a => cvtValToL6 (fUnpack fmtF32 a)) ∧
  (∀ o, Computes (.cvtF32F64 o) o.g [.reg o.a true] (.reg o.d false false) false
    (of1 (n := 64) (r := 32) (float1 (cvtFloat fmtF64 fmtF32 (rndOf o.rnd) o.sat)))) ∧
  (∀ o, Computes (.cvtF64F32 o) o.g [.reg o.a false] (.reg o.d true false) false
    (of1 (n := 32) (r := 64) (float1 (cvtFloat fmtF32 fmtF64 .rne false))))

/-- R138 to R140: each active lane reads before any writes; a source lane that is inactive or out of range gives the
fill, zero for `.z` and the lane's own value otherwise. -/
def Obligations.LaneCrossing : Prop :=
  FormX .shflIdx (fun w _ n => some (n % w)) false ∧
  FormX .shflXor (fun w l n => some ((l ^^^ n) % w)) false ∧
  FormX .sldUpZ (fun _ l n => if n ≤ l then some (l - n) else none) true ∧
  FormX .sldUpK (fun _ l n => if n ≤ l then some (l - n) else none) false ∧
  FormX .sldDnZ (fun w l n => if l + n < w then some (l + n) else none) true ∧
  FormX .sldDnK (fun w l n => if l + n < w then some (l + n) else none) false ∧
  FormX .lrot (fun w l n => some ((l + n) % w)) false

namespace Sys2Proof.Claims

/-! ### Shapes of the instructions that are not register arithmetic -/

/-- On lanes, with nothing of the group in flight and ready, the instruction has exactly the effect e; what it changes
beside the group, which goes on, is what the given state differs in. -/
def LanesGoFrom (i : Instr) (ready : State → Issue → Group → Prop) (pre : State → Issue → Group → State)
    (e : State → Issue → Group → Effect) : Prop :=
  ∀ s c g, OnLanes s c g → g.flights = [] → ready s c g →
    ∃ t, exec i s = .next t ∧ OnlyGroups (pre s c g) t ∧ LaneRegs s t c (e s c g)

/-- The same with nothing else changed. -/
def LanesGo (i : Instr) (ready : State → Issue → Group → Prop) (e : State → Issue → Group → Effect) : Prop :=
  LanesGoFrom i ready (fun s _ _ => s) e

/-- On the spine the instruction writes the x registers given and goes on at pc; no sprue register changes. -/
def SpineGo (i : Instr) (ready : State → Issue → Kc → Prop) (x : Issue → Kc → Nat → Option DWord) (pc : Issue → Kc → VAddr) : Prop :=
  ∀ s c k, OnSpine s c k → ready s c k →
    ∃ t, exec i s = .next t ∧ OnlyKcs s t ∧ SprueBecomes s (updSpine t k.id fun _ => k.spine) k.id (fun _ q => q) ∧
      SpineRegs s t k.id (x c k) (fun _ => none) 0 (pc c k)

/-- On the spine nothing happens but the advance of pc. -/
def SpineNop (i : Instr) : Prop := SpineGo i (fun _ _ _ => True) (fun _ _ _ => none) (fun c _ => nextPc c)

/-- On lanes the instruction takes WRONG_UNIT at its issue (R94). -/
def WrongOnLanes (i : Instr) : Prop :=
  ∀ s c g, OnLanes s c g → g.flights = [] → ∃ t, exec i s = .next t ∧
    TrapTaken s t c (trapOf c { cause := 0x02, lanes := c.mask })

/-- One register, or a pair, of each active lane. -/
def oneV (d : Nat) (act : List Nat) (v : Nat → Word) : Nat → Nat → Option Word := fun lane r =>
  if lane ∈ act ∧ r = d then some (v lane) else none
def pairV (d : Nat) (act : List Nat) (v : Nat → DWord) : Nat → Nat → Option Word := fun lane r =>
  if lane ∈ act then (if r = d then some ((v lane).extractLsb' 0 32) else if r = d + 1 then some ((v lane).extractLsb' 32 32) else none)
  else none

/-- The pair of v registers of a lane, the low word in the even one. -/
def pairAt (g : Group) (lane r : Nat) : DWord := vGet g.regs lane (r + 1) ++ vGet g.regs lane r

/-- With no lookahead the registers are written at once; with one, an instruction in flight holds the writes (R88). -/
def LandsOrFlies (s t : State) (c : Issue) (la : Nat) (w : Nat → Nat → Option Word) : Prop :=
  (la = 0 → LaneRegs s t c { Effect.none c with v := w }) ∧
  (la ≠ 0 → LaneRegs s t c (Effect.none c) ∧ ∃ f ∈ (memberGroup t c.who).flights, f.issue = c ∧ f.ask = none ∧
    f.gwrites = [] ∧ f.flags = [] ∧ ∀ l r v, ⟨l, r, v⟩ ∈ f.writes ↔ w l r = some v)

/-! ### Group reductions (R62, R141) -/

/-- The binary tree of R62 over the leaves: an inactive lane passes its partner on. -/
def tree {α : Type} (f : α → α → α) (leaf : Nat → Option α) : Nat → Nat → Option α
  | 0, i => leaf i
  | k + 1, i => match tree f leaf k (2 * i), tree f leaf k (2 * i + 1) with
    | some a, some b => some (f a b)
    | some a, none => some a
    | none, b => b

/-- A reduction of the active lanes' values: the identity when no lane is active. -/
def reduced (f : Word → Word → Result 32) (ident : Word) (w : Nat) (act : List Nat) (v : Nat → Word) : Result 32 :=
  (tree (fun (a b : Result 32) => ((f a.1 b.1).1, a.2 ||| b.2 ||| (f a.1 b.1).2))
    (fun i => if i ∈ act then some (v i, (0 : Flags6)) else none) (Nat.log2 w) 0).getD (ident, 0)

/-- The lanes' bits of BALLOT, and the count of VCOUNT. -/
def ballotOf (act : List Nat) (v : Nat → Word) : DWord := BitVec.ofFnLE fun i : Fin 64 => decide (i.val ∈ act ∧ v i.val ≠ 0)
def countOf (act : List Nat) (v : Nat → Word) : Word := BitVec.ofNat 32 (act.countP fun l => decide (v l ≠ 0))

/-- A group stops with a trap and nothing else changes: its registers keep their values and its lanes stand where they stood,
the entry that issued unblocked. -/
def LanesStop (s t : State) (c : Issue) (tr : Trap) : Prop :=
  TrapTaken s t c tr ∧ { t with groups := s.groups, frames := s.frames, cur := s.cur, fresh := s.fresh } = s ∧
    (memberGroup t c.who).regs = { (memberGroup s c.who).regs with
      frontier := (memberGroup s c.who).regs.frontier.map fun e => if e.mask = c.mask then { e with wait := none } else e } ∧
    ∀ kc core idx, Member.group kc core idx ≠ c.who → groupOf t kc core idx = groupOf s kc core idx

/-- A spine stops with a trap and nothing else changes. -/
def SpineStop (s t : State) (c : Issue) (k : Kc) (tr : Trap) : Prop :=
  TrapTaken s t c tr ∧ { t with kcs := s.kcs, frames := s.frames, cur := s.cur, fresh := s.fresh } = s ∧
    kcOf t k.id = { k with spine := { k.spine with trap := some tr, wait := none, asked := none } } ∧
    ∀ id, id ≠ k.id → kcOf t id = kcOf s id

/-- The combining ops, row by row of R24. -/
def combineBy (op : BitVec 3) (old c : DWord) : DWord :=
  let low := fun f : Nat → Nat → Nat × Flags6 =>
    (BitVec.ofNat 64 (f (old.extractLsb' 0 32).toNat (c.extractLsb' 0 32).toNat).1 : DWord)
  if op = 0 then c
  else if op = 1 then old + c
  else if op = 2 then BitVec.ofNat 64 (fAdd fmtF64 old.toNat c.toNat).1
  else if op = 3 then low (fAdd fmtF32)
  else if op = 4 then (if old.toInt ≤ c.toInt then old else c)
  else if op = 5 then (if old.toInt ≤ c.toInt then c else old)
  else if op = 6 then low (fMinMax fmtF32 false)
  else low (fMinMax fmtF32 true)

/-- A member waits and nothing else changes: the group's entry that issued, or the spine, is blocked (R172). -/
def LanesWait (s t : State) (c : Issue) (w : Wait) : Prop :=
  OnlyGroups s t ∧
    (memberGroup t c.who).regs = { (memberGroup s c.who).regs with
      frontier := (memberGroup s c.who).regs.frontier.map fun e => if e.mask = c.mask then { e with wait := some w } else e } ∧
    ∀ kc core idx, Member.group kc core idx ≠ c.who → groupOf t kc core idx = groupOf s kc core idx
def SpineWait (s t : State) (k : Kc) (w : Wait) : Prop :=
  OnlyKcs s t ∧ kcOf t k.id = { k with spine := { k.spine with wait := some w } } ∧ ∀ id, id ≠ k.id → kcOf t id = kcOf s id

/-- What a sprue register becomes with one contribution (R24, R25). -/
def contributed (r : SprueReg) (w : BitVec 12) (v : DWord) : SprueReg :=
  { r with value := combineBy r.op r.value v, st := if w.toNat ≤ 1 then .full r.rcnt else .filling (w - 1) }

/-- An accumulating write of a group to sprue register k that takes no contribution (R25): SPRUE_PROTOCOL while the register is
EMPTY, and the entry waits while it is FULL. -/
def AccumulatorRows (i : Instr) (s : State) (c : Issue) (g : Group) (k : Nat) : Prop :=
  k < (kcOf s g.kc).cfgSprue →
    ((sprueGet (kcOf s g.kc) k).st = .empty →
      ∃ t, exec i s = .next t ∧ LanesStop s t c (trapOf c { cause := 0x12, lanes := c.mask })) ∧
    (∀ n, (sprueGet (kcOf s g.kc) k).st = .full n → ∃ t, exec i s = .next t ∧ LanesWait s t c (.sprueFilling (BitVec.ofNat 5 k)))

/-- A reduction of one word: to a g register, or as one contribution to a sprue register; flags to the active lanes. -/
def FormRed (mk : OpsA1 → Instr) (signed : Bool) (f : Nat → List Nat → (Nat → Word) → Result 32) : Prop :=
  (∀ o, WrongOnSpine (mk o)) ∧
  ∀ o s c g, OnLanes s c g → g.flights = [] → g.width ∈ [8, 16, 32, 64] → vOk g.budget false o.a.toNat = true →
    poisonedLanes g (activeLanes g c o.g) [o.a.toNat] = [] →
    (let act := activeLanes g c o.g
     let r := f g.width act fun l => vGet g.regs l o.a.toNat
     let fl : Effect := { Effect.none c with flags := fun l => if l ∈ act then r.2 else 0 }
     (o.d.toNat < 32 → ∃ t, exec (mk o) s = .next t ∧ OnlyGroups s t ∧
       LaneRegs s t c { fl with g := fun k => if k = o.d.toNat then some r.1 else none }) ∧
     (∀ w, 32 ≤ o.d.toNat → o.d.toNat - 32 < (kcOf s g.kc).cfgSprue → (∃ k, s.kcs.find? (fun x => x.id = g.kc) = some k) →
       (sprueGet (kcOf s g.kc) (o.d.toNat - 32)).st = .filling w →
       ∃ t, exec (mk o) s = .next t ∧ OnlyMembers s t ∧ LaneRegs s t c fl ∧
         SprueBecomes s t g.kc fun k q => if k + 32 = o.d.toNat then
           contributed q w (if signed then r.1.signExtend 64 else r.1.setWidth 64) else q) ∧
     (32 ≤ o.d.toNat → AccumulatorRows (mk o) s c g (o.d.toNat - 32)))

/-! ### Sprue registers -/

/-- The member's kernel cluster is in the state and the sprue register in the mould's count. -/
def SprueHere (s : State) (kc : Nat) (k : BitVec 5) : Prop :=
  k.toNat < (kcOf s kc).cfgSprue ∧ ∃ q, s.kcs.find? (fun x => x.id = kc) = some q

/-- Reading a sprue register that is FULL and not poisoned, consuming (a read that no access under way has reserved) or
not; the read acquires (R29). -/
def SprueRead (mk : OpsSpr → Instr) (full : Kc → Nat → Bool) (after : SprueReg → SprueReg) : Prop :=
  ∀ o s c,
    (∀ g, OnLanes s c g → g.flights = [] → SprueHere s g.kc o.k → vOk g.budget true o.reg.toNat = true →
      full (kcOf s g.kc) o.k.toNat = true → (sprueGet (kcOf s g.kc) o.k.toNat).poison = false →
      ∃ t, exec (mk o) s = .next t ∧ OnlyMembers (acquireSwaps s c.who) t ∧
        SprueBecomes s t g.kc (fun k q => if k = o.k.toNat then after q else q) ∧
        LandsOrFlies s t c o.la.toNat (pairV o.reg.toNat (activeLanes g c o.g) fun _ => (sprueGet (kcOf s g.kc) o.k.toNat).value)) ∧
    (∀ k, OnSpine s c k → SprueHere s k.id o.k → o.reg.toNat < 32 → spinePred k.spine o.g = true →
      full k o.k.toNat = true → (sprueGet k o.k.toNat).poison = false →
      ∃ t, exec (mk o) s = .next t ∧ OnlyKcs s t ∧
        SprueBecomes s (updSpine t k.id fun _ => k.spine) k.id (fun j q => if j = o.k.toNat then after q else q) ∧
        SpineRegs s t k.id (fun r => if r = o.reg.toNat then some (sprueGet k o.k.toNat).value else none) (fun _ => none) 0 (nextPc c))

/-- Writing a sprue register that accepts the write: by the pair of the lowest active lane, or by x. -/
def SprueWritten (mk : OpsSpr → Instr) (ok : SprueReg → Prop) (after : SprueReg → Option DWord → SprueReg) : Prop :=
  ∀ o s c,
    (∀ g, OnLanes s c g → g.flights = [] → SprueHere s g.kc o.k → vOk g.budget true o.reg.toNat = true →
      poisonedLanes g (activeLanes g c o.g) [o.reg.toNat, o.reg.toNat + 1] = [] → ok (sprueGet (kcOf s g.kc) o.k.toNat) →
      ∃ t, exec (mk o) s = .next t ∧ OnlyMembers s t ∧ LaneRegs s t c (Effect.none c) ∧
        SprueBecomes s t g.kc fun k q => if k = o.k.toNat then
          after q ((activeLanes g c o.g).head?.map fun l => pairAt g l o.reg.toNat) else q) ∧
    (∀ k, OnSpine s c k → SprueHere s k.id o.k → o.reg.toNat < 32 → spinePred k.spine o.g = true →
      k.spine.poison.contains o.reg.toNat = false → ok (sprueGet k o.k.toNat) →
      ∃ t, exec (mk o) s = .next t ∧ OnlyKcs s t ∧
        SprueBecomes s (updSpine t k.id fun _ => k.spine) k.id (fun j q => if j = o.k.toNat then
          after q (some (xGet k.spine o.reg.toNat)) else q) ∧
        SpineRegs s t k.id (fun _ => none) (fun _ => none) 0 (nextPc c))

/-- A sprue instruction that does not go on while its register is so (R25): on either unit the outcome is a wait of kind w,
or SPRUE_PROTOCOL with the register unchanged. A write reads its register of data. -/
def SprueTurnedAway (mk : OpsSpr → Instr) (write : Bool) (is : SprueReg → Prop) (w : Option (BitVec 5 → Wait)) : Prop :=
  ∀ o s c,
    (∀ g, OnLanes s c g → g.flights = [] → SprueHere s g.kc o.k → vOk g.budget true o.reg.toNat = true →
      (write = true → poisonedLanes g (activeLanes g c o.g) [o.reg.toNat, o.reg.toNat + 1] = []) →
      is (sprueGet (kcOf s g.kc) o.k.toNat) → ∃ t, exec (mk o) s = .next t ∧ (match w with
        | some w => LanesWait s t c (w o.k)
        | none => LanesStop s t c (trapOf c { cause := 0x12, lanes := c.mask }))) ∧
    (∀ k, OnSpine s c k → SprueHere s k.id o.k → o.reg.toNat < 32 → spinePred k.spine o.g = true →
      (write = true → k.spine.poison.contains o.reg.toNat = false) →
      is (sprueGet k o.k.toNat) → ∃ t, exec (mk o) s = .next t ∧ (match w with
        | some w => SpineWait s t k (w o.k)
        | none => SpineStop s t c k (trapOf c { cause := 0x12, lanes := c.mask })))

/-- A spine instruction whose destination is a sprue register that is not EMPTY (R23, R25): it waits while the register is
FULL, and raises SPRUE_PROTOCOL while it is FILLING. -/
def SpineDstRows (i : Instr) (gd : PredNo) (srcs : List Src) (d : RegField) (wide : Bool) : Prop :=
  ∀ s c k, OnSpine s c k → spinePred k.spine gd = true → 32 ≤ d.toNat → d.toNat - 32 < k.cfgSprue →
    SpineReady k srcs (.reg 0 wide false) →
    (∀ n, (sprueGet k (d.toNat - 32)).st = .full n →
      ∃ t, exec i s = .next t ∧ SpineWait s t k (.sprueEmpty (BitVec.ofNat 5 (d.toNat - 32)))) ∧
    (∀ n, (sprueGet k (d.toNat - 32)).st = .filling n →
      ∃ t, exec i s = .next t ∧ SpineStop s t c k (trapOf c { cause := 0x12, lanes := c.mask }))

/-- The register that the control word and preset of `sarm` make (R25, R265). -/
def armed (word preset : DWord) : SprueReg where
  value := preset
  st := if word.extractLsb' 12 12 = 0 then .full (word.extractLsb' 0 12) else .filling (word.extractLsb' 12 12)
  rcnt := word.extractLsb' 0 12
  wcnt := word.extractLsb' 12 12
  op := word.extractLsb' 24 3
  preset := preset
  poison := false

/-! ### Control registers (R32) -/

/-- TERR as it reads: 0xFFFF_FFFF without a source, else the bound with the correction that is outstanding (R383, R384). -/
def terrRead (t : State) (d : DieNo) : Word :=
  if (dieOf t d).terr = 0xFFFFFFFF ∨ (t.host.timesrc = 0 ∧ t.host.pkgok = false) then 0xFFFFFFFF
  else BitVec.ofNat 32 (min ((dieOf t d).terr.toNat + (dieOf t d).backlog) 0xFFFFFFFE)

/-- EBUD: what is left of the grid's budget; a grid without one reads the largest value. -/
def ebudRead (t : State) (gid : Word) : Word :=
  match gridOf? t gid with
  | some G => if G.ebudget = 0 then 0xFFFFFFFF else BitVec.ofNat 32 (min (G.ebudget - G.charged) 0xFFFFFFFF)
  | none => 0xFFFFFFFF

/-- The indices of R32; the lanes read each of them. -/
def laneIndices : List Nat :=
  [0x00, 0x01, 0x02, 0x03, 0x04, 0x05, 0x06, 0x07, 0x08, 0x10, 0x11, 0x12, 0x13, 0x14, 0x18, 0x19, 0x1A, 0x1B, 0x20,
    0x21, 0x30, 0x31, 0x32]
/-- Those that the spine reads too. -/
def spineIndices : List Nat := [0x03, 0x04, 0x05, 0x06, 0x10, 0x12, 0x13, 0x18, 0x20, 0x21, 0x30, 0x32]

/-- What a lane of the group reads, in the state t that the time has passed to. -/
def laneRegister (t : State) (c : Issue) (g : Group) (l : Nat) : Nat → Word
  | 0x00 => BitVec.ofNat 32 l
  | 0x01 => BitVec.ofNat 32 g.idx
  | 0x02 => BitVec.ofNat 32 ((kcOf t g.kc).cluster.toNat * ((kcOf t g.kc).rows * (kcOf t g.kc).cols) + g.core)
  | 0x03 => (kcOf t g.kc).cluster
  | 0x04 => (kcOf t g.kc).gx
  | 0x05 => (kcOf t g.kc).gy
  | 0x06 => (kcOf t g.kc).gz
  | 0x07 => BitVec.ofNat 32 g.core
  | 0x08 => BitVec.ofNat 32 g.width
  | 0x10 => (dieOf t (memberDie t c.who)).time.extractLsb' 0 32
  | 0x11 => g.regs.snapTime.extractLsb' 32 32
  | 0x12 => terrRead t (memberDie t c.who)
  | 0x13 => (dieOf t (memberDie t c.who)).lclk.extractLsb' 0 32
  | 0x14 => g.regs.snapLclk.extractLsb' 32 32
  | 0x18 => (amGet 0 g.regs.lstat l).setWidth 32
  | 0x19 => g.regs.ct
  | 0x1A => c.prio.setWidth 32
  | 0x1B => if c.counted = true ∨ g.ycount = 0xFFFFFFFF then g.ycount else g.ycount + 1
  | 0x20 => (~~~ amGet 0 (dieOf t (hwCore (kcOf t g.kc) g.core).1).capsOff (hwCore (kcOf t g.kc) g.core).2 : BitVec 4).setWidth 32
  | 0x21 => (~~~ amGet 0 (dieOf t (hwCore (kcOf t g.kc) g.core).1).featOff (hwCore (kcOf t g.kc) g.core).2 : BitVec 4).setWidth 32
  | 0x30 => (ctxOf t (kcOf t g.kc).asid).energy.extractLsb' 0 32
  | 0x31 => g.regs.snapEctx.extractLsb' 32 32
  | 0x32 => ebudRead t (kcOf t g.kc).grid
  | _ => 0

/-- Bit j of the word is set when every core of the rectangle has bit j (R35). -/
def everyCore (k : Kc) (bits : DieNo → Nat → BitVec 4) : BitVec 4 :=
  BitVec.ofFnLE fun j : Fin 4 => (List.range (k.rows * k.cols)).all fun i => (bits (hwCore k i).1 (hwCore k i).2).getLsbD j.val

/-- What the spine of k reads. -/
def spineRegister (t : State) (c : Issue) (k : Kc) : Nat → DWord
  | 0x03 => k.cluster.setWidth 64
  | 0x04 => k.gx.setWidth 64
  | 0x05 => k.gy.setWidth 64
  | 0x06 => k.gz.setWidth 64
  | 0x10 => (dieOf t (memberDie t c.who)).time
  | 0x12 => (terrRead t (memberDie t c.who)).setWidth 64
  | 0x13 => (dieOf t (memberDie t c.who)).lclk
  | 0x18 => k.spine.lstat.setWidth 64
  | 0x20 => (everyCore k fun d i => ~~~ amGet 0 (dieOf t d).capsOff i).setWidth 64
  | 0x21 => (everyCore k fun d i => ~~~ amGet 0 (dieOf t d).featOff i).setWidth 64
  | 0x30 => (ctxOf t k.asid).energy
  | 0x32 => (ebudRead t k.grid).setWidth 64
  | _ => 0

/-- Time passes: of the dies only TIME, LCLK and the correction that is outstanding change. -/
def TimePasses (s t : State) : Prop :=
  t.dies.length = s.dies.length ∧
    ∀ d, ∃ time lclk backlog, dieOf t d = { dieOf s d with time := time, lclk := lclk, backlog := backlog }

/-- A member's decoding check fails, whatever its guard: the cause, for every lane of the entry (R95). -/
def RaisesAtDecode (i : Instr) (cause : Byte) (lanes : Bool) : Prop :=
  (lanes = true → ∀ s c g, OnLanes s c g → g.flights = [] →
    ∃ t, exec i s = .next t ∧ TrapTaken s t c (trapOf c { cause := cause, lanes := c.mask })) ∧
  (lanes = false → ∀ s c k, OnSpine s c k →
    ∃ t, exec i s = .next t ∧ TrapTaken s t c (trapOf c { cause := cause, lanes := c.mask }))

/-! ### The ends of grids (R302) -/

/-- Whether a boundary of the grid may complete only by a member other than kernel cluster id: some other live spine has
not arrived, or no other is live. -/
def BoundaryOpen (s : State) (gid : Word) (id : Nat) : Prop :=
  ∀ G, gridOf? s gid = some G →
    (∃ q ∈ s.kcs, q.id ≠ id ∧ q.grid = gid ∧ q.spine.ended = false ∧ q.spine.gsteps ≤ G.boundary) ∨
      ∀ q ∈ s.kcs, q.id ≠ id → q.grid = gid → q.spine.ended = true

/-- A counter goes down by one, but not below 0; the others stay (R316). -/
def CounterFalls (s t : State) (n : Nat) : Prop :=
  ∀ j, amGet 0 t.tund.counts j = if j = n ∧ amGet 0 s.tund.counts j ≠ 0 then amGet 0 s.tund.counts j - 1 else amGet 0 s.tund.counts j

/-- The completion of a launch whose context is C, from the state S in which its grid is gone: with DONE = 0 memory
stays; else the word of STATUS and CAUSE stands where DONE translates to; the 8 bytes at DIES, which a last grid's end
clears, aside (R328). SIG = 1 makes the counter SCNT fall. -/
structure Completed (S t : State) (l : Launch) (C : Ctx) (status cause : Nat) : Prop where
  silent : recField l.bytes 0x18 8 = 0 → ∀ a, a < C.desc + 0x58 ∨ C.desc + 0x60 ≤ a → memByte t a = memByte S a
  word : ∀ S' pa cls va, recField l.bytes 0x18 8 ≠ 0 → cls ≠ 1 →
    resolve S C { w := true } true (recField l.bytes 0x18 8) 8 = (S', .ok [⟨.mem pa cls, 0, 8, va⟩]) →
    ∀ a, a < C.desc + 0x58 ∨ C.desc + 0x60 ≤ a → memByte t a =
      if pa ≤ a ∧ a < pa + 8 then BitVec.ofNat 8 ((status + 256 * cause) / 2 ^ (8 * (a - pa))) else memByte S' a
  sig : (recField l.bytes 0x18 8 = 0 ∨
      ∃ S' pa cls va, cls ≠ 1 ∧ resolve S C { w := true } true (recField l.bytes 0x18 8) 8 = (S', .ok [⟨.mem pa cls, 0, 8, va⟩]) ∧
        S'.tund = S.tund) →
    if (recHeader l.bytes).getLsbD 10 then CounterFalls S t ((recHeader l.bytes).extractLsb' 28 12).toNat
    else t.tund.counts = S.tund.counts

/-- Grid G has ended, with its kernel clusters, and its launch is completed with STATUS and CAUSE. -/
structure GridEnded (s t : State) (G : Grid) (status cause : Nat) : Prop where
  gone : gridOf? t G.id = none
  clusters : ∀ q ∈ t.kcs, q.grid ≠ G.id
  completed : ∀ C, ctxOf? (removeGrid s G) G.launch.asid = some C → G.launch.asid = G.asid →
    Completed (removeGrid s G) t G.launch C status cause

/-- The state in which the spine that issues has ended; and that in which the group has, all of whose lanes issue. -/
def spineExits (s : State) (c : Issue) : State :=
  retireSpine (dropMarks s c.who 1) c fun sp => { sp with ended := true }
def lastLaneExits (s : State) (c : Issue) (g : Group) : State :=
  settleStart (updMember (retireTo (dropMarks s c.who c.mask) c [⟨nextPc c, c.prio, 0, none⟩] id) c.who fun g =>
    { landAll g with ended := true }) g.kc g.core

/-- An indirect jump whose target has bit 0 set in some guarded-on lane moves no lane: it takes MISALIGNED, naming the lowest
of them, with its target; a register it cannot name is ILLEGAL (R180). -/
def JumpRefused (i : Instr) (gd : PredNo) (reg : RegField) : Prop :=
  (∀ s c g, OnLanes s c g → g.flights = [] →
    (vOk g.budget true reg.toNat = false → ∃ t, exec i s = .next t ∧ LanesStop s t c (trapOf c { cause := 0x01, lanes := c.mask })) ∧
    (vOk g.budget true reg.toNat = true → poisonedLanes g (activeLanes g c gd) [reg.toNat, reg.toNat + 1] = [] →
      ∀ l ls, (activeLanes g c gd).filter (fun l => (vGet g.regs l reg.toNat).getLsbD 0) = l :: ls →
        ∃ t, exec i s = .next t ∧
          LanesStop s t c (trapOf c { cause := 0x03, lanes := maskOf (l :: ls), addr := ((pairAt g l reg.toNat).setWidth 48).toNat }))) ∧
  (∀ s c k, OnSpine s c k →
    (32 ≤ reg.toNat → ∃ t, exec i s = .next t ∧ SpineStop s t c k (trapOf c { cause := 0x01 })) ∧
    (reg.toNat < 32 → spinePred k.spine gd = true → k.spine.poison.contains reg.toNat = false →
      (xGet k.spine reg.toNat).getLsbD 0 = true →
        ∃ t, exec i s = .next t ∧
          SpineStop s t c k (trapOf c { cause := 0x03, addr := ((xGet k.spine reg.toNat).setWidth 48).toNat })))

/-- Fields of the status word (R267). -/
def statusWord (r : SprueReg) (waiting : Bool) : DWord :=
  let st : BitVec 2 × BitVec 12 := match r.st with
    | .empty => (0, 0)
    | .filling w => (1, w)
    | .full n => (2, n)
  (0 : BitVec 20) ++ r.wcnt ++ r.rcnt ++ (0 : BitVec 1) ++ r.op ++ (0 : BitVec 1) ++ BitVec.ofBool waiting ++ st.1 ++ st.2

end Sys2Proof.Claims

/-! ### Control flow -/

/-- R176 to R181: branches, calls, indirect jumps and priorities: which lanes go where, with which priority, and the
link that `call` leaves; on the spine pc alone; an indirect jump with an odd target takes MISALIGNED. -/
def Obligations.ControlTransfers : Prop :=
  (∀ o : OpsBr, LanesGo (.br o) (fun _ _ _ => True) (fun _ c g => { Effect.none c with
      goes := fun l => if l ∈ activeLanes g c o.g then (c.pc + 2 * o.imm.signExtend 48, o.prio) else (nextPc c, c.prio) }) ∧
    SpineGo (.br o) (fun _ _ _ => True) (fun _ _ _ => none)
      (fun c k => if spinePred k.spine o.g then c.pc + 2 * o.imm.signExtend 48 else nextPc c)) ∧
  (∀ o : OpsBr, LanesGo (.call o) (fun _ _ g => 64 ≤ g.budget) (fun _ c g => { Effect.none c with
      v := pairV 62 (activeLanes g c o.g) fun _ => (0 : BitVec 2) ++ c.prio ++ (0 : BitVec 8) ++ nextPc c
      goes := fun l => if l ∈ activeLanes g c o.g then (c.pc + 2 * o.imm.signExtend 48, o.prio) else (nextPc c, c.prio) }) ∧
    SpineGo (.call o) (fun _ _ _ => True)
      (fun c k r => if r = 1 ∧ spinePred k.spine o.g = true then some ((nextPc c).setWidth 64) else none)
      (fun c k => if spinePred k.spine o.g then c.pc + 2 * o.imm.signExtend 48 else nextPc c)) ∧
  (∀ o : OpsJmpi, LanesGo (.jmpi o)
      (fun _ c g => vOk g.budget true o.reg.toNat = true ∧
        poisonedLanes g (activeLanes g c o.g) [o.reg.toNat, o.reg.toNat + 1] = [] ∧
        ∀ l ∈ activeLanes g c o.g, (vGet g.regs l o.reg.toNat).getLsbD 0 = false)
      (fun _ c g => { Effect.none c with
        goes := fun l => if l ∈ activeLanes g c o.g then ((pairAt g l o.reg.toNat).setWidth 48, o.prio) else (nextPc c, c.prio) }) ∧
    SpineGo (.jmpi o)
      (fun _ _ k => o.reg.toNat < 32 ∧ k.spine.poison.contains o.reg.toNat = false ∧ (xGet k.spine o.reg.toNat).getLsbD 0 = false)
      (fun _ _ _ => none) (fun c k => if spinePred k.spine o.g then (xGet k.spine o.reg.toNat).setWidth 48 else nextPc c)) ∧
  (∀ o : OpsReg, LanesGo (.jmpiL o)
      (fun _ c g => vOk g.budget true o.reg.toNat = true ∧
        poisonedLanes g (activeLanes g c o.g) [o.reg.toNat, o.reg.toNat + 1] = [] ∧
        ∀ l ∈ activeLanes g c o.g, (vGet g.regs l o.reg.toNat).getLsbD 0 = false)
      (fun _ c g => { Effect.none c with
        goes := fun l => if l ∈ activeLanes g c o.g then
          ((pairAt g l o.reg.toNat).setWidth 48, (vGet g.regs l (o.reg.toNat + 1)).extractLsb' 24 6) else (nextPc c, c.prio) }) ∧
    SpineGo (.jmpiL o)
      (fun _ _ k => o.reg.toNat < 32 ∧ k.spine.poison.contains o.reg.toNat = false ∧ (xGet k.spine o.reg.toNat).getLsbD 0 = false)
      (fun _ _ _ => none) (fun c k => if spinePred k.spine o.g then (xGet k.spine o.reg.toNat).setWidth 48 else nextPc c)) ∧
  (∀ o : OpsJmpi, JumpRefused (.jmpi o) o.g o.reg) ∧ (∀ o : OpsReg, JumpRefused (.jmpiL o) o.g o.reg) ∧
  (∀ o : OpsPrio, LanesGo (.prio o) (fun _ _ _ => True) (fun _ c g => { Effect.none c with
      goes := fun l => (nextPc c, if l ∈ activeLanes g c o.g then o.prio else c.prio) }) ∧ SpineNop (.prio o))

/-- R182, R185 to R190: `nop` only goes on; `yield` sets YCOUNT to 0, may set the deadline, and under a latched
pre-emption stops a group that holds no lock; the lock-holder hints set and clear their state; the spine's `yield` is a `nop`.
Of the model's own readings it rests on log entry 32. -/
def Obligations.HintsAndYield : Prop :=
  (∀ o, LanesGo (.nop o) (fun _ _ _ => True) (fun _ c _ => Effect.none c) ∧ SpineNop (.nop o)) ∧
  (∀ o : OpsYield, SpineNop (.yield o) ∧
    ∀ s c g, OnLanes s c g → g.flights = [] →
      ∃ t, exec (.yield o) s = .next t ∧ OnlyGroups s t ∧
        (memberGroup t c.who).ycount = 0 ∧
        (memberGroup t c.who).deadline = (if o.deadline = 0 then g.deadline else 16 * o.deadline.toNat) ∧
        (memberGroup t c.who).stopped = (if stopping (kcOf s g.kc) && !inCrit (if c.counted then g.crit else g.crit.map (· + 1))
          then some (if o.live = 63 then 64 else o.live.toNat) else g.stopped) ∧
        LaneRegs s (updMember t c.who fun x => { x with deadline := g.deadline, stopped := g.stopped }) c (Effect.none c)) ∧
  (∀ s c g, OnLanes s c g → g.flights = [] →
    (∃ t, exec .critOn s = .next t ∧ OnlyGroups s t ∧ LaneRegs s t c (Effect.none c) ∧
      (memberGroup t c.who).crit = if inCrit g.crit then g.crit.map (· + 1) else some 0) ∧
    (∃ t, exec .critOff s = .next t ∧ OnlyGroups s t ∧ LaneRegs s t c (Effect.none c) ∧ (memberGroup t c.who).crit = none)) ∧
  (∀ s c k, OnSpine s c k →
    (∃ t, exec .critOn s = .next t ∧ OnlyKcs s t ∧ SpineRegs s t k.id (fun _ => none) (fun _ => none) 0 (nextPc c) ∧
      (kcOf t k.id).spine.crit = if inCrit k.spine.crit then k.spine.crit.map (· + 1) else some 0) ∧
    (∃ t, exec .critOff s = .next t ∧ OnlyKcs s t ∧ SpineRegs s t k.id (fun _ => none) (fun _ => none) 0 (nextPc c) ∧
      (kcOf t k.id).spine.crit = none))

/-- R191: the first issue of `gstep` counts; the spine waits while its boundary has not completed; the last live spine
to arrive completes the boundary and goes on, and so do the spines that wait at it; dies may leave the grid then, never
below DMIN nor without a save slot for each of its running kernel clusters on the dies that leave (R323); a lane takes
WRONG_UNIT.
Of the model's own readings it rests on log entry 25. -/
def Obligations.GridSteps : Prop :=
  WrongOnLanes .gstep ∧
  (∀ s c k G, OnSpine s c k → gridOf? s k.grid = some G → c.counted = true → k.spine.gsteps ≤ G.boundary →
    ∃ t, exec .gstep s = .next t ∧ OnlyKcs s t ∧ SpineRegs s t k.id (fun _ => none) (fun _ => none) 0 (nextPc c)) ∧
  (∀ s c k G, OnSpine s c k → gridOf? s k.grid = some G → c.counted = true → G.boundary < k.spine.gsteps →
    ∃ t, exec .gstep s = .next t ∧ OnlyKcs s t ∧
      (kcOf t k.id).spine = { k.spine with wait := some (.boundary k.spine.gsteps) }) ∧
  (∀ s c k G, OnSpine s c k → gridOf? s k.grid = some G → c.counted = false → G.boundary < k.spine.gsteps + 1 →
    (∃ q ∈ s.kcs, q.id ≠ k.id ∧ q.grid = k.grid ∧ q.spine.ended = false ∧ q.spine.gsteps ≤ G.boundary) →
    ∃ t, exec .gstep s = .next t ∧ OnlyKcs s t ∧
      (kcOf t k.id).spine = { k.spine with gsteps := k.spine.gsteps + 1, wait := some (.boundary (k.spine.gsteps + 1)) }) ∧
  (∀ s c k G, OnSpine s c k → gridOf? s k.grid = some G → c.counted = false → k.spine.gsteps = G.boundary →
    k.spine.ended = false → (∀ q ∈ s.kcs, ∀ r ∈ s.kcs, q.id = r.id → q = r) →
    (∀ q ∈ s.kcs, q.id ≠ k.id → q.grid = k.grid → q.spine.ended = true ∨ G.boundary < q.spine.gsteps) →
    ∃ t, exec .gstep s = .next t ∧
      (∃ D L, gridOf? t k.grid = some { G with boundary := G.boundary + 1, grow := true, dies := D, leaving := L } ∧
        (∀ d ∈ D, d ∈ G.dies) ∧ (∀ d ∈ L, d ∈ G.leaving) ∧ (∀ d ∈ G.leaving, d ∈ L ∨ d ∉ D) ∧
        (G.mould.dmin ≤ G.dies.length → G.mould.dmin ≤ D.length) ∧
        slotsFor s ((kcsOf s k.grid).filter fun q => isRunning q &&
          (match q.place with | some p => G.dies.contains p.die && !D.contains p.die | none => false)) = true ∧
        (G.dies.length ≤ G.mould.dmin → D = G.dies ∧ L = G.leaving)) ∧
      t.mem = s.mem ∧
      (kcOf t k.id).spine.gsteps = k.spine.gsteps + 1 ∧ (kcOf t k.id).spine.pc = nextPc c ∧ (kcOf t k.id).spine.wait = none ∧
      ∀ q n, s.kcs.find? (fun x => x.id = q.id) = some q → q.id ≠ k.id → q.grid = k.grid →
        q.spine.wait = some (.boundary n) → n ≤ G.boundary + 1 →
          (kcOf t q.id).spine.wait = none ∧ (kcOf t q.id).spine.pc = q.spine.pc + 4)

/-- R183: `exit` takes the active lanes out of the group's entries, whether or not lanes stay in the entry; the group ends
with its last lane; the spine ends when its guard is true; a kernel cluster whose spine and groups have all ended is gone,
with whichever of them is last, and with the last kernel cluster the grid ends with STATUS 1 and CAUSE 0 (R302). The marks of
the threads that end go (R229).
Of the model's own readings it rests on log entry 16. -/
def Obligations.Exits : Prop :=
  (∀ (o : OpsG) s c g, OnLanes s c g → g.flights = [] →
    c.mask &&& ~~~maskOf (activeLanes g c o.g) ≠ 0 ∨ (∃ e ∈ g.regs.frontier, e.mask ≠ c.mask) →
    ∃ t, exec (.exit o) s = .next t ∧ OnlyGroups (dropMarks s c.who (c.mask &&& maskOf (activeLanes g c o.g))) t ∧ (memberGroup t c.who).ended = g.ended ∧
      (∀ l, c.mask.getLsbD l = true → l ∉ activeLanes g c o.g → ∃ en ∈ (memberGroup t c.who).regs.frontier,
        en.pc = nextPc c ∧ en.prio = c.prio ∧ en.mask.getLsbD l = true ∧ en.wait = none) ∧
      (∀ l ∈ activeLanes g c o.g, (∀ e ∈ g.regs.frontier, e.mask.getLsbD l = true → e.mask = c.mask) →
        ∀ e ∈ (memberGroup t c.who).regs.frontier, e.mask.getLsbD l = false) ∧
      (∀ l, c.mask.getLsbD l = false → ∀ pc prio w,
        LaneAt (memberGroup t c.who).regs l pc prio w ↔ LaneAt g.regs l pc prio w) ∧
      { (memberGroup t c.who).regs with frontier := g.regs.frontier } = g.regs) ∧
  (∀ (o : OpsG) s c g, OnLanes s c g → g.flights = [] → c.mask &&& ~~~maskOf (activeLanes g c o.g) = 0 →
    (∀ e ∈ g.regs.frontier, e.mask = c.mask) → (kcOf s g.kc).spine.ended = false →
    ∃ t, exec (.exit o) s = .next t ∧ (memberGroup t c.who).ended = true ∧ t.mem = s.mem ∧
      ((∀ G, gridOf? s (kcOf s g.kc).grid = some G → ∃ q ∈ s.kcs, q.grid = G.id ∧ q.spine.ended = false ∧ q.spine.gsteps ≤ G.boundary) →
        t.kcs = s.kcs ∧ t.grids = s.grids ∧ ∀ kc core idx, Member.group kc core idx ≠ c.who →
          groupOf t kc core idx = groupOf s kc core idx)) ∧
  (∀ (o : OpsG) s c k, OnSpine s c k → spinePred k.spine o.g = false →
    ∃ t, exec (.exit o) s = .next t ∧ OnlyKcs s t ∧ SpineRegs s t k.id (fun _ => none) (fun _ => none) 0 (nextPc c)) ∧
  (∀ (o : OpsG) s c g, OnLanes s c g → g.flights = [] → c.mask &&& ~~~maskOf (activeLanes g c o.g) = 0 →
    (∀ e ∈ g.regs.frontier, e.mask = c.mask) → (kcOf s g.kc).spine.ended = true →
    (∀ x ∈ s.groups, x.kc = g.kc → x.ended = true ∨ (x.core = g.core ∧ x.idx = g.idx)) → (∀ x ∈ s.transfers, x.kc ≠ g.kc) →
    ∃ t, exec (.exit o) s = .next t ∧ (∀ q ∈ t.kcs, q.id ≠ g.kc) ∧ (∀ x ∈ t.groups, x.kc ≠ g.kc) ∧
      (∀ G, gridOf? s (kcOf s g.kc).grid = some G → (∀ q ∈ s.kcs, q.grid = G.id → q.id = g.kc) → gridSize G ≤ G.nextCluster →
        GridEnded (dropKc (lastLaneExits s c g) g.kc) t G 1 0)) ∧
  (∀ (o : OpsG) s c k, OnSpine s c k → spinePred k.spine o.g = true → (∃ g ∈ s.groups, g.kc = k.id ∧ g.ended = false) →
    ∃ t, exec (.exit o) s = .next t ∧ (kcOf t k.id).spine.ended = true ∧ t.mem = s.mem ∧
      (BoundaryOpen s k.grid k.id → OnlyKcs (dropMarks s c.who 1) t ∧ ∀ id, id ≠ k.id → kcOf t id = kcOf s id)) ∧
  (∀ (o : OpsG) s c k, OnSpine s c k → spinePred k.spine o.g = true → (∀ g ∈ s.groups, g.kc = k.id → g.ended = true) →
    (∀ x ∈ s.transfers, x.kc ≠ k.id) → (∃ q ∈ s.kcs, q.grid = k.grid ∧ q.id ≠ k.id) →
    ∃ t, exec (.exit o) s = .next t ∧ (∀ q ∈ t.kcs, q.id ≠ k.id) ∧ (∀ g ∈ t.groups, g.kc ≠ k.id) ∧
      (BoundaryOpen s k.grid k.id → ∀ g, g ∈ s.groups → g.kc ≠ k.id → g ∈ t.groups)) ∧
  (∀ (o : OpsG) s c k G, OnSpine s c k → spinePred k.spine o.g = true → (∀ g ∈ s.groups, g.kc = k.id → g.ended = true) →
    (∀ x ∈ s.transfers, x.kc ≠ k.id) → (∀ q ∈ s.kcs, q.grid = k.grid → q.id = k.id) →
    gridOf? s k.grid = some G → gridSize G ≤ G.nextCluster →
    ∃ t, exec (.exit o) s = .next t ∧ GridEnded (dropKc (spineExits s c) k.id) t G 1 0) ∧
  (∀ s c k G, OnSpine s c k → gridOf? s k.grid = some G → (∀ q ∈ s.kcs, q.grid = k.grid → q.id = k.id) →
    (∀ r ∈ s.deques, r.kc ≠ k.id) →
    (let S := removeGrid (dropKc (spineExits s c) k.id) G
     S.tund = s.tund ∧ S.grids = s.grids.filter (fun x => x.id ≠ G.id) ∧
       ∀ a C, ctxOf? s k.asid = some C → (a < C.desc + 0x58 ∨ C.desc + 0x60 ≤ a) → memByte S a = memByte s a))

/-- R184, R329, R331: `trap`, and `brk` where debugging is enabled, raise USER_TRAP and DEBUG_BREAK with the code and
the active lanes: the member stops, its frame waits for the trap ring, no register and no entry of the frontier changes, nor
anything else; else they are a `nop`. -/
def Obligations.SoftwareTraps : Prop :=
  (∀ o : OpsCode, ∀ s c g, OnLanes s c g → g.flights = [] → activeLanes g c o.g ≠ [] →
    (∃ t, exec (.trap o) s = .next t ∧
      LanesStop s t c (trapOf c { cause := 0x16, code := o.code, lanes := maskOf (activeLanes g c o.g) })) ∧
    ((ctxOf s (memberAsid s c.who)).dbg = true → ∃ t, exec (.brk o) s = .next t ∧
      LanesStop s t c (trapOf c { cause := 0x17, code := o.code, lanes := maskOf (activeLanes g c o.g) }))) ∧
  (∀ o : OpsCode, ∀ s c k, OnSpine s c k → spinePred k.spine o.g = true →
    (∃ t, exec (.trap o) s = .next t ∧ SpineStop s t c k (trapOf c { cause := 0x16, code := o.code })) ∧
    ((ctxOf s (memberAsid s c.who)).dbg = true →
      ∃ t, exec (.brk o) s = .next t ∧ SpineStop s t c k (trapOf c { cause := 0x17, code := o.code }))) ∧
  (∀ o : OpsCode, LanesGo (.trap o) (fun _ c g => activeLanes g c o.g = []) (fun _ c _ => Effect.none c) ∧
    SpineGo (.trap o) (fun _ _ k => spinePred k.spine o.g = false) (fun _ _ _ => none) (fun c _ => nextPc c) ∧
    LanesGo (.brk o) (fun s c _ => (ctxOf s (memberAsid s c.who)).dbg = false) (fun _ c _ => Effect.none c) ∧
    SpineGo (.brk o) (fun s c _ => (ctxOf s (memberAsid s c.who)).dbg = false) (fun _ _ _ => none) (fun c _ => nextPc c))

/-! ### Control registers, reductions, sprue registers -/

/-- R32, R35, R133: `rdc` writes the value of the index to each active lane, and on the spine to x; a read of the low
half of a counter leaves the whole in the group's snapshot, and no other snapshot changes; an index that R32 does not list
is ILLEGAL, one not for the spine WRONG_UNIT there. TIME passes before the read.
Of the model's own readings it rests on log entries 33, 38 and 88. -/
def Obligations.ControlReads : Prop :=
  (∀ (o : OpsCt) s c g, OnLanes s c g → g.flights = [] → vOk g.budget false o.reg.toNat = true → o.idx.toNat ∈ laneIndices →
    ∃ t, exec (.rdc o) s = .next t ∧ { t with groups := s.groups, dies := s.dies, cur := s.cur, fresh := s.fresh } = s ∧
      TimePasses s t ∧
      LaneRegs s (updMember t c.who fun x => { x with regs := { x.regs with
          snapTime := g.regs.snapTime, snapLclk := g.regs.snapLclk, snapEctx := g.regs.snapEctx } }) c
        { Effect.none c with v := oneV o.reg.toNat (activeLanes g c o.g) fun l => laneRegister t c g l o.idx.toNat } ∧
      (let reads := fun i => o.idx.toNat = i ∧ activeLanes g c o.g ≠ []
       let r := (memberGroup t c.who).regs
       r.snapTime = (if reads 0x10 then (dieOf t (memberDie t c.who)).time else g.regs.snapTime) ∧
       r.snapLclk = (if reads 0x13 then (dieOf t (memberDie t c.who)).lclk else g.regs.snapLclk) ∧
       r.snapEctx = (if reads 0x30 then (ctxOf t (kcOf t g.kc).asid).energy else g.regs.snapEctx))) ∧
  (∀ (o : OpsCt) s c k, OnSpine s c k → o.reg.toNat < 32 → o.idx.toNat ∈ spineIndices →
    ∃ t, exec (.rdc o) s = .next t ∧ { t with kcs := s.kcs, dies := s.dies, cur := s.cur, fresh := s.fresh } = s ∧
      TimePasses s t ∧ SprueBecomes s (updSpine t k.id fun _ => k.spine) k.id (fun _ q => q) ∧
      SpineRegs s t k.id
        (fun r => if r = o.reg.toNat ∧ spinePred k.spine o.g = true then some (spineRegister t c k o.idx.toNat) else none)
        (fun _ => none) 0 (nextPc c)) ∧
  (∀ o : OpsCt, o.idx.toNat ∉ laneIndices → RaisesAtDecode (.rdc o) 0x01 true ∧ RaisesAtDecode (.rdc o) 0x01 false ∧
    RaisesAtDecode (.wrc o) 0x01 true ∧ RaisesAtDecode (.wrc o) 0x01 false) ∧
  (∀ o : OpsCt, o.idx.toNat ∈ laneIndices → o.idx.toNat ∉ spineIndices →
    RaisesAtDecode (.rdc o) 0x02 false ∧ RaisesAtDecode (.wrc o) 0x02 false)

/-- R32 to R34, R134, R135: `wrc` writes LSTAT of each active lane from its register, or CT from the lowest active
lane's, of which only bits [18:10] are held; on the spine LSTAT from x; another index
raises PROTECTION; `v2g` copies the lowest active lane's register. -/
def Obligations.ControlWrites : Prop :=
  (∀ (o : OpsCt) s c g, OnLanes s c g → g.flights = [] → vOk g.budget false o.reg.toNat = true →
    poisonedLanes g (activeLanes g c o.g) [o.reg.toNat] = [] →
    (o.idx = 0x18 → ∃ t, exec (.wrc o) s = .next t ∧ OnlyGroups s t ∧
      (∀ l, amGet 0 (memberGroup t c.who).regs.lstat l =
        if l ∈ activeLanes g c o.g then (vGet g.regs l o.reg.toNat).setWidth 6 else amGet 0 g.regs.lstat l) ∧
      { (memberGroup t c.who).regs with lstat := g.regs.lstat, frontier := g.regs.frontier } = g.regs) ∧
    (o.idx = 0x19 → ∃ t, exec (.wrc o) s = .next t ∧ OnlyGroups s t ∧
      (let ct := match activeLanes g c o.g with
         | l :: _ => (0 : BitVec 13) ++ (vGet g.regs l o.reg.toNat).extractLsb' 10 9 ++ (0 : BitVec 10)
         | [] => g.regs.ct
       { (memberGroup t c.who).regs with frontier := g.regs.frontier } = { g.regs with ct := ct }))) ∧
  (∀ (o : OpsCt) s c g, OnLanes s c g → g.flights = [] → vOk g.budget false o.reg.toNat = true →
    o.idx.toNat ∈ laneIndices → o.idx ≠ 0x18 → o.idx ≠ 0x19 →
    ∃ t, exec (.wrc o) s = .next t ∧ TrapTaken s t c (trapOf c { cause := 0x05, lanes := c.mask })) ∧
  (∀ (o : OpsCt) s c k, OnSpine s c k → o.idx = 0x18 → o.reg.toNat < 32 → spinePred k.spine o.g = true →
    k.spine.poison.contains o.reg.toNat = false →
    ∃ t, exec (.wrc o) s = .next t ∧ OnlyKcs s t ∧ (kcOf t k.id).spine.lstat = (xGet k.spine o.reg.toNat).setWidth 6 ∧
      (kcOf t k.id).spine.x = k.spine.x ∧ (kcOf t k.id).spine.p = k.spine.p ∧ (kcOf t k.id).spine.pc = nextPc c) ∧
  (∀ o : OpsV2g, WrongOnSpine (.v2g o) ∧
    LanesGo (.v2g o) (fun _ c g => vOk g.budget false o.reg.toNat = true ∧
        poisonedLanes g (activeLanes g c o.g) [o.reg.toNat] = [])
      (fun _ c g =>
        let v := (activeLanes g c o.g).head?.map fun l => vGet g.regs l o.reg.toNat
        { Effect.none c with g := fun k => if k = o.k.toNat then v else none }))

/-- R24, R25, R62, R141 to R145: group reductions and votes over the active lanes, to a g register or as a contribution to a
sprue register, combined as R24 has it; an EMPTY register raises SPRUE_PROTOCOL and a FULL one makes the entry wait. -/
def Obligations.ReductionsAndVotes : Prop :=
  FormRed .raddS32 true (reduced (fun a b => plain (a + b)) 0) ∧
  FormRed .rminS32 true (reduced (fun a b => plain (if a.toInt ≤ b.toInt then a else b)) 0x7FFFFFFF) ∧
  FormRed .rmaxS32 true (reduced (fun a b => plain (if a.toInt ≤ b.toInt then b else a)) 0x80000000) ∧
  FormRed .raddF32 false (reduced (float2 (fAdd fmtF32)) 0) ∧
  FormRed .rminF32 false (reduced (float2 (fMinMax fmtF32 false)) 0x7F800000) ∧
  FormRed .rmaxF32 false (reduced (float2 (fMinMax fmtF32 true)) 0xFF800000) ∧
  FormRed .vcount false (fun _ act v => plain (countOf act v)) ∧
  (∀ o : OpsA1, ∀ s c g, OnLanes s c g → g.flights = [] → vOk g.budget false o.a.toNat = true →
    poisonedLanes g (activeLanes g c o.g) [o.a.toNat] = [] →
    (let b := ballotOf (activeLanes g c o.g) fun l => vGet g.regs l o.a.toNat
     (o.d.toNat < 32 → o.d.toNat % 2 = 0 → ∃ t, exec (.ballot o) s = .next t ∧ OnlyGroups s t ∧
       (let gs := fun k => if k = o.d.toNat then some (b.extractLsb' 0 32)
          else if k = o.d.toNat + 1 then some (b.extractLsb' 32 32) else none
        LaneRegs s t c { Effect.none c with g := gs })) ∧
     (∀ w, 32 ≤ o.d.toNat → o.d.toNat - 32 < (kcOf s g.kc).cfgSprue → (∃ k, s.kcs.find? (fun x => x.id = g.kc) = some k) →
       (sprueGet (kcOf s g.kc) (o.d.toNat - 32)).st = .filling w →
       ∃ t, exec (.ballot o) s = .next t ∧ OnlyMembers s t ∧ LaneRegs s t c (Effect.none c) ∧
         SprueBecomes s t g.kc fun k q => if k + 32 = o.d.toNat then contributed q w b else q) ∧
     (32 ≤ o.d.toNat → AccumulatorRows (.ballot o) s c g (o.d.toNat - 32))))

/-- R24 to R29, R262 to R268: reading, setting, accumulating into, arming, inspecting and clearing sprue registers; and the
rows of R25 in which the instruction waits, or raises SPRUE_PROTOCOL and the register stays.
Of the model's own readings it rests on log entries 8, 35, 37 and 78. -/
def Obligations.SprueRegisters : Prop :=
  (SprueTurnedAway .sget false (fun r => isFull r = false) (some .sprueFull) ∧
    SprueTurnedAway .speek false (fun r => isFull r = false) (some .sprueFull) ∧
    SprueTurnedAway .sset true (fun r => ∃ n, r.st = .full n) (some .sprueEmpty) ∧
    SprueTurnedAway .sset true (fun r => ∃ w, r.st = .filling w) none ∧
    SprueTurnedAway .sacc true (fun r => ∃ n, r.st = .full n) (some .sprueFilling) ∧
    SprueTurnedAway .sacc true (fun r => r.st = .empty) none ∧
    (∀ o : OpsSpr, ∀ s c k, OnSpine s c k → SprueHere s k.id o.k → o.reg.toNat < 31 → o.reg ≠ 0 →
      spinePred k.spine o.g = true → k.spine.poison.contains o.reg.toNat = false →
      k.spine.poison.contains (o.reg.toNat + 1) = false → (sprueGet k o.k.toNat).st ≠ .empty →
      ∃ t, exec (.sarm o) s = .next t ∧ SpineStop s t c k (trapOf c { cause := 0x12, lanes := c.mask })) ∧
    (∀ o : OpsL, SpineDstRows (.add o) o.g [.reg o.a o.x, .sel o.b o.x] o.d o.x) ∧
    (∀ o : OpsW, SpineDstRows (.movl o) o.g [.imm (o.imm.signExtend 32).toNat] o.d false)) ∧
  SprueRead .sget readable consumed ∧
  SprueRead .speek (fun k i => isFull (sprueGet k i)) id ∧
  SprueWritten .sset (fun r => r.st = .empty) (fun r v => match v with
    | some v => { r with value := v, st := .full r.rcnt, poison := false }
    | none => { r with st := .full r.rcnt }) ∧
  (∀ w, SprueWritten .sacc (fun r => r.st = .filling w) (fun r v => match v with
    | some v => contributed r w v
    | none => { r with st := if w.toNat ≤ 1 then .full r.rcnt else .filling (w - 1) })) ∧
  (∀ o : OpsSpr, WrongOnLanes (.sarm o) ∧ ∀ s c k, OnSpine s c k → SprueHere s k.id o.k → o.reg.toNat < 31 → o.reg ≠ 0 →
    spinePred k.spine o.g = true → k.spine.poison.contains o.reg.toNat = false →
    k.spine.poison.contains (o.reg.toNat + 1) = false → (sprueGet k o.k.toNat).st = .empty →
    (xGet k.spine o.reg.toNat).extractLsb' 27 37 = 0 →
    ∃ t, exec (.sarm o) s = .next t ∧ OnlyKcs s t ∧ SpineRegs s t k.id (fun _ => none) (fun _ => none) 0 (nextPc c) ∧
      SprueBecomes s (updSpine t k.id fun _ => k.spine) k.id (fun j q => if j = o.k.toNat then
        armed (xGet k.spine o.reg.toNat) (xGet k.spine (o.reg.toNat + 1)) else q)) ∧
  (∀ o : OpsSpr,
    (∀ s c g, OnLanes s c g → g.flights = [] → SprueHere s g.kc o.k → vOk g.budget false o.reg.toNat = true →
      ∃ t, exec (.sstat o) s = .next t ∧ OnlyGroups s t ∧
        LandsOrFlies s t c o.la.toNat (oneV o.reg.toNat (activeLanes g c o.g) fun _ =>
          (statusWord (sprueGet (kcOf s g.kc) o.k.toNat) (sprueWaited s g.kc o.k.toNat)).setWidth 32)) ∧
    (∀ s c k, OnSpine s c k → SprueHere s k.id o.k → o.reg.toNat < 32 → spinePred k.spine o.g = true →
      ∃ t, exec (.sstat o) s = .next t ∧ OnlyKcs s t ∧
        SpineRegs s t k.id (fun r => if r = o.reg.toNat then
          some (statusWord (sprueGet k o.k.toNat) (sprueWaited s k.id o.k.toNat)) else none) (fun _ => none) 0 (nextPc c))) ∧
  (∀ o : OpsSprK, WrongOnLanes (.sclr o) ∧ ∀ s c k, OnSpine s c k → SprueHere s k.id o.k → spinePred k.spine o.g = true →
    ∃ t, exec (.sclr o) s = .next t ∧ OnlyKcs s t ∧ SpineRegs s t k.id (fun _ => none) (fun _ => none) 0 (nextPc c) ∧
      SprueBecomes s (updSpine t k.id fun _ => k.spine) k.id (fun j q => if j = o.k.toNat then SprueReg.init else q))

namespace Sys2Proof.Claims

/-! ### Barriers -/

/-- A group with nothing in flight, the team T of its core, and a slot that T holds. -/
structure AtBarrier (s : State) (c : Issue) (g : Group) (slot : BitVec 4) (T : Team) : Prop where
  on : OnLanes s c g
  landed : g.flights = []
  counted : slot.toNat < (kcOf s g.kc).cfgBar
  team : s.teams.find? (fun t => t.kc = g.kc ∧ t.core = g.core) = some T
  held : slot.toNat < T.bars.length

/-- Nothing changes but the group, which goes on, and one team. -/
def OnlyTeam (s t : State) (kc core : Nat) : Prop :=
  { t with groups := s.groups, teams := s.teams, cur := s.cur, fresh := s.fresh } = s ∧
    ∀ kc' core', ¬(kc' = kc ∧ core' = core) → teamOf t kc' core' = teamOf s kc' core'

/-- One barrier of the team becomes b; the team's other barriers and everything but its regions and their poison marks
stay. -/
def BarBecomes (T T' : Team) (slot : Nat) (b : Barrier) : Prop :=
  (∀ j, barOf T' j = if j = slot then b else barOf T j) ∧
    { T' with bars := T.bars, regions := T.regions, poison := T.poison } = T

/-- The count check of an arrival fails: c is given and is not E[5:0] (R206). -/
def Mismatch (b : Barrier) (count : Nat) : Prop := b.f = false ∧ count ≠ 0 ∧ count ≠ b.e.toNat % 64

/-- A group arrival under way: F clear, E not 0, A below E, and the count, when given, that of E. -/
def MayArrive (b : Barrier) (count : Nat) : Prop :=
  b.f = false ∧ b.e ≠ 0 ∧ b.a < b.e ∧ (count = 0 ∨ count = b.e.toNat % 64)

/-- A group arrival that is turned away: BARRIER_COUNT for the group; a count that differs sets F and ends the waits of
the team's groups on the slot (R206). -/
def ArrivalRefused (i : Instr) (slot : BitVec 4) (count : Nat) (ready : Team → Prop) : Prop :=
  ∀ s c g T, AtBarrier s c g slot T → ready T →
    (let b := barOf T slot.toNat
     b.f = true ∨ b.e = 0 ∨ b.e ≤ b.a ∨ Mismatch b count →
     ∃ t, exec i s = .next t ∧ TrapTaken s t c (trapOf c { cause := 0x0B, lanes := c.mask }) ∧
       { (memberGroup t c.who).regs with frontier := g.regs.frontier } = g.regs ∧
       (¬ Mismatch b count → BarBecomes T (teamOf t g.kc g.core) slot.toNat b) ∧
       (Mismatch b count → BarBecomes T (teamOf t g.kc g.core) slot.toNat { b with f := true } ∧
         ∀ idx p e, idx ≠ g.idx → e ∈ (groupOf s g.kc g.core idx).regs.frontier → e.wait = some (.phase slot p) →
           { e with wait := some (.faulted slot) } ∈ (groupOf t g.kc g.core idx).regs.frontier))

/-- An arrival: A advances, or, when it is the last and no bytes are expected, the phase completes, and the regions
of the slot swap planes (R201, R205). -/
def Arrives (i : Instr) (slot : BitVec 4) (count : Nat) (ready : Team → Prop) : Prop :=
  ∀ s c g T, AtBarrier s c g slot T → ready T → MayArrive (barOf T slot.toNat) count →
    (let b := barOf T slot.toNat
     let last := b.a + 1 = b.e ∧ b.lb = b.eb
     ∃ t, exec i s = .next t ∧ OnlyTeam s t g.kc g.core ∧ LaneRegs s t c (Effect.none c) ∧
       (¬last → BarBecomes T (teamOf t g.kc g.core) slot.toNat { b with a := b.a + 1 }) ∧
       (last → BarBecomes T (teamOf t g.kc g.core) slot.toNat { b with p := b.p + 1, a := 0, eb := 0, lb := 0 } ∧
         ∀ r ∈ T.regions, r.slot = slot.toNat → r.held = [] → amWf 0 r.nextPl = true →
           ∃ r' ∈ (teamOf t g.kc g.core).regions, r'.idx = r.idx ∧ r'.written = [] ∧ r'.arrived = [] ∧ r'.prev = r.present ∧
             ∀ a, amGet 0 r'.present a = if amGet false r.written (a / 4) then amGet 0 r.nextPl a
               else if r.fill then 0 else amGet 0 r.present a))

/-! ### Memory -/

/-- The state holds a group, a kernel cluster, a context. -/
def GroupHere (s : State) (g : Group) : Prop := s.groups.find? (fun x => x.kc = g.kc ∧ x.core = g.core ∧ x.idx = g.idx) = some g
def KcHere (s : State) (k : Kc) : Prop := s.kcs.find? (fun x => x.id = k.id) = some k
def CtxHere (s : State) (c : Ctx) : Prop := ctxOf? s c.asid = some c

/-- An access of n bytes at addr passes every check of R248 and meets no late cause: it lies in device memory at pa,
and resolving it changed nothing but the translations held. -/
structure Reaches (s : State) (c : Issue) (need : Need) (sync feat : Bool) (n : Nat) (addr : DWord) (s' : State) (pa : Nat)
    (cls : BitVec 2) : Prop where
  checked : checkThread s (ctxOf s (memberAsid s c.who)) need feat sync n ⟨0, addr, []⟩ =
    (s', .ok [⟨.mem pa cls, 0, n, addr.toNat % 2 ^ 48⟩])
  timely : pieceLate s' (memberDie s' c.who) need ⟨.mem pa cls, 0, n, addr.toNat % 2 ^ 48⟩ = none
  quiet : { s' with tlb := s.tlb } = s

/-- The same for every lane of a list: lane l reaches device memory at pa l. -/
structure AllReach (s : State) (c : Issue) (need : Need) (sync feat : Bool) (n : Nat) (lanes : List Nat) (addr : Nat → DWord)
    (s' : State) (pa : Nat → Nat) (cls : Nat → BitVec 2) : Prop where
  state : (checkAll s (ctxOf s (memberAsid s c.who)) need feat sync n (lanes.map fun l => ⟨l, addr l, []⟩)).1 = s'
  checked : (checkAll s (ctxOf s (memberAsid s c.who)) need feat sync n (lanes.map fun l => ⟨l, addr l, []⟩)).2.map (fun r => r.2) =
    lanes.map fun l => .ok [⟨.mem (pa l) (cls l), 0, n, (addr l).toNat % 2 ^ 48⟩]
  timely : ∀ l ∈ lanes,
    pieceLate s' (memberDie s' c.who) need ⟨.mem (pa l) (cls l), 0, n, (addr l).toNat % 2 ^ 48⟩ = none
  quiet : { s' with tlb := s.tlb } = s

/-- An access of n bytes at addr passes every check of R248 and leads to w; resolving it changed nothing but the translations
held. -/
structure Leads (s : State) (c : Issue) (need : Need) (sync feat : Bool) (n : Nat) (addr : DWord) (s' : State) (w : Way) : Prop where
  checked : checkThread s (ctxOf s (memberAsid s c.who)) need feat sync n ⟨0, addr, []⟩ = (s', .ok [⟨w, 0, n, addr.toNat % 2 ^ 48⟩])
  quiet : { s' with tlb := s.tlb } = s

/-- The same for several threads that name one address. -/
structure AllLead (s : State) (c : Issue) (need : Need) (sync feat : Bool) (n : Nat) (lanes : List Nat) (addr : DWord) (s' : State)
    (w : Way) : Prop where
  state : (checkAll s (ctxOf s (memberAsid s c.who)) need feat sync n (lanes.map fun l => ⟨l, addr, []⟩)).1 = s'
  checked : (checkAll s (ctxOf s (memberAsid s c.who)) need feat sync n (lanes.map fun l => ⟨l, addr, []⟩)).2.map (fun r => r.2) =
    lanes.map fun _ => .ok [⟨w, 0, n, addr.toNat % 2 ^ 48⟩]
  quiet : { s' with tlb := s.tlb } = s

/-- Where a request beyond the core goes, and the port it passes (R378, R379). -/
def wayTo : Target → Way
  | .window w off => .window w off
  | .fabric dev exp off => .fabric dev exp off
def portOf : Target → Nat
  | .window .. => 12
  | .fabric .. => 13
def ToPort (s : State) (c : Issue) (tg : Target) : Prop := circuitUp? s (memberDie s c.who).toNat (portOf tg) = true

/-- A request on the link: to the host at the window's bus address, with its No Snoop bit (R242, R395), or to a peer. -/
def wireOf (s : State) (tg : Target) (kind : ReqKind) (scope : BitVec 2) : Msg :=
  match tg with
  | .window w off =>
    let e := amGet Window.zero s.host.windows w
    .hostReq s.nextId tg (e.hbase + BitVec.ofNat 64 off) e.ns kind scope
  | .fabric .. => .fabricReq s.nextId tg kind scope

/-- From s to t one request has left for its target and will be answered; later says what follows it. -/
def Sent (s t : State) (c : Issue) (lanes : List (Nat × DWord)) (va : Nat) (tg : Target) (kind : ReqKind) (scope : BitVec 2)
    (later : List (Nat × ReqKind)) : Prop :=
  t.out = wireOf s tg kind scope :: s.out ∧ ∃ r, t.requests = s.requests ++ [r] ∧
    { r with dst := 0, plane := 0 } = ⟨s.nextId, some c.who, lanes, 0, 0, va, scope, (ctxOf s (memberAsid s c.who)).asid, tg, kind, later, 0⟩

/-- What an instruction waits for after its one request. -/
def askedOne (s : State) (load : Option (Nat × Nat × Bool)) (undone : LaneMask) (keep : Bool) : Asked :=
  ⟨[s.nextId], [], [], load, undone, keep, [], []⟩

/-- The group goes on, and the instruction, in flight, waits for the answer (R88, R249). -/
def LanesAsk (s t : State) (c : Issue) (base : State) (a : Asked) : Prop :=
  LaneRegs s t c (Effect.none c) ∧
    { t with groups := s.groups, requests := s.requests, out := s.out, nextId := s.nextId, tlb := s.tlb, cur := s.cur
             fresh := s.fresh } = base ∧
    ∃ f, (memberGroup t c.who).flights = [f] ∧ f.issue = c ∧ f.writes = [] ∧ f.gwrites = [] ∧ f.ask = some a ∧
      f.ckpt = (memberGroup s c.who).regs

/-- The spine waits for the answer at its instruction; no sprue register has been read (R27). -/
def SpineAsks (s t : State) (c : Issue) (k : Kc) (a : Asked) : Prop :=
  kcOf t k.id = { k with spine := { k.spine with asked := some (c, a) } } ∧ (∀ id, id ≠ k.id → kcOf t id = kcOf s id) ∧
    { t with kcs := s.kcs, requests := s.requests, out := s.out, nextId := s.nextId, tlb := s.tlb, cur := s.cur
             fresh := s.fresh } = s

/-- A lane's trap for a late cause that is met at once. -/
def lateAt (c : Issue) (lanes : List Nat) (l : Nat) (cause : Byte) (va : Nat) : Trap :=
  { trapOf c { cause := cause, late := true, lanes := maskOf lanes, addr := va } with lane := BitVec.ofNat 6 l }

/-- The little-endian value of n bytes of device memory. -/
def memVal (s : State) (pa n : Nat) : Nat := bytesToNat ((List.range n).map fun i => memByte s (pa + i))

/-- The number of data registers of a size code, and what register j takes of a loaded value (R245). -/
def regCount (size : Nat) : Nat := if size = 4 then 4 else if size = 3 then 2 else 1
def loadedWord (size : Nat) (sext : Bool) (v j : Nat) : Word :=
  if size = 0 ∧ sext = true then (BitVec.ofNat 8 v).signExtend 32
  else if size = 1 ∧ sext = true then (BitVec.ofNat 16 v).signExtend 32
  else BitVec.ofNat 32 (v / 2 ^ (32 * j))
def loadedX (size : Nat) (sext : Bool) (v : Nat) : DWord :=
  if size = 0 ∧ sext = true then (BitVec.ofNat 8 v).signExtend 64
  else if size = 1 ∧ sext = true then (BitVec.ofNat 16 v).signExtend 64
  else BitVec.ofNat 64 v
def loadV (l d size : Nat) (sext : Bool) (v : Nat) : Nat → Nat → Option Word := fun lane r =>
  if lane = l ∧ d ≤ r ∧ r < d + regCount size then some (loadedWord size sext v (r - d)) else none

/-- One active lane with nothing in flight, its registers legal and not poisoned. -/
structure SomeLanes (s : State) (c : Issue) (g : Group) (gd : PredNo) (regs : List Nat) : Prop where
  on : OnLanes s c g
  landed : g.flights = []
  clean : poisonedLanes g (activeLanes g c gd) regs = []

/-- The same with one active lane l. -/
structure OneLane (s : State) (c : Issue) (g : Group) (gd : PredNo) (l : Nat) (regs : List Nat) : Prop where
  on : OnLanes s c g
  landed : g.flights = []
  one : activeLanes g c gd = [l]
  clean : poisonedLanes g [l] regs = []

/-- The spine with its guard true and no access, trap or poison; a sprue register as address is FULL and clean. -/
structure SpineAddr (s : State) (c : Issue) (k : Kc) (gd : PredNo) (a : RegField) : Prop where
  on : OnSpine s c k
  guard : spinePred k.spine gd = true
  free : k.spine.trap = none ∧ k.spine.asked = none ∧ k.spine.poison = []
  address : 32 ≤ a.toNat → a.toNat - 32 < k.cfgSprue ∧ isFull (sprueGet k (a.toNat - 32)) = true ∧
    (sprueGet k (a.toNat - 32)).poison = false

/-- The state after the address register is read, and the address. -/
def addrRead (s : State) (k : Kc) (a : RegField) : State := consumeAll s k.id (spineSprue a).toList
def addrOf (k : Kc) (a : RegField) : DWord := if a.toNat < 32 then xGet k.spine a.toNat else (sprueGet k (a.toNat - 32)).value

/-- The registers of an access on lanes lie in the budget. -/
def accessOk (g : Group) (size : Nat) (d a : RegField) : Prop :=
  vOk g.budget true a.toNat = true ∧ dataOk g.budget size d.toNat = true

/-- Where a read of a die is served: at the page's replica in one of its own stacks, if there is one (R371). -/
def readAt (s : State) (c : Issue) (pa : Nat) (cls : BitVec 2) : Nat := servedAt s (memberDie s c.who) pa cls

/-- Each lane its own value, of a list of lanes. -/
def lanesV (act : List Nat) (v : Nat → Nat → Nat → Option Word) : Nat → Nat → Option Word := fun lane r =>
  if lane ∈ act then v lane lane r else none

/-- The state after a member's access, as far as its team is concerned: an acquire sees the completed swaps (R202, R217). -/
def accessFrom (s : State) (c : Issue) (acq : Bool) : State := if acq then acquireSwaps s c.who else s

/-- A load from device memory: every active lane its own bytes (R246). Of the replicas only the time of their last use
changes. -/
def Loads (i : Instr) (gd : PredNo) (d a : RegField) (size : Nat) (sext sync : Bool) (la : Nat) : Prop :=
  (∀ s c g s' pa cls, SomeLanes s c g gd [a.toNat, a.toNat + 1] → accessOk g size d a →
    AllReach s c { r := true } sync true (2 ^ size) (activeLanes g c gd) (fun l => pairAt g l a.toNat) s' pa cls →
    ∃ t, exec i s = .next t ∧
      { t with groups := s.groups, tlb := s.tlb, ctxs := s.ctxs, replicas := s.replicas, cur := s.cur, fresh := s.fresh } =
        accessFrom s c sync ∧
      (t.replicas.map fun r => (r.frame, r.copy)) = (s.replicas.map fun r => (r.frame, r.copy)) ∧
      LandsOrFlies s t c la (lanesV (activeLanes g c gd) fun l =>
        loadV l d.toNat size sext (memVal s (readAt s c (pa l) (cls l)) (2 ^ size)))) ∧
  (∀ s c k s' pa cls, SpineAddr s c k gd a → size ≤ 3 →
    (32 ≤ d.toNat → d.toNat - 32 < k.cfgSprue ∧ (sprueGet k (d.toNat - 32)).st = .empty) →
    Reaches (addrRead s k a) c { r := true } sync true (2 ^ size) (addrOf k a) s' pa cls →
    ∃ t, exec i s = .next t ∧
      { t with kcs := s.kcs, tlb := s.tlb, ctxs := s.ctxs, replicas := s.replicas, cur := s.cur, fresh := s.fresh } = s ∧
      (let v := loadedX size sext (memVal s (readAt s c pa cls) (2 ^ size))
       SprueBecomes s (updSpine t k.id fun _ => k.spine) k.id (fun j q =>
         if j + 32 = a.toNat then consumed q else if j + 32 = d.toNat then written q v else q) ∧
       SpineRegs s t k.id (fun r => if r = d.toNat ∧ r < 32 then some v else none) (fun _ => none) 0 (nextPc c)))

/-- A load beyond the core (R242, R249, R379): one request leaves, to a host window or to a peer, and the instruction waits; where
no circuit is up to the port, DIE_OFFLINE_REPLY is raised late. -/
def LoadsBeyond (i : Instr) (gd : PredNo) (d a : RegField) (size : Nat) (sext sync : Bool) (scope : BitVec 2) : Prop :=
  (∀ s c g l s' tg, OneLane s c g gd l [a.toNat, a.toNat + 1] → accessOk g size d a →
    Leads s c { r := true } sync true (2 ^ size) (pairAt g l a.toNat) s' (wayTo tg) →
    (let va := (pairAt g l a.toNat).toNat % 2 ^ 48
     (ToPort s c tg → ∃ t, exec i s = .next t ∧ Sent s t c [(l, 0)] va tg (.load (2 ^ size)) scope [] ∧
       LanesAsk s t c s (askedOne s (some (d.toNat, size, sext)) (maskOf [l]) false)) ∧
     (¬ ToPort s c tg → ∃ t, exec i s = .next t ∧ LanesStop s' t c (lateAt c [l] l 0x14 va)))) ∧
  (∀ s c k s' tg, SpineAddr s c k gd a → size ≤ 3 →
    (32 ≤ d.toNat → d.toNat - 32 < k.cfgSprue ∧ (sprueGet k (d.toNat - 32)).st = .empty) →
    Leads (addrRead s k a) c { r := true } sync true (2 ^ size) (addrOf k a) s' (wayTo tg) → ToPort s c tg →
    ∃ t, exec i s = .next t ∧ Sent s t c [(0, 0)] ((addrOf k a).toNat % 2 ^ 48) tg (.load (2 ^ size)) scope [] ∧
      SpineAsks s t c k (askedOne s (some (d.toNat, size, sext)) 1 false))

/-- The state in which one arrival at doorbell idx of context x has been made by a store (R208, R392, R421): forwarded to the
device where the context went; dropped and counted at a doorbell that is not exported; counted for a saved kernel cluster;
and else one arrival at the barrier. -/
def Rings (s t : State) (x : Ctx) (idx : Nat) (rel : Bool) : Prop :=
  (∀ f, s.host.forwards.find? (fun f => f.asid = x.asid) = some f → f.live = true →
    t.out = .fabricReq s.nextId (.fabric f.dev.toNat f.exp.toNat (64 * idx)) (.door 1 rel) (if rel then 3 else 0) :: s.out ∧
      t.teams = s.teams) ∧
  (s.host.forwards.find? (fun f => f.asid = x.asid) = none →
    (amGet none x.doors idx = none → (funcOf t x.vf).dbdrop = (funcOf s x.vf).dbdrop + 1 ∧ t.teams = s.teams) ∧
    ∀ kc core slot, amGet none x.doors idx = some (kc, core, slot) →
      ((∃ v, (kcOf s kc).status = .saved v) → amGet 0 (ctxOf t x.asid).counted idx = (amGet 0 x.counted idx + 1) % 2 ^ 64 ∧
        t.teams = s.teams) ∧
      ∀ T, (∀ v, (kcOf s kc).status ≠ .saved v) → s.teams.find? (fun q => q.kc = kc ∧ q.core = core) = some T → slot < T.bars.length →
        (let b := barOf T slot
         MayArrive b 0 → ¬(b.a + 1 = b.e ∧ b.lb = b.eb) → barOf (teamOf t kc core) slot = { b with a := b.a + 1 })) ∧
  t.mem = s.mem

/-- A store beyond the core (R208, R249, R379, R396): a posted write to a host window leaves and completes, and is lost where
no circuit is up; one to a peer waits for its answer; one to a doorbell is an arrival. -/
def StoresBeyond (i : Instr) (gd : PredNo) (d a : RegField) (size : Nat) (sync : Bool) (scope : BitVec 2) (la : Nat)
    (busy : State → Issue → Bool) : Prop :=
  let bytes := fun (g : Group) (l : Nat) => (List.range (2 ^ size)).map fun i => (vGet g.regs l (d.toNat + i / 4)).extractLsb' (8 * (i % 4)) 8
  let data := fun (k : Kc) => (List.range (2 ^ size)).map fun i => (xGet k.spine d.toNat).extractLsb' (8 * i) 8
  (∀ s c g l s' w, OneLane s c g gd l ([a.toNat, a.toNat + 1] ++ (List.range (regCount size)).map (d.toNat + ·)) →
    accessOk g size d a → busy s c = false → Leads s c { w := true } sync true (2 ^ size) (pairAt g l a.toNat) s' w →
    (let va := (pairAt g l a.toNat).toNat % 2 ^ 48
     (∀ wn off, w = .window wn off → ∃ t, exec i s = .next t ∧ t.requests = s.requests ∧ t.mem = s.mem ∧ t.teams = s.teams ∧
       LandsOrFlies s t c la (fun _ _ => none) ∧
       t.out = if circuitUp? s (memberDie s c.who).toNat 12 then wireOf s (.window wn off) (.store (bytes g l) false) scope :: s.out
         else s.out) ∧
     (∀ dev exp off, w = .fabric dev exp off →
       (ToPort s c (.fabric dev exp off) →
         ∃ t, exec i s = .next t ∧ Sent s t c [(l, 0)] va (.fabric dev exp off) (.store (bytes g l) false) scope [] ∧
           LanesAsk s t c s (askedOne s none (maskOf [l]) false)) ∧
       (¬ ToPort s c (.fabric dev exp off) → ∃ t, exec i s = .next t ∧ LanesStop s' t c (lateAt c [l] l 0x14 va))) ∧
     (∀ x idx off, w = .door x.asid idx off → CtxHere s x → doorOffline s (memberDie s c.who).toNat x.asid idx = false →
       ∃ t, exec i s = .next t ∧ Rings s t x idx sync ∧ LandsOrFlies s t c la (fun _ _ => none)))) ∧
  (∀ s c k s' w, SpineAddr s c k gd a → size ≤ 3 → d.toNat < 32 → busy s c = false →
    Leads (addrRead s k a) c { w := true } sync true (2 ^ size) (addrOf k a) s' w →
    (∀ wn off, w = .window wn off → circuitUp? s (memberDie s c.who).toNat 12 = true →
      ∃ t, exec i s = .next t ∧ t.requests = s.requests ∧ t.mem = s.mem ∧
        t.out = wireOf s (.window wn off) (.store (data k) false) scope :: s.out ∧
        SprueBecomes s (updSpine t k.id fun _ => k.spine) k.id (fun j q => if j + 32 = a.toNat then consumed q else q) ∧
        SpineRegs s t k.id (fun _ => none) (fun _ => none) 0 (nextPc c)) ∧
    (∀ dev exp off, w = .fabric dev exp off → ToPort s c (.fabric dev exp off) →
      ∃ t, exec i s = .next t ∧ Sent s t c [(0, 0)] ((addrOf k a).toNat % 2 ^ 48) (.fabric dev exp off) (.store (data k) false) scope [] ∧
        SpineAsks s t c k (askedOne s none 1 false)))

/-- Device memory from s to t: the n bytes at pa are those given; every other byte is as before but the
touched-dies mask of the context, in its descriptor (R328). -/
def MemStored (s t : State) (c : Issue) (pa n : Nat) (byte : Nat → Byte) : Prop :=
  (∀ i, i < n → memByte t (pa + i) = byte i) ∧
    ∀ a, (a < pa ∨ pa + n ≤ a) → a ≠ (ctxOf s (memberAsid s c.who)).desc + 0x58 → memByte t a = memByte s a

/-- What an access that writes memory may change beside the member that issues it. -/
def OnlyStored (s t : State) : Prop :=
  { t with groups := s.groups, kcs := s.kcs, tlb := s.tlb, ctxs := s.ctxs, mem := s.mem, memPoison := s.memPoison
           blockMarks := s.blockMarks, oldText := s.oldText, tund := s.tund, agenda := s.agenda, cur := s.cur
           fresh := s.fresh } = s

/-- A store to device memory: of active lanes that store to the same byte, the highest lane's value stays (R251). busy
says when a release waits instead. -/
def Stores (i : Instr) (gd : PredNo) (d a : RegField) (size : Nat) (sync : Bool) (la : Nat) (busy : State → Issue → Bool) : Prop :=
  (∀ s c g s' pa cls, SomeLanes s c g gd ([a.toNat, a.toNat + 1] ++ (List.range (regCount size)).map (d.toNat + ·)) →
    accessOk g size d a → busy s c = false →
    AllReach s c { w := true } sync true (2 ^ size) (activeLanes g c gd) (fun l => pairAt g l a.toNat) s' pa cls →
    ∃ t, exec i s = .next t ∧ OnlyStored s t ∧ t.kcs = s.kcs ∧ LandsOrFlies s t c la (fun _ _ => none) ∧
      ∀ b, b ≠ (ctxOf s (memberAsid s c.who)).desc + 0x58 → memByte t b =
        match (activeLanes g c gd).reverse.find? fun l => decide (pa l ≤ b) && decide (b < pa l + 2 ^ size) with
        | some l => (vGet g.regs l (d.toNat + (b - pa l) / 4)).extractLsb' (8 * ((b - pa l) % 4)) 8
        | none => memByte s b) ∧
  (∀ s c k s' pa cls, SpineAddr s c k gd a → size ≤ 3 → d.toNat < 32 → busy s c = false →
    Reaches (addrRead s k a) c { w := true } sync true (2 ^ size) (addrOf k a) s' pa cls →
    ∃ t, exec i s = .next t ∧ OnlyStored s t ∧ t.groups = s.groups ∧
      SprueBecomes s (updSpine t k.id fun _ => k.spine) k.id (fun j q => if j + 32 = a.toNat then consumed q else q) ∧
      SpineRegs s t k.id (fun _ => none) (fun _ => none) 0 (nextPc c) ∧
      MemStored s t c pa (2 ^ size) fun i => (xGet k.spine d.toNat).extractLsb' (8 * i) 8)

/-- The team of an access that changes bytes of the A buffer keeps everything but them, its regions and its poison. -/
def OnlyA (T T' : Team) : Prop := { T' with a := T.a, regions := T.regions, poison := T.poison } = T

/-- The lanes of one atomic instruction that name one address (R63, R257): what memory becomes, from its old value and
the operands and new values of the lanes in order, and what the lane after the lower ones gets. Aggregated, the operands
are combined first; serial (`exch`, `cas`), the lanes apply one at a time. -/
def lowerLanes (act : List Nat) (l : Nat) : List Nat := act.takeWhile fun i => i ≠ l
def combined (serial : Bool) (f : Nat → Nat → Nat → Nat) (b new : Nat → Nat) (old : Nat) : List Nat → Nat
  | [] => old
  | l :: ls => if serial then ls.foldl (fun m i => f m (b i) (new i)) (f old (b l) (new l))
    else f old (ls.foldl (fun m i => f m (b i) 0) (b l)) 0

/-! ### Stepped regions (R198 to R200) -/

/-- A word of a region's next plane with its key: none while its written bit is clear. -/
def wordIn (r : Region) (w : Nat) : Option (Word × Nat) :=
  if amGet false r.written w then some (BitVec.ofNat 32 (getNat r.nextPl (4 * w) 4), amGet 0 r.keys w) else none

/-- One more store to a word, under the region's rule: prio keeps the larger key (of equal ones the earlier), the sums
add. -/
def stored (rule : BitVec 2) (st : Option (Word × Nat)) (v : Word) (key : Nat) : Option (Word × Nat) :=
  match st with
  | none => some (v, key)
  | some (old, k) =>
    if rule = 0 then (if k < key then some (v, key) else some (old, k))
    else if rule = 1 then some (old + v, key)
    else some (BitVec.ofNat 32 (fAdd fmtF32 old.toNat v.toNat).1, key)

/-- The word and, under prio, its key are those given. -/
def StoredWord (rule : BitVec 2) (got want : Option (Word × Nat)) : Prop :=
  if rule = 0 then got = want else got.map Prod.fst = want.map Prod.fst

/-- Whether lane l's store under the fault rule meets a word already written, or held while its group has arrived, or one
that another active lane stores. -/
def collides (T : Team) (group n : Nat) (off : Nat → Nat) (act : List Nat) (l : Nat) : Bool :=
  match regionAt T (off l) n with
  | some r => decide (r.rule = 3) && (List.range (n / 4)).any fun i =>
      (if r.arrived.contains group
        then r.held.any fun h => decide (h.addr / 4 ≤ off l / 4 + i) && decide (off l / 4 + i < (h.addr + h.bytes.length) / 4)
        else amGet false r.written (off l / 4 + i)) ||
      act.any fun j => decide (j ≠ l) && decide (off j / 4 ≤ off l / 4 + i) && decide (off l / 4 + i < off j / 4 + n / 4)
  | none => false

/-- An atomic on device memory or on the team's A buffer: memory becomes f of its old value, the operand and, for `cas`,
the new value; the old value goes to d; lanes that name one address act together (R63). -/
def FormAtom (mk : OpsAtom → Instr) (cas serial : Bool) (f : (n : Nat) → BitVec n → BitVec n → BitVec n → BitVec n) : Prop :=
  ∀ o : OpsAtom,
    let n := if o.wide then 8 else 4
    let size := if o.wide then 3 else 2
    let d := o.d.toNat
    let count := (if o.wide then 2 else 1) * (if cas then 2 else 1)
    let new := fun (old b new : Nat) => (f (8 * n) (BitVec.ofNat (8 * n) old) (BitVec.ofNat (8 * n) b) (BitVec.ofNat (8 * n) new)).toNat
    let operand := fun (g : Group) (l j : Nat) =>
      if o.wide then (pairAt g l (d + 2 * j)).toNat else (vGet g.regs l (d + j)).toNat
    (∀ s c g l s' pa cls, o.x = false → OneLane s c g o.g l ([o.a.toNat, o.a.toNat + 1] ++ (List.range count).map (d + ·)) →
      vOk g.budget true o.a.toNat = true → (o.wide = true → d % 2 = 0) → d + count ≤ g.budget → d + count ≤ 64 →
      Reaches s c { r := true, w := true, atomic := true } true ((memberFeat s c.who).getLsbD 3) n (pairAt g l o.a.toNat) s' pa cls →
      ∃ t, exec (mk o) s = .next t ∧ OnlyStored s t ∧ t.kcs = s.kcs ∧
        LandsOrFlies s t c o.la.toNat (loadV l d size false (memVal s pa n)) ∧
        MemStored s t c pa n fun i =>
          BitVec.ofNat 8 (new (memVal s pa n) (operand g l 0) (if cas then operand g l 1 else 0) / 2 ^ (8 * i))) ∧
    (∀ s c g s' pa cls addr, o.x = false → SomeLanes s c g o.g ([o.a.toNat, o.a.toNat + 1] ++ (List.range count).map (d + ·)) →
      vOk g.budget true o.a.toNat = true → (o.wide = true → d % 2 = 0) → d + count ≤ g.budget → d + count ≤ 64 →
      activeLanes g c o.g ≠ [] → (∀ l ∈ activeLanes g c o.g, pairAt g l o.a.toNat = addr) →
      AllReach s c { r := true, w := true, atomic := true } true ((memberFeat s c.who).getLsbD 3) n (activeLanes g c o.g)
        (fun _ => addr) s' (fun _ => pa) (fun _ => cls) →
      (let act := activeLanes g c o.g
       let value := combined serial new (fun l => operand g l 0) (fun l => if cas then operand g l 1 else 0) (memVal s pa n)
       ∃ t, exec (mk o) s = .next t ∧ OnlyStored s t ∧ t.kcs = s.kcs ∧
         LandsOrFlies s t c o.la.toNat (lanesV act fun l => loadV l d size false (value (lowerLanes act l))) ∧
         MemStored s t c pa n fun i => BitVec.ofNat 8 (value act / 2 ^ (8 * i)))) ∧
    (∀ s c g T a, o.x = true → SomeLanes s c g o.g ([o.a.toNat] ++ (List.range count).map (d + ·)) →
      s.teams.find? (fun t => t.kc = g.kc ∧ t.core = g.core) = some T →
      vOk g.budget false o.a.toNat = true → (o.wide = true → d % 2 = 0) → d + count ≤ g.budget → d + count ≤ 64 →
      activeLanes g c o.g ≠ [] → (∀ l ∈ activeLanes g c o.g, (vGet g.regs l o.a.toNat).toNat = a) →
      a % n = 0 → bufCheck s g.kc g.core .bufA a n true false true 2 a = none → bufPoisoned T .bufA a n = false →
      (let act := activeLanes g c o.g
       let value := combined serial new (fun l => operand g l 0) (fun l => if cas then operand g l 1 else 0)
         (bytesToNat (bufRead T .bufA a n))
       ∃ t, exec (mk o) s = .next t ∧ OnlyTeam s t g.kc g.core ∧ OnlyA T (teamOf t g.kc g.core) ∧
         (teamOf t g.kc g.core).regions = T.regions ∧
         LandsOrFlies s t c o.la.toNat (lanesV act fun l => loadV l d size false (value (lowerLanes act l))) ∧
         ∀ b, bufByte (teamOf t g.kc g.core) .bufA b =
           if a ≤ b ∧ b < a + n then BitVec.ofNat 8 (value act / 2 ^ (8 * (b - a))) else bufByte T .bufA b)) ∧
    (∀ s c g l T, o.x = true → OneLane s c g o.g l ([o.a.toNat] ++ (List.range count).map (d + ·)) →
      s.teams.find? (fun t => t.kc = g.kc ∧ t.core = g.core) = some T →
      vOk g.budget false o.a.toNat = true → (o.wide = true → d % 2 = 0) → d + count ≤ g.budget → d + count ≤ 64 →
      (let a := (vGet g.regs l o.a.toNat).toNat
       let old := bytesToNat (bufRead T .bufA a n)
       a % n = 0 → bufCheck s g.kc g.core .bufA a n true false true 2 a = none → bufPoisoned T .bufA a n = false →
       ∃ t, exec (mk o) s = .next t ∧ OnlyTeam s t g.kc g.core ∧ OnlyA T (teamOf t g.kc g.core) ∧
         (teamOf t g.kc g.core).regions = T.regions ∧ LandsOrFlies s t c o.la.toNat (loadV l d size false old) ∧
         bytesToNat (bufRead (teamOf t g.kc g.core) .bufA a n) =
           new old (operand g l 0) (if cas then operand g l 1 else 0) ∧
         ∀ a', (a' < a ∨ a + n ≤ a') → bufByte (teamOf t g.kc g.core) .bufA a' = bufByte T .bufA a')) ∧
    (∀ s c k s' pa cls, o.x = false → SpineAddr s c k o.g o.a → d < 32 → (cas = true → d < 31) →
      Reaches (addrRead s k o.a) c { r := true, w := true, atomic := true } true ((memberFeat s c.who).getLsbD 3) n (addrOf k o.a) s' pa cls →
      ∃ t, exec (mk o) s = .next t ∧ OnlyStored s t ∧ t.groups = s.groups ∧
        SprueBecomes s (updSpine t k.id fun _ => k.spine) k.id (fun j q => if j + 32 = o.a.toNat then consumed q else q) ∧
        SpineRegs s t k.id (fun r => if r = d then some (BitVec.ofNat 64 (memVal s pa n)) else none) (fun _ => none) 0 (nextPc c) ∧
        MemStored s t c pa n fun i => BitVec.ofNat 8
          (new (memVal s pa n) ((xGet k.spine d).toNat % 2 ^ (8 * n)) (if cas then (xGet k.spine (d + 1)).toNat % 2 ^ (8 * n) else 0) /
            2 ^ (8 * i)))

/-- An atomic beyond the core (R63, R259, R260): its request leaves for a peer, or for a host window that takes it, aggregated
for `add`, lane after lane for `exch` and `cas`; any other op, a scope other than sys and a window whose atomic-capable bit is
clear raise SYS_ATOMIC_UNSUPPORTED. -/
def AtomBeyond (mk : OpsAtom → Instr) (op : Nat) : Prop :=
  ∀ o : OpsAtom, o.x = false →
    let n := if o.wide then 8 else 4
    let size := if o.wide then 3 else 2
    let d := o.d.toNat
    let count := (if o.wide then 2 else 1) * (if op = 7 then 2 else 1)
    let operand := fun (g : Group) (l j : Nat) =>
      if o.wide then (pairAt g l (d + 2 * j)).toNat else (vGet g.regs l (d + j)).toNat
    let request := fun (b new : Nat) => ReqKind.atom (BitVec.ofNat 3 op) o.wide (BitVec.ofNat 64 b) (BitVec.ofNat 64 new)
    let single := fun (g : Group) (l : Nat) => request (operand g l 0) (if op = 7 then operand g l 1 else 0)
    let sum := fun (g : Group) (ls : List Nat) => (ls.map fun l => operand g l 0).sum % 2 ^ (8 * n)
    let need : Need := { r := true, w := true, atomic := true }
    let allowed := fun (s : State) (tg : Target) => ∀ w off, tg = .window w off →
      (amGet Window.zero s.host.windows w).atomc = true ∧ o.scope = 3 ∧ (op = 0 ∨ op = 6 ∨ op = 7)
    let ok := fun (g : Group) => vOk g.budget true o.a.toNat = true ∧ (o.wide = true → d % 2 = 0) ∧ d + count ≤ g.budget ∧ d + count ≤ 64
    let regs := [o.a.toNat, o.a.toNat + 1] ++ (List.range count).map (d + ·)
    (∀ s c g l s' tg, OneLane s c g o.g l regs → ok g →
      Leads s c need true ((memberFeat s c.who).getLsbD 3) n (pairAt g l o.a.toNat) s' (wayTo tg) →
      (let va := (pairAt g l o.a.toNat).toNat % 2 ^ 48
       (allowed s tg → ToPort s c tg → ∃ t, exec (mk o) s = .next t ∧ Sent s t c [(l, 0)] va tg (single g l) o.scope [] ∧
         LanesAsk s t c s (askedOne s (some (d, size, false)) (maskOf [l]) true)) ∧
       (allowed s tg → ¬ ToPort s c tg → ∃ t, exec (mk o) s = .next t ∧ LanesStop s' t c (lateAt c [l] l 0x14 va)) ∧
       (¬ allowed s tg → ∃ t, exec (mk o) s = .next t ∧ LanesStop s t c (trapOf c { cause := 0x11, lanes := maskOf [l], addr := va })))) ∧
    (∀ s c g s' tg addr l ls, SomeLanes s c g o.g regs → ok g → activeLanes g c o.g = l :: ls →
      (∀ i ∈ activeLanes g c o.g, pairAt g i o.a.toNat = addr) →
      AllLead s c need true ((memberFeat s c.who).getLsbD 3) n (activeLanes g c o.g) addr s' (wayTo tg) → allowed s tg → ToPort s c tg →
      ∃ t, exec (mk o) s = .next t ∧ LanesAsk s t c s (askedOne s (some (d, size, false)) (maskOf (l :: ls)) true) ∧
        (op = 0 → Sent s t c ((l :: ls).map fun i => (i, BitVec.ofNat 64 (sum g (lowerLanes (l :: ls) i)))) (addr.toNat % 2 ^ 48) tg
          (request (sum g (l :: ls)) 0) o.scope []) ∧
        (op = 6 ∨ op = 7 → Sent s t c [(l, 0)] (addr.toNat % 2 ^ 48) tg (single g l) o.scope (ls.map fun i => (i, single g i)))) ∧
    (∀ s c k s' tg, SpineAddr s c k o.g o.a → d < 32 → (op = 7 → d < 31) →
      Leads (addrRead s k o.a) c need true ((memberFeat s c.who).getLsbD 3) n (addrOf k o.a) s' (wayTo tg) → allowed s tg → ToPort s c tg →
      ∃ t, exec (mk o) s = .next t ∧ SpineAsks s t c k (askedOne s (some (d, size, false)) 1 true) ∧
        Sent s t c [(0, 0)] ((addrOf k o.a).toNat % 2 ^ 48) tg (request ((xGet k.spine d).toNat % 2 ^ (8 * n))
          (if op = 7 then (xGet k.spine (d + 1)).toNat % 2 ^ (8 * n) else 0)) o.scope [])

/-! ### Append pages -/

/-- Why a reservation of n bytes is refused, in the order of R362: none when it is granted. -/
def refusal (s : State) (f n : Nat) : Option Word :=
  let e := frameEntry s f
  let window := 2 ^ (apWlog e + 10)
  if e.apst ≠ 1 ∨ apSealw e = true then some 0x80000003
  else if n = 0 ∨ window < n then some 0x80000005
  else if 65536 < apRtail e + n then some 0x80000002
  else if apNres e = 16 ∨ 8192 ≤ (s.resvs.filter fun r => r.frame / 2 ^ 20 = f / 2 ^ 20).length then some 0x80000004
  else if window < apRtail e + n - apCtail e then some 0x80000001
  else none

/-- A PAGE request of one thread that reaches its page's home, frame f, offset off, with data: it gives v and has the
effect post; registers, other pages and memory outside the context's descriptor change only as post says. acq says that it
acquires. -/
def PageGives (i : Instr) (gd : PredNo) (d a : RegField) (la size : Nat) (write reads acq : Bool)
    (cond : State → (f off data : Nat) → Prop) (v : State → (f off data : Nat) → Nat)
    (post : State → State → Issue → (f off data : Nat) → Prop) : Prop :=
  let frame : State → State → Issue → Nat → Prop := fun s t c f =>
    { t with groups := s.groups, kcs := s.kcs, tlb := s.tlb, frameTab := s.frameTab, resvs := s.resvs, ctxs := s.ctxs
             mem := s.mem, memPoison := s.memPoison, blockMarks := s.blockMarks, oldText := s.oldText, tund := s.tund
             agenda := s.agenda, cur := s.cur, fresh := s.fresh } = accessFrom s c acq ∧
      ∀ f', f' ≠ f → frameEntry t f' = frameEntry s f'
  (∀ s c g l s' pa cls, OneLane s c g gd l ([a.toNat, a.toNat + 1] ++ if reads then (List.range (regCount size)).map (d.toNat + ·) else []) →
    accessOk g size d a → Reaches s c { r := !write, w := write, page := true } false true 1 (pairAt g l a.toNat) s' pa cls →
    (∀ w ∈ s.watches, w.frame ≠ pa / 65536) →
    (let off := (pairAt g l a.toNat).toNat % 65536
     let data := bytesToNat (laneData s g l size d.toNat)
     cond s (pa / 65536) off data →
     ∃ t, exec i s = .next t ∧ frame s t c (pa / 65536) ∧ t.kcs = s.kcs ∧
       LandsOrFlies s t c la (oneV d.toNat [l] fun _ => BitVec.ofNat 32 (v s (pa / 65536) off data)) ∧
       post s t c (pa / 65536) off data)) ∧
  (∀ s c k s' pa cls, SpineAddr s c k gd a → size ≤ 3 → d.toNat < 32 →
    Reaches s c { r := !write, w := write, page := true } false true 1 (addrOf k a) s' pa cls →
    (∀ w ∈ s.watches, w.frame ≠ pa / 65536) →
    (let off := (addrOf k a).toNat % 65536
     let data := (xGet k.spine d.toNat).toNat % 2 ^ (8 * 2 ^ size)
     cond s (pa / 65536) off data →
     ∃ t, exec i s = .next t ∧ frame s t c (pa / 65536) ∧ t.groups = s.groups ∧
       SprueBecomes s (updSpine t k.id fun _ => k.spine) k.id (fun j q => if j + 32 = a.toNat then consumed q else q) ∧
       SpineRegs s t k.id (fun r => if r = d.toNat then some (BitVec.ofNat 64 (v s (pa / 65536) off data)) else none)
         (fun _ => none) 0 (nextPc c) ∧
       post s t c (pa / 65536) off data))

/-- The state code of a tail word (R361): 1 open, 2 closing, 3 sealed. -/
def tailCode (e : FrameEntry) : Nat := if e.apst = 2 then 3 else if apSealw e then 2 else 1

/-- No page, reservation or byte of memory changes. -/
def PagesSame (s t : State) : Prop := t.frameTab = s.frameTab ∧ t.resvs = s.resvs ∧ t.mem = s.mem

/-- The bytes reserved by `apres`: the low 17 bits, rounded up to a multiple of 4 (R362). -/
def reserveSize (data : Nat) : Nat := (data % 2 ^ 17 + 3) / 4 * 4

end Sys2Proof.Claims

/-! ### Barriers -/

/-- R199 to R206, R271 to R278: arrivals and phases with the swap of planes, arrivals turned away with BARRIER_COUNT and
waits that a count mismatch ends, `barm` with the phases it completes and its own BARRIER_COUNT, `wait` that goes on,
blocks or faults, `phrd`, `bexp` with its PROTECTION when no doorbell is free, `bfree`.
Of the model's own readings it rests on log entries 10, 11, 12 and 78. -/
def Obligations.BarriersAndSteps : Prop :=
  (∀ o : OpsBarK, Arrives (.arv o) o.slot o.k6.toNat (fun _ => True)) ∧
  (∀ o : OpsBarK, Arrives (.step o) o.slot 0 (fun T => ∃ r ∈ T.regions, r.idx = o.k6.toNat ∧ r.slot = o.slot.toNat)) ∧
  (∀ o : OpsBarK, ArrivalRefused (.arv o) o.slot o.k6.toNat (fun _ => True)) ∧
  (∀ o : OpsBarK, ArrivalRefused (.step o) o.slot 0 (fun T => ∃ r ∈ T.regions, r.idx = o.k6.toNat ∧ r.slot = o.slot.toNat)) ∧
  (∀ o : OpsBar, ∀ s c g T l ls, AtBarrier s c g o.slot T → vOk g.budget false o.reg.toNat = true →
    activeLanes g c o.g = l :: ls → g.poison.contains (l * 64 + o.reg.toNat) = false →
    (let b := barOf T o.slot.toNat
     let e := (vGet g.regs l o.reg.toNat).toNat
     (b.f = false → e ≤ 1023 → (e ≠ 0 ∨ (b.a = 0 ∧ b.eb = 0 ∧ b.lb = 0)) → ¬(e ≠ 0 ∧ e ≤ b.a.toNat ∧ b.lb = b.eb) →
       ∃ t, exec (.barm o) s = .next t ∧ OnlyTeam s t g.kc g.core ∧ LaneRegs s t c (Effect.none c) ∧
         BarBecomes T (teamOf t g.kc g.core) o.slot.toNat { b with e := BitVec.ofNat 10 e }) ∧
     (b.f = true → e ≤ 1023 → (e = 0 ∨ b.h.toNat < e) →
       ∃ t, exec (.barm o) s = .next t ∧ OnlyTeam s t g.kc g.core ∧ LaneRegs s t c (Effect.none c) ∧
         BarBecomes T (teamOf t g.kc g.core) o.slot.toNat
           { b with f := false, e := BitVec.ofNat 10 e, a := b.h, h := 0, eb := 0, lb := 0 }) ∧
     (b.f = false → e ≤ 1023 → e ≠ 0 → e ≤ b.a.toNat → b.lb = b.eb →
       ∃ t, exec (.barm o) s = .next t ∧ OnlyTeam s t g.kc g.core ∧ LaneRegs s t c (Effect.none c) ∧
         BarBecomes T (teamOf t g.kc g.core) o.slot.toNat { b with
           e := BitVec.ofNat 10 e, p := b.p + BitVec.ofNat 16 (b.a.toNat / e), a := BitVec.ofNat 10 (b.a.toNat % e), eb := 0, lb := 0 }) ∧
     (b.f = true → e ≤ 1023 → e ≠ 0 → e ≤ b.h.toNat →
       ∃ t, exec (.barm o) s = .next t ∧ OnlyTeam s t g.kc g.core ∧ LaneRegs s t c (Effect.none c) ∧
         BarBecomes T (teamOf t g.kc g.core) o.slot.toNat { b with
           f := false, h := 0, e := BitVec.ofNat 10 e, p := b.p + BitVec.ofNat 16 (b.h.toNat / e)
           a := BitVec.ofNat 10 (b.h.toNat % e), eb := 0, lb := 0 }) ∧
     (1023 < e ∨ (b.f = false ∧ e = 0 ∧ ¬(b.a = 0 ∧ b.eb = 0 ∧ b.lb = 0)) →
       ∃ t, exec (.barm o) s = .next t ∧ t.teams = s.teams ∧
         TrapTaken s t c (trapOf c { cause := 0x0B, lanes := maskOf (l :: ls) })) ∧
     (b.f = true ∨ wokeFaulted g c = true → ∃ t, exec (.wait o) s = .next t ∧ t.teams = s.teams ∧
       TrapTaken s t c (trapOf c { cause := 0x0B, lanes := maskOf (l :: ls) })) ∧
     (b.f = false → wokeFaulted g c = false → b.p ≠ (vGet g.regs l o.reg.toNat).extractLsb' 0 16 →
       ∃ t, exec (.wait o) s = .next t ∧ OnlyTeam s t g.kc g.core ∧ LaneRegs s t c (Effect.none c) ∧
         teamOf t g.kc g.core = { T with regions := T.regions.map fun r => { r with behind := r.behind.filter fun i => i ≠ g.idx } }) ∧
     (b.f = false → wokeFaulted g c = false → b.p = (vGet g.regs l o.reg.toNat).extractLsb' 0 16 → stopping (kcOf s g.kc) = false →
       ∃ t, exec (.wait o) s = .next t ∧ OnlyGroups s t ∧
         { (memberGroup t c.who).regs with frontier := g.regs.frontier } = g.regs ∧
         (∀ w, ⟨c.pc, c.prio, c.mask, w⟩ ∈ g.regs.frontier →
           ⟨c.pc, c.prio, c.mask, some (.phase o.slot b.p)⟩ ∈ (memberGroup t c.who).regs.frontier) ∧
         ∀ en, en.mask ≠ c.mask → (en ∈ (memberGroup t c.who).regs.frontier ↔ en ∈ g.regs.frontier)))) ∧
  (∀ o : OpsBar, ∀ s c g T, AtBarrier s c g o.slot T → vOk g.budget false o.reg.toNat = true → activeLanes g c o.g = [] →
    (∃ t, exec (.barm o) s = .next t ∧ OnlyGroups s t ∧ LaneRegs s t c (Effect.none c)) ∧
    (∃ t, exec (.wait o) s = .next t ∧ OnlyGroups s t ∧ LaneRegs s t c (Effect.none c))) ∧
  (∀ o : OpsBar, ∀ s c g T, AtBarrier s c g o.slot T → vOk g.budget false o.reg.toNat = true →
    (let b := barOf T o.slot.toNat
     ∃ t, exec (.phrd o) s = .next t ∧ OnlyGroups (acquireSwaps s c.who) t ∧ LaneRegs s t c { Effect.none c with
       v := oneV o.reg.toNat (activeLanes g c o.g) fun _ => (0 : BitVec 4) ++ BitVec.ofBool b.x ++ BitVec.ofBool b.f ++ b.a ++ b.p })) ∧
  (∀ o : OpsBar, ∀ s c g T, AtBarrier s c g o.slot T → vOk g.budget true o.reg.toNat = true →
    (∀ idx, (barOf T o.slot.toNat).door = some idx →
      ∃ t, exec (.bexp o) s = .next t ∧ OnlyGroups s t ∧ LaneRegs s t c { Effect.none c with
        v := pairV o.reg.toNat (activeLanes g c o.g) fun _ => BitVec.ofNat 64 (0xFFFFFFF00000 + 64 * idx) }) ∧
    (∀ x, ctxOf? s (memberAsid s c.who) = some x → (barOf T o.slot.toNat).door = none →
      (∃ j, j < 16384 ∧ amGet none x.doors j = none) →
      ∃ t idx, exec (.bexp o) s = .next t ∧ idx < 16384 ∧ amGet none x.doors idx = none ∧
        (∀ j, j < idx → amGet none x.doors j ≠ none) ∧
        (barOf (teamOf t g.kc g.core) o.slot.toNat).x = true ∧ (barOf (teamOf t g.kc g.core) o.slot.toNat).door = some idx ∧
        amGet none (ctxOf t (memberAsid s c.who)).doors idx = some (g.kc, g.core, o.slot.toNat) ∧
        LaneRegs s t c { Effect.none c with
          v := pairV o.reg.toNat (activeLanes g c o.g) fun _ => BitVec.ofNat 64 (0xFFFFFFF00000 + 64 * idx) }) ∧
    ((barOf T o.slot.toNat).door = none → (∀ j, j < 16384 → amGet none (ctxOf s (memberAsid s c.who)).doors j ≠ none) →
      ∃ t, exec (.bexp o) s = .next t ∧ t.teams = s.teams ∧ t.ctxs = s.ctxs ∧
        TrapTaken s t c (trapOf c { cause := 0x05, lanes := c.mask }))) ∧
  (∀ o : OpsBarS, ∀ s c g T, AtBarrier s c g o.slot T →
    ∃ t, exec (.bfree o) s = .next t ∧ OnlyTeam s t g.kc g.core ∧ LaneRegs s t c (Effect.none c) ∧
      teamOf t g.kc g.core = { T with free := T.free ||| (1#16 <<< o.slot.toNat) })

/-! ### Memory -/

/-- R242, R244 to R247, R249, R252, R379: global loads, ordinary and acquiring, on any number of lanes and on the spine: the
value of the bytes at each lane's address, extended, reaches its d; memory is unchanged. A load from a host window or from a
peer sends its request and waits for the answer.
Of the model's own readings it rests on log entries 5, 7, 37, 73 and 78. -/
def Obligations.GlobalLoads : Prop :=
  (∀ o : OpsLd, ¬(2 ≤ o.space.toNat ∧ o.space.toNat ≤ 4) →
    Loads (.ld o) o.g o.d o.a o.size.toNat o.x false o.la.toNat ∧ LoadsBeyond (.ld o) o.g o.d o.a o.size.toNat o.x false 0) ∧
  (∀ o : OpsLdo, Loads (.ldAcq o) o.g o.d o.a o.size.toNat false true o.la.toNat ∧
    LoadsBeyond (.ldAcq o) o.g o.d o.a o.size.toNat false true o.scope)

/-- R208, R244 to R246, R249, R251 to R253, R379, R396: global stores, ordinary and releasing: the bytes of each active lane's d
reach its address, the highest lane's where several store to one byte, every other byte of memory but the context's
touched-dies mask stays. A store to a host window is posted; one to a peer waits for its answer; one to a doorbell is an
arrival. A system-scope release waits while a fabric write of the context is unacknowledged (R240).
Of the model's own readings it rests on log entries 5, 7, 14, 37 and 73. -/
def Obligations.GlobalStores : Prop :=
  (∀ o : OpsSt, ¬(2 ≤ o.space.toNat ∧ o.space.toNat ≤ 4) → o.size.toNat ≤ 4 →
    Stores (.st o) o.g o.d o.a o.size.toNat false o.la.toNat (fun _ _ => false) ∧
      StoresBeyond (.st o) o.g o.d o.a o.size.toNat false 0 o.la.toNat (fun _ _ => false)) ∧
  (∀ o : OpsLdo, o.size.toNat ≤ 4 →
    let busy := fun (s : State) (c : Issue) => decide (o.scope = 3) && fabricPending s (memberAsid s c.who)
    Stores (.stRel o) o.g o.d o.a o.size.toNat true o.la.toNat busy ∧
      StoresBeyond (.stRel o) o.g o.d o.a o.size.toNat true o.scope o.la.toNat busy)

/-- R192 to R202, R246, R251: loads and stores of the active lanes in the cores' buffers. A load reads the present plane
inside a stepped region; for a group that has arrived, or is behind a swap, the plane that a swap now would make present, or
the one before the swap, unspecified which (R202). A store outside regions puts the highest
lane's bytes; one inside changes the region's next plane, word by word and lane by lane under its rule, and nothing that
can be read; one of a group that has arrived is held; under the fault rule words that collide raise STEP_COLLISION and
nothing is stored. Keys compare by block priority, TEAM, GROUP and LANE. Everything else of the teams stays.
Of the model's own readings it rests on log entries 31, 37, 78, 95 and 105. -/
def Obligations.BufferAccesses : Prop :=
  (∀ o : OpsLd, ∀ s c g (core off : Nat → Nat), 2 ≤ o.space.toNat → o.space.toNat ≤ 4 → SomeLanes s c g o.g [o.a.toNat] →
    vOk g.budget false o.a.toNat = true → dataOk g.budget o.size.toNat o.d.toNat = true →
    (let buf : Space := if o.space.toNat = 2 then .bufW else .bufA
     let n := 2 ^ o.size.toNat
     let act := activeLanes g c o.g
     let team := fun (l : Nat) => teamOf s g.kc (core l)
     (∀ l ∈ act, bufTarget (kcOf s g.kc) g.core o.space.toNat (vGet g.regs l o.a.toNat).toNat = .ok (core l, off l) ∧
       bufCheck s g.kc (core l) buf (off l) n false (core l ≠ g.core) false o.size.toNat (vGet g.regs l o.a.toNat).toNat = none ∧
       bufPoisoned (team l) buf (off l) n = false) →
     ∃ t, ∃ bytes : Nat → List Byte, exec (.ld o) s = .next t ∧ OnlyGroups s t ∧
       (∀ l ∈ act, (bytes l).length = n ∧
         (core l ≠ g.core ∨ buf = .bufW ∨ (∀ r ∈ (team l).regions, g.idx ∉ r.behind ∧ g.idx ∉ r.arrived) →
           bytes l = (List.range n).map fun i => bufByte (team l) buf (off l + i)) ∧
         (∀ i, i < n → (bytes l).getD i 0 = bufByte (team l) buf (off l + i) ∨
           ∃ r, regionAt (team l) (off l + i) 1 = some r ∧
             ((g.idx ∈ r.behind ∧ (bytes l).getD i 0 = amGet 0 r.prev (off l + i)) ∨
              (g.idx ∈ r.arrived ∧ (bytes l).getD i 0 = if amGet false r.written ((off l + i) / 4) then amGet 0 r.nextPl (off l + i)
                else if r.fill then 0 else amGet 0 r.present (off l + i))))) ∧
       LandsOrFlies s t c o.la.toNat (lanesV act fun l => loadV l o.d.toNat o.size.toNat o.x (bytesToNat (bytes l))))) ∧
  (∀ o : OpsSt, ∀ s c g (core off : Nat → Nat), 3 ≤ o.space.toNat → o.space.toNat ≤ 4 → o.size.toNat ≤ 4 →
    SomeLanes s c g o.g ([o.a.toNat] ++ (List.range (regCount o.size.toNat)).map (o.d.toNat + ·)) →
    vOk g.budget false o.a.toNat = true → dataOk g.budget o.size.toNat o.d.toNat = true →
    (let n := 2 ^ o.size.toNat
     let act := activeLanes g c o.g
     let own := teamOf s g.kc g.core
     (∀ l ∈ act, bufTarget (kcOf s g.kc) g.core o.space.toNat (vGet g.regs l o.a.toNat).toNat = .ok (core l, off l) ∧
       bufCheck s g.kc (core l) .bufA (off l) n true (core l ≠ g.core) false o.size.toNat (vGet g.regs l o.a.toNat).toNat = none) →
     (act.filter (fun l => decide (core l = g.core) && collides own g.idx n off (act.filter fun i => core i = g.core) l) = [] →
       ∃ t, exec (.st o) s = .next t ∧ { t with groups := s.groups, teams := s.teams, cur := s.cur, fresh := s.fresh } = s ∧
         LaneRegs s t c (Effect.none c) ∧ (∀ kc core', kc ≠ g.kc ∨ core' ∉ act.map core → teamOf t kc core' = teamOf s kc core') ∧
         ∀ core' T, s.teams.find? (fun t => t.kc = g.kc ∧ t.core = core') = some T → (T.regions.map fun r => r.idx).Nodup →
           (let T' := teamOf t g.kc core'
            let ls := act.filter fun l => core l = core'
            let byte := fun (l a : Nat) => (vGet g.regs l (o.d.toNat + (a - off l) / 4)).extractLsb' (8 * ((a - off l) % 4)) 8
            let word := fun (l w : Nat) => vGet g.regs l (o.d.toNat + (w - off l / 4))
            OnlyA T T' ∧
            (∀ a, amGet 0 T'.a a = match ls.reverse.find? fun l =>
                !inRegion T (off l) n && decide (off l ≤ a) && decide (a < off l + n) with
              | some l => byte l a
              | none => amGet 0 T.a a) ∧
            ∀ r ∈ T.regions, ∃ r' ∈ T'.regions, r'.idx = r.idx ∧
              r' = { r with nextPl := r'.nextPl, written := r'.written, keys := r'.keys, held := r'.held } ∧
              (let here := ls.filter fun l => regionAt T (off l) n = some r
               (g.idx ∈ r.arrived → r' = { r with held := r.held ++ here.map fun l =>
                 ⟨g.idx, l, c.prio.toNat, off l, (List.range n).map fun i => byte l (off l + i)⟩ }) ∧
               (g.idx ∉ r.arrived → r'.held = r.held ∧ ∀ w,
                 StoredWord r.rule (wordIn r' w) ((here.filter fun l => decide (off l / 4 ≤ w) && decide (w < (off l + n) / 4)).foldl
                   (fun st l => stored r.rule st (word l w) (storeKey c.prio.toNat (teamNo (kcOf s g.kc) core') g.idx l))
                   (wordIn r w)))))) ∧
     (∀ l ls, act.filter (fun l => decide (core l = g.core) && collides own g.idx n off (act.filter fun i => core i = g.core) l) = l :: ls →
       ∃ t, exec (.st o) s = .next t ∧ t.teams = s.teams ∧
         TrapTaken s t c (trapOf c { cause := 0x0A, lanes := maskOf (l :: ls), addr := (vGet g.regs l o.a.toNat).toNat })))) ∧
  (∀ prio team group lane prio' team' group' lane', group < 128 → group' < 128 → lane < 64 → lane' < 64 → team < 2 ^ 32 → team' < 2 ^ 32 →
    (storeKey prio team group lane < storeKey prio' team' group' lane' ↔
      prio < prio' ∨ (prio = prio' ∧ (team < team' ∨ (team = team' ∧ (group < group' ∨ (group = group' ∧ lane < lane')))))))

/-- R217, R229, R235, R254, R255, R345: fences complete and acquire; `fence.core` records its threads and lets their fetch see every earlier store; a system fence waits while a fabric write of
the context, and for translations a relayed request of a peer, is under way; a translation fence drops the
context's translations, starts a new epoch and takes S1ROOT from the descriptor; `fence.rp` marks the location.
Of the model's own readings it rests on log entries 5 and 78. -/
def Obligations.Fences : Prop :=
  (∀ o : OpsG,
    let acts := fun (s : State) (c : Issue) (g : Group) => accessFrom s c (!(activeLanes g c o.g).isEmpty)
    LanesGoFrom (.fenceCluster o) (fun _ _ _ => True) acts (fun _ c _ => Effect.none c) ∧ SpineNop (.fenceCluster o) ∧
    LanesGoFrom (.fenceDevice o) (fun _ _ _ => True) acts (fun _ c _ => Effect.none c) ∧ SpineNop (.fenceDevice o) ∧
    LanesGoFrom (.fenceSystem o) (fun s c _ => fabricPending s (memberAsid s c.who) = false) acts (fun _ c _ => Effect.none c) ∧
    SpineGo (.fenceSystem o) (fun s c _ => fabricPending s (memberAsid s c.who) = false) (fun _ _ _ => none) (fun c _ => nextPc c) ∧
    ∀ s c g, OnLanes s c g → g.flights = [] → activeLanes g c o.g ≠ [] →
      (fabricPending s (memberAsid s c.who) = true → ∃ t, exec (.fenceSystem o) s = .next t ∧ { t with cur := s.cur, fresh := s.fresh } = s) ∧
      (relayPending s (memberAsid s c.who) = true → ∃ t, exec (.tfenceSystem o) s = .next t ∧ { t with cur := s.cur, fresh := s.fresh } = s)) ∧
  (∀ o : OpsG, ∀ s c x, ctxOf? s (memberAsid s c.who) = some x →
    (∀ g l, OnLanes s c g → g.flights = [] → l ∈ activeLanes g c o.g →
      ∃ t, exec (.fenceCore o) s = .next t ∧
        { t with groups := s.groups, ctxs := s.ctxs, cur := s.cur, fresh := s.fresh } = acquireSwaps s c.who ∧
        LaneRegs s (updMember t c.who fun x => { x with fenced := g.fenced }) c (Effect.none c) ∧
        amGet 0 (memberGroup t c.who).fenced l = s.fresh + 1 ∧
        (c.who, l) ∈ (ctxOf t (memberAsid s c.who)).coreFenced) ∧
    (∀ k, OnSpine s c k → spinePred k.spine o.g = true →
      ∃ t, exec (.fenceCore o) s = .next t ∧ { t with kcs := s.kcs, ctxs := s.ctxs, cur := s.cur, fresh := s.fresh } = s ∧
        SpineRegs s (updSpine t k.id fun x => { x with seenFrom := k.spine.seenFrom }) k.id (fun _ => none) (fun _ => none) 0 (nextPc c) ∧
        (kcOf t k.id).spine.seenFrom = s.fresh + 1 ∧
        (c.who, 0) ∈ (ctxOf t (memberAsid s c.who)).coreFenced)) ∧
  (∀ i ∈ [Instr.tfenceDevice, Instr.tfenceSystem], ∀ o : OpsG, ∀ s c x, ctxOf? s (memberAsid s c.who) = some x →
    relayPending s (memberAsid s c.who) = false →
    (let after := fun (t : State) =>
       ctxOf t (memberAsid s c.who) = { x with epoch := x.epoch + 1, s1root := memVal s (x.desc + 8) 8 / 65536 % 2 ^ 36 * 65536 } ∧
         ∀ e, e ∈ t.tlb ↔ e ∈ s.tlb ∧ e.asid ≠ memberAsid s c.who
     (∀ g, OnLanes s c g → g.flights = [] → activeLanes g c o.g ≠ [] →
       ∃ t, exec (i o) s = .next t ∧
         { t with groups := s.groups, ctxs := s.ctxs, tlb := s.tlb, cur := s.cur, fresh := s.fresh } = acquireSwaps s c.who ∧
         LaneRegs s t c (Effect.none c) ∧ after t) ∧
     (∀ k, OnSpine s c k → spinePred k.spine o.g = true →
       ∃ t, exec (i o) s = .next t ∧
         { t with kcs := s.kcs, ctxs := s.ctxs, tlb := s.tlb, cur := s.cur, fresh := s.fresh } = s ∧
         SpineRegs s t k.id (fun _ => none) (fun _ => none) 0 (nextPc c) ∧ after t))) ∧
  (∀ o : OpsFrp, ∀ s c x s' pa cls, ctxOf? s (memberAsid s c.who) = some x → amGet none x.owners (pa / 8) = none →
    (∀ b, pieceLate s' (memberDie s' c.who) { r := true } ⟨.mem (pa / 8 * 8) cls, 0, 8, 0⟩ = some b → b = 0x0F) →
    (∀ g l, OneLane s c g o.g l [o.a.toNat, o.a.toNat + 1] → vOk g.budget true o.a.toNat = true →
      Reaches s c { r := true } false true 1 (pairAt g l o.a.toNat) s' pa cls →
      ∃ t, exec (.fenceRp o) s = .next t ∧
        { t with groups := s.groups, ctxs := s.ctxs, tlb := s.tlb, cur := s.cur, fresh := s.fresh } = acquireSwaps s c.who ∧
        LaneRegs s t c (Effect.none c) ∧ (pa / 8, c.who, l) ∈ (ctxOf t (memberAsid s c.who)).marks) ∧
    (∀ k, SpineAddr s c k o.g o.a → Reaches s c { r := true } false true 1 (addrOf k o.a) s' pa cls →
      ∃ t, exec (.fenceRp o) s = .next t ∧
        { t with kcs := s.kcs, ctxs := s.ctxs, tlb := s.tlb, cur := s.cur, fresh := s.fresh } = s ∧
        SprueBecomes s (updSpine t k.id fun _ => k.spine) k.id (fun j q => if j + 32 = o.a.toNat then consumed q else q) ∧
        SpineRegs s t k.id (fun _ => none) (fun _ => none) 0 (nextPc c) ∧
        (pa / 8, c.who, 0) ∈ (ctxOf t (memberAsid s c.who)).marks))

/-- R63, R249, R256 to R260, R379: atomics of one thread, and of any number of lanes that name one address, on device memory
and on the A buffer, and from the spine: aggregated in ascending lane order, or lane by lane for `exch` and `cas`; to a host
window and to a peer they send requests, or raise SYS_ATOMIC_UNSUPPORTED where the op, the scope or the window does not allow
it.
Of the model's own readings it rests on log entries 5, 7, 37, 73 and 78. -/
def Obligations.Atomics : Prop :=
  FormAtom .atomAdd false false (fun _ old b _ => old + b) ∧
  FormAtom .atomAddf false false (fun n old b _ => BitVec.ofNat n (fAdd (fmtW n) old.toNat b.toNat).1) ∧
  FormAtom .atomMin false false (fun _ old b _ => if old.toInt ≤ b.toInt then old else b) ∧
  FormAtom .atomMax false false (fun _ old b _ => if old.toInt ≤ b.toInt then b else old) ∧
  FormAtom .atomAnd false false (fun _ old b _ => old &&& b) ∧
  FormAtom .atomOr false false (fun _ old b _ => old ||| b) ∧
  FormAtom .atomExch false true (fun _ _ b _ => b) ∧
  FormAtom .atomCas true true (fun _ old b new => if old = b then new else old) ∧
  AtomBeyond .atomAdd 0 ∧ AtomBeyond .atomAddf 1 ∧ AtomBeyond .atomMin 2 ∧ AtomBeyond .atomMax 3 ∧ AtomBeyond .atomAnd 4 ∧
  AtomBeyond .atomOr 5 ∧ AtomBeyond .atomExch 6 ∧ AtomBeyond .atomCas 7

/-! ### Append pages -/

/-- R356, R361 to R366: reservations granted and refused, commits, appends, seals and tail reads, at the page's home; the
lanes of one `apres` that name one page reserve in ascending order; `tailrd` acquires (R366, R368).
Of the model's own readings it rests on log entries 9, 22, 37 and 78. -/
def Obligations.AppendPages : Prop :=
  (∀ o : OpsM,
    PageGives (.apres o) o.g o.d o.a o.la.toNat 2 true true false
      (fun s f _ data => refusal s f (reserveSize data) = none ∧ apNres (frameEntry s f) < 16)
      (fun s f _ _ => apRtail (frameEntry s f))
      (fun s t _ f _ data => t.resvs = s.resvs ++ [⟨f, apRtail (frameEntry s f), reserveSize data, false⟩] ∧ t.mem = s.mem ∧
        apRtail (frameEntry t f) = apRtail (frameEntry s f) + reserveSize data ∧
        apCtail (frameEntry t f) = apCtail (frameEntry s f) ∧ apNres (frameEntry t f) = apNres (frameEntry s f) + 1) ∧
    PageGives (.apres o) o.g o.d o.a o.la.toNat 2 true true false
      (fun s f _ data => refusal s f (reserveSize data) ≠ none)
      (fun s f _ data => ((refusal s f (reserveSize data)).getD 0).toNat)
      (fun s t _ _ _ _ => PagesSame s t) ∧
    PageGives (.apcmt o) o.g o.d o.a o.la.toNat 2 true false false
      (fun s f off _ => (frameEntry s f).apst ≠ 2 ∧ ∃ r, resvsOf s f = [r] ∧ r.off = off ∧ apCtail (frameEntry s f) + r.len ≤ 65536)
      (fun s f _ _ => (if apSealw (frameEntry s f) && apNres (frameEntry s f) ≤ 1 then 3 else if apSealw (frameEntry s f) then 2 else 1) * 2 ^ 30 +
        apCtail (frameEntry s f) + ((resvsOf s f).map fun r => r.len).sum)
      (fun s t _ f _ _ => apNres (frameEntry t f) = apNres (frameEntry s f) - 1 ∧ (∀ r ∈ t.resvs, r.frame ≠ f) ∧ t.mem = s.mem ∧
        apCtail (frameEntry t f) = apCtail (frameEntry s f) + ((resvsOf s f).map fun r => r.len).sum) ∧
    PageGives (.seal o) o.g o.d o.a o.la.toNat 2 true false false (fun _ _ _ _ => True)
      (fun s f _ _ => 3 * 2 ^ 30 + apCtail (frameEntry s f))
      (fun s t _ f _ _ => (frameEntry t f).apst = 2 ∧ apCtail (frameEntry t f) = apCtail (frameEntry s f) ∧ t.mem = s.mem ∧
        ((frameEntry s f).apst ≠ 2 → apRtail (frameEntry t f) = apCtail (frameEntry s f) ∧ ∀ r ∈ t.resvs, r.frame ≠ f)) ∧
    PageGives (.sealW o) o.g o.d o.a o.la.toNat 2 true false false (fun s f _ _ => (frameEntry s f).apst ≠ 2 ∧ apSealw (frameEntry s f) = false)
      (fun s f _ _ => (if apNres (frameEntry s f) = 0 then 3 else 2) * 2 ^ 30 + apCtail (frameEntry s f))
      (fun s t _ f _ _ => t.resvs = s.resvs ∧ t.mem = s.mem ∧ apCtail (frameEntry t f) = apCtail (frameEntry s f) ∧
        (apNres (frameEntry s f) = 0 → (frameEntry t f).apst = 2) ∧
        (apNres (frameEntry s f) ≠ 0 → apSealw (frameEntry t f) = true ∧ (frameEntry t f).apst = (frameEntry s f).apst)) ∧
    PageGives (.tailrd o) o.g o.d o.a o.la.toNat 2 false false true (fun _ _ _ _ => True)
      (fun s f _ _ => tailCode (frameEntry s f) * 2 ^ 30 + apCtail (frameEntry s f)) (fun s t _ _ _ _ => PagesSame s t) ∧
    PageGives (.tailrdR o) o.g o.d o.a o.la.toNat 2 false false false (fun _ _ _ _ => True)
      (fun s f _ _ => tailCode (frameEntry s f) * 2 ^ 30 + apRtail (frameEntry s f)) (fun s t _ _ _ _ => PagesSame s t)) ∧
  (∀ o : OpsApst, 2 ≤ o.size.toNat → o.size.toNat ≤ 4 →
    PageGives (.apst o) o.g o.d o.a o.la.toNat o.size.toNat true true false
      (fun s f _ _ => refusal s f (2 ^ o.size.toNat) = none ∧ apNres (frameEntry s f) < 16 ∧ resvsOf s f = [] ∧
        apCtail (frameEntry s f) ≤ apRtail (frameEntry s f))
      (fun s f _ _ => apRtail (frameEntry s f))
      (fun s t c f _ data => apRtail (frameEntry t f) = apRtail (frameEntry s f) + 2 ^ o.size.toNat ∧
        apCtail (frameEntry t f) = apCtail (frameEntry s f) + 2 ^ o.size.toNat ∧ apNres (frameEntry t f) = apNres (frameEntry s f) ∧
        MemStored s t c (65536 * f + apRtail (frameEntry s f)) (2 ^ o.size.toNat) fun i => BitVec.ofNat 8 (data / 2 ^ (8 * i)))) ∧
  (∀ o : OpsM, ∀ s c g s' pa cls f, SomeLanes s c g o.g [o.a.toNat, o.a.toNat + 1, o.d.toNat] → accessOk g 2 o.d o.a →
    (∀ l ∈ activeLanes g c o.g, pa l / 65536 = f) → (∀ w ∈ s.watches, w.frame ≠ f) →
    AllReach s c { w := true, page := true } false true 1 (activeLanes g c o.g) (fun l => pairAt g l o.a.toNat) s' pa cls →
    (let act := activeLanes g c o.g
     let e := frameEntry s f
     let size := fun l => reserveSize (vGet g.regs l o.d.toNat).toNat
     let before := fun l => ((lowerLanes act l).map size).sum
     let total := (act.map size).sum
     e.apst = 1 → apSealw e = false → (∀ l ∈ act, 0 < size l ∧ size l ≤ 2 ^ (apWlog e + 10)) → apRtail e + total ≤ 65536 →
     apNres e + act.length ≤ 16 → (s.resvs.filter fun r => r.frame / 2 ^ 20 = f / 2 ^ 20).length + act.length ≤ 8192 →
     apRtail e + total - apCtail e ≤ 2 ^ (apWlog e + 10) → apCtail e ≤ apRtail e →
     ∃ t, exec (.apres o) s = .next t ∧ t.mem = s.mem ∧
       t.resvs = s.resvs ++ act.map (fun l => ⟨f, apRtail e + before l, size l, false⟩) ∧
       apRtail (frameEntry t f) = apRtail e + total ∧ apCtail (frameEntry t f) = apCtail e ∧
       apNres (frameEntry t f) = apNres e + act.length ∧ (∀ f', f' ≠ f → frameEntry t f' = frameEntry s f') ∧
       LandsOrFlies s t c o.la.toNat (lanesV act fun l => oneV o.d.toNat [l] fun i => BitVec.ofNat 32 (apRtail e + before i))))

/-- R367: `twatch` arms a watch on a page and gives its tail word, or 0 when the core holds 16 watches; on the spine
WRONG_UNIT.
One that is due already fires at once: no watch stays and its barrier gets an arrival.
Of the model's own readings it rests on log entry 37. -/
def Obligations.TailWatches : Prop :=
  ∀ o : OpsM, WrongOnSpine (.twatch o) ∧
    ∀ s c g l ls s' pa cls, OnLanes s c g → g.flights = [] → activeLanes g c o.g = l :: ls →
      vOk g.budget true o.a.toNat = true → vOk g.budget false o.d.toNat = true →
      poisonedLanes g [l] [o.a.toNat, o.a.toNat + 1, o.d.toNat] = [] →
      (let w := vGet g.regs l o.d.toNat
       let f := pa / 65536
       let e := frameEntry s f
       w.extractLsb' 24 8 = 0 → w.extractLsb' 17 3 = 0 → (w.extractLsb' 20 4).toNat < (kcOf s g.kc).cfgBar →
       Reaches s c { r := true, page := true } false true 1 (pairAt g l o.a.toNat) s' pa cls →
       (16 ≤ watchesOn s c.who → ∃ t, exec (.twatch o) s = .next t ∧ t.watches = s.watches ∧
         LandsOrFlies s t c o.la.toNat (oneV o.d.toNat (l :: ls) fun _ => 0)) ∧
       (watchesOn s c.who < 16 → (∀ q ∈ s.watches, q.frame ≠ f) → e.apst ≠ 2 → apCtail e < (w.extractLsb' 0 17).toNat →
         ∃ t, exec (.twatch o) s = .next t ∧
           t.watches = s.watches ++ [⟨g.kc, g.core, (w.extractLsb' 20 4).toNat, f, (w.extractLsb' 0 17).toNat⟩] ∧
           LandsOrFlies s t c o.la.toNat (oneV o.d.toNat (l :: ls) fun _ => BitVec.ofNat 32 (tailCode e * 2 ^ 30 + apCtail e))) ∧
       (watchesOn s c.who < 16 → (∀ q ∈ s.watches, q.frame ≠ f) → e.apst = 2 ∨ (w.extractLsb' 0 17).toNat ≤ apCtail e →
         ∃ t, exec (.twatch o) s = .next t ∧ t.watches = s.watches ∧
           LandsOrFlies s t c o.la.toNat (oneV o.d.toNat (l :: ls) fun _ => BitVec.ofNat 32 (tailCode e * 2 ^ 30 + apCtail e)) ∧
           ∀ T, s.teams.find? (fun x => x.kc = g.kc ∧ x.core = g.core) = some T →
             (let slot := (w.extractLsb' 20 4).toNat
              let b := barOf T slot
              slot < T.bars.length → b.f = false → b.a.toNat + 1 < b.e.toNat →
              BarBecomes T (teamOf t g.kc g.core) slot { b with a := b.a + 1 })))

namespace Sys2Proof.Claims

/-! ### Matrix tiles -/

/-- The team of the group's core. -/
def TeamHere (s : State) (g : Group) (T : Team) : Prop := s.teams.find? (fun t => t.kc = g.kc ∧ t.core = g.core) = some T

/-- An address of the C buffer in the tile of an octet, and the number of the tile's flag word (R155). -/
def inTile (g : Group) (oct a : Nat) : Prop := g.regs.ct.toNat + 1024 * oct ≤ a ∧ a < g.regs.ct.toNat + 1024 * oct + 1024
def tileNo (g : Group) (oct : Nat) : Nat := (g.regs.ct.toNat + 1024 * oct) / 1024

/-- The tiles of the octets are zero with no flags, every other byte of C and every other flag word stays, and so does
the team's rest but its poison marks (R162). -/
def TilesCleared (g : Group) (os : List Nat) (T T' : Team) : Prop :=
  (∀ n, ((∃ x ∈ os, inTile g x n) → amGet 0 T'.c n = 0) ∧ ((∀ x ∈ os, ¬inTile g x n) → amGet 0 T'.c n = amGet 0 T.c n)) ∧
    (∀ j, amGet 0 T'.tileFlags j = if ∃ x ∈ os, tileNo g x = j then 0 else amGet 0 T.tileFlags j) ∧
    (∀ q, q ∈ T'.poison → q ∈ T.poison) ∧ { T' with c := T.c, tileFlags := T.tileFlags, poison := T.poison } = T

/-- As LandsOrFlies, with flags for the lanes given. -/
def LandsOrFliesWith (s t : State) (c : Issue) (la : Nat) (w : Nat → Nat → Option Word) (lanes : List Nat) (fl : Nat → Flags6) : Prop :=
  (la = 0 → LaneRegs s t c { Effect.none c with v := w, flags := fun l => if l ∈ lanes then fl l else 0 }) ∧
  (la ≠ 0 → LaneRegs s t c (Effect.none c) ∧ ∃ f ∈ (memberGroup t c.who).flights, f.issue = c ∧ f.ask = none ∧
    f.gwrites = [] ∧ f.flags = lanes.map (fun l => (l, fl l)) ∧ ∀ l r v, ⟨l, r, v⟩ ∈ f.writes ↔ w l r = some v)

/-- Elements of one register of a drain, packed low first (R160). -/
def perReg (out : BitVec 3) : Nat := if out = 0 ∨ out = 5 then 1 else if out = 1 ∨ out = 2 then 2 else 4
def packed (out : BitVec 3) (elem : Nat → Nat → Nat × Flags6) (j q : Nat) : Word :=
  let e := perReg out
  let per := 16 / e
  BitVec.ofNat 32 (((List.range e).map fun t => (elem (2 * j + q / per) (e * (q % per) + t)).1 * 2 ^ (32 / e * t)).sum)

/-- A drain: rows 2j and 2j + 1 of the octet's tile go to lane j, scaled and converted, with the tile's flags and those
of the conversions; `clear` empties the tile. The group is not between an arrival and its next acquire in any region
(R202). -/
def Drains (i : Instr) (d : RegField) (a : Option RegField) (out : BitVec 3) (clear : Bool) (la : Nat) (rows cols : Bool) : Prop :=
  WrongOnSpine i ∧ ∀ s c g T, OnLanes s c g → g.flights = [] → TeamHere s g T →
    d.toNat + 32 / perReg out ≤ g.budget → d.toNat + 32 / perReg out ≤ 64 →
    (∀ r, a = some r → vOk g.budget false r.toNat = true) →
    (let os := octetsOf g.width (issueMask g c)
     let len := (if rows then 64 else 0) + (if cols then 64 else 0)
     let addr := fun (x : Nat) => match a with
       | some r => (vGet g.regs (8 * x) r.toNat).toNat
       | none => 0
     let scale := fun (x off k : Nat) => bytesToNat (bufRead T .bufA (addr x + off + 4 * k) 4)
     let elem := fun (x i k : Nat) => drainConvert out (drainValue out (getNat T.c (g.regs.ct.toNat + 1024 * x + 64 * i + 4 * k) 4)
       ((if rows then [scale x 0 i] else []) ++ if cols then [scale x (if rows then 64 else 0) k] else []))
     let conv := fun (l : Nat) => ((List.range 2).flatMap fun r => (List.range 16).map fun k => (elem (l / 8) (2 * (l % 8) + r) k).2)
     (∀ r, a = some r → poisonedLanes g (os.map fun x => 8 * x) [r.toNat] = []) →
     (∀ r ∈ T.regions, g.idx ∉ r.behind ∧ g.idx ∉ r.arrived) →
     (∀ x ∈ os, addr x % 4 = 0 ∧ g.regs.ct.toNat + 1024 * x + 1024 ≤ T.cSize ∧
       bufPoisoned T .bufC (g.regs.ct.toNat + 1024 * x) 1024 = false ∧
       flagsPoisoned T (g.regs.ct.toNat + 1024 * x) = false ∧
       (0 < len → addr x + len ≤ T.aSize ∧ rangeLocked s g.kc g.core .bufA (addr x) len false = false ∧
         bufPoisoned T .bufA (addr x) len = false)) →
     ∃ t, exec i s = .next t ∧ OnlyTeam s t g.kc g.core ∧
       LandsOrFliesWith s t c la
         (fun l r => if l ∈ octetLanes os ∧ d.toNat ≤ r ∧ r < d.toNat + 32 / perReg out then
           some (packed out (elem (l / 8)) (l % 8) (r - d.toNat)) else none)
         (octetLanes os)
         (fun l => flagsOfTile (amGet 0 T.tileFlags (tileNo g (l / 8))) ||| (conv l).foldl (· ||| ·) 0) ∧
       (clear = false → teamOf t g.kc g.core = T) ∧
       (clear = true → TilesCleared g os T (teamOf t g.kc g.core)))

/-- A drain that does not go on, in the order of R157's checks over all octets: its scale addresses are not aligned to 4, a
tile or the scales lie outside their buffers, or the scales are range-locked; the lanes of those octets, with the scale address
of the lowest where the scales are at fault. -/
def DrainRefused (i : Instr) (d : RegField) (a : Option RegField) (out : BitVec 3) (rows cols : Bool) : Prop :=
  ∀ s c g T, OnLanes s c g → g.flights = [] → TeamHere s g T →
    d.toNat + 32 / perReg out ≤ g.budget → d.toNat + 32 / perReg out ≤ 64 →
    (∀ r, a = some r → vOk g.budget false r.toNat = true) →
    (let os := octetsOf g.width (issueMask g c)
     let len := (if rows then 64 else 0) + (if cols then 64 else 0)
     let addr := fun (x : Nat) => match a with
       | some r => (vGet g.regs (8 * x) r.toNat).toNat
       | none => 0
     let scales := fun (x : Nat) => decide (0 < len) && decide (T.aSize < addr x + len)
     let mis := os.filter fun x => decide (addr x % 4 ≠ 0)
     let beyond := os.filter fun x => decide (T.cSize < g.regs.ct.toNat + 1024 * x + 1024) || scales x
     let locked := os.filter fun x => decide (0 < len) && rangeLocked s g.kc g.core .bufA (addr x) len false
     let raises := fun (cause : Byte) (xs : List Nat) (at' : Nat) => ∃ t, exec i s = .next t ∧
       LanesStop s t c (trapOf c { cause := cause, lanes := maskOf (octetLanes xs), addr := at' })
     (∀ r, a = some r → poisonedLanes g (os.map fun x => 8 * x) [r.toNat] = []) →
     (mis ≠ [] → raises 0x03 mis (addr (mis.headD 0))) ∧
     (mis = [] → beyond ≠ [] → raises 0x05 beyond (if scales (beyond.headD 0) then addr (beyond.headD 0) else 0)) ∧
     (mis = [] → beyond = [] → locked ≠ [] → raises 0x0C locked (addr (locked.headD 0))))

/-! ### Work queues -/

/-- A group instruction that works on a 64-byte area of the A buffer given by its lowest active lane. -/
structure AreaReady (s : State) (c : Issue) (g : Group) (o : OpsM) (T : Team) (l : Nat) (ls : List Nat) (store : Bool) : Prop where
  on : OnLanes s c g
  landed : g.flights = []
  team : TeamHere s g T
  acts : activeLanes g c o.g = l :: ls
  legal : vOk g.budget false o.d.toNat = true ∧ vOk g.budget false o.a.toNat = true
  clean : g.poison.contains (l * 64 + o.a.toNat) = false
  area : areaMiss s g.kc g.core (vGet g.regs l o.a.toNat).toNat store = none

/-- The record area fails a check of R314, in order: its cause for every active lane, with the area's address; on the spine
`wpop` and `wsteal` take WRONG_UNIT. -/
def AreaRefused (i : Instr) (o : OpsM) : Prop :=
  ∀ s c g T l ls, OnLanes s c g → g.flights = [] → TeamHere s g T → activeLanes g c o.g = l :: ls →
    vOk g.budget false o.d.toNat = true → vOk g.budget false o.a.toNat = true → g.poison.contains (l * 64 + o.a.toNat) = false →
    (let a := (vGet g.regs l o.a.toNat).toNat
     let store := match i with
       | .wpush _ => false
       | _ => true
     let raises := fun (cause : Byte) => ∃ t, exec i s = .next t ∧
       LanesStop s t c (trapOf c { cause := cause, lanes := maskOf (l :: ls), addr := a })
     (a % 64 ≠ 0 → raises 0x03) ∧
     (a % 64 = 0 → T.aSize < a + 64 ∨ inRegion T a 64 = true → raises 0x05) ∧
     (a % 64 = 0 → a + 64 ≤ T.aSize → inRegion T a 64 = false → rangeLocked s g.kc g.core .bufA a 64 store = true → raises 0x0C))

/-- A record of the team's deque, other than a start record. -/
def bound (g : Group) (r : DequeRec) : Bool := r.kc = g.kc && r.core = g.core && !r.start

/-- The operand of one lane or of the spine, which alone acts. -/
def OneOperand (i : Instr) (o : OpsM) (ready : State → Issue → Nat → Prop) (v : State → Issue → Nat → Nat)
    (post : State → State → Issue → Nat → Prop) : Prop :=
  (∀ s c g l, OneLane s c g o.g l [o.a.toNat] → vOk g.budget false o.d.toNat = true → vOk g.budget false o.a.toNat = true →
    (let w := (vGet g.regs l o.a.toNat).toNat
     ready s c w → ∃ t, exec i s = .next t ∧ { t with groups := s.groups, tund := s.tund, nextId := s.nextId, cur := s.cur, fresh := s.fresh } = s ∧
       LandsOrFlies s t c o.la.toNat (oneV o.d.toNat [l] fun _ => BitVec.ofNat 32 (v s c w)) ∧ post s t c w)) ∧
  (∀ s c k, OnSpine s c k → spinePred k.spine o.g = true → o.d.toNat < 32 → o.a.toNat < 32 → k.spine.poison.contains o.a.toNat = false →
    (let w := (xGet k.spine o.a.toNat).toNat % 2 ^ 32
     ready s c w → ∃ t, exec i s = .next t ∧ { t with kcs := s.kcs, tund := s.tund, nextId := s.nextId, cur := s.cur, fresh := s.fresh } = s ∧
       SpineRegs s t k.id (fun r => if r = o.d.toNat then some (BitVec.ofNat 64 (v s c w)) else none) (fun _ => none) 0 (nextPc c) ∧
       post s t c w))

/-- A record lands in the 64 bytes of the team's A buffer at addr; the rest of the team stays, and every other team (R314). -/
def RecordLands (s t : State) (g : Group) (T : Team) (addr : Nat) (bytes : List Byte) : Prop :=
  (let T' := teamOf t g.kc g.core
   (∀ a, bufByte T' .bufA a = if addr ≤ a ∧ a < addr + 64 then bytes.getD (a - addr) 0 else bufByte T .bufA a) ∧
     OnlyA T T' ∧ T'.regions = T.regions) ∧
  { t with groups := s.groups, teams := s.teams, deques := s.deques, cur := s.cur, fresh := s.fresh } = s ∧
  ∀ kc' core', ¬(kc' = g.kc ∧ core' = g.core) → teamOf t kc' core' = teamOf s kc' core'

/-- The arrival that a team's first bound record makes on its WAKE slot (R311): A rises by one, or H while F is set; else no
team changes. -/
def WakesTeam (s t : State) (kc core : Nat) : Prop :=
  (wakeSlot s kc = none ∨ boundCount s kc core ≠ 0 → t.teams = s.teams) ∧
  ∀ slot T, wakeSlot s kc = some slot → boundCount s kc core = 0 → s.teams.find? (fun q => q.kc = kc ∧ q.core = core) = some T →
    slot < T.bars.length →
    (let b := barOf T slot
     (b.f = true → b.h ≠ 1023 → barOf (teamOf t kc core) slot = { b with h := b.h + 1 }) ∧
     (b.f = false → b.a ≠ 1023 → b.e = 0 ∨ b.a + 1 < b.e → barOf (teamOf t kc core) slot = { b with a := b.a + 1 }))

/-- A dependence counter is set to what it is in t; falling to zero it releases what it holds, in the order of holding
(R310). -/
def Releases (s t : State) (n : Nat) : Prop :=
  let old : BitVec 16 := amGet 0 s.tund.counts n
  let zero := old ≠ 0 ∧ amGet 0 t.tund.counts n = 0
  (zero → t.tund.held = s.tund.held.filter (fun h => h.1 ≠ n) ∧
    t.tund.released.map (fun r => r.2) = s.tund.released.map (fun r => r.2) ++ (s.tund.held.filter fun h => h.1 = n).map fun h => h.2) ∧
  (¬zero → t.tund.held = s.tund.held ∧ t.tund.released = s.tund.released) ∧
  { t.tund with counts := s.tund.counts, held := s.tund.held, released := s.tund.released } = s.tund

/-- `wdep`: the old count goes to d, and the counter that the operand names takes its new one (R316). -/
def FormDep (mk : OpsM → Instr) (new : BitVec 16 → BitVec 16 → BitVec 16) : Prop :=
  ∀ o, OneOperand (mk o) o (fun s c w => ownsCounter s (ctxOf s (memberAsid s c.who)).vf (w % 4096) = true)
    (fun s _ w => (amGet (0 : BitVec 16) s.tund.counts (w % 4096)).toNat)
    (fun s t _ w => (∀ k, amGet 0 t.tund.counts k =
      if k = w % 4096 then new (amGet 0 s.tund.counts k) (BitVec.ofNat 16 (w / 65536)) else amGet 0 s.tund.counts k) ∧
      Releases s t (w % 4096))

/-- The counter after the lanes ls in turn, of those that name it. -/
def countAfter (new : BitVec 16 → BitVec 16 → BitVec 16) (w : Nat → Nat) (k : Nat) (old : BitVec 16) (ls : List Nat) : BitVec 16 :=
  ls.foldl (fun v i => if w i % 4096 = k then new v (BitVec.ofNat 16 (w i / 65536)) else v) old

/-- `wdep` on any number of lanes: lane after lane, each gets the count that the lower ones leave (R316). -/
def FormDepLanes (mk : OpsM → Instr) (new : BitVec 16 → BitVec 16 → BitVec 16) : Prop :=
  ∀ o s c g, SomeLanes s c g o.g [o.a.toNat] → vOk g.budget false o.d.toNat = true → vOk g.budget false o.a.toNat = true →
    (let act := activeLanes g c o.g
     let w := fun l => (vGet g.regs l o.a.toNat).toNat
     (∀ l ∈ act, ownsCounter s (ctxOf s (memberAsid s c.who)).vf (w l % 4096) = true) →
     ∃ t, exec (mk o) s = .next t ∧
       LandsOrFlies s t c o.la.toNat (lanesV act fun l => oneV o.d.toNat [l] fun _ =>
         ((countAfter new w (w l % 4096) (amGet 0 s.tund.counts (w l % 4096)) (lowerLanes act l)).setWidth 32)) ∧
       ∀ k, amGet 0 t.tund.counts k = countAfter new w k (amGet 0 s.tund.counts k) act)

/-- A counter outside the VF's range is PROTECTION for the lanes that name one, and nothing changes (R316, R317). -/
def CounterDenied (mk : OpsM → Instr) : Prop :=
  ∀ o s c g l ls, SomeLanes s c g o.g [o.a.toNat] → vOk g.budget false o.d.toNat = true → vOk g.budget false o.a.toNat = true →
    (activeLanes g c o.g).filter (fun l =>
      !ownsCounter s (ctxOf s (memberAsid s c.who)).vf ((vGet g.regs l o.a.toNat).toNat % 4096)) = l :: ls →
    ∃ t, exec (mk o) s = .next t ∧ LanesStop s t c (trapOf c { cause := 0x05, lanes := maskOf (l :: ls) })

/-! ### Ladle kicks -/

/-- A bulk kick of a block with bytes, or without, that every row of R284 allows, whose barriers are armed, and which waits
for nothing. -/
structure KickReady (s : State) (c : Issue) (g : Group) (fn : Nat) (o : OpsBulk) (T : Team) (l : Nat) (ls : List Nat) (sized : Bool) : Prop where
  who : c.who = .group g.kc g.core g.idx
  here : s.groups.find? (fun x => x.kc = g.kc ∧ x.core = g.core ∧ x.idx = g.idx) = some g
  normal : g.runAhead = none
  landed : g.flights = []
  team : TeamHere s g T
  legal : vOk g.budget false o.a.toNat = true ∧ o.slot.toNat < (kcOf s g.kc).cfgBar
  acts : activeLanes g c o.g = l :: ls
  clean : g.poison.contains (l * 64 + o.a.toNat) = false
  area : let a := (vGet g.regs l o.a.toNat).toNat
    a % 64 = 0 ∧ a + 64 ≤ T.aSize ∧ inRegion T a 64 = false ∧ rangeLocked s g.kc g.core .bufA a 64 false = false ∧
      bufPoisoned T .bufA a 64 = false
  allowed : let b := parseBlock (bufRead T .bufA (vGet g.regs l o.a.toNat).toNat 64)
    blockDenied s g.kc g.core fn b = false ∧ blockMisaligned b = false ∧ sized = decide (0 < b.count) ∧ blockCores g.core fn b ≠ [] ∧
      ∀ i ∈ blockCores g.core fn b, (barOf (teamOf s g.kc i) o.slot.toNat).e ≠ 0 ∧ (barOf (teamOf s g.kc i) o.slot.toNat).f = false ∧
        (barOf (teamOf s g.kc i) o.slot.toNat).eb.toNat + b.count < 2 ^ 32 ∧
        (fn = 1 → (teamOf s g.kc i).free.getLsbD o.slot.toNat = true)
  room : sized = true → locksUsed s g.kc g.core + 2 ≤ 32

/-- A kick changes nothing but the group, the transfers and, of the teams, the barrier and the free mask of a slot, the
slot's channel, and what a completed phase swaps. -/
def KickFrame (s t : State) : Prop :=
  { t with groups := s.groups, teams := s.teams, transfers := s.transfers, nextId := s.nextId, tlb := s.tlb, cur := s.cur, fresh := s.fresh } = s ∧
    ∀ kc core, { teamOf t kc core with
      bars := (teamOf s kc core).bars, free := (teamOf s kc core).free, chans := (teamOf s kc core).chans
      regions := (teamOf s kc core).regions, poison := (teamOf s kc core).poison } = teamOf s kc core

/-- The kick has started a transfer of the block, and EB of its barriers has risen by the byte count; the slot's channel is
the block's (R279, R281 to R283, R287, R290). -/
def Kicked (s t : State) (g : Group) (fn : Nat) (o : OpsBulk) (T : Team) (l : Nat) (ls : List Nat) : Prop :=
  let a := (vGet g.regs l o.a.toNat).toNat
  let b := parseBlock (bufRead T .bufA a 64)
  let cores := blockCores g.core fn b
  KickFrame s t ∧ amGet none (teamOf t g.kc g.core).chans o.slot.toNat = some b.chan ∧
  (∀ core, core ≠ g.core → core ∉ cores → teamOf t g.kc core = teamOf s g.kc core) ∧
  ∃ x, t.transfers = s.transfers ++ [x] ∧ x.id = s.nextId ∧ t.nextId = s.nextId + 1 ∧ x.kc = g.kc ∧ x.core = g.core ∧
    x.group = g.idx ∧ x.asid = (kcOf s g.kc).asid ∧ x.lanes = maskOf (l :: ls) ∧ x.block = a ∧
    x.slot = o.slot.toNat ∧ x.esize = 2 ^ b.esize ∧ x.chan = some b.chan ∧ x.sspace = spaceOf b.sspace ∧ x.dspace = spaceOf b.dspace ∧
    x.red = (if fn = 2 then (if b.red = 1 then .addF32 else .addBf16) else .copy) ∧ x.stopped = false ∧ x.retried = false ∧ x.fetched = [] ∧
    (x.started = true ↔ ∀ y ∈ s.transfers, ¬(y.chan = some b.chan ∧ hwCore (kcOf s y.kc) y.core = hwCore (kcOf s g.kc) g.core)) ∧
    x.legs.map (fun q => q.core) = cores ∧
    (∀ q ∈ x.legs, q.arrived = false ∧ ∀ e, e ∈ q.todo ↔ ∃ f ∈ b.offsets, e = (sideAddr b.dspace b.dst f.1, sideAddr b.sspace b.src f.2)) ∧
    ∀ i ∈ cores, ∀ T', s.teams.find? (fun t => t.kc = g.kc ∧ t.core = i) = some T' → o.slot.toNat < T'.bars.length →
      (barOf T' o.slot.toNat).a < (barOf T' o.slot.toNat).e →
      (barOf (teamOf t g.kc i) o.slot.toNat).eb = (barOf T' o.slot.toNat).eb + BitVec.ofNat 32 b.count ∧
        (fn = 1 → (teamOf t g.kc i).free.getLsbD o.slot.toNat = false)

/-- A bulk kick on lanes, of a block with bytes and of one without, which makes its arrivals at once; on the spine
WRONG_UNIT. -/
def FormKick (mk : OpsBulk → Instr) (fn : Nat) : Prop :=
  ∀ o, WrongOnSpine (mk o) ∧
    (∀ s c g T l ls, OnLanes s c g → KickReady s c g fn o T l ls true →
      ∃ t, exec (mk o) s = .next t ∧ LandsOrFlies s t c o.la.toNat (fun _ _ => none) ∧ Kicked s t g fn o T l ls) ∧
    (∀ s c g T l ls, OnLanes s c g → KickReady s c g fn o T l ls false →
      (let b := parseBlock (bufRead T .bufA (vGet g.regs l o.a.toNat).toNat 64)
       ∃ t, exec (mk o) s = .next t ∧ LandsOrFlies s t c o.la.toNat (fun _ _ => none) ∧ KickFrame s t ∧ t.transfers = s.transfers ∧
         amGet none (teamOf t g.kc g.core).chans o.slot.toNat = some b.chan ∧
         ∀ i ∈ blockCores g.core fn b, ∀ T', s.teams.find? (fun t => t.kc = g.kc ∧ t.core = i) = some T' → o.slot.toNat < T'.bars.length →
           (barOf T' o.slot.toNat).a.toNat + 1 < (barOf T' o.slot.toNat).e.toNat →
           barOf (teamOf t g.kc i) o.slot.toNat = { barOf T' o.slot.toNat with a := (barOf T' o.slot.toNat).a + 1 })) ∧
    (∀ s c g T, AtBarrier s c g o.slot T → vOk g.budget false o.a.toNat = true → activeLanes g c o.g = [] →
      (barOf T o.slot.toNat).f = false → (barOf T o.slot.toNat).a.toNat + 1 < (barOf T o.slot.toNat).e.toNat →
      ∃ t, exec (mk o) s = .next t ∧ OnlyTeam s t g.kc g.core ∧ LandsOrFlies s t c o.la.toNat (fun _ _ => none) ∧
        BarBecomes T (teamOf t g.kc g.core) o.slot.toNat { barOf T o.slot.toNat with a := (barOf T o.slot.toNat).a + 1 })

/-- A per-lane copy of n bytes (R280). -/
def FormCopy (mk : OpsLcpy → Instr) (n : Nat) : Prop :=
  ∀ o, WrongOnSpine (mk o) ∧ ∀ s c g T l s' pa cls space off, OneLane s c g o.g l [o.a.toNat, o.a.toNat + 1, o.d.toNat] →
    AtBarrier s c g o.slot T → vOk g.budget true o.a.toNat = true → vOk g.budget false o.d.toNat = true →
    Reaches s c { r := true } true true n (pairAt g l o.a.toNat) s' pa cls →
    (vGet g.regs l o.d.toNat).toNat % n = 0 → copyDest (vGet g.regs l o.d.toNat) = some (space, off) →
    off + n ≤ bufSize T space → (space = .bufA → inRegion T off n = false) →
    (barOf T o.slot.toNat).e ≠ 0 → (barOf T o.slot.toNat).f = false → (barOf T o.slot.toNat).a < (barOf T o.slot.toNat).e →
    (barOf T o.slot.toNat).eb.toNat + n < 2 ^ 32 →
    ∃ t x, exec (mk o) s = .next t ∧ LandsOrFlies s t c o.la.toNat (fun _ _ => none) ∧ KickFrame s t ∧
      (∀ core, core ≠ g.core → teamOf t g.kc core = teamOf s g.kc core) ∧
      t.transfers = s.transfers ++ [x] ∧ x = { x with
        id := s.nextId, kc := g.kc, core := g.core, group := g.idx, asid := (kcOf s g.kc).asid, lanes := maskOf [l], chan := none
        slot := o.slot.toNat, sspace := .global, esize := n, red := .copy, started := true, stopped := false, retried := false
        legs := [⟨g.core, [(if space = .bufW then off + 2 ^ 21 else off, (pairAt g l o.a.toNat).toNat % 2 ^ 48)], false⟩]
        fetched := [] } ∧
      BarBecomes T (teamOf t g.kc g.core) o.slot.toNat { barOf T o.slot.toNat with eb := (barOf T o.slot.toNat).eb + BitVec.ofNat 32 n }

/-- A kick that a row of R284 turns away: the cause, for every active lane, with the address of the block; nothing else
changes. Rows 1 to 7 in order, the block's own first. -/
def KickRefused (mk : OpsBulk → Instr) (fn : Nat) : Prop :=
  ∀ o s c g T l ls, OnLanes s c g → g.flights = [] → TeamHere s g T →
    vOk g.budget false o.a.toNat = true → o.slot.toNat < (kcOf s g.kc).cfgBar →
    activeLanes g c o.g = l :: ls → g.poison.contains (l * 64 + o.a.toNat) = false →
    (let a := (vGet g.regs l o.a.toNat).toNat
     let b := parseBlock (bufRead T .bufA a 64)
     let cores := blockCores g.core fn b
     let bar := fun i => barOf (teamOf s g.kc i) o.slot.toNat
     let raises := fun (cause : Byte) => ∃ t, exec (mk o) s = .next t ∧
       LanesStop s t c (trapOf c { cause := cause, lanes := maskOf (l :: ls), addr := a })
     (a % 64 ≠ 0 → raises 0x03) ∧
     (a % 64 = 0 → T.aSize < a + 64 ∨ inRegion T a 64 = true → raises 0x05) ∧
     (a % 64 = 0 → a + 64 ≤ T.aSize → inRegion T a 64 = false →
       (rangeLocked s g.kc g.core .bufA a 64 false = true → raises 0x0C) ∧
       (rangeLocked s g.kc g.core .bufA a 64 false = false → bufPoisoned T .bufA a 64 = false →
         (blockDenied s g.kc g.core fn b = true → raises 0x05) ∧
         (blockDenied s g.kc g.core fn b = false →
           (blockMisaligned b = true → raises 0x03) ∧
           (blockMisaligned b = false → cores ≠ [] →
             ((∃ i ∈ cores, (bar i).e = 0 ∨ (bar i).f = true) → raises 0x0B) ∧
             ((∀ i ∈ cores, (bar i).e ≠ 0 ∧ (bar i).f = false) → (∃ i ∈ cores, 2 ^ 32 ≤ (bar i).eb.toNat + b.count) → raises 0x05))))))

/-- The spine of the kernel cluster is live and has not reached the grid's next boundary: no grid, boundary or kernel cluster
ends with what a transfer does. -/
def GoesOn (s : State) (kc : Nat) : Prop :=
  ∃ k, s.kcs.find? (fun q => q.id = kc) = some k ∧ k.spine.ended = false ∧
    ∀ G, gridOf? s k.grid = some G → k.spine.gsteps ≤ G.boundary

/-- A barrier of D, not faulted, that awaits at least one more arrival. -/
def AwaitsMore (D : Team) (slot : Nat) : Prop :=
  slot < D.bars.length ∧ (barOf D slot).f = false ∧ (barOf D slot).a < (barOf D slot).e

/-- A barrier with eb bytes awaited and lb landed after one more arrival: the phase completes when it was the last
awaited and every byte has landed (R205). -/
def arrivedAt (b : Barrier) (eb lb : BitVec 32) : Barrier :=
  if b.a + 1 = b.e ∧ lb = eb then { b with p := b.p + 1, a := 0, eb := 0, lb := 0 } else { b with a := b.a + 1, eb := eb, lb := lb }

/-- How many elements the next units of a list are (log entry 90). -/
def unitsLen (x : Transfer) : Nat → List (Nat × Nat) → Nat
  | 0, _ => 0
  | _ + 1, [] => 0
  | k + 1, e :: es =>
    let u := min (unitLen x (e :: es)) (es.length + 1)
    u + unitsLen x k ((e :: es).drop u)

/-- The elements of a leg that land next when n bytes may, and those after them. -/
def landsNow (x : Transfer) (n : Nat) (leg : Leg) : List (Nat × Nat) := leg.todo.take (unitsLen x ((n + 15) / 16) leg.todo)
def landsAfter (x : Transfer) (n : Nat) (leg : Leg) : List (Nat × Nat) := leg.todo.drop (unitsLen x ((n + 15) / 16) leg.todo)

/-- What an element makes of the old bytes at its destination (R285, R286). -/
def reduced' (op : RedOp) (old new : List Byte) : List Byte := match op with
  | .copy => new
  | .addF32 => natToBytes 4 (fAdd fmtF32 (bytesToNat old) (bytesToNat new)).1
  | .addBf16 => natToBytes 2 (fAdd fmtBf16 (bytesToNat old) (bytesToNat new)).1

/-- A bulk transfer that runs, out of a buffer, with nothing read ahead; an element has the size of its reduction. -/
structure Runs (s : State) (x : Transfer) (T : Team) : Prop where
  here : s.transfers.find? (fun t => t.id = x.id) = some x
  runs : x.started = true ∧ x.stopped = false ∧ x.chan ≠ none ∧ x.fetched = []
  kind : x.sspace ≠ .global ∧ 0 < x.esize ∧ (x.red = .addF32 → x.esize = 4) ∧ (x.red = .addBf16 → x.esize = 2)
  source : s.teams.find? (fun t => t.kc = x.kc ∧ t.core = x.core) = some T

/-- Each element lies inside one 16-byte part at both ends, as R284's row 5 has it. -/
def Aligned (x : Transfer) (es : List (Nat × Nat)) : Prop := ∀ e ∈ es, e.1 % 16 + x.esize ≤ 16 ∧ e.2 % 16 + x.esize ≤ 16

/-- The next elements of a leg go to bytes of their own in a buffer that they do not come from. -/
structure LegReady (s : State) (x : Transfer) (n : Nat) (T : Team) (leg : Leg) (D : Team) : Prop where
  left : leg.todo ≠ []
  aligned : Aligned x (landsNow x n leg)
  apart : (x.sspace ≠ x.dspace ∨ x.core ≠ leg.core) ∧ (landsNow x n leg).Pairwise fun e e' => e.1 + x.esize ≤ e'.1
  dest : s.teams.find? (fun t => t.kc = x.kc ∧ t.core = leg.core) = some D
  clean : ∀ e ∈ landsNow x n leg, bufPoisoned T x.sspace e.2 x.esize = false ∧ (x.dspace = .bufA → inRegion D e.1 x.esize = false)
  slot : AwaitsMore D x.slot

/-- The bytes of a buffer outside the regions. -/
def plainByte (x : Transfer) (D : Team) (a : Nat) : Byte := amGet 0 (match x.dspace with | .bufW => D.w | .bufA => D.a | _ => D.c) a

/-- The elements have landed at their destinations in the team, and no other byte of its buffers has changed. -/
def Landed (x : Transfer) (first : List (Nat × Nat)) (T D D' : Team) : Prop :=
  (∀ e ∈ first, (List.range x.esize).map (fun i => plainByte x D' (e.1 + i)) =
    reduced' x.red ((List.range x.esize).map fun i => plainByte x D (e.1 + i)) (bufRead T x.sspace e.2 x.esize)) ∧
  (∀ a, (∀ e ∈ first, a < e.1 ∨ e.1 + x.esize ≤ a) → plainByte x D' a = plainByte x D a) ∧
  (x.dspace ≠ .bufW → D'.w = D.w) ∧ (x.dspace ≠ .bufA → D'.a = D.a) ∧ (x.dspace ≠ .bufC → D'.c = D.c)

/-- Bytes of one of the open legs of a transfer have landed (R279, R287, R290): in its team's buffer; LB has risen, and with
the last of the leg comes its arrival; with the last leg the transfer leaves its channel. -/
def LegLands (s t : State) (x : Transfer) (n : Nat) (T : Team) (leg : Leg) (i : Nat) (D : Team) : Prop :=
  let first := landsNow x n leg
  let rest := landsAfter x n leg
  let b := barOf D x.slot
  let lb := b.lb + BitVec.ofNat 32 (first.length * x.esize)
  let legs := x.legs.set i { leg with todo := rest, arrived := rest.isEmpty }
  let done := legs.all fun l => l.arrived
  x.legs[i]? = some leg ∧ leg.arrived = false ∧ s.teams.find? (fun q => q.kc = x.kc ∧ q.core = leg.core) = some D ∧
  (done = true → GoesOn s x.kc) →
    { t with teams := s.teams, transfers := s.transfers, cur := s.cur, fresh := s.fresh } = s ∧
    Landed x first T D (teamOf t x.kc leg.core) ∧
    barOf (teamOf t x.kc leg.core) x.slot = (if rest = [] then arrivedAt b b.eb lb else { b with lb := lb }) ∧
    (¬(rest = [] ∧ b.a + 1 = b.e ∧ lb = b.eb) → (teamOf t x.kc leg.core).regions = D.regions) ∧
    (∀ kc core, ¬(kc = x.kc ∧ core = leg.core) →
      { teamOf t kc core with lastPtr := (teamOf s kc core).lastPtr } = teamOf s kc core) ∧
    (done = false → (∀ kc core, (teamOf t kc core).lastPtr = (teamOf s kc core).lastPtr) ∧
      ∃ fs, t.transfers = s.transfers.map fun q => if q.id = x.id then { x with legs := legs, retried := false, fetched := fs } else q) ∧
    (done = true → t.transfers = s.transfers.filter (fun q => q.id ≠ x.id) ∧
      ∀ ch, x.chan = some ch → amGet 0 (teamOf t x.kc x.core).lastPtr ch =
        leg.todo.foldl (fun p e => max p (e.1 + x.esize)) 0 + if x.legs.length = 1 then leg.core * 2 ^ 21 else 0)

/-- The kick's transfer meets m next, which ends it (a denied access, or a page refused), or stops it (a page fault). -/
structure Meets (s : State) (x : Transfer) (m : Miss) : Prop where
  here : s.transfers.find? (fun t => t.id = x.id) = some x
  runs : x.started = true ∧ x.stopped = false
  miss : nextMiss s x = some m

end Sys2Proof.Claims

/-! ### Matrix passes and drains -/

/-- R34, R60, R146 to R155: a pass adds to each element of the octets' C tiles the products of the A and B fragments, the
exact sum rounded as R60 says, ORs its flags into the tile's flag word, and touches no other byte; a shape the core lacks
raises FEATURE_ABSENT, and a tile outside the C buffer PROTECTION for the lanes of its octet. With `.bs` an octet's B is that
of the lowest participating octet of its group, or of a group fused with it, unspecified which (R153). A NaN or an infinite
term makes the sum what R60 says.
Of the model's own readings it rests on log entries 37, 92, 93 and 94. -/
def Obligations.MatrixPasses : Prop :=
  PassSpecial 0 fmtBf16 fmtBf16 ∧ PassSpecial 1 fmtF16 fmtF16 ∧ PassSpecial 2 fmtE4m3 fmtE4m3 ∧ PassSpecial 3 fmtE5m2 fmtE5m2 ∧
  PassSpecial 4 fmtE4m3 fmtE5m2 ∧ PassSpecialL6 ∧
  PassExact 0 fmtBf16 fmtBf16 ∧ PassExact 1 fmtF16 fmtF16 ∧ PassExact 2 fmtE4m3 fmtE4m3 ∧ PassExact 3 fmtE5m2 fmtE5m2 ∧
  PassExact 4 fmtE4m3 fmtE5m2 ∧ PassExactL6 ∧ PassExactS8 ∧
  ∀ o : OpsMma, WrongOnSpine (.mma o) ∧ ∀ s c g T, OnLanes s c g → g.flights = [] → TeamHere s g T →
    o.aBase.toNat + 8 * (shapeRows o.shape / 8) ≤ min g.budget 64 → o.bBase.toNat + 8 * (shapeCols o.shape / 8) ≤ min g.budget 64 →
    ((memberCaps s c.who).getLsbD o.shape.toNat = false ∨ (o.type = 5 ∧ (memberFeat s c.who).getLsbD 0 = false) ∨
        (o.type = 4 ∧ (memberFeat s c.who).getLsbD 1 = false) →
      ∃ t, exec (.mma o) s = .next t ∧ TrapTaken s t c (trapOf c { cause := 0x0E, lanes := c.mask })) ∧
    (let os := octetsOf g.width (issueMask g c)
     let rm := shapeRows o.shape
     let rn := shapeCols o.shape
     let frag := fun (x : Nat) => ((List.range (8 * (rm / 8))).map fun q => o.aBase.toNat + q) ++
       if o.bs = true ∧ x ≠ os.headD 0 then [] else (List.range (8 * (rn / 8))).map fun q => o.bBase.toNat + q
     let cell := fun (src : Nat → Group × Nat) (x i j : Nat) => passElem o.type (getNat T.c (g.regs.ct.toNat + 1024 * x + 64 * i + 4 * j) 4)
       ((List.range (if o.type.toNat < 2 then 16 else 32)).map fun k =>
         (fragElem g x o.aBase.toNat (rm / 8) o.type i k,
          fragElem (seen s (src x).1 2) (src x).2 o.bBase.toNat (rn / 8) o.type j k))
     (memberCaps s c.who).getLsbD o.shape.toNat = true → (o.type = 5 → (memberFeat s c.who).getLsbD 0 = true) →
     (o.type = 4 → (memberFeat s c.who).getLsbD 1 = true) →
     (∀ x ∈ os, poisonedLanes g (octetLanes [x]) (frag x) = []) →
     (let out := os.filter fun x => decide (T.cSize < g.regs.ct.toNat + 1024 * x + 1024)
      out ≠ [] → ∃ t, exec (.mma o) s = .next t ∧ t.teams = s.teams ∧
        TrapTaken s t c (trapOf c { cause := 0x05, lanes := maskOf (octetLanes out) })) ∧
     ((∀ x ∈ os, g.regs.ct.toNat + 1024 * x + 1024 ≤ T.cSize) →
       ∃ t src, exec (.mma o) s = .next t ∧
         (∀ x ∈ os, src x = (g, if o.bs then os.headD x else x) ∨ (o.bs = true ∧ ∃ q ∈ fusedWith s c g o,
           (src x).1 = q.1 ∧ (octetsOf q.1.width q.2.mask).head? = some (src x).2)) ∧ OnlyTeam s t g.kc g.core ∧ LandsOrFlies s t c o.la.toNat (fun _ _ => none) ∧
         (∀ x ∈ os, ∀ i j, i < rm → j < rn →
           getNat (teamOf t g.kc g.core).c (g.regs.ct.toNat + 1024 * x + 64 * i + 4 * j) 4 = (cell src x i j).1 % 2 ^ 32) ∧
         (∀ n, (∀ x ∈ os, ¬inTile g x n) → amGet 0 (teamOf t g.kc g.core).c n = amGet 0 T.c n) ∧
         (∀ x ∈ os, ∀ i j n, 64 * i + 4 * j + 4 ≤ 1024 → (rm ≤ i ∨ rn ≤ j) → j < 16 → n < 4 →
           amGet 0 (teamOf t g.kc g.core).c (g.regs.ct.toNat + 1024 * x + 64 * i + 4 * j + n) =
             amGet 0 T.c (g.regs.ct.toNat + 1024 * x + 64 * i + 4 * j + n)) ∧
         (∀ n, amGet 0 (teamOf t g.kc g.core).tileFlags n = match os.find? fun x => tileNo g x = n with
           | some x => amGet 0 T.tileFlags n ||| (((List.range rm).flatMap fun i => (List.range rn).map fun j =>
               tileFlagsOf (cell src x i j).2).foldl (· ||| ·) 0)
           | none => amGet 0 T.tileFlags n) ∧
         { teamOf t g.kc g.core with c := T.c, tileFlags := T.tileFlags } = T))

/-- R156 to R162: drains of C tiles to registers, unscaled or scaled by rows, columns or both, each element the exact
product rounded into the out type, and clearing tiles; and the causes of a drain's scale addresses and tiles.
Of the model's own readings it rests on log entries 34, 37, 78, 91, 92 and 94. -/
def Obligations.DrainsAndClears : Prop :=
  DrainExact ∧
  (∀ o : OpsDrn, Drains (.drain o) o.d none o.out o.clear o.la.toNat false false ∧ DrainRefused (.drain o) o.d none o.out false false) ∧
  (∀ o : OpsDrnA, DrainRefused (.drainR o) o.d (some o.a) o.out true false ∧ DrainRefused (.drainC o) o.d (some o.a) o.out false true ∧
    DrainRefused (.drainRc o) o.d (some o.a) o.out true true) ∧
  (∀ o : OpsDrnA, Drains (.drainR o) o.d (some o.a) o.out o.clear o.la.toNat true false ∧
    Drains (.drainC o) o.d (some o.a) o.out o.clear o.la.toNat false true ∧
    Drains (.drainRc o) o.d (some o.a) o.out o.clear o.la.toNat true true) ∧
  (∀ o : OpsCzero, WrongOnSpine (.czero o) ∧ ∀ s c g T, OnLanes s c g → g.flights = [] → TeamHere s g T →
    (let os := octetsOf g.width (issueMask g c)
     (∀ x ∈ os, g.regs.ct.toNat + 1024 * x + 1024 ≤ T.cSize ∧ bufPoisoned T .bufC (g.regs.ct.toNat + 1024 * x) 1024 = false) →
     ∃ t, exec (.czero o) s = .next t ∧ OnlyTeam s t g.kc g.core ∧ LandsOrFlies s t c o.la.toNat (fun _ _ => none) ∧
       TilesCleared g os T (teamOf t g.kc g.core)))

/-! ### Work queues -/

/-- R311 to R315, R322: `wpop` takes the start record once and then the bound record nearest the head, `wsteal` the one
nearest the tail of a nearest other core of the grid, `wpush` adds at the head, with the wake arrival when it is the
team's first; the status is the number of records bound to the team afterwards, and with no record or no room 0x80000000.
A poisoned record stays, with DATA_POISON late. A record area that fails a check raises its cause; on the spine `wpop` and
`wsteal` take WRONG_UNIT.
Of the model's own readings it rests on log entries 4, 37 and 97. -/
def Obligations.DequeInstructions : Prop :=
  (∀ o : OpsM, WrongOnSpine (.wpop o) ∧ WrongOnSpine (.wsteal o) ∧ AreaRefused (.wpop o) o ∧ AreaRefused (.wsteal o) o ∧
    AreaRefused (.wpush o) o) ∧
  (∀ o : OpsM, ∀ s c g T l ls, AreaReady s c g o T l ls true →
    (let addr := (vGet g.regs l o.a.toNat).toNat
     let status := fun (n : Nat) => oneV o.d.toNat (l :: ls) fun _ => BitVec.ofNat 32 n
     (g.startPopped = true ∨ (∀ r ∈ s.deques, ¬(r.kc = g.kc ∧ r.core = g.core ∧ r.start = true)) → (∀ r ∈ s.deques, bound g r = false) →
       ∃ t, exec (.wpop o) s = .next t ∧ OnlyGroups s t ∧ LandsOrFlies s t c o.la.toNat (status 0x80000000)) ∧
     (∀ pre r post, g.startPopped = true → s.deques = pre ++ r :: post → (∀ q ∈ pre, bound g q = false) → bound g r = true →
       r.bytes.length = 64 →
       (r.poison = [] → ∃ t, exec (.wpop o) s = .next t ∧ t.deques = pre ++ post ∧ RecordLands s t g T addr r.bytes ∧
         LandsOrFlies s t c o.la.toNat (status ((pre ++ post).countP fun q => q.kc = g.kc && q.core = g.core))) ∧
       (r.poison ≠ [] → ∃ t, exec (.wpop o) s = .next t ∧ t.deques = s.deques ∧ t.teams = s.teams ∧
         TrapTaken s t c (trapOf c { cause := 0x0F, late := true, lanes := maskOf (l :: ls), addr := addr }))) ∧
     (∀ r, g.startPopped = false → s.deques.find? (fun q => q.kc = g.kc && q.core = g.core && q.start) = some r → r.bytes.length = 64 →
       r.poison = [] →
       ∃ t, exec (.wpop o) s = .next t ∧ (memberGroup t c.who).startPopped = true ∧ RecordLands s t g T addr r.bytes ∧
         t.deques = (if s.groups.any fun h => h.kc = g.kc && h.core = g.core && !h.ended && !h.startPopped && h.idx ≠ g.idx then s.deques
           else s.deques.filter fun q => !(q.kc = g.kc && q.core = g.core && q.start)) ∧
         LandsOrFlies (updMember s c.who fun x => { x with startPopped := true }) t c o.la.toNat
           (status (t.deques.countP fun q => q.kc = g.kc && q.core = g.core))))) ∧
  (∀ o : OpsM, ∀ s c g T l ls, AreaReady s c g o T l ls true →
    (let addr := (vGet g.regs l o.a.toNat).toNat
     let takes := fun (q : DequeRec) => q.start = false ∧ (kcOf s q.kc).grid = (kcOf s g.kc).grid ∧ (kcOf s q.kc).place.isSome = true ∧
       hwCore (kcOf s q.kc) q.core ≠ hwCore (kcOf s g.kc) g.core
     ((∀ q ∈ s.deques, ¬takes q) → ∃ t, exec (.wsteal o) s = .next t ∧ OnlyGroups s t ∧
       LandsOrFlies s t c o.la.toNat (oneV o.d.toNat (l :: ls) fun _ => 0x80000000)) ∧
     ((∃ q ∈ s.deques, takes q) → (∀ r ∈ s.deques, r.bytes.length = 64 ∧ r.poison = []) →
       ∃ t pre r post, exec (.wsteal o) s = .next t ∧ s.deques = pre ++ r :: post ∧ t.deques = pre ++ post ∧ takes r ∧
         (∀ q ∈ post, hwCore (kcOf s q.kc) q.core = hwCore (kcOf s r.kc) r.core → ¬takes q) ∧
         r ∈ stealable s g.kc g.core ∧ (∀ q ∈ stealable s g.kc g.core, stealRank s g.kc r ≤ stealRank s g.kc q) ∧
         RecordLands s t g T addr r.bytes ∧
         LandsOrFlies s t c o.la.toNat (oneV o.d.toNat (l :: ls) fun _ => BitVec.ofNat 32 (boundCount s g.kc g.core))))) ∧
  (∀ o : OpsM, ∀ s c g T l ls, AreaReady s c g o T l ls false → bufPoisoned T .bufA (vGet g.regs l o.a.toNat).toNat 64 = false →
    (let rec' := bufRead T .bufA (vGet g.regs l o.a.toNat).toNat 64
     (dequeRoom s g.kc g.core = true →
       ∃ t, exec (.wpush o) s = .next t ∧ t.deques = ⟨g.kc, g.core, false, none, rec', []⟩ :: s.deques ∧
         { t with groups := s.groups, teams := s.teams, deques := s.deques, cur := s.cur, fresh := s.fresh } = s ∧
         WakesTeam s t g.kc g.core ∧
         LandsOrFlies s t c o.la.toNat (oneV o.d.toNat (l :: ls) fun _ => BitVec.ofNat 32 (boundCount s g.kc g.core + 1))) ∧
     (dequeRoom s g.kc g.core = false →
       ∃ t, exec (.wpush o) s = .next t ∧ OnlyGroups s t ∧ LandsOrFlies s t c o.la.toNat (oneV o.d.toNat (l :: ls) fun _ => 0x80000000)))) ∧
  (∀ o : OpsM, ∀ s c k s' pa cls, SpineAddr s c k o.g o.a → o.d.toNat < 32 → o.a.toNat < 32 → bitsOf c.word 15 10 = o.d.toNat →
    (let core := (xGet k.spine o.d.toNat).toNat % 16
     let status := fun (n : Nat) r => if r = o.d.toNat then some (BitVec.ofNat 64 n) else none
     core < k.rows * k.cols → Reaches s c { r := true } true true 64 (xGet k.spine o.a.toNat) s' pa cls →
     (dequeRoom s k.id core = true →
       ∃ t, exec (.wpush o) s = .next t ∧ t.mem = s.mem ∧
         t.deques = ⟨k.id, core, false, none, (List.range 64).map fun i => memByte s (readAt s c pa cls + i), []⟩ :: s.deques ∧
         WakesTeam s t k.id core ∧
         SpineRegs s t k.id (status (boundCount s k.id core + 1)) (fun _ => none) 0 (nextPc c)) ∧
     (dequeRoom s k.id core = false →
       ∃ t, exec (.wpush o) s = .next t ∧ t.mem = s.mem ∧ t.deques = s.deques ∧ t.teams = s.teams ∧
         SpineRegs s t k.id (status 0x80000000) (fun _ => none) 0 (nextPc c))))

/-- R316, R317: dependence counters are decremented, added to with clamping, and set, giving the old count, lane after lane;
the queries give the records of the member's deque, a counter, and the entries of a feed queue; a counter that is not the
VF's is PROTECTION.
Of the model's own readings it rests on log entry 37. -/
def Obligations.DependencesAndQueries : Prop :=
  FormDepLanes .wdepDec (fun old _ => if old = 0 then 0 else old - 1) ∧
  FormDepLanes .wdepAdd (fun old k => if (old.toNat : Int) + k.toInt < 0 then 0 else if 65535 < (old.toNat : Int) + k.toInt then 65535 else old + k) ∧
  FormDepLanes .wdepSet (fun _ k => k) ∧
  CounterDenied .wdepDec ∧ CounterDenied .wdepAdd ∧ CounterDenied .wdepSet ∧ CounterDenied .wqryDep ∧
  FormDep .wdepDec (fun old _ => if old = 0 then 0 else old - 1) ∧
  FormDep .wdepAdd (fun old k => if (old.toNat : Int) + k.toInt < 0 then 0 else if 65535 < (old.toNat : Int) + k.toInt then 65535 else old + k) ∧
  FormDep .wdepSet (fun _ k => k) ∧
  (∀ o : OpsM, OneOperand (.wqryDep o) o (fun s c w => ownsCounter s (ctxOf s (memberAsid s c.who)).vf (w % 4096) = true)
    (fun s _ w => (amGet (0 : BitVec 16) s.tund.counts (w % 4096)).toNat) (fun s t _ _ => t.tund = s.tund)) ∧
  (∀ o : OpsM, OneOperand (.wqryFeed o) o
    (fun s c w => (amGet QueueEntry.zero s.tund.queues (w % 256)).vf = (ctxOf s (memberAsid s c.who)).vf)
    (fun s _ w => (let q := amGet QueueEntry.zero s.tund.queues (w % 256); min (memVal s q.cb 8 - memVal s (q.cb + 8) 8) 0xFFFFFFFF))
    (fun s t _ _ => t.tund = s.tund)) ∧
  (∀ o : OpsMd,
    (∀ s c g, OnLanes s c g → g.flights = [] → vOk g.budget false o.d.toNat = true →
      ∃ t, exec (.wqryDeque o) s = .next t ∧ OnlyGroups s t ∧ LandsOrFlies s t c o.la.toNat (oneV o.d.toNat (activeLanes g c o.g)
        fun _ => BitVec.ofNat 32 (s.deques.countP fun r => r.kc = g.kc && r.core = g.core))) ∧
    (∀ s c k, OnSpine s c k → spinePred k.spine o.g = true → o.d.toNat < 32 →
      ∃ t, exec (.wqryDeque o) s = .next t ∧ OnlyKcs s t ∧ SpineRegs s t k.id
        (fun r => if r = o.d.toNat then some (BitVec.ofNat 64 (s.deques.countP fun q => q.kc = k.id)) else none) (fun _ => none) 0 (nextPc c)))

/-! ### The ladle -/

/-- R279 to R290: bulk kicks and per-lane copies start a transfer and raise EB; a block of no bytes, and an entry with no
active lane, make the arrivals alone; the rows of R284 turn a kick away; `lwp` gives the write pointer of the oldest transfer
of the slot's channel on the core; on the spine all take WRONG_UNIT.
Of the model's own readings it rests on log entries 37, 39, 79, 110 and 111. -/
def Obligations.LadleKicks : Prop :=
  KickRefused .lxfr 0 ∧ KickRefused .lmcs 1 ∧ KickRefused .lred 2 ∧
  FormKick .lxfr 0 ∧ FormKick .lmcs 1 ∧ FormKick .lred 2 ∧ FormCopy .lcpy4 4 ∧ FormCopy .lcpy8 8 ∧ FormCopy .lcpy16 16 ∧
  (∀ o : OpsLwp, WrongOnSpine (.lwp o) ∧ ∀ s c g T, OnLanes s c g → g.flights = [] → TeamHere s g T →
    vOk g.budget false o.d.toNat = true → o.slot.toNat < (kcOf s g.kc).cfgBar →
    (∃ t, exec (.lwp o) s = .next t ∧ OnlyGroups s t ∧
      LandsOrFlies s t c o.la.toNat (oneV o.d.toNat (activeLanes g c o.g) fun _ => BitVec.ofNat 32 (lwpValue s g.kc g.core o.slot.toNat))) ∧
    (amGet none T.chans o.slot.toNat = none → lwpValue s g.kc g.core o.slot.toNat = 0) ∧
    (∀ ch, amGet none T.chans o.slot.toNat = some ch →
      (∀ x ∈ s.transfers, ¬(x.chan = some ch ∧ hwCore (kcOf s x.kc) x.core = hwCore (kcOf s g.kc) g.core)) →
      lwpValue s g.kc g.core o.slot.toNat = amGet 0 T.lastPtr ch) ∧
    (∀ ch x leg e rest, amGet none T.chans o.slot.toNat = some ch →
      s.transfers.find? (fun y => y.chan = some ch ∧ hwCore (kcOf s y.kc) y.core = hwCore (kcOf s g.kc) g.core) = some x →
      x.legs = [leg] → leg.todo = e :: rest → e.1 < 2 ^ 48 →
      lwpValue s g.kc g.core o.slot.toNat = if x.dspace = .global then e.1 % 2 ^ 32 else e.1 + leg.core * 2 ^ 21))

/-- R212, R279, R283, R285 to R288, R291, R352: bytes of a transfer land in destination order, copied or added, in the buffers
of the cores it names or in memory, and count in LB; the last of a core's make its arrival, and the last of all leave the
write pointer behind; a denied access ends it: EB falls by what will not land, the arrival is
made and the cause goes to the kicking group; a page fault stops it and writes a frame;
a channel takes up its oldest transfer; a held kick is made when its wait ends.
Of the model's own readings it rests on log entries 37, 40, 42, 79, 89, 90 and 111. -/
def Obligations.LadleEvents : Prop :=
  (∀ s x n T, Runs s x T → x.dspace ≠ .global → 0 < n → (∃ leg ∈ x.legs, leg.arrived = false) →
    (∀ leg ∈ x.legs, leg.arrived = false → ∃ D, LegReady s x n T leg D) →
    ∃ t leg i D, exec (.ladleBytesLand x.id n) s = .next t ∧ x.legs[i]? = some leg ∧ leg.arrived = false ∧
      s.teams.find? (fun q => q.kc = x.kc ∧ q.core = leg.core) = some D ∧ LegLands s t x n T leg i D) ∧
  (∀ s x n T leg rest s' pa cls D, Runs s x T → x.dspace = .global → 0 < n → n ≤ 16 → x.legs = [leg] → leg.arrived = false →
    landsNow x n leg ≠ [] → Aligned x (landsNow x n leg) → landsAfter x n leg = rest → rest ≠ [] →
    (landsNow x n leg).Pairwise (fun e e' => e.1 + x.esize ≤ e'.1) →
    (∀ e ∈ landsNow x n leg, bufPoisoned T x.sspace e.2 x.esize = false) →
    s.teams.find? (fun q => q.kc = x.kc ∧ q.core = leg.core) = some D → AwaitsMore D x.slot →
    (let span := unitSpan x (landsNow x n leg)
     ladleSide s x true span.1 span.2 = (s', .ok ⟨.mem pa cls, 0, span.2, span.1⟩) → { s' with tlb := s.tlb } = s →
     ∃ t, exec (.ladleBytesLand x.id n) s = .next t ∧
       (∀ e ∈ landsNow x n leg, (List.range x.esize).map (fun i => memByte t (pa + (e.1 - span.1) + i)) =
         reduced' x.red ((List.range x.esize).map fun i => memByte s (servedAt s (transferDie s x) pa cls + (e.1 - span.1) + i))
           (bufRead T x.sspace e.2 x.esize)) ∧
       (∀ a, (a < pa ∨ pa + span.2 ≤ a) → a ≠ (ctxOf s x.asid).desc + 0x58 → memByte t a = memByte s a) ∧
       barOf (teamOf t x.kc leg.core) x.slot =
         { barOf D x.slot with lb := (barOf D x.slot).lb + BitVec.ofNat 32 ((landsNow x n leg).length * x.esize) })) ∧
  (∀ s x m, Meets s x m → m.cause ≠ 0x04 ∨ x.retried = true → GoesOn s x.kc →
    ∃ t, exec (.ladleAccessDenied x.id) s = .next t ∧
      { t with teams := s.teams, groups := s.groups, transfers := s.transfers, cur := s.cur, fresh := s.fresh } = s ∧
      t.transfers = s.transfers.filter (fun q => q.id ≠ x.id) ∧
      (∀ leg D, x.legs = [leg] → leg.arrived = false → s.teams.find? (fun q => q.kc = x.kc ∧ q.core = leg.core) = some D →
        AwaitsMore D x.slot → barOf (teamOf t x.kc leg.core) x.slot = arrivedAt (barOf D x.slot)
          ((barOf D x.slot).eb - BitVec.ofNat 32 (leg.todo.length * x.esize)) (barOf D x.slot).lb) ∧
      ∀ g, s.groups.find? (fun y => y.kc = x.kc ∧ y.core = x.core ∧ y.idx = x.group) = some g →
        (g.ended = true → groupOf t x.kc x.core x.group = g) ∧
        (g.ended = false → ∃ tr, groupOf t x.kc x.core x.group = { g with ladle := g.ladle ++ [tr] } ∧ tr.cause = m.cause ∧
          tr.lanes = x.lanes ∧ tr.imprecise = true ∧ tr.late = false ∧ tr.addr = BitVec.ofNat 64 x.block)) ∧
  (∀ s x m, Meets s x m → m.cause = 0x04 → x.retried = false →
    ∃ t fr, exec (.ladlePageFault x.id) s = .next t ∧ t.frames = s.frames ++ [fr] ∧ fr.asid = x.asid ∧
      fr.whose = .ladle x.id (.group x.kc x.core x.group) ∧ fr.trap.cause = 0x04 ∧ fr.trap.lanes = x.lanes ∧
      (∀ e, comingEntry s (groupOf s x.kc x.core x.group) = some e → fr.trap.pc = e.pc ∧ fr.trap.prio = e.prio) ∧
      fr.trap.addr = BitVec.ofNat 64 x.block ∧ fr.trap.imprecise = true ∧ fr.trap.pages.map (fun p => p.page) = [m.addr / 65536] ∧
      { t with frames := s.frames, transfers := s.transfers, cur := s.cur } = s ∧
      t.transfers = s.transfers.map fun q => if q.id = x.id then { q with stopped := true } else q) ∧
  (∀ s x, s.transfers.find? (fun t => t.id = x.id) = some x →
    (s.transfers.find? fun q => q.chan = x.chan ∧ hwCore (kcOf s q.kc) q.core = hwCore (kcOf s x.kc) x.core) = some x →
    ∃ t, exec (.ladleChannelStart x.id) s = .next t ∧
      t = { s with transfers := s.transfers.map fun q => if q.id = x.id then { q with started := true } else q }) ∧
  (∀ s c g fn o T l ls, KickReady s c g fn.toNat o T l ls true → g.hold = some (.locks c fn o) →
    ∃ t, exec (.ladleLockWaitEnd c.who) s = .next t ∧ (memberGroup t c.who).hold = none ∧ Kicked s t g fn.toNat o T l ls ∧
      LandsOrFlies (updMember s c.who fun x => { x with hold := none }) t c o.la.toNat (fun _ _ => none)) ∧
  (∀ s c g o T l ls, KickReady s c g 1 o T l ls true → g.hold = some (.mcast c o) →
    ∃ t, exec (.lmcsHoldEnd c.who) s = .next t ∧ (memberGroup t c.who).hold = none ∧ Kicked s t g 1 o T l ls ∧
      LandsOrFlies (updMember s c.who fun x => { x with hold := none }) t c o.la.toNat (fun _ _ => none))

namespace Sys2Proof.Claims

/-- The control block of a feed queue: WIDX, RIDX and DROPS (R303). -/
def ridx (s : State) (q : BitVec 8) : Nat := memVal s ((queueOf s q).cb + 8) 8
def drops (s : State) (q : BitVec 8) : Nat := memVal s ((queueOf s q).cb + 0x18) 4

/-- Each of the kernel clusters is asked to stop and to be saved with a code. -/
def Stopped (t : State) (ks : List Kc) (code : Byte) : Prop := ∀ k ∈ ks, (kcOf t k.id).status = .stopping code ∧ (kcOf t k.id).slotNo.isSome = true

/-- Every context's descriptor is as the device has latched it, and each ASID is that of one context. -/
def LatchedAll (s : State) : Prop := (∀ c ∈ s.ctxs, latchDesc s c = c) ∧ (s.ctxs.map fun c => c.asid).Nodup

/-- A stopped spine and a stopped group of a running kernel cluster, whose frame awaits its answer. -/
structure AnswerSpine (s : State) (o : FrameRef) (w : Written) (k : Kc) (tr : Trap) : Prop where
  found : findWritten s o = some w
  whose : w.frame.whose = .member (.spine k.id)
  here : s.kcs.find? (fun x => x.id = k.id) = some k
  runs : k.status = .running
  trap : k.spine.trap = some tr
structure AnswerGroup (s : State) (o : FrameRef) (w : Written) (g : Group) (tr : Trap) : Prop where
  found : findWritten s o = some w
  whose : w.frame.whose = .member (.group g.kc g.core g.idx)
  here : s.groups.find? (fun x => x.kc = g.kc ∧ x.core = g.core ∧ x.idx = g.idx) = some g
  runs : (kcOf s g.kc).status = .running
  trap : g.trap = some tr

/-- The pages that a frame names: one where the ring has one slot (R330). -/
def namedPages (c : Ctx) (f : Frame) : List FaultPage := if c.log2n = 0 then f.trap.pages.take 1 else f.trap.pages

/-- HDR, field by field (R331, R332, R435). -/
def hdrOf (c : Ctx) (f : Frame) : Nat :=
  let retry := f.trap.cause.toNat ∈ [0x04, 0x05, 0x06, 0x07, 0x09, 0x0A, 0x0B, 0x0C, 0x0E, 0x0F, 0x11, 0x12, 0x13, 0x14, 0x15]
  let precise := match f.whose with
    | .ladle _ _ => true
    | _ => !f.trap.imprecise
  let spine := match f.whose with
    | .member (.spine _) => true
    | _ => false
  f.trap.cause.toNat + (if precise then 2 ^ 8 else 0) + (if retry then 2 ^ 9 else 0) + (if spine then 2 ^ 10 else 0) +
    (if f.trap.late then 2 ^ 11 else 0) + (if frameCont c f then 2 ^ 12 else 0) + f.trap.code.toNat * 2 ^ 16 +
    f.trap.prio.toNat * 2 ^ 24 + f.trap.lane.toNat * 2 ^ 32 + f.groupNo * 2 ^ 48

/-- The frame f stands in the 128 bytes at slot, with its number (R331). -/
structure FrameAt (t : State) (c : Ctx) (f : Frame) (slot : Nat) : Prop where
  seq : memVal t slot 8 = (c.seq + 1) % 2 ^ 64
  hdr : memVal t (slot + 0x08) 8 = hdrOf c f % 2 ^ 64
  pc : memVal t (slot + 0x10) 8 = f.trap.pc.toNat
  lanes : memVal t (slot + 0x18) 8 = f.trap.lanes.toNat
  addr : memVal t (slot + 0x20) 8 = f.trap.addr.toNat
  info : memVal t (slot + 0x28) 8 = f.team.toNat * 2 ^ 32 + f.trap.word.toNat
  grid : memVal t (slot + 0x30) 8 = f.grid.toNat * 2 ^ 32 + f.cluster.toNat
  noPages : f.trap.cause ≠ 0x04 → memVal t (slot + 0x40) 8 = 0 ∧ memVal t (slot + 0x48) 8 = 0
  pages : f.trap.cause = 0x04 → f.trap.pages.length ≤ 32 →
    memVal t (slot + 0x48) 8 / 2 ^ 32 = (namedPages c f).length ∧
      ∀ j p, (namedPages c f)[j]? = some p → (memVal t (slot + 0x40) 8).testBit j = p.w ∧
        (memVal t (slot + 0x40) 8).testBit (32 + j) = p.x ∧ (memVal t (slot + 0x48) 8).testBit j = p.s2
  rest : ∀ i, 0x50 ≤ i → i < 0x80 → memByte t (slot + i) = 0

/-- The word of the continuation slot for each page (R331). -/
def PagesAt (t : State) (c : Ctx) (f : Frame) (slot : Nat) : Prop :=
  ∀ j p, j < 32 → (namedPages c f)[j]? = some p → memVal t (slot + 4 * j) 4 = p.page % 2 ^ 32

end Sys2Proof.Claims

/-! ### Traps, frames and answers -/

/-- R302, R330 to R334, R337, R352, R435: a frame is written to its ring when there is room, field by field, with a
continuation slot where it names several pages, and signalled; where its kernel cluster is saved the image takes cause and
sequence number. RETRY issues the instruction again, for the lanes in LANES, SKIP goes on after it, END ends the grid, whose
launch is completed; an answer for a kernel cluster that does not run is kept; one for a channel lets it go on or ends the
grid. The answered frame is done.
Of the model's own readings it rests on log entries 6, 42, 54 and 55. -/
def Obligations.TrapFramesAndAnswers : Prop :=
  (∀ s i f c, s.frames[i]? = some f → ctxOf? s f.asid = some c →
    (let w := memVal s (c.desc + 0x28) 8
     let slot := c.tring + 128 * (w % 2 ^ c.log2n)
     let slot2 := c.tring + 128 * ((w + 1) % 2 ^ c.log2n)
     let cont := frameCont c f = true
     let apart := fun (a : Nat) => a + 128 ≤ c.desc + 0x28 ∨ c.desc + 0x30 ≤ a
     (ringRoom s c f = false → exec (.trapFrameWrite i) s = .next s) ∧
     (ringRoom s c f = true → apart slot → apart slot2 →
       (∀ m v, f.whose = .member m → (kcOf s (memberKc m)).status = .saved v →
         ∃ t, exec (.trapFrameWrite i) s = .next t ∧ t.frames = s.frames.eraseIdx i ∧ (ctxOf t f.asid).seq = c.seq + 1 ∧
           ((∀ w ∈ s.written, ∀ m', w.frame.whose = .member m' → memberKc m' ≠ memberKc m) →
             (∃ k ∈ s.kcs, k.id = memberKc m) → f.trap.cause ≠ 0x0D →
             memByte t (imageBase s (kcOf s (memberKc m)) + 1) = f.trap.cause ∧
               memVal t (imageBase s (kcOf s (memberKc m)) + 8) 8 = (c.seq + 1) % 2 ^ 64)) ∧
       ((∀ m v, f.whose = .member m → (kcOf s (memberKc m)).status ≠ .saved v) →
       ∃ t, exec (.trapFrameWrite i) s = .next t ∧ t.frames = s.frames.eraseIdx i ∧ (ctxOf t f.asid).seq = c.seq + 1 ∧
         memVal t (c.desc + 0x28) 8 = (w + if cont then 2 else 1) % 2 ^ 64 ∧ FrameAt t c f slot ∧ (cont → PagesAt t c f slot2) ∧
         (∀ a, (a < slot ∨ slot + 128 ≤ a) → (¬cont ∨ a < slot2 ∨ slot2 + 128 ≤ a) →
           (a < c.desc + 0x28 ∨ c.desc + 0x30 ≤ a) → memByte t a = memByte s a) ∧
         t.out = if c.tvec < 64 then .msix c.vf c.tvec :: s.out else s.out)))) ∧
  (∀ s i f, s.frames[i]? = some f → ctxOf? s f.asid = none →
    exec (.trapFrameWrite i) s = .next { s with frames := s.frames.eraseIdx i }) ∧
  (∀ s o, findWritten s o = none → exec (.trapAnswerRetry o) s = .next s ∧ exec (.trapAnswerSkip o) s = .next s ∧
    exec (.trapAnswerEnd o) s = .next s) ∧
  (∀ s o w k tr, AnswerSpine s o w k tr →
    (causeSkips tr.cause = false → ∃ t, exec (.trapAnswerRetry o) s = .next t ∧ kcOf t k.id = { k with spine := { k.spine with trap := none } }) ∧
    (causeSkips tr.cause = true → exec (.trapAnswerRetry o) s = exec (.trapAnswerSkip o) s) ∧
    (tr.imprecise = false → ∃ t, exec (.trapAnswerSkip o) s = .next t ∧
      kcOf t k.id = { k with spine := { k.spine with trap := none, pc := tr.pc + BitVec.ofNat 48 tr.len } })) ∧
  (∀ s o w g tr, AnswerGroup s o w g tr →
    (tr.imprecise = true → ∀ i ∈ [Instr.trapAnswerRetry o, .trapAnswerSkip o],
      ∃ t, exec i s = .next t ∧ groupOf t g.kc g.core g.idx = { g with trap := none }) ∧
    (tr.imprecise = false →
      (causeSkips tr.cause = false → tr.late = false → tr.cause = 0x04 ∨ tr.cause = 0x06 ∨ tr.cause = 0x0C →
        ∃ t, exec (.trapAnswerRetry o) s = .next t ∧ groupOf t g.kc g.core g.idx = { g with trap := none }) ∧
      (causeSkips tr.cause = false → tr.late = true ∨ (tr.cause ≠ 0x04 ∧ tr.cause ≠ 0x06 ∧ tr.cause ≠ 0x0C) →
        ∃ t, exec (.trapAnswerRetry o) s = .next t ∧ groupOf t g.kc g.core g.idx =
          { g with trap := none, retry := if tr.entry &&& ~~~tr.lanes = 0 then none else some (tr.entry &&& ~~~tr.lanes) }) ∧
      (causeSkips tr.cause = true → exec (.trapAnswerRetry o) s = exec (.trapAnswerSkip o) s) ∧
      (∃ t, exec (.trapAnswerSkip o) s = .next t ∧ (groupOf t g.kc g.core g.idx).trap = none ∧
        { (groupOf t g.kc g.core g.idx).regs with frontier := g.regs.frontier } = g.regs ∧
        (∀ l, tr.entry.getLsbD l = true → LaneAt g.regs l tr.pc tr.prio none →
          LaneAt (groupOf t g.kc g.core g.idx).regs l (tr.pc + BitVec.ofNat 48 tr.len) tr.prio none) ∧
        ∀ l pc prio w, LaneAt g.regs l pc prio w → ¬(tr.entry.getLsbD l = true ∧ pc = tr.pc ∧ prio = tr.prio ∧ w = none) →
          LaneAt (groupOf t g.kc g.core g.idx).regs l pc prio w))) ∧
  (∀ s o w m G, findWritten s o = some w → w.frame.whose = .member m → (kcOf s (memberKc m)).status = .running →
    gridOf? s w.frame.grid = some G →
    ∃ t, exec (.trapAnswerEnd o) s = .next t ∧ findWritten t o = none ∧
      GridEnded { s with written := s.written.filter fun x => !(x.asid = o.asid && x.seq = o.seq) } t G 2 w.frame.trap.cause.toNat) ∧
  (∀ s o w m, findWritten s o = some w → w.frame.whose = .member m → (kcOf s (memberKc m)).status ≠ .running →
    ∀ p ∈ [(Instr.trapAnswerRetry o, Answered.retry), (.trapAnswerSkip o, .skip), (.trapAnswerEnd o, .stop)],
      ∃ t, exec p.1 s = .next t ∧ findWritten t o = none ∧ t.grids = s.grids ∧
        (∀ k, m = .spine k.id → s.kcs.find? (fun x => x.id = k.id) = some k → k.spine.trap.isSome = true →
          kcOf t k.id = { k with spine := { k.spine with answer := some p.2 } } ∧ t.groups = s.groups) ∧
        (∀ g, m = .group g.kc g.core g.idx → s.groups.find? (fun x => x.kc = g.kc ∧ x.core = g.core ∧ x.idx = g.idx) = some g →
          g.trap.isSome = true → groupOf t g.kc g.core g.idx = { g with answer := some p.2 } ∧ t.kcs = s.kcs)) ∧
  (∀ s o w id m, findWritten s o = some w → w.frame.whose = .ladle id m →
    (let S := { s with written := s.written.filter fun x => !(x.asid = o.asid && x.seq = o.seq) }
     (∀ i ∈ [Instr.trapAnswerRetry o, .trapAnswerSkip o], exec i s = .next { S with transfers := s.transfers.map fun x =>
       if x.id = id then { x with stopped := false, retried := true } else x }) ∧
     (∀ G, gridOf? s w.frame.grid = some G → ∃ t, exec (.trapAnswerEnd o) s = .next t ∧
       GridEnded S t G 2 w.frame.trap.cause.toNat)))

namespace Sys2Proof.Claims

/-- The external rows of a `wait` (R419): the barrier is doorbell-fed, watch-fed or a WAKE slot, or bytes or a transfer are still
to come to it. -/
def FedFromOutside (s : State) (k : Kc) (core slot : Nat) : Prop :=
  let b := barOf (teamOf s k.id core) slot
  b.x = true ∨ b.door ≠ none ∨ b.lb < b.eb ∨ (∃ G, gridOf? s k.grid = some G ∧ G.mould.wqv = true ∧ G.mould.wake = slot) ∨
    (∃ w ∈ s.watches, w.kc = k.id ∧ w.core = core ∧ w.slot = slot) ∨
    ∃ x ∈ s.transfers, x.kc = k.id ∧ x.slot = slot ∧ ∃ l ∈ x.legs, l.core = core ∧ l.arrived = false

/-- The internal rows of R419: a sprue access that R25 still blocks, a `wait` on a barrier that no external row names, and a
`gstep` whose boundary has not completed. -/
def InternalWait (s : State) (k : Kc) (core : Nat) : Wait → Prop
  | .sprueFull r => (∀ n, (sprueGet k r.toNat).st ≠ .full n) ∨ reserved k r.toNat = true
  | .sprueEmpty r => (sprueGet k r.toNat).st ≠ .empty
  | .sprueFilling r => ∀ n, (sprueGet k r.toNat).st ≠ .filling n
  | .phase slot p => (barOf (teamOf s k.id core) slot.toNat).p = p ∧ (barOf (teamOf s k.id core) slot.toNat).f = false ∧
      ¬ FedFromOutside s k core slot.toNat
  | .faulted _ => False
  | .boundary n => ∃ G, gridOf? s k.grid = some G ∧ G.boundary < n

/-- A group that is internally blocked (R419): it is not stopped by a trap, no operand is on its way, and either each of its
entries waits in an internal row, or it holds an `lmcs` for which a receiving team lacks its bit. -/
def GroupBlocked (s : State) (k : Kc) (g : Group) : Prop :=
  g.trap = none ∧ (∀ f ∈ g.flights, f.ask = none) ∧
    ((g.hold = none ∧ g.regs.frontier ≠ [] ∧ ∀ e ∈ g.regs.frontier, ∃ w, e.wait = some w ∧ InternalWait s k g.core w) ∨
      ∃ c o, g.hold = some (.mcast c o) ∧
        (let b := parseBlock (bufRead (teamOf s g.kc g.core) .bufA (vGet g.regs ((activeLanes g c o.g).headD 0) o.a.toNat).toNat 64)
         ∃ r < 12, b.mcast.testBit r = true ∧ (teamOf s g.kc r).free.getLsbD o.slot.toNat = false))

/-- A running kernel cluster that has a member, each of which is internally blocked. -/
def ClusterBlocked (s : State) (k : Kc) : Prop :=
  k.status = .running ∧ k.place ≠ none ∧
    (k.spine.ended = false → k.spine.trap = none ∧ ∃ w, k.spine.wait = some w ∧ InternalWait s k 0 w) ∧
    (∀ g ∈ s.groups, g.kc = k.id → g.ended = false → GroupBlocked s k g) ∧
    (k.spine.ended = false ∨ ∃ g ∈ s.groups, g.kc = k.id ∧ g.ended = false)

/-- The condition of R420: grid-wide where a member is at a `gstep`. -/
def DeadlockFound (s : State) (k : Kc) : Prop :=
  ClusterBlocked s k ∧ ((∃ n, k.spine.wait = some (.boundary n)) → ∀ q ∈ s.kcs, q.grid = k.grid → ClusterBlocked s q)

end Sys2Proof.Claims

/-- R302, R419, R420: a kernel cluster whose members are all internally blocked, each in an internal row of the table (the
whole grid, where one is at a `gstep`), is reported with DEADLOCK and its grid ends with STATUS 2 and that cause; one that
is not stays as it is. -/
def Obligations.DeadlockWatchdog : Prop :=
  ∀ s k G, KcHere s k → gridOf? s k.grid = some G → (s.kcs.map fun q => q.id).Nodup →
    (DeadlockFound s k → ∃ t f, exec (.deadlockWatchdog k.id) s = .next t ∧ t.frames = s.frames ++ [f] ∧ f.asid = k.asid ∧
      f.grid = k.grid ∧ f.cluster = k.cluster ∧ f.whose = .cluster k.id ∧ f.trap.cause = 0x18 ∧
      GridEnded { s with frames := s.frames ++ [f] } t G 2 0x18) ∧
    (¬ DeadlockFound s k → exec (.deadlockWatchdog k.id) s = .next s)

/-- R189, R328, R336, R337, R339: when every member has stopped, blocked entries abandon their instructions, the image is
written with the status and the first frame's cause, memory outside it stays and the resources are free, and a withdrawing
die it was the last to use leaves the touched-dies mask; a saved kernel cluster that may resume runs again where a candidate
fits, unless one of the grid with a lower CLUSTER can, with the arrivals counted at its doorbells meanwhile (R208), and takes
STATUS 4 where no core of the partition meets its requirements.
Of the model's own readings it rests on log entries 30, 41, 43, 47 and 54. -/
def Obligations.SaveAndResume : Prop :=
  (∀ s k, s.kcs.find? (fun x => x.id = k.id) = some k →
    (saveReady s k = false → exec (.saveComplete k.id) s = .next s) ∧
    (saveReady s k = true →
      (let st := if (trappedCause s k).isSome then 2 else stopCode k
       ∃ t, exec (.saveComplete k.id) s = .next t ∧ (kcOf t k.id).status = .saved st ∧ (kcOf t k.id).place = none ∧
         memByte t (imageBase s k) = st ∧ memByte t (imageBase s k + 1) = ((pendingFrame s k.id).map fun w => w.frame.trap.cause).getD 0 ∧
         (∀ x ∈ t.groups, x.kc = k.id → x.ended = false → x.flights = [] ∧ ∀ e ∈ x.regs.frontier, e.wait = none) ∧
         memVal t (imageBase s k + 24) 8 = k.cluster.toNat * 2 ^ 32 + k.grid.toNat ∧
         (∀ a, a < imageBase s k → a ≠ (ctxOf s k.asid).desc + 0x58 → memByte t a = memByte s a) ∧
         ((s.groups.filter fun x => x.kc = k.id).length ≤ 1024 → (∀ x ∈ s.groups, x.budget ≤ 64 ∧ x.width ≤ 64) →
           memVal t (imageBase s k + 0x30) 4 ≤ 2 ^ 26 ∧ ∀ a, imageBase s k + memVal t (imageBase s k + 0x30) 4 ≤ a →
             a ≠ (ctxOf s k.asid).desc + 0x58 → memByte t a = memByte s a) ∧
         ∀ c p, ctxOf? s k.asid = some c → k.place = some p → c.desc + 0x58 < imageBase s k → (dieOf s p.die).st = .withdrawing →
           (∀ q ∈ s.kcs, q.asid = k.asid → q.id ≠ k.id → q.place.map (fun r => r.die) ≠ some p.die) →
           c.dirty.getLsbD p.die.toNat = false → (touchedOf t c).getLsbD p.die.toNat = false))) ∧
  (∀ s k G, s.kcs.find? (fun x => x.id = k.id) = some k → gridOf? s k.grid = some G →
    (mayResume s k G = false ∨ resumesLater s k G = true → exec (.resume k.id) s = .next s) ∧
    (mayResume s k G = true → resumesLater s k G = false →
      (let req := withRegion G.mould (BitVec.ofNat 32 (memVal s (imageBase s k + 0x28) 4))
       let cand := (candsOn G.dies G.mould.rows G.mould.cols).find? (fitsAt s G.mould req none fun i => boundRecs s k.id i)
       (anyCoreMeets s k.asid req = false → ∃ t, exec (.resume k.id) s = .next t ∧ (kcOf t k.id).status = .saved 4 ∧
         memByte t (imageBase s k) = 4 ∧ t.groups = s.groups) ∧
       (anyCoreMeets s k.asid req = true → cand = none → exec (.resume k.id) s = .next s) ∧
       (∀ c, anyCoreMeets s k.asid req = true → cand = some c →
         k.spine.answer ≠ some .stop → (∀ g ∈ s.groups, g.kc = k.id → g.answer ≠ some .stop) →
         ∃ t p, exec (.resume k.id) s = .next t ∧ (kcOf t k.id).status = .running ∧ (kcOf t k.id).place = some p ∧
           p.die = c.die ∧ p.hw = c.hw ∧ p.row = c.row ∧ p.col = c.col ∧ (kcOf t k.id).slotNo = none ∧
           ∀ x idx core slot T, ctxOf? s k.asid = some x → x.counted = [(idx, 1)] →
             s.host.forwards.find? (fun f => f.asid = k.asid) = none → amGet none x.doors idx = some (k.id, core, slot) →
             s.teams.find? (fun q => q.kc = k.id ∧ q.core = core) = some T → slot < T.bars.length → MayArrive (barOf T slot) 0 →
             ¬((barOf T slot).a + 1 = (barOf T slot).e ∧ (barOf T slot).lb = (barOf T slot).eb) →
             (ctxOf t k.asid).counted = [] ∧ barOf (teamOf t k.id core) slot = { barOf T slot with a := (barOf T slot).a + 1 }))))

/-! ### The tundish -/

/-- R303 to R309: a notification makes the tundish look at a ring that is enabled; of the slot at RIDX it passes over
padding, drops and counts a bad record, and holds one whose counter is not zero, RIDX rising each time; at the hold quota
the record waits in the ring.
Of the model's own readings it rests on log entries 17, 48, 52 and 54. -/
def Obligations.FeedQueues : Prop :=
  (∀ s q, ((queueOf s q).en = true → ∃ t, exec (.queueNotify q) s = .next t ∧ { t with tund := s.tund } = s ∧ q ∈ t.tund.looking ∧
      { t.tund with looking := s.tund.looking } = s.tund) ∧
    ((queueOf s q).en = false → exec (.queueNotify q) s = .next s)) ∧
  (∀ s q, served s q = true → q ∈ s.tund.looking →
    (let e := queueOf s q
     let b := slotBytes s e
     let h := recHeader b
     (slotReady s e = false → ∃ t, exec (.tundishConsume q) s = .next t ∧ { t with tund := s.tund } = s ∧ q ∉ t.tund.looking) ∧
     (slotReady s e = true → h.extractLsb' 0 8 = 0 →
       ∃ t, exec (.tundishConsume q) s = .next t ∧ memVal t (e.cb + 8) 8 = (ridx s q + 1) % 2 ^ 64 ∧
         ∀ a, (a < e.cb + 8 ∨ e.cb + 16 ≤ a) → memByte t a = memByte s a) ∧
     (slotReady s e = true → h.extractLsb' 0 8 ≠ 0 → badRecord s e b = true →
       ∃ t, exec (.tundishConsume q) s = .next t ∧ memVal t (e.cb + 8) 8 = (ridx s q + 1) % 2 ^ 64 ∧
         memVal t (e.cb + 0x18) 4 = (drops s q + 1) % 2 ^ 32) ∧
     (slotReady s e = true → h.extractLsb' 0 8 ≠ 0 → badRecord s e b = false → mustHold s b = true →
       heldOf s e.vf < holdQuota s e.vf →
       ∃ t, exec (.tundishConsume q) s = .next t ∧ memVal t (e.cb + 8) 8 = (ridx s q + 1) % 2 ^ 64 ∧
         t.tund.held = s.tund.held ++ [((h.extractLsb' 16 12).toNat, ⟨b, q, e.asid, e.vf, slotPoison s e⟩)]) ∧
     (slotReady s e = true → h.extractLsb' 0 8 ≠ 0 → badRecord s e b = false → mustHold s b = true →
       holdQuota s e.vf ≤ heldOf s e.vf → exec (.tundishConsume q) s = .next s) ∧
     (slotReady s e = true → h.extractLsb' 0 8 ≠ 0 → badRecord s e b = false → mustHold s b = false →
       exec (.tundishConsume q) s = .next s)))

namespace Sys2Proof.Claims

/-- The sums that condition 2 of R318 bounds. -/
def total {α : Type} (l : List α) (f : α → Nat) : Nat := (l.map f).sum

/-- A core takes a kernel cluster of mould m now (R318, condition 2; R5 for the stepped regions). -/
structure CoreTakes (s : State) (m : Mould) (d : DieNo) (c : Nat) : Prop where
  service : c ∉ (dieOf s d).outOf
  caps : ∀ i < 4, m.caps.getLsbD i = true → (coreCaps s d c).getLsbD i = true
  feat : ∀ i < 4, m.caps.getLsbD (8 + i) = true ∨ (i = 2 ∧ m.regions ≠ []) → (coreFeat s d c).getLsbD i = true
  groups : (residentAt s d c).length + (roleGroups m).length ≤ 64
  lanes : total (residentAt s d c) (fun g => g.width) + total (roleGroups m) (fun g => g.2.1) ≤ 4096
  regs : total (groupsAt s d c) (fun g => g.width * g.budget * 4) + total (roleGroups m) (fun g => g.2.1 * g.2.2.1 * 4) ≤ 2 ^ 20
  bufW : total (teamsAt s d c) (fun t => t.wSize) + m.wKib * 1024 ≤ 1024 * 1024
  bufA : total (teamsAt s d c) (fun t => t.aSize + total t.regions fun r => r.bytes) + m.aKib * 1024 + total m.regions (fun r => r.bytes) ≤
    1536 * 1024
  bufC : total (teamsAt s d c) (fun t => t.cSize) + m.cKib * 1024 ≤ 512 * 1024
  bars : total (teamsAt s d c) (fun t => t.bars.length) + m.barriers ≤ 128
  stepped : total (teamsAt s d c) (fun t => t.regions.length) + m.regions.length ≤ 8
  deque : (s.deques.filter fun r => (kcOf s r.kc).place.isSome ∧ hwCore (kcOf s r.kc) r.core = (d, c)).length < 256
  seats : (seatGroups (seatOrder m) (takenPlaces (residentAt s d c))).isSome = true

/-- A candidate takes a kernel cluster of mould m, while no head reserves anything (R318): its die takes placements (R413),
a spine context is free and every core of the rectangle takes its team. -/
def Takes (s : State) (m : Mould) (c : Cand) : Prop :=
  (dieOf s c.die).st = .online ∧
    (s.kcs.filter fun k => k.place.map (fun p => (p.die, p.hw)) = some (c.die, c.hw)).length < 4 ∧
    ∀ i < m.rows, ∀ j < m.cols, CoreTakes s m c.die (c.hw.toNat * 12 + (c.row + i) * 4 + (c.col + j))

/-- The order of candidates (R319): h = 4 × die + cluster, anchor row, anchor column. -/
def candKey (c : Cand) : Nat := ((c.die.toNat * 4 + c.hw.toNat) * 8 + c.row) * 8 + c.col

/-- The rectangle from the anchor lies in the mesh of 3 × 4. -/
def InMesh (m : Mould) (c : Cand) : Prop := c.row + m.rows ≤ 3 ∧ c.col + m.cols ≤ 4

/-- The first candidate, in their order, on the dies that are allowed, that takes the kernel cluster. -/
structure FirstFit (s : State) (m : Mould) (ok : DieNo → Prop) (c : Cand) : Prop where
  mesh : InMesh m c
  die : ok c.die
  takes : Takes s m c
  first : ∀ x, InMesh m x → ok x.die → Takes s m x → candKey c ≤ candKey x

/-- GMIN placements formed at once (R319): each takes the first candidate of the partition, never more than DMAX dies, and a new
die whenever the placements left would otherwise not reach DMIN. -/
def Formed (g : Grid) (dies : List DieNo) (t : State) (all : List DieNo) : (left : Nat) → (n : Nat) → State → List DieNo → Prop
  | 0, _, s, used => t = s ∧ all = used
  | left + 1, n, s, used => ∃ c, FirstFit s g.mould (fun d => d ∈ dies ∧ (d ∈ used → g.mould.dmin ≤ used.length + left) ∧
      (d ∉ used → used.length < g.mould.dmax)) c ∧
    Formed g dies t all left (n + 1) (placeKc s g n c) (if c.die ∈ used then used else used ++ [c.die])

/-- A grid that can never be placed (R319); of a FAILED die the model counts no core. -/
def NeverPlaced (s : State) (l : Launch) (m : Mould) : Prop :=
  launchSize l < m.gmin ∨ (ctxDies s l.asid).length < m.dmin ∨ 2 ^ 20 < total (roleGroups m) (fun g => g.2.1 * g.2.2.1 * 4) ∨
    ∀ c, InMesh m c → c.die ∈ ctxDies s l.asid → (dieOf s c.die).st ≠ .failed →
      ∃ i < m.rows, ∃ j < m.cols, coreMeets s (mouldReq m) c.die (c.hw.toNat * 12 + (c.row + i) * 4 + (c.col + j)) = false

/-- The grid that a launch starts. -/
def startedGrid (s : State) (l : Launch) (m : Mould) : Grid :=
  let x := recField l.bytes 0x10 8
  { id := s.tund.nextGrid, asid := l.asid, launch := l, mould := m, gx := x % 65536, gy := x / 65536 % 65536, gz := x / 2 ^ 32 % 65536
    dies := [], nextCluster := m.gmin, boundary := 0, ebudget := m.ebudget, charged := 0, suspended := false, leaving := [], grow := false }

/-- A worker team of queue q in the context asid, resident, on a core whose deque has a free slot (R311). -/
structure Worker (s : State) (q : BitVec 8) (asid : Asid) (T : Team) : Prop where
  placed : (kcOf s T.kc).place.isSome = true
  ctx : (kcOf s T.kc).asid = asid
  works : ∃ G, gridOf? s (kcOf s T.kc).grid = some G ∧ G.mould.wqv = true ∧ G.mould.wq = q
  room : (s.deques.filter fun r => (kcOf s r.kc).place.isSome ∧ hwCore (kcOf s r.kc) r.core = hwCore (kcOf s T.kc) T.core).length < 256

/-- The worker with the fewest records bound to it; of several the one placed earliest (R311). -/
def Fewest (s : State) (q : BitVec 8) (asid : Asid) (T : Team) : Prop :=
  ∃ before after, s.teams = before ++ T :: after ∧ Worker s q asid T ∧
    (∀ X ∈ before, Worker s q asid X → boundCount s T.kc T.core < boundCount s X.kc X.core) ∧
    ∀ X ∈ after, Worker s q asid X → boundCount s T.kc T.core ≤ boundCount s X.kc X.core

end Sys2Proof.Claims

/-- R299, R301, R302, R310, R311, R318 to R321, R324: a round starts a grid whose start set fits, with GMIN kernel clusters, each
on the first candidate in the order of R319, and starts nothing where no set fits; pending clusters follow on the grid's
dies, unless the energy budget forbids it; a launch is completed with STATUS 3 when its mould or its dimensions are rejected
and with 4 when it can never be placed, when it is met or later; a round changes nothing when nothing waits; a blocked head
ages; a work record goes to the worker with the fewest bound records, with the wake arrival when it is the team's first. The
contexts' descriptors are as the device has latched them.
Of the model's own readings it rests on log entries 13, 44, 49, 50, 52, 53 and 54. -/
def Obligations.PlacementAndWork : Prop :=
  (∀ s, LatchedAll s → s.grids = [] → s.tund.heads = [] → s.tund.released = [] → s.tund.looking = [] → s.tund.rr = [] →
    exec .placementRound s = .next s) ∧
  (∀ s key l, LatchedAll s → s.grids = [] → s.tund.heads = [] → allHeads s = [key] → headLaunch s key = some l →
    (∀ m, readMould s l = some m → dimsBad l m = false → ¬ NeverPlaced s l m → modeBlocks s l.asid = false →
      m.ebudget = 0 ∨ m.ebudget ≤ allowanceLeft s l.asid 0 →
      (let S := { s with tund := { s.tund with heads := [⟨key, l, m, false, 0, false, [], []⟩] } }
       (∀ s' used, Formed (startedGrid s l m) (ctxDies s l.asid) s' used m.gmin 0 S [] →
         ∃ t G, exec .placementRound s = .next t ∧ t.grids = [G] ∧ G = { startedGrid s l m with dies := G.dies } ∧
           (∀ d, d ∈ G.dies ↔ d ∈ used) ∧ (G.dies.map fun d => d.toNat).Pairwise (· < ·) ∧
           t.kcs = s'.kcs ∧ t.kcs.length = s.kcs.length + m.gmin ∧ t.groups = s'.groups ∧ t.teams = s'.teams ∧ t.deques = s'.deques) ∧
       ((∀ s' used, ¬ Formed (startedGrid s l m) (ctxDies s l.asid) s' used m.gmin 0 S []) →
         ∃ t, exec .placementRound s = .next t ∧ { t with tund := s.tund } = s ∧
           t.tund.heads = [⟨key, l, m, true, 0, false, [], []⟩] ∧ { t.tund with heads := [] } = s.tund))) ∧
    (∀ C, ctxOf? (leaveHead s key) l.asid = some C →
      (readMould s l = none ∨ (∃ m, readMould s l = some m ∧ dimsBad l m = true) →
        ∃ t, exec .placementRound s = .next t ∧ t.grids = [] ∧ Completed (leaveHead s key) t l C 3 0) ∧
      (∀ m, readMould s l = some m → dimsBad l m = false → NeverPlaced s l m →
        ∃ t, exec .placementRound s = .next t ∧ t.grids = [] ∧ Completed (leaveHead s key) t l C 4 0))) ∧
  (∀ s h C, LatchedAll s → s.grids = [] → s.tund.heads = [h] → allHeads s = [h.key] → headLaunch s h.key = some h.launch →
    h.mould.klass ≤ 3 → NeverPlaced s h.launch h.mould → ctxOf? (leaveHead s h.key) h.launch.asid = some C →
    ∃ t, exec .placementRound s = .next t ∧ t.grids = [] ∧ Completed (leaveHead s h.key) t h.launch C 4 0) ∧
  (∀ s G, LatchedAll s → s.grids = [G] → s.tund.heads = [] → s.tund.released = [] → s.tund.looking = [] → s.tund.rr = [] →
    G.mould.klass ≤ 3 → G.grow = false → G.nextCluster < G.gx * G.gy * G.gz → (ctxOf s G.asid).suspended = false →
    modeBlocks s G.asid = false → (G.dies.map fun d => d.toNat).Pairwise (· < ·) →
    (G.suspended = true ∨ (G.ebudget ≠ 0 ∧ G.ebudget ≤ G.charged ∧ allowanceLeft s G.asid G.id < G.charged + G.mould.ebudget) ∨
      (∀ c, InMesh G.mould c → c.die ∈ G.dies → ¬ Takes s G.mould c) →
      exec .placementRound s = .next s) ∧
    (∀ c, G.suspended = false → G.ebudget = 0 ∨ G.charged < G.ebudget → G.nextCluster + 1 = G.gx * G.gy * G.gz →
      FirstFit s G.mould (fun d => d ∈ G.dies) c →
      ∃ t k p, exec .placementRound s = .next t ∧ t.grids = [{ G with nextCluster := G.nextCluster + 1 }] ∧ t.kcs = s.kcs ++ [k] ∧
        k.grid = G.id ∧ k.cluster = BitVec.ofNat 32 G.nextCluster ∧ k.status = .running ∧ k.place = some p ∧
        p.die = c.die ∧ p.hw = c.hw ∧ p.row = c.row ∧ p.col = c.col ∧
        ∀ q ∈ s.kcs, ∀ r, q.place = some r → r.die = p.die → r.hw = p.hw → r.ctx ≠ p.ctx)) ∧
  (∀ s q h, s.tund.heads.find? (fun h => h.launch.queue = q && h.blocked && !h.aged) = some h →
    ∃ t h', exec (.headAgeing q) s = .next t ∧ { t with tund := s.tund } = s ∧ h'.key = h.key ∧ h'.launch = h.launch ∧ h'.aged = true ∧
      t.tund.heads = (s.tund.heads.filter fun x => decide (x.key ≠ h.key)) ++ [h']) ∧
  (∀ s q n l, releasedWork s q = some (n, l) →
    (∀ T, Fewest s q (queueOf s q).asid T →
      ∃ t, exec (.workDeposit q) s = .next t ∧ t.mem = s.mem ∧
        t.deques = ⟨T.kc, T.core, false, some q, l.bytes, l.poison⟩ :: s.deques ∧ WakesTeam s t T.kc T.core ∧
        t.tund.released = s.tund.released.filter fun x => x.1 ≠ n) ∧
    ((∀ T ∈ s.teams, ¬ Worker s q (queueOf s q).asid T) → exec (.workDeposit q) s = .next s)) ∧
  (∀ s q l, releasedWork s q = none → (queueOf s q).work = true → ringHead s q = some l →
    (∀ T, Fewest s q (queueOf s q).asid T →
      ∃ t, exec (.workDeposit q) s = .next t ∧ t.deques = ⟨T.kc, T.core, false, some q, l.bytes, l.poison⟩ :: s.deques ∧
        WakesTeam s t T.kc T.core ∧ memVal t ((queueOf s q).cb + 8) 8 = (ridx s q + 1) % 2 ^ 64) ∧
    ((∀ T ∈ s.teams, ¬ Worker s q (queueOf s q).asid T) → exec (.workDeposit q) s = .next s)) ∧
  (∀ s q, releasedWork s q = none → (queueOf s q).work = true → ringHead s q = none → exec (.workDeposit q) s = .next s)

namespace Sys2Proof.Claims

/-- From s to S a meter update of die d has charged n to the context a, its grid becoming G', and the die's counter has risen by
all of it (R426); S mode may have changed the die's parameters, unless it is being restarted (R422). -/
structure Charged (s S : State) (d : DieNo) (a : Asid) (G' : Grid) (n all : Nat) : Prop where
  rest : { S with dies := s.dies, ctxs := s.ctxs, grids := s.grids, fresh := s.fresh } = s
  ctxs : S.ctxs = s.ctxs.map fun c => if c.asid = a then { c with energy := c.energy + BitVec.ofNat 64 n } else c
  grids : S.grids = s.grids.map fun g => if g.id = G'.id then G' else g
  others : ∀ e, e ≠ d → dieOf S e = dieOf s e
  die : { dieOf S d with replThreshold := (dieOf s d).replThreshold, poolReserve := (dieOf s d).poolReserve
                         meterUs := (dieOf s d).meterUs, restarting := (dieOf s d).restarting } =
    { dieOf s d with energy := (dieOf s d).energy + BitVec.ofNat 64 all }
  interval : 1 ≤ (dieOf s d).meterUs → (dieOf s d).meterUs ≤ 100 → 1 ≤ (dieOf S d).meterUs ∧ (dieOf S d).meterUs ≤ 100
  kept : (dieOf s d).boot ≠ some true ∨ (dieOf s d).restarting = true →
    (dieOf S d).replThreshold = (dieOf s d).replThreshold ∧ (dieOf S d).poolReserve = (dieOf s d).poolReserve ∧
      (dieOf S d).meterUs = (dieOf s d).meterUs

end Sys2Proof.Claims

/-- R302, R324, R336, R422, R426: a meter update adds the charges and the remainder to the die's total and each charge to its
context; a charge counts for its grid, and a grid whose budget is used up is suspended, its running kernel clusters stop to be
saved with STATUS 3, and where save slots are lacking the grid ends with STATUS 2. How a die's energy is shared is an operand
of the event, and whether S mode changes a parameter then a free value.
Of the model's own readings it rests on log entries 54, 103 and 116. -/
def Obligations.EnergyMetering : Prop :=
  (∀ s (o : MeterOps), s.dies.length = 4 →
    ∃ t, exec (.meterUpdate o) s = .next t ∧
      (dieOf t o.die).energy = (dieOf s o.die).energy + BitVec.ofNat 64 (o.remainder + total o.charges fun c => c.2.2) ∧
      ∀ a x, ctxOf? s a = some x → (ctxOf t a).energy = x.energy + BitVec.ofNat 64 (total (o.charges.filter fun c => c.1 = a) fun c => c.2.2)) ∧
  ∀ s (o : MeterOps) n x G, s.dies.length = 4 → (s.kcs.map fun k => k.id).Nodup → (s.grids.map fun g => g.id).Nodup →
    o.charges = [(G.asid, G.id, n)] → ctxOf? s G.asid = some x → gridOf? s G.id = some G →
    (let run := (kcsOf s G.id).filter isRunning
     let used := G.ebudget ≠ 0 ∧ G.ebudget ≤ G.charged + n
     let G' := { G with charged := G.charged + n, suspended := G.suspended || decide used }
     ∃ t S, exec (.meterUpdate o) s = .next t ∧ Charged s S o.die G.asid G' n (o.remainder + n) ∧
       (run = [] ∨ ¬used ∨ G.suspended = true → t = S) ∧
       (used → G.suspended = false → slotsFor s run = true →
         t.mem = s.mem ∧ t.grids = S.grids ∧ Stopped t run 3 ∧ ∀ k ∈ s.kcs, k ∉ run → k ∈ t.kcs) ∧
       (used → G.suspended = false → slotsFor s run = false → (∀ k ∈ run, k.asid = G.asid) →
         GridEnded (stopAll S 3 run).1 t G' 2 0))

namespace Sys2Proof.Claims

/-- From s to t only the registers of function f change, and become x. -/
def FuncBecomes (s t : State) (f : FuncNo) (x : Func) : Prop :=
  { t with host := { t.host with funcs := s.host.funcs } } = s ∧ funcOf t f = x ∧ ∀ g, g ≠ f → funcOf t g = funcOf s g

/-- Die d becomes x, and no other die changes; only dies change. -/
def DieIs (s t : State) (d : DieNo) (x : Die) : Prop := dieOf t d = x ∧ ∀ e, e ≠ d → dieOf t e = dieOf s e
def DieBecomes (s t : State) (d : DieNo) (x : Die) : Prop := { t with dies := s.dies } = s ∧ DieIs s t d x

/-- From s to t nothing changes but that a management response leaves. -/
def Replies (s t : State) (f : FuncNo) (status : Byte) (data : List Byte) : Prop := t = { s with out := .mgmt f status data :: s.out }

/-- The one flight of a group waits for the one request r; no cause has been met. -/
structure Awaits (s : State) (r : Request) (g : Group) (f : Flight) (a : Asked) : Prop where
  sent : s.requests.find? (fun q => q.id = r.id) = some r
  who : r.who = some (.group g.kc g.core g.idx)
  lanes : r.lanes ≠ []
  here : GroupHere s g
  flights : g.flights = [f]
  ask : f.ask = some a
  waiting : a.waiting = [r.id]
  clean : a.late = [] ∧ a.pend = []
  issuer : f.issue.who = .group g.kc g.core g.idx

/-- The late cause of each failing answer (R249, R260, R357, R379, R396, R402, R412): an AtomicOp that the host does not support
is SYS_ATOMIC_UNSUPPORTED, any other request that it does not support is LINK_ERROR. -/
def failure (atomic : Bool) : Answer → Option Byte
  | .data _ => none
  | .unsupported => some (if atomic then 0x11 else 0x15)
  | .linkError => some 0x15
  | .offline => some 0x14
  | .poisoned => some 0x0F
  | .append .outside => some 0x07
  | .append .sealed => some 0x08
  | .append .beyond => some 0x09

def isAtomic : ReqKind → Bool
  | .atom .. => true
  | _ => false

/-- The registers r are ck with the writes ws made. -/
structure RegsWith (ck r : GroupRegs) (ws : List RegWrite) : Prop where
  made : ∀ w ∈ ws, vGet r w.lane w.reg = w.val
  kept : ∀ lane reg, reg < 64 → (∀ w ∈ ws, ¬(w.lane = lane ∧ w.reg = reg)) → vGet r lane reg = vGet ck lane reg
  rest : { r with v := ck.v } = ck

/-- What completed lanes of an atomic or a PAGE instruction have got, beside what has landed before (R249). -/
def keptWrites (f : Flight) (a : Asked) : List RegWrite := f.writes ++ if a.keep then loadedWrites a else []

/-- The group has trapped late with a cause that the lanes of r have met: LANE is the lowest of them, LANES holds every lane
that has not completed; its registers, lock-holder state and deadline are as before the instruction, but for the writes ws;
the request is gone. -/
def TrapsLate (s t : State) (r : Request) (g : Group) (f : Flight) (a : Asked) (cause : Byte) : Prop :=
  (∀ q ∈ t.requests, q.id ≠ r.id) ∧
    ∃ tr, (let h := groupOf t g.kc g.core g.idx
      h.trap = some tr ∧ tr.cause = cause ∧ tr.late = true ∧ tr.pc = f.issue.pc ∧ tr.addr = BitVec.ofNat 64 r.addr ∧
      tr.lanes = a.undone ||| maskOf (r.lanes.map fun l => l.1) ∧
      (∃ l ∈ r.lanes, tr.lane = BitVec.ofNat 6 l.1 ∧ ∀ q ∈ r.lanes, l.1 ≤ q.1) ∧
      RegsWith f.ckpt h.regs (keptWrites f a) ∧ h.flights = [] ∧ h.crit = f.ckptCrit ∧ h.deadline = f.ckptDeadline ∧
      t.frames = s.frames ++ [frameOf s (.group g.kc g.core g.idx) tr])

/-- From s to t nothing changes but this group's flight, the request r that is answered, and what an acquire brings. -/
def Answers (s t : State) (r : Request) (g : Group) (f f' : Flight) : Prop :=
  { t with groups := s.groups, requests := s.requests } = accessFrom s f.issue (acquires f.issue.word) ∧
    t.requests = (s.requests.filter fun q => q.id ≠ r.id) ∧ groupOf t g.kc g.core g.idx = { g with flights := [f'] } ∧
    ∀ kc core idx, Member.group kc core idx ≠ .group g.kc g.core g.idx → groupOf t kc core idx = groupOf s kc core idx

/-- The same where a request of r's chain follows it, for lane l (R259); acq: the group acquires. -/
def Follows (s t : State) (r : Request) (l : Nat) (k : ReqKind) (rest : List (Nat × ReqKind)) (g : Group) (f' : Flight) (acq : Bool) : Prop :=
  groupOf t g.kc g.core g.idx = { g with flights := [f'] } ∧
    { t with groups := s.groups, requests := s.requests, out := s.out, nextId := s.nextId, fresh := s.fresh } =
      accessFrom s f'.issue acq ∧
    t.out = wireOf s r.target k r.scope :: s.out ∧ ∃ q, t.requests = (s.requests.filter fun q => q.id ≠ r.id) ++ [q] ∧
      { q with plane := r.plane } = { r with id := s.nextId, lanes := [(l, 0)], kind := k, later := rest }

/-- What a combining op of an atomic makes of the old value and an operand (R257). -/
def atomOf (op : Nat) {n : Nat} (old b : BitVec n) : BitVec n :=
  if op = 0 then old + b
  else if op = 1 then BitVec.ofNat n (fAdd (fmtW n) old.toNat b.toNat).1
  else if op = 2 then (if old.toInt ≤ b.toInt then old else b)
  else if op = 3 then (if old.toInt ≤ b.toInt then b else old)
  else if op = 4 then old &&& b
  else old ||| b

/-- What each lane of an answered request gets (R63, R246, R259, R361): a load its bytes; the first lane of an atomic the old
value, a later lane of an aggregated one that value combined with the operands before it; a PAGE instruction a word each. -/
def Gets (r : Request) (bytes : List Byte) (got : List (Nat × Nat × List Byte)) : Prop :=
  match r.kind with
  | .load n => got = r.lanes.map fun l => (l.1, r.off, bytes.take n)
  | .atom op wide _ _ =>
    let n := if wide then 8 else 4
    bytes.length = n ∧ (∀ l ∈ r.lanes, l.2.toNat < 2 ^ (8 * n)) ∧
    got = r.lanes.zipIdx.map fun l => (l.1.1, 0, natToBytes n (if l.2 = 0 ∨ 6 ≤ op.toNat then bytesToNat bytes
      else (atomOf op.toNat (BitVec.ofNat (8 * n) (bytesToNat bytes)) (BitVec.ofNat (8 * n) l.1.2.toNat)).toNat))
  | .page _ _ _ => got = r.lanes.zipIdx.map fun l => (l.1.1, 0, (bytes.drop (4 * l.2)).take 4)
  | _ => got = []

/-- A command word's outcome in CTXSTS. -/
def Says (t : State) (f : FuncNo) (status : BitVec 2) (reason : Byte) : Prop := (funcOf t f).status = status ∧ (funcOf t f).reason = reason

end Sys2Proof.Claims

/-! ### Answers, completions and limits of members -/

/-- R63, R88, R91, R249, R259, R260, R351, R357, R361, R410, R411: a long-latency instruction that waits for nothing writes
its destinations and flags when it completes; an answer completes a load, store, atomic or PAGE instruction that waits for it,
or makes it trap late with its cause, the lanes that have completed keeping what they got; lanes of an `exch` or `cas` that
name one address follow one another, until the window has refused one; an uncorrectable error marks its unit and counts; the
end of run-ahead restores the group and delivers the batch.
Of the model's own readings it rests on log entries 7, 35, 73, 78 and 109. -/
def Obligations.AnswersAndCompletions : Prop :=
  (∀ s g f, GroupHere s g → g.flights = [f] → f.ask = none → (f.writes.map fun w => (w.lane, w.reg)).Nodup →
    (∀ w ∈ f.writes, w.reg < 64) → f.gwrites = [] → (f.flags.map fun x => x.1).Nodup →
    ∃ t, exec (.longLatencyComplete (.group g.kc g.core g.idx)) s = .next t ∧ { t with groups := s.groups } = s ∧
      (let h := groupOf t g.kc g.core g.idx
       h.flights = [] ∧ (∀ w ∈ f.writes, vGet h.regs w.lane w.reg = w.val) ∧
       (∀ lane r, r < 64 → (∀ w ∈ f.writes, ¬(w.lane = lane ∧ w.reg = r)) → vGet h.regs lane r = vGet g.regs lane r) ∧
       (∀ x ∈ f.flags, amGet 0 h.regs.lstat x.1 = amGet 0 g.regs.lstat x.1 ||| x.2) ∧
       (∀ lane, (∀ x ∈ f.flags, x.1 ≠ lane) → amGet 0 h.regs.lstat lane = amGet 0 g.regs.lstat lane) ∧
       { h with regs := g.regs, flights := g.flights, poison := g.poison } = g ∧
       { h.regs with v := g.regs.v, lstat := g.regs.lstat } = g.regs)) ∧
  (∀ s g ra, GroupHere s g → g.runAhead = some ra → ra.trap.cause = 0x04 →
    ∃ t, exec (.runAhead (.group g.kc g.core g.idx)) s = .next t ∧ { t with groups := s.groups, frames := s.frames } = s ∧
      t.frames = s.frames ++ [frameOf s (.group g.kc g.core g.idx) ra.trap] ∧
      groupOf t g.kc g.core g.idx = { g with
        regs := ra.shadow, poison := ra.poison, runAhead := none, flights := [], trap := some ra.trap, hold := none, stopped := none }) ∧
  (∀ s r g f a bytes got, Awaits s r g f a → r.later = [] → Gets r bytes got →
    ∃ t, exec (.memoryResponse (.answer r.id (.data bytes))) s = .next t ∧
      Answers s t r g f { f with ask := none, writes := f.writes ++ loadedWrites { a with got := a.got ++ got } }) ∧
  (∀ s r g f a bytes got l k rest, Awaits s r g f a → r.later = (l, k) :: rest → isAtomic r.kind = true → Gets r bytes got →
    (∀ w off, r.target = .window w off → w ∉ a.refused) →
    ∃ t, exec (.memoryResponse (.answer r.id (.data bytes))) s = .next t ∧
      Follows s t r l k rest g { f with ask := some { a with
        waiting := [s.nextId], got := a.got ++ got, undone := a.undone &&& ~~~maskOf (r.lanes.map fun l => l.1) } } (acquires f.issue.word)) ∧
  (∀ s r g f a ans cause, Awaits s r g f a → r.later = [] → failure (isAtomic r.kind) ans = some cause →
    ((keptWrites f a).map fun w => (w.lane, w.reg)).Nodup → (∀ w ∈ keptWrites f a, w.reg < 64) →
    ∃ t, exec (.memoryResponse (.answer r.id ans)) s = .next t ∧ TrapsLate s t r g f a cause) ∧
  (∀ s r g f a ans cause l k rest, Awaits s r g f a → r.later = (l, k) :: rest → ans ≠ .unsupported →
    failure (isAtomic r.kind) ans = some cause → (∀ w off, r.target = .window w off → w ∉ a.refused) →
    ∃ t, exec (.memoryResponse (.answer r.id ans)) s = .next t ∧
      Follows s t r l k rest g { f with ask := some { a with
        waiting := [s.nextId], late := r.lanes.map fun l => (l.1, cause, r.addr)
        undone := a.undone ||| maskOf (r.lanes.map fun l => l.1) } } false) ∧
  (∀ s r g f a w off, Awaits s r g f a → isAtomic r.kind = true → r.target = .window w off →
    ((keptWrites f a).map fun w => (w.lane, w.reg)).Nodup → (∀ w ∈ keptWrites f a, w.reg < 64) →
    ∃ t, exec (.memoryResponse (.answer r.id .unsupported)) s = .next t ∧ TrapsLate s t r g f a 0x11 ∧ t.out = s.out ∧ t.mem = s.mem ∧
      ∀ n, amGet Window.zero t.host.windows n =
        { amGet Window.zero s.host.windows n with atomc := decide (n ≠ w) && (amGet Window.zero s.host.windows n).atomc }) ∧
  (∀ s r k c a, s.requests.find? (fun q => q.id = r.id) = some r → r.later = [] → r.who = some (.spine k.id) → r.lanes ≠ [] →
    KcHere s k → k.spine.asked = some (c, a) → c.who = .spine k.id → a.waiting = [r.id] → a.late = [] → a.pend = [] →
    isPush c.word = false → k.spine.trap = none → k.spine.wait = none →
    (∀ d size sext bytes got, a.load = some (d, size, sext) → d < 32 → Gets r bytes got →
      ∃ t, exec (.memoryResponse (.answer r.id (.data bytes))) s = .next t ∧ (kcOf t k.id).spine.asked = none ∧
        (kcOf t k.id).spine.pc = nextPc c ∧ xGet (kcOf t k.id).spine d = (if d = 0 then 0 else
          loadSpine size sext (gotBytes { a with got := a.got ++ got } 0)) ∧
        (∀ j, sprueGet (kcOf t k.id) j = if j ∈ addrSprue c.word then consumed (sprueGet k j) else sprueGet k j) ∧
        (∀ q ∈ t.requests, q.id ≠ r.id)) ∧
    (∀ bytes, a.load = none →
      ∃ t, exec (.memoryResponse (.answer r.id (.data bytes))) s = .next t ∧ (kcOf t k.id).spine.asked = none ∧
        (kcOf t k.id).spine.pc = nextPc c ∧ (∀ j, xGet (kcOf t k.id).spine j = xGet k.spine j) ∧
        (∀ j, sprueGet (kcOf t k.id) j = if j ∈ addrSprue c.word then consumed (sprueGet k j) else sprueGet k j) ∧
        (∀ q ∈ t.requests, q.id ≠ r.id)) ∧
    (∀ ans cause, failure (isAtomic r.kind) ans = some cause →
      ∃ t tr, exec (.memoryResponse (.answer r.id ans)) s = .next t ∧ tr.cause = cause ∧ tr.late = true ∧ tr.pc = c.pc ∧
        tr.addr = BitVec.ofNat 64 r.addr ∧ kcOf t k.id = { k with spine := { k.spine with trap := some tr, asked := none } } ∧
        t.frames = s.frames ++ [frameOf s (.spine k.id) tr] ∧ (∀ q ∈ t.requests, q.id ≠ r.id))) ∧
  (∀ s (d : DieNo), s.dies.length = 4 →
    (let x := dieOf s d
     let bad := { x with uncorrected := x.uncorrected + 1 }
     (∃ t, exec (.memoryResponse (.corrected d)) s = .next t ∧ DieBecomes s t d { x with corrected := x.corrected + 1 }) ∧
     (∀ pa, ∃ t, exec (.memoryResponse (.uncorrectable d (.memPart pa))) s = .next t ∧ DieIs s t d bad ∧ pa / 16 ∈ t.memPoison ∧
       { t with dies := s.dies, memPoison := s.memPoison } = s) ∧
     (∀ g lane reg, GroupHere s g → ∃ t, exec (.memoryResponse (.uncorrectable d (.laneReg g.kc g.core g.idx lane reg))) s = .next t ∧
       DieIs s t d bad ∧ lane * 64 + reg ∈ (groupOf t g.kc g.core g.idx).poison ∧ { t with dies := s.dies, groups := s.groups } = s) ∧
     (∀ g lane (k : Nat), GroupHere s g →
       (∃ t, exec (.memoryResponse (.uncorrectable d (.lanePred g.kc g.core g.idx lane k))) s = .next t ∧ DieIs s t d bad ∧
         pMark lane k ∈ (groupOf t g.kc g.core g.idx).poison ∧ { t with dies := s.dies, groups := s.groups } = s) ∧
       (∃ t, exec (.memoryResponse (.uncorrectable d (.groupReg g.kc g.core g.idx k))) s = .next t ∧ DieIs s t d bad ∧
         gMark k ∈ (groupOf t g.kc g.core g.idx).poison ∧ { t with dies := s.dies, groups := s.groups } = s) ∧
       ∃ t, exec (.memoryResponse (.uncorrectable d (.frontier g.kc g.core g.idx lane))) s = .next t ∧ DieIs s t d bad ∧
         frontierMark lane ∈ (groupOf t g.kc g.core g.idx).poison ∧ { t with dies := s.dies, groups := s.groups } = s) ∧
     (∀ k reg, KcHere s k → (∃ t, exec (.memoryResponse (.uncorrectable d (.spineReg k.id reg))) s = .next t ∧ DieIs s t d bad ∧
         reg ∈ (kcOf t k.id).spine.poison ∧ { t with dies := s.dies, kcs := s.kcs } = s) ∧
       ∃ t, exec (.memoryResponse (.uncorrectable d (.sprueReg k.id reg))) s = .next t ∧ DieIs s t d bad ∧
         sprueGet (kcOf t k.id) reg = { sprueGet k reg with poison := true } ∧ { t with dies := s.dies, kcs := s.kcs } = s) ∧
     (∀ T buf part, s.teams.find? (fun x => x.kc = T.kc ∧ x.core = T.core) = some T →
       ∃ t, exec (.memoryResponse (.uncorrectable d (.bufPart T.kc T.core buf part))) s = .next t ∧ DieIs s t d bad ∧
         (buf.val, part) ∈ (teamOf t T.kc T.core).poison ∧ { t with dies := s.dies, teams := s.teams } = s)))

/-- R186, R190, R302: at the deadline the grid ends with STATUS 2 and a frame of CAUSE 0x0D; the lock-holder state falls at its limit of
16,384 instructions; a lock holder blocked 10 µs after a pre-emption request stops.
Of the model's own readings it rests on log entries 69 and 74. -/
def Obligations.MemberLimits : Prop :=
  (∀ s g G, GroupHere s g → g.ended = false → gridOf? s (kcOf s g.kc).grid = some G →
    (g.deadline ≤ g.ycount.toNat → ∃ t f, exec (.yieldOverrun (.group g.kc g.core g.idx)) s = .next t ∧ t.frames = s.frames ++ [f] ∧
      f.asid = (kcOf s g.kc).asid ∧ f.grid = (kcOf s g.kc).grid ∧ f.trap.cause = 0x0D ∧
      GridEnded { s with frames := s.frames ++ [f] } t G 2 0x0D) ∧
    (g.ycount.toNat < g.deadline → exec (.yieldOverrun (.group g.kc g.core g.idx)) s = .next s)) ∧
  (∀ s g n, GroupHere s g → g.crit = some n → ∃ t, exec (.lockHolderLimit (.group g.kc g.core g.idx)) s = .next t ∧
    { t with groups := s.groups } = s ∧ groupOf t g.kc g.core g.idx = { g with crit := if n < 16384 then some n else none }) ∧
  (∀ s k n, KcHere s k → k.spine.crit = some n → ∃ t, exec (.lockHolderLimit (.spine k.id)) s = .next t ∧
    { t with kcs := s.kcs } = s ∧ kcOf t k.id = { k with spine := { k.spine with crit := if n < 16384 then some n else none } }) ∧
  (∀ s k n w, KcHere s k → stopping k = true → k.spine.crit = some n → n < 16384 → k.spine.wait = some w →
    ∃ t, exec (.critDeferExpiry (.spine k.id)) s = .next t ∧ { t with kcs := s.kcs } = s ∧
      kcOf t k.id = { k with spine := { k.spine with
        wait := none
        stopped := true
        gsteps := match w with | .boundary _ => k.spine.gsteps - 1 | _ => k.spine.gsteps } }) ∧
  (∀ s g n, GroupHere s g → stopping (kcOf s g.kc) = true → g.ended = false → g.crit = some n → n < 16384 →
    g.regs.frontier ≠ [] → (∀ e ∈ g.regs.frontier, e.wait.isSome = true) →
    ∃ t, exec (.critDeferExpiry (.group g.kc g.core g.idx)) s = .next t ∧ { t with groups := s.groups } = s ∧
      (let h := groupOf t g.kc g.core g.idx
       h.stopped.isSome = true ∧ (∀ e ∈ h.regs.frontier, e.wait = none) ∧ { h.regs with frontier := g.regs.frontier } = g.regs ∧
       { h with regs := g.regs, stopped := g.stopped, hold := g.hold } = g))

namespace Sys2Proof.Claims

/-- A request from the host port reaches the service of a local address (R379, R415). -/
def HostReaches (s : State) (pa : Nat) : Prop := lostStack s pa = false ∧ circuitUp? s 12 (servicePort s pa false) = true

/-- Some 16-byte part of [pa, pa + n) is poisoned (R410). -/
def PoisonIn (s : State) (pa n : Nat) : Prop := ∃ q ∈ s.memPoison, pa / 16 ≤ q ∧ q ≤ (pa + n - 1) / 16

/-- A byte that no append page's state keeps the host from writing (R358, R359). -/
def HostWrites (s : State) (a : Nat) : Prop :=
  let e := frameEntry s (a / 65536)
  e.st = 2 → e.cls = 1 → e.apst ≠ 2 ∧ apCtail e ≤ a % 65536 ∧ a % 65536 < apRtail e

/-- An answer leaves for the host, and nothing else changes. -/
def AnswersHost (i : Instr) (s : State) (m : Msg) : Prop := exec i s = .next { s with out := m :: s.out }

/-- A doorbell of the context slot that BAR2 offset off names, for function f: its context and index. -/
def AtDoor (s : State) (f : FuncNo) (off : Nat) (c : Ctx) (idx : Nat) : Prop :=
  s.ctxs.find? (fun c => c.vf = f && decide (c.slot.toNat = off / 2 ^ 20)) = some c ∧ CtxHere s c ∧ idx = off % 2 ^ 20 / 64

end Sys2Proof.Claims

/-! ### The host link -/

/-- R208, R241, R305, R379, R392 to R395, R397, R434: an aligned host store to an exported doorbell is one arrival, when
a circuit joins the host port to the doorbell's die; anything else in BAR2 counts in DBDROP; a read of BAR2 answers the
doorbell's phase word or zero; a read of QRSV reserves a slot or answers all ones; a register of BAR0 reads as it is, a
write of it, of 4 or 8 bytes, writes the register or runs the command; a read of memory answers its bytes and a posted
write lands where a circuit leads and no append page forbids it: as a whole in each frame, so that one byte that it may not
write keeps its part of the write in that frame from landing (the model's reading of R358); during a function-level reset
nothing is accepted.
Of the model's own readings it rests on log entries 14, 46, 54, 57, 101 and 117. -/
def Obligations.HostAccesses : Prop :=
  (∀ s (o : HostAccess) c idx, funcOn s o.f = true → o.off < 2 ^ 26 → (o.size = 4 ∨ o.size = 8) → o.off % o.size = 0 →
    o.off % 64 + o.size ≤ 8 → AtDoor s o.f o.off c idx → s.host.forwards.find? (fun x => x.asid = c.asid) = none →
    (∀ kc core slot v, amGet none c.doors idx = some (kc, core, slot) → (kcOf s kc).status = .saved v → (kcOf s kc).place = none →
      ∃ t, exec (.doorbellWrite o) s = .next t ∧ { t with ctxs := s.ctxs } = s ∧
        amGet 0 (ctxOf t c.asid).counted idx = (amGet 0 c.counted idx + 1) % 2 ^ 64) ∧
    (∀ kc core slot T, (∀ v, (kcOf s kc).status ≠ .saved v) → amGet none c.doors idx = some (kc, core, slot) →
      s.teams.find? (fun t => t.kc = kc ∧ t.core = core) = some T → slot < T.bars.length → MayArrive (barOf T slot) 0 →
      (∀ p, (kcOf s kc).place = some p → circuitUp? s 12 p.die.toNat = true) →
      ¬((barOf T slot).a + 1 = (barOf T slot).e ∧ (barOf T slot).lb = (barOf T slot).eb) →
      ∃ t, exec (.doorbellWrite o) s = .next t ∧ OnlyTeam s t kc core ∧
        BarBecomes T (teamOf t kc core) slot { barOf T slot with a := (barOf T slot).a + 1 }) ∧
    (∀ kc core slot p, amGet none c.doors idx = some (kc, core, slot) → (kcOf s kc).place = some p →
      circuitUp? s 12 p.die.toNat = false → exec (.doorbellWrite o) s = .next s) ∧
    (amGet none c.doors idx = none →
      ∃ t, exec (.doorbellWrite o) s = .next t ∧ FuncBecomes s t o.f { funcOf s o.f with dbdrop := (funcOf s o.f).dbdrop + 1 })) ∧
  (∀ s (o : HostAccess), funcOn s o.f = true → o.off < 2 ^ 26 →
    (o.size ≠ 4 ∧ o.size ≠ 8 ∨ o.off % o.size ≠ 0 ∨ 8 < o.off % 64 + o.size ∨
      (∀ c ∈ s.ctxs, ¬(c.vf = o.f ∧ c.slot.toNat = o.off / 2 ^ 20)) ∧
        (∀ x ∈ s.host.forwards, ¬(x.live = true ∧ x.vf = o.f ∧ x.slot.toNat = o.off / 2 ^ 20))) →
    ∃ t, exec (.doorbellWrite o) s = .next t ∧ FuncBecomes s t o.f { funcOf s o.f with dbdrop := (funcOf s o.f).dbdrop + 1 }) ∧
  (∀ s (f : FuncNo) off size c idx, funcOn s f = true → off < 2 ^ 26 → AtDoor s f off c idx →
    (∀ kc core slot T, (size = 4 ∨ size = 8) → off % 64 = 0 → amGet none c.doors idx = some (kc, core, slot) →
      s.teams.find? (fun t => t.kc = kc ∧ t.core = core) = some T →
      (∀ p, (kcOf s kc).place = some p → circuitUp? s 12 p.die.toNat = true) →
      (let b := barOf T slot
       let w : Word := (0 : BitVec 4) ++ BitVec.ofBool b.x ++ BitVec.ofBool b.f ++ b.a ++ b.p
       AnswersHost (.qrsvRead ⟨f, .bar2, off, size⟩) s (.readValue f (w.setWidth 64)))) ∧
    (∀ kc core slot p, (size = 4 ∨ size = 8) → off % 64 = 0 → amGet none c.doors idx = some (kc, core, slot) →
      (kcOf s kc).place = some p → circuitUp? s 12 p.die.toNat = false → AnswersHost (.qrsvRead ⟨f, .bar2, off, size⟩) s (.unsupported f)) ∧
    (off % 64 ≠ 0 ∨ amGet none c.doors idx = none → AnswersHost (.qrsvRead ⟨f, .bar2, off, size⟩) s (.readValue f 0))) ∧
  (∀ s (q : BitVec 8) (f : FuncNo), funcOn s f = true →
    (let e := queueOf s q
     let w := memVal s e.cb 8
     let o : HostRead := ⟨f, .bar0, (if f = 0 then 0xE000 else 0) + 0x800 + 8 * q.toNat, 8⟩
     (e.en = true → e.vf = f → w + 1 - ridx s q ≤ 2 ^ e.log2n →
       ∃ t, exec (.qrsvRead o) s = .next t ∧ t.out = .readValue f (BitVec.ofNat 64 w) :: s.out ∧
         memVal t e.cb 8 = (w + 1) % 2 ^ 64 ∧ (∀ a, (a < e.cb ∨ e.cb + 8 ≤ a) → memByte t a = memByte s a) ∧
         t.kcs = s.kcs ∧ t.groups = s.groups ∧ t.tund.queues = s.tund.queues) ∧
     (e.en = false ∨ e.vf ≠ f ∨ 2 ^ e.log2n < w + 1 - ridx s q →
       AnswersHost (.qrsvRead o) s (.readValue f 0xFFFFFFFFFFFFFFFF)))) ∧
  (∀ s (f : FuncNo), funcOn s f = true →
    (let base := if f = 0 then 0xE000 else 0
     let x := funcOf s f
     let reads := fun (off size : Nat) (v : DWord) => AnswersHost (.qrsvRead ⟨f, .bar0, base + off, size⟩) s (.readValue f v)
     reads 0x00 8 x.ctxarg ∧ reads 0x00 4 ((x.ctxarg.extractLsb' 0 32).setWidth 64) ∧ reads 0x04 4 ((x.ctxarg.extractLsb' 32 32).setWidth 64) ∧
     reads 0x10 8 ((x.slot ++ x.reason ++ (0 : BitVec 6) ++ x.status : BitVec 22).setWidth 64) ∧ reads 0x18 8 (x.dbdrop.setWidth 64))) ∧
  (∀ s, funcOn s 0 = true →
    (let reads := fun (off : Nat) (v : DWord) => AnswersHost (.qrsvRead ⟨0, .bar0, off, 8⟩) s (.readValue 0 v)
     (s.host.pmReq = none → reads 0x00 (s.host.pmode.setWidth 64)) ∧ reads 0x08 (s.host.pmsts.setWidth 64) ∧
     reads 0x10 ((BitVec.ofBool s.host.pkgok ++ (0 : BitVec 6) ++ s.host.timesrc : BitVec 9).setWidth 64) ∧
     reads 0x18 s.host.ptmoff ∧ reads 0x20 (s.host.fabid.setWidth 64) ∧
     ∀ v : FuncNo, reads (0x1010 + 0x40 * v.toNat) (if (funcOf s v).fencing then 1 else 0))) ∧
  (∀ s (o : HostRead), funcOn s o.f = true → o.space = .memory → 0 < o.size → o.off + o.size ≤ 2 ^ 39 →
    (let reaches := ∀ a, o.off ≤ a → a < o.off + o.size → HostReaches s a
     (reaches → ¬PoisonIn s o.off o.size →
       AnswersHost (.qrsvRead o) s (.readData o.f ((List.range o.size).map fun i => memByte s (o.off + i)))) ∧
     (reaches → PoisonIn s o.off o.size → AnswersHost (.qrsvRead o) s (.poisonedRead o.f)) ∧
     (¬reaches → AnswersHost (.qrsvRead o) s (.unsupported o.f)))) ∧
  (∀ s (f : FuncNo), funcOn s f = false →
    (∀ o : HostRead, o.f = f → AnswersHost (.qrsvRead o) s (.unsupported f)) ∧
    (∀ o : HostAccess, o.f = f → exec (.bar0Write o) s = .next s ∧ exec (.doorbellWrite o) s = .next s) ∧
    ∀ o : HostWrite, o.f = f → exec (.hostPostedWrite o) s = .next s) ∧
  (∀ s (f : FuncNo) (v : DWord), funcOn s f = true →
    (let base := if f = 0 then 0xE000 else 0
     let writes := fun (off size : Nat) (x : DWord) =>
       ∃ t, exec (.bar0Write ⟨f, base + off, size, v⟩) s = .next t ∧ FuncBecomes s t f { funcOf s f with ctxarg := x }
     writes 0 8 v ∧ writes 0 4 ((funcOf s f).ctxarg.extractLsb' 32 32 ++ v.extractLsb' 0 32) ∧
     writes 4 4 (v.extractLsb' 0 32 ++ (funcOf s f).ctxarg.extractLsb' 0 32))) ∧
  (∀ s (f : FuncNo) (v : DWord), funcOn s f = true →
    (let o : HostAccess := ⟨f, if f = 0 then 0xE008 else 8, 8, v⟩
     let gid : Word := v.extractLsb' 32 32
     let s' := updFunc s f fun x => { x with gridid := gid }
     (v.extractLsb' 0 8 = 1 → exec (.bar0Write o) s = exec (.create f) s') ∧ (v.extractLsb' 0 8 = 2 → exec (.bar0Write o) s = exec (.retire f) s') ∧
     (v.extractLsb' 0 8 = 3 → exec (.bar0Write o) s = exec (.suspendContext f) s') ∧
     (v.extractLsb' 0 8 = 4 → exec (.bar0Write o) s = exec (.resumeContext f) s') ∧
     (v.extractLsb' 0 8 = 5 → exec (.bar0Write o) s = exec (.suspendGrid f gid) s') ∧
     (v.extractLsb' 0 8 = 6 → exec (.bar0Write o) s = exec (.resumeGrid f gid) s'))) ∧
  (∀ s (v : DWord), funcOn s 0 = true → exec (.bar0Write ⟨0, 0x20, 8, v⟩) s = .next { s with host := { s.host with fabid := v.extractLsb' 0 9 } }) ∧
  (∀ s i (v : DWord), funcOn s 0 = true → i < 256 → (amGet Window.zero s.host.windows i).hbase.toNat % 4096 = 0 →
    (let old := amGet Window.zero s.host.windows i
     let writes := fun (off : Nat) (w : Window) =>
       ∃ t, exec (.bar0Write ⟨0, 0x8000 + 16 * i + off, 8, v⟩) s = .next t ∧ { t with host := { t.host with windows := s.host.windows } } = s ∧
         amGet Window.zero t.host.windows i = w ∧ ∀ j, j ≠ i → amGet Window.zero t.host.windows j = amGet Window.zero s.host.windows j
     writes 0 ⟨old.hbase, v.extractLsb' 24 24, v.extractLsb' 10 6, v.getLsbD 2, v.getLsbD 1, v.getLsbD 0⟩ ∧
     writes 8 { old with hbase := v.extractLsb' 12 52 ++ (0 : BitVec 12) })) ∧
  (∀ s i (v : DWord), funcOn s 0 = true → i < 32 →
    (amGet Export.zero s.host.exports i).vabase.toNat % 65536 = 0 → (amGet Export.zero s.host.exports i).vabase.toNat < 2 ^ 48 →
    (let old := amGet Export.zero s.host.exports i
     let writes := fun (off : Nat) (w : Export) =>
       ∃ t, exec (.bar0Write ⟨0, 0xA000 + 16 * i + off, 8, v⟩) s = .next t ∧ { t with host := { t.host with exports := s.host.exports } } = s ∧
         amGet Export.zero t.host.exports i = w ∧ ∀ j, j ≠ i → amGet Export.zero t.host.exports j = amGet Export.zero s.host.exports j
     writes 0 ⟨old.vabase, v.extractLsb' 44 20, v.extractLsb' 35 9, v.extractLsb' 29 6, v.extractLsb' 13 16, v.getLsbD 3, v.getLsbD 2,
       v.getLsbD 1, v.getLsbD 0⟩ ∧
     writes 8 { old with vabase := (0 : BitVec 16) ++ v.extractLsb' 16 32 ++ (0 : BitVec 16) })) ∧
  (∀ s (f : FuncNo) (v : DWord), funcOn s 0 = true →
    (let x := funcOf s f
     let at' := 0x1000 + 0x40 * f.toNat
     let runs := fun (off : Nat) (i : Instr) => exec (.bar0Write ⟨0, off, 8, v⟩) s = exec i s
     let writes := fun (off : Nat) (y : Func) => ∃ t, exec (.bar0Write ⟨0, at' + off, 8, v⟩) s = .next t ∧ FuncBecomes s t f y
     let reads := fun (off : Nat) (w : DWord) => AnswersHost (.qrsvRead ⟨0, .bar0, at' + off, 8⟩) s (.readValue 0 w)
     runs at' (.vfcfgWrite f v) ∧ runs (at' + 0x10) (.stage2Fence f) ∧
     writes 0x08 { x with s2root := (v.extractLsb' 16 36).toNat * 65536, s2en := v.getLsbD 0 } ∧
     writes 0x18 { x with slotq := v.extractLsb' 0 21 } ∧
     writes 0x20 { x with holdq := (0 : BitVec 20) ++ v.extractLsb' 32 12 ++ (0 : BitVec 4) ++ v.extractLsb' 0 28 } ∧
     writes 0x28 { x with tqw := v.extractLsb' 0 8 } ∧
     reads 0x00 ((BitVec.ofBool (f = 0 || x.en) ++ (0 : BitVec 6) ++ x.partn : BitVec 9).setWidth 64) ∧
     reads 0x18 (x.slotq.setWidth 64) ∧ reads 0x20 x.holdq ∧ reads 0x28 (x.tqw.setWidth 64) ∧
     runs 0x00 (if v.getLsbD 8 then .pmodeForce (v.extractLsb' 0 2) else .pmodeChange (v.extractLsb' 0 2)) ∧
     (∀ i : BitVec 8, v.getLsbD 0 = true → runs (0x4000 + 8 * i.toNat) (.circuitRequest i v)) ∧
     (v.extractLsb' 0 2 = s.host.timesrc → exec (.bar0Write ⟨0, 0x10, 8, v⟩) s = .next { s with host := { s.host with pkgok := v.getLsbD 8 } }) ∧
     ∀ off, off ∈ [0x08, 0x18, 0x28, 0x30, 0x3FF8, 0x4800, 0xA200] → exec (.bar0Write ⟨0, off, 8, v⟩) s = .next s)) ∧
  (∀ s (o : HostWrite), funcOn s o.f = true → o.bytes ≠ [] → o.addr + o.bytes.length ≤ 2 ^ 39 →
    (let n := o.bytes.length
     ((∀ a, o.addr ≤ a → a < o.addr + n → HostReaches s a ∧ HostWrites s a) →
      ∃ t, exec (.hostPostedWrite o) s = .next t ∧ (∀ i, i < n → some (memByte t (o.addr + i)) = o.bytes[i]?) ∧
        (∀ a, (a < o.addr ∨ o.addr + n ≤ a) → memByte t a = memByte s a) ∧ t.kcs = s.kcs ∧ t.groups = s.groups ∧
        t.host = s.host ∧ t.ctxs = s.ctxs ∧ t.frameTab = s.frameTab) ∧
     (o.addr / 65536 = (o.addr + n - 1) / 65536 → (∃ a, o.addr ≤ a ∧ a < o.addr + n ∧ ¬(HostReaches s a ∧ HostWrites s a)) →
      exec (.hostPostedWrite o) s = .next s)))

/-- R327, R336, R337, R339, R393, R394, R397, R421: the six commands of CTXCMD, each with its refusals; a command of a function
whose BARs do not answer is dropped; a retired context leaves no trace: its kernel clusters and their records are gone, no
completion word is written and no counter falls; a context created over the image of a save slot has its kernel cluster saved
there.
Of the model's own readings it rests on log entries 18, 26, 27, 43, 54 and 100. -/
def Obligations.ContextCommands : Prop :=
  (∀ s f, funcOn s f = false → ∀ i, (i = Instr.create f ∨ i = .retire f ∨ i = .suspendContext f ∨ i = .resumeContext f ∨
      ∃ gid, i = .suspendGrid f gid ∨ i = .resumeGrid f gid) → exec i s = .next s) ∧
  (∀ s f, funcOn s f = true → (funcOf s f).pending ≠ [] → ∀ i, (i = Instr.create f ∨ i = .retire f ∨ i = .suspendContext f ∨ i = .resumeContext f ∨
      ∃ gid, i = .suspendGrid f gid ∨ i = .resumeGrid f gid) →
    ∃ t, exec i s = .next t ∧ FuncBecomes s t f { funcOf s f with status := 3, reason := 1, slot := 0 }) ∧
  (∀ s f, funcOn s f = true → (funcOf s f).pending = [] →
    (let desc := (funcOf s f).ctxarg.toNat
     let asid : Asid := BitVec.ofNat 16 (memVal s desc 8)
     (descBad s f desc = true → ∃ t, exec (.create f) s = .next t ∧ FuncBecomes s t f { funcOf s f with status := 3, reason := 3, slot := 0 }) ∧
     (descBad s f desc = false → (ctxOf? s asid).isSome = true →
       ∃ t, exec (.create f) s = .next t ∧ FuncBecomes s t f { funcOf s f with status := 3, reason := 4, slot := 0 }) ∧
     (descBad s f desc = false → ctxOf? s asid = none → freeCtxSlot s f = none →
       ∃ t, exec (.create f) s = .next t ∧ FuncBecomes s t f { funcOf s f with status := 3, reason := 5, slot := 0 }) ∧
     (∀ slot, descBad s f desc = false → ctxOf? s asid = none → freeCtxSlot s f = some slot → memVal s (desc + 0x38) 8 % 2 ^ 12 = 0 →
       ∃ t c, exec (.create f) s = .next t ∧ t.ctxs = s.ctxs ++ [c] ∧ c.asid = asid ∧ c.vf = f ∧ c.desc = desc ∧
         c.slot = BitVec.ofNat 6 slot ∧ c.suspended = false ∧ c.seq = 0 ∧
         funcOf t f = { funcOf s f with status := 2, reason := 0, slot := BitVec.ofNat 6 slot } ∧
         memVal t (desc + 0x20) 8 = 0 ∧ memVal t (desc + 0x28) 8 = 0 ∧ memVal t (desc + 0x44) 4 = 0 ∧ memVal t (desc + 0x58) 8 = 0 ∧
         (∀ a, (a < desc + 0x20 ∨ desc + 0x30 ≤ a) → (a < desc + 0x44 ∨ desc + 0x48 ≤ a) → (a < desc + 0x58 ∨ desc + 0x60 ≤ a) →
           memByte t a = memByte s a) ∧ t.kcs = s.kcs ∧ t.grids = s.grids) ∧
     (∀ slot im, descBad s f desc = false → ctxOf? s asid = none → freeCtxSlot s f = some slot → memVal s (desc + 0x38) 8 % 2 ^ 12 = 1 →
       (let base := memVal s (desc + 0x38) 8 / 2 ^ 26 % 2 ^ 26 * 2 ^ 26
        let st := memByte s base
        (desc + 0x60 ≤ base ∨ base + 2 ^ 26 ≤ desc) → Config.imageOf (memRead s base (2 ^ 26)) = some im → 1 ≤ st → st ≤ 6 →
        gridOf? s im.kc.grid = none →
        ∃ t k G, exec (.create f) s = .next t ∧ t.kcs = s.kcs ++ [k] ∧ k.asid = asid ∧ k.status = .saved st ∧ k.slotNo = some 0 ∧
          k.place = none ∧ k.grid = im.kc.grid ∧ k.cluster = im.kc.cluster ∧ k.spine = im.kc.spine ∧ k.sprue = im.kc.sprue ∧
          t.groups = s.groups ++ im.groups.map (fun g => { g with kc := k.id }) ∧ gridOf? t im.kc.grid = some G ∧ G.asid = asid ∧
          (ctxOf t asid).suspended = true ∧ (ctxOf t asid).slotsUsed = [0])))) ∧
  (∀ s f, funcOn s f = true → (funcOf s f).pending = [] → argCtx s f = none → ∀ i, (i = Instr.retire f ∨ i = .suspendContext f ∨ i = .resumeContext f) →
    ∃ t, exec i s = .next t ∧ FuncBecomes s t f { funcOf s f with status := 3, reason := 6, slot := 0 }) ∧
  (∀ s f c, funcOn s f = true → (funcOf s f).pending = [] → argCtx s f = some c →
    (∃ t, exec (.retire f) s = .next t ∧ Says t f 2 0 ∧ t.tund.counts = s.tund.counts ∧
      (CtxHere s c → (s.grids.map fun G => G.id).Nodup → (∀ k ∈ s.kcs, ∀ G ∈ s.grids, G.asid = c.asid → k.grid = G.id → k.asid = c.asid) →
        ∀ a, a < c.desc + 0x58 ∨ c.desc + 0x60 ≤ a →
          (∀ d ∈ s.deques, ∀ q, d.queue = some q → a < (queueOf s q).cb + 0x18 ∨ (queueOf s q).cb + 0x1C ≤ a) → memByte t a = memByte s a) ∧
      (∀ k ∈ s.kcs, ∀ G ∈ s.grids, G.asid = c.asid → k.grid = G.id →
        (∀ x ∈ t.kcs, x.id ≠ k.id) ∧ (∀ x ∈ t.groups, x.kc ≠ k.id) ∧ (∀ x ∈ t.teams, x.kc ≠ k.id) ∧ ∀ x ∈ t.deques, x.kc ≠ k.id) ∧ ctxOf? t c.asid = none ∧ (∀ G ∈ t.grids, G.asid ≠ c.asid) ∧
      (∀ x ∈ t.frames, x.asid ≠ c.asid) ∧ (∀ x ∈ t.written, x.asid ≠ c.asid) ∧ (∀ x ∈ t.tlb, x.asid ≠ c.asid) ∧
      (∀ x ∈ t.requests, x.asid = c.asid → x.who = none ∧ x.dst ≠ 0) ∧ (∀ x ∈ t.tund.held, x.2.asid ≠ c.asid) ∧ (∀ x ∈ t.tund.heads, x.launch.asid ≠ c.asid)) ∧
    (let run := s.kcs.filter fun k => k.asid = c.asid && isRunning k
     (s.kcs.map fun k => k.id).Nodup → CtxHere s c →
      (run.length ≤ (freeSlots c).length → ∃ t, exec (.suspendContext f) s = .next t ∧ (ctxOf t c.asid).suspended = true ∧
        Stopped t run 1 ∧ Says t f (if (s.kcs.any fun k => k.asid = c.asid && (isRunning k || stopping k)) then 1 else 2) 0) ∧
      ((freeSlots c).length < run.length → ∃ t, exec (.suspendContext f) s = .next t ∧
        FuncBecomes s t f { funcOf s f with status := 3, reason := 2, slot := 0 })) ∧
    (CtxHere s c → ∃ t, exec (.resumeContext f) s = .next t ∧ Says t f 2 0 ∧
      t.grids = (s.grids.map fun g => if g.asid = c.asid then { g with suspended := false } else g) ∧ ctxOf t c.asid = { c with suspended := false } ∧
      t.kcs = (s.kcs.map fun k => if k.asid = c.asid ∧ k.status = .saved 4 then { k with status := .saved 1 } else k) ∧
      t.mem = s.mem ∧ t.groups = s.groups ∧ t.teams = s.teams)) ∧
  (∀ s f gid, funcOn s f = true → (funcOf s f).pending = [] → ownGrid s f gid = none → ∀ i, (i = Instr.suspendGrid f gid ∨ i = .resumeGrid f gid) →
    ∃ t, exec i s = .next t ∧ FuncBecomes s t f { funcOf s f with status := 3, reason := 6, slot := 0 }) ∧
  (∀ s f G c, funcOn s f = true → (funcOf s f).pending = [] → gridOf? s G.id = some G → ctxOf? s G.asid = some c → c.vf = f →
    (let run := s.kcs.filter fun k => k.grid = G.id && isRunning k
     (s.kcs.map fun k => k.id).Nodup → (∀ k ∈ s.kcs, k.grid = G.id → k.asid = G.asid) →
      (run.length ≤ (freeSlots c).length → ∃ t, exec (.suspendGrid f G.id) s = .next t ∧ gridOf? t G.id = some { G with suspended := true } ∧
        Stopped t run 1 ∧ Says t f (if (s.kcs.any fun k => k.grid = G.id && (isRunning k || stopping k)) then 1 else 2) 0) ∧
      ((freeSlots c).length < run.length → ∃ t, exec (.suspendGrid f G.id) s = .next t ∧
        FuncBecomes s t f { funcOf s f with status := 3, reason := 2, slot := 0 })) ∧
    ∃ t, exec (.resumeGrid f G.id) s = .next t ∧ Says t f 2 0 ∧ gridOf? t G.id = some { G with suspended := false } ∧
      t.kcs = (s.kcs.map fun k => if k.grid = G.id ∧ k.status = .saved 4 then { k with status := .saved 1 } else k) ∧
      t.mem = s.mem ∧ t.groups = s.groups ∧ t.ctxs = s.ctxs)

namespace Sys2Proof.Claims

/-- Where a VF or a context without frames goes from partition p: it stays while the partition exists, else it goes to
the one that has its lowest die (R387). -/
def MovesTo (old new p q : BitVec 2) : Prop :=
  (partDies new p ≠ [] → q = p) ∧ (partDies new p = [] → ∀ d, (partDies old p).head? = some d → d ∈ partDies new q)

/-- The mode has changed: PMSTS reads DONE, each VF is in its partition of the new mode, and no other register of the
host interface changes. -/
def ModeIs (s t : State) (mode : BitVec 2) : Prop :=
  t.host = { s.host with pmode := mode, pmsts := 2, pmReq := none, funcs := t.host.funcs } ∧
    ∀ v, ∃ q, MovesTo s.host.pmode mode (funcOf s v).partn q ∧ funcOf t v = { funcOf s v with partn := q }

/-- Frame f is in use by a context. -/
def FrameOfCtx (s : State) (asid : Asid) (f : Nat) : Prop := (frameEntry s f).st = 2 ∧ (frameEntry s f).kasid = asid

end Sys2Proof.Claims

/-- R336, R387, R388: a change of the partition mode is requested, refused while an affected partition has a context, or
forced, which pre-empts the affected kernel clusters, ends the grid of one that has no save slot, and at the timeout the
grid of one that has not stopped; it takes effect when nothing remains to be saved: VFs of partitions that are gone are
assigned anew, a context moves with its frames to one new partition, its ID.PART rewritten, or ends where they lie in
several, and its frames are freed.
Of the model's own readings it rests on log entries 54, 58 and 59. -/
def Obligations.PartitionModes : Prop :=
  (∀ s mode, s.host.pmReq = none → mode ≠ 3 →
    (let hit := fun (p : BitVec 2) => partDies s.host.pmode p ≠ partDies mode p
     ((∀ c ∈ s.ctxs, ¬hit c.part) → exec (.pmodeChange mode) s = .next { s with host := { s.host with pmReq := some (mode, false), pmsts := 1 } }) ∧
     ((∃ c ∈ s.ctxs, hit c.part) → exec (.pmodeChange mode) s = .next { s with host := { s.host with pmsts := 3 } }) ∧
     ((s.kcs.map fun k => k.id).Nodup → (let run := s.kcs.filter fun k => decide (hit (ctxOf s k.asid).part) && isRunning k
       (slotsFor s run = true → ∃ t, exec (.pmodeForce mode) s = .next t ∧ t.host.pmReq = some (mode, true) ∧ t.host.pmsts = 1 ∧
         t.host.pmode = s.host.pmode ∧ Stopped t run 5) ∧
       (∀ k G, run = [k] → freeSlots (ctxOf s k.asid) = [] → gridOf? s k.grid = some G →
         ∃ t, exec (.pmodeForce mode) s = .next t ∧ t.host.pmReq = some (mode, true) ∧
           GridEnded { s with host := { s.host with pmReq := some (mode, true), pmsts := 1 } } t G 2 0))))) ∧
  (∀ s mode k G, s.host.pmReq = some (mode, true) → (affectedKcs s mode).filter (fun k => isRunning k || stopping k) = [k] →
    gridOf? s k.grid = some G → ∃ t, exec .forcePreemptTimeout s = .next t ∧ GridEnded s t G 2 0x18) ∧
  (∀ s, s.host.pmReq = none → exec .forcePreemptTimeout s = .next s ∧ exec .partitionModeTakesEffect s = .next s) ∧
  (∀ s mode forced, s.host.pmReq = some (mode, forced) → mode ≠ 3 → s.host.pmode ≠ 3 →
    (let hit := fun (p : BitVec 2) => partDies s.host.pmode p ≠ partDies mode p
     let saved := ∀ k ∈ affectedKcs s mode, (isRunning k || stopping k) = false
     (forced = false ∨ saved ∧ (∀ c ∈ s.ctxs, ¬hit c.part) →
       ∃ t, exec .partitionModeTakesEffect s = .next t ∧ ModeIs s t mode ∧ { t with host := s.host } = s) ∧
     (∀ c p, forced = true → saved → s.ctxs = [c] → hit c.part → amWf FrameEntry.zero s.frameTab = true →
       (∀ f, FrameOfCtx s c.asid f → apRepl (frameEntry s f) = false → homeDie (f * 65536) ∈ partDies mode p) →
       ((∀ f, FrameOfCtx s c.asid f → apRepl (frameEntry s f) = true) → MovesTo s.host.pmode mode c.part p) →
       ∃ t, exec .partitionModeTakesEffect s = .next t ∧ ModeIs s t mode ∧ t.ctxs = [{ c with part := p }] ∧
         memVal t c.desc 8 = memVal s c.desc 8 / 2 ^ 24 * 2 ^ 24 + p.toNat * 2 ^ 22 + memVal s c.desc 8 % 2 ^ 22 ∧
         (∀ a, (a < c.desc ∨ c.desc + 8 ≤ a) → memByte t a = memByte s a) ∧
         (∀ f, (FrameOfCtx s c.asid f → frameEntry t f = { frameEntry s f with part := p }) ∧
           (¬FrameOfCtx s c.asid f → frameEntry t f = frameEntry s f)) ∧
         t.kcs = s.kcs ∧ t.groups = s.groups ∧ t.tlb = s.tlb ∧
         ∀ G ∈ t.grids, G.asid = c.asid → ∀ d ∈ G.dies, d ∈ partDies mode p) ∧
     (∀ c f f', forced = true → saved → s.ctxs = [c] → hit c.part → FrameOfCtx s c.asid f → FrameOfCtx s c.asid f' →
       apRepl (frameEntry s f) = false → apRepl (frameEntry s f') = false →
       (∀ p, ¬(homeDie (f * 65536) ∈ partDies mode p ∧ homeDie (f' * 65536) ∈ partDies mode p)) →
       ∃ t, exec .partitionModeTakesEffect s = .next t ∧ t.host.pmode = mode ∧ t.host.pmsts = 2 ∧ t.host.pmReq = none ∧
         ctxOf? t c.asid = none ∧
         (∀ G ∈ t.grids, G.asid ≠ c.asid) ∧ (∀ n, FrameOfCtx s c.asid n → (frameEntry t n).st = 1) ∧
         ∀ G C, (s.grids.filter fun g => g.asid = c.asid) = [G] → gridOf? s G.id = some G → G.launch.asid = G.asid →
           ctxOf? (removeGrid s G) G.asid = some C → Completed (removeGrid s G) t G.launch C 2 0) ∧
     (forced = true → (∃ k ∈ affectedKcs s mode, (isRunning k || stopping k) = true) → exec .partitionModeTakesEffect s = .next s)))

namespace Sys2Proof.Claims

/-- A circuit has the port of a FAILED die at an end (R413). -/
def FailedEnd (s : State) (c : Circuit) : Prop := ∃ d : DieNo, (c.src.toNat = d.toNat ∨ c.dst.toNat = d.toNat) ∧ (dieOf s d).st = .failed

end Sys2Proof.Claims

/-- R303, R308, R346, R378, R393, R413: a stage-2 fence runs until it is done and then the VF's translations are gone and its epochs
have advanced; a queue table entry is enabled only within its VF's quota; VFCFG; a circuit trains, comes up, drains and goes
down, and one that names a reserved port or the port of a FAILED die, repeats an up pair or uses a wavelength in use is left down; an entry that is
rewritten while its circuit is in place drains it first and then trains.
Of the model's own readings it rests on log entry 56. -/
def Obligations.TablesAndCircuits : Prop :=
  (∀ s v, ∃ t, exec (.stage2Fence v) s = .next t ∧ FuncBecomes s t v { funcOf s v with fencing := true }) ∧
  (∀ s v, (funcOf s v).fencing = true → (s.ctxs.map fun c => c.asid).Nodup →
    ∃ t, exec (.stage2FenceDone v) s = .next t ∧ funcOf t v = { funcOf s v with fencing := false } ∧
      t.ctxs = (s.ctxs.map fun c => if c.vf = v then { c with epoch := c.epoch + 1 } else c) ∧
      (∀ e, e ∈ t.tlb ↔ e ∈ s.tlb ∧ ∀ c ∈ s.ctxs, c.vf = v → e.asid ≠ c.asid) ∧ t.mem = s.mem ∧ t.kcs = s.kcs ∧ t.groups = s.groups) ∧
  (∀ s v, (funcOf s v).fencing = false → exec (.stage2FenceDone v) s = .next s) ∧
  (∀ s q (w : BitVec 256),
    (let e := queueEntryOf w
     let bad := queueReserved w = true ∨ 20 < e.log2n ∨ (funcOf s e.vf).slotq.toNat < slotsUsedBy s e.vf q + 2 ^ e.log2n
     ∃ t, exec (.queueTableWrite q w) s = .next t ∧ { t with tund := s.tund } = s ∧ (∀ p, p ≠ q → queueOf t p = queueOf s p) ∧
       (bad → queueOf t q = { e with en := false } ∧ q ∉ t.tund.looking) ∧
       (¬bad → queueOf t q = e ∧ (q ∈ t.tund.looking ↔ e.en = true)) ∧
       e.ring = (w.extractLsb' 6 46).toNat * 64 ∧ e.log2n = (w.extractLsb' 64 6).toNat ∧ e.cb = (w.extractLsb' 70 46).toNat * 64 ∧
       e.work = w.getLsbD 128 ∧ e.vf = w.extractLsb' 136 6 ∧ e.en = w.getLsbD 144 ∧ e.asid = w.extractLsb' 160 16)) ∧
  (∀ s v (x : DWord), ∃ t, exec (.vfcfgWrite v x) s = .next t ∧ FuncBecomes s t v { funcOf s v with
    partn := x.extractLsb' 0 2
    en := x.getLsbD 8 || ((s.ctxs.any fun c => c.vf = v) && (funcOf s v).en) }) ∧
  (∀ s (i : BitVec 8) (x : DWord),
    (let c := circuitAt s i
     let asked : Circuit := ⟨true, x.extractLsb' 3 5, x.extractLsb' 8 5, x.extractLsb' 13 3, x.extractLsb' 16 6, 0, none⟩
     let becomes := fun (j : Instr) (c' : Circuit) => ∃ t, exec j s = .next t ∧ { t with host := { t.host with circuits := s.host.circuits } } = s ∧
       circuitAt t i = c' ∧ ∀ k, k ≠ i → circuitAt t k = circuitAt s k
     let drains := fun (j : Instr) (c' : Circuit) => becomes j { c' with
       st := 3
       held := some ((inForce c).src, (inForce c).dst, (inForce c).lambda, (inForce c).nlam) }
     (c.st = 0 → circuitBad s i asked = false → becomes (.circuitRequest i x) { asked with st := 1 }) ∧
     (c.st = 0 → circuitBad s i asked = true → becomes (.circuitRequest i x) asked) ∧
     (c.st ≠ 0 → { asked with st := c.st, held := c.held } = c → exec (.circuitRequest i x) s = .next s) ∧
     (c.st ≠ 0 → { asked with st := c.st, held := c.held } ≠ c → drains (.circuitRequest i x) asked) ∧
     (c.st = 0 → becomes (.circuitRelease i) { c with v := false, held := none }) ∧
     (c.st ≠ 0 → drains (.circuitRelease i) { c with v := false }) ∧
     (c.st = 1 → c.v = true → ¬FailedEnd s c → becomes (.circuitUp i) { c with st := 2 }) ∧
     (¬(c.st = 1 ∧ c.v = true) ∨ FailedEnd s c → exec (.circuitUp i) s = .next s) ∧
     (c.st = 3 → circuitHolds s (inForce c) = false → c.v = false → becomes (.circuitDrained i) { c with st := 0, held := none }) ∧
     (c.st = 3 → circuitHolds s (inForce c) = false → c.v = true →
       becomes (.circuitDrained i) { c with st := if circuitBad s i c then 0 else 1, held := none }) ∧
     (¬(c.st = 3 ∧ circuitHolds s (inForce c) = false) → exec (.circuitDrained i) s = .next s) ∧
     (15 ≤ asked.src.toNat ∨ 15 ≤ asked.dst.toNat ∨ FailedEnd s asked → circuitBad s i asked = true) ∧
     ∀ j, j ≠ i → (let e := inForce (circuitAt s j)
       (e.v = true → e.st = 2 → e.src = asked.src → e.dst = asked.dst → circuitBad s i asked = true) ∧
       (∀ n : Nat, e.st ≠ 0 → (e.src = asked.src ∨ e.dst = asked.dst) → e.lambda.toNat ≤ n → n ≤ e.lambda.toNat + e.nlam.toNat →
         asked.lambda.toNat ≤ n → n ≤ asked.lambda.toNat + asked.nlam.toNat → circuitBad s i asked = true))))

/-- R421, R424 to R427: the management commands answer the PF with what they read, and refuse a VF with status 3; arrivals
counted for a suspended context leave for the destination of its forwarding entry, and an entry that is removed forwards
nothing more; the report holds the versions and
measurements of every die and of the routing die, the capabilities of every core, and the nonce.
Of the model's own readings it rests on log entry 70. -/
def Obligations.ManagementCommands : Prop :=
  (∀ s (f : FuncNo) d e a dev exp nonce chunk, f ≠ 0 → ∀ i, (i = Instr.dieStatus f d ∨ i = .errRead f d ∨ i = .energyRead f e ∨
      i = .dbForward f a dev exp ∨ i = .dbUnforward f a ∨ i = .attest f nonce ∨ i = .fwStage f chunk) →
    ∃ t, exec i s = .next t ∧ Replies s t f 3 []) ∧
  (∀ s d, (let x := dieOf s d
    (∃ t code, exec (.dieStatus 0 d) s = .next t ∧
      Replies s t 0 0 (code :: (List.range 48).map fun c => ((coreCaps s d c).zeroExtend 8 : Byte)) ∧
      (x.st = .online → code = 0) ∧ (x.st = .withdrawing → code = 1) ∧ (x.st = .bypass → code = 2) ∧
      (x.st = .resetting → code = if x.boot = some false then 7 else 3) ∧ (x.st = .training → code = 4) ∧ (x.st = .syncing → code = 5) ∧
      (x.st = .lost → code = 6) ∧ (x.st = .failed → code = 7)) ∧
    (x.st ≠ .failed → (∃ t, exec (.errRead 0 d) s = .next t ∧
        Replies s t 0 0 (natToBytes 8 x.corrected.toNat ++ natToBytes 8 x.uncorrected.toNat ++ natToBytes 8 x.consumed.toNat)) ∧
      ∃ t, exec (.energyRead 0 (.die d)) s = .next t ∧ Replies s t 0 0 (natToBytes 8 x.energy.toNat)) ∧
    (x.st = .failed → (∃ t, exec (.errRead 0 d) s = .next t ∧ Replies s t 0 3 []) ∧
      ∃ t, exec (.energyRead 0 (.die d)) s = .next t ∧ Replies s t 0 3 []))) ∧
  (∀ s a, (∀ c, ctxOf? s a = some c → ∃ t, exec (.energyRead 0 (.asid a)) s = .next t ∧ Replies s t 0 0 (natToBytes 8 c.energy.toNat)) ∧
    (ctxOf? s a = none → ∃ t, exec (.energyRead 0 (.asid a)) s = .next t ∧ Replies s t 0 2 [])) ∧
  (∀ s c (dev : BitVec 9) exp, CtxHere s c → dev.toNat ≤ 287 → c.counted = [] →
    ∃ t, exec (.dbForward 0 c.asid dev exp) s = .next t ∧ t.out = .mgmt 0 0 [] :: s.out ∧
      t.host = { s.host with forwards := (s.host.forwards.filter fun x => x.asid ≠ c.asid) ++ [⟨c.asid, c.vf, c.slot, dev, exp, true⟩] } ∧
      { t with host := s.host, out := s.out, ctxs := s.ctxs } = s) ∧
  (∀ s c (dev : BitVec 9) exp idx n, CtxHere s c → dev.toNat ≤ 287 → c.counted = [(idx, n)] →
    ∃ t, exec (.dbForward 0 c.asid dev exp) s = .next t ∧
      t.out = [.mgmt 0 0 [], .fabricReq s.nextId (.fabric dev.toNat exp.toNat (64 * idx)) (.door n false) 0] ++ s.out ∧
      ctxOf t c.asid = { c with counted := [] }) ∧
  (∀ s a (dev : BitVec 9) exp, ctxOf? s a = none ∨ 287 < dev.toNat → ∃ t, exec (.dbForward 0 a dev exp) s = .next t ∧ Replies s t 0 2 []) ∧
  (∀ s a, (let has := ∃ x ∈ s.host.forwards, x.asid = a ∧ x.live = true
    (has → ∃ t, exec (.dbUnforward 0 a) s = .next t ∧ t.out = .mgmt 0 0 [] :: s.out ∧
      { t with host := { t.host with forwards := s.host.forwards }, out := s.out } = s ∧
      ((ctxOf? s a).isSome = true → t.host.forwards = s.host.forwards.filter fun x => x.asid ≠ a) ∧
      (ctxOf? s a = none → ∀ x, x ∈ t.host.forwards ↔ (x ∈ s.host.forwards ∧ x.asid ≠ a) ∨ ∃ y ∈ s.host.forwards, y.asid = a ∧ x = { y with live := false })) ∧
    (¬has → ∃ t, exec (.dbUnforward 0 a) s = .next t ∧ Replies s t 0 2 []))) ∧
  (∀ s nonce, (s.fab.attestIdx < 2 ^ 20 → ∃ t r, exec (.attest 0 nonce) s = .next t ∧ t.fab = { s.fab with attestIdx := s.fab.attestIdx + 1 } ∧
      t.out = .mgmt 0 0 (r ++ Config.attestSignature s.fab.attestIdx r) :: s.out ∧ { t with fab := s.fab, out := s.out } = s ∧
      r.drop (r.length - 32) = natToBytes 32 nonce.toNat ∧
      (∀ d, natToBytes 4 (dieOf s d).version.toNat <:+: r ∧ (∀ h ∈ (dieOf s d).log, natToBytes 32 h.toNat <:+: r) ∧
        ((List.range 48).map fun c => ((coreCaps s d c).zeroExtend 8 : Byte)) <:+: r) ∧
      natToBytes 4 s.fab.rversion.toNat <:+: r ∧ ∀ h ∈ s.fab.rlog, natToBytes 32 h.toNat <:+: r) ∧
    (2 ^ 20 ≤ s.fab.attestIdx → ∃ t, exec (.attest 0 nonce) s = .next t ∧ Replies s t 0 4 [])) ∧
  (∀ s chunk, ∃ t, exec (.fwStage 0 chunk) s = .next t ∧ t.out = .mgmt 0 0 [] :: s.out ∧ { t with dies := s.dies, out := s.out } = s ∧
    t.dies = s.dies.map fun x => { x with staged := x.staged ++ chunk })

namespace Sys2Proof.Claims

/-- A bound on TERR by the time source (R383). -/
def terrLimit (src : BitVec 2) : Nat := if src = 1 then 0x320 else if src = 2 then 0x190 else 0x20

/-- A die's time after a correction towards time with bound b: a step forward, or a backlog backward (R384). -/
def TimeSet (x y : Die) (time : DWord) (b : Nat) : Prop :=
  if x.time ≤ time then y = { x with time := time, backlog := 0, terr := BitVec.ofNat 32 b }
  else y = { x with backlog := x.time.toNat - time.toNat, terr := BitVec.ofNat 32 b }

/-- The circuits of a die's port are down, and those that were up are remembered. -/
def CircuitsDown (s t : State) (d : DieNo) : Prop :=
  ∀ i : BitVec 8, (let c := inForce (circuitAt s i)
    c.src.toNat = d.toNat ∨ c.dst.toNat = d.toNat → (circuitAt t i).st = 0 ∧ (c.st = 2 → i.toNat ∈ (dieOf t d).circuits))

/-- The lines dirty in a die's L2 are lost: only memory of the die, and of it only lines that a context has written, may have
lost what was stored there, and no context has a dirty line there. -/
def LinesGone (s t : State) (d : DieNo) : Prop :=
  t.ctxs = (s.ctxs.map fun c => { c with dirty := c.dirty &&& ~~~(1#4 <<< d.toNat), lines := c.lines.filter fun l => homeDie (64 * l) ≠ d }) ∧
    ∀ a, (homeDie a ≠ d ∨ ∀ c ∈ s.ctxs, a / 64 ∉ c.lines) → memByte t a = memByte s a

/-- A die after a fatal event: LOST, its circuits down, its time unsynchronised; every context that touched it has a frame of
CAUSE 0x10 and no grid, a grid of it ended with STATUS 2 and CAUSE 0x10, which its completion word, written after the lines
are lost, says; its replicas are gone. -/
def DieGone (s t : State) (d : DieNo) : Prop :=
  (dieOf t d).st = .lost ∧ (dieOf t d).terr = 0xFFFFFFFF ∧ (dieOf t d).retraining = false ∧ CircuitsDown s t d ∧
    (∀ c ∈ s.ctxs, (touchedOf s c).getLsbD d.toNat = true →
      (∃ f ∈ t.frames, f.asid = c.asid ∧ f.whose = .context ∧ f.trap.cause = 0x10) ∧ ∀ G ∈ t.grids, G.asid ≠ c.asid) ∧
    (∀ c G, (s.ctxs.filter fun c => (touchedOf s c).getLsbD d.toNat) = [c] → (s.grids.filter fun g => g.asid = c.asid) = [G] →
      gridOf? s G.id = some G → s.transfers = [] →
      ∃ S u f, { S with mem := s.mem, ctxs := s.ctxs, frames := s.frames, fresh := s.fresh } = s ∧ S.frames = s.frames ++ [f] ∧
        f.asid = c.asid ∧ f.trap.cause = 0x10 ∧ LinesGone s S d ∧ GridEnded S u G 2 0x10 ∧ t.mem = u.mem ∧ t.tund.counts = u.tund.counts) ∧
    ((∀ c ∈ s.ctxs, (touchedOf s c).getLsbD d.toNat = false) → s.transfers = [] →
      t.grids = (s.grids.map fun g => { g with leaving := g.leaving.filter fun x => x ≠ d }) ∧ t.kcs = s.kcs ∧ t.groups = s.groups ∧
      ∀ a, (homeDie a ≠ d ∨ ∀ c ∈ s.ctxs, a / 64 ∉ c.lines) → memByte t a = memByte s a) ∧
    ∀ r ∈ t.replicas, homeDie (r.copy * 65536) ≠ d

/-- Whether an image is signed, as plug-ins are not, and acceptable under a fused version (R424). -/
def Signed (i : BootImage) : Prop := ∀ vf, i.level ≠ .plugin vf
def Acceptable (version : Word) (i : BootImage) : Prop := Signed i → i.verifies = true ∧ version.toNat ≤ i.version.toNat
def Accepted (version : Word) (mine : List BootImage) : Prop :=
  (∃ i ∈ mine, i.level = .monitor) ∧ (∃ i ∈ mine, i.level = .scheduler) ∧ ∀ i ∈ mine, Acceptable version i

/-- The image that the chunks staged for a die make. -/
def Staged (d : DieNo) (x : Die) (i : BootImage) : Prop :=
  i.die = d.toNat ∧ i.digest = Config.imageDigest x.staged ∧ i.version = Config.imageVersion x.staged ∧
    i.verifies = Config.imageVerifies x.staged ∧ (∀ vf, Config.imagePlugin x.staged = some vf → i.level = .plugin vf) ∧
    (Config.imagePlugin x.staged = none → i.level = if Config.imageMonitor x.staged then .monitor else .scheduler)

/-- The reset of a die (R384, R424): a staged image takes the place of the one of its level, and every image that the die
boots from is measured; the fused version is that of a signed staged image once it verifies. -/
def Resets (d : DieNo) (x y : Die) : Prop :=
  y.st = .resetting ∧ y.bypass = true ∧ y.fails = 0 ∧ y.terr = 0xFFFFFFFF ∧ y.backlog = 0 ∧ y.staged = [] ∧ y.energy = x.energy ∧
    y.time = x.time ∧ y.log = x.log ++ y.images.map (fun i => i.digest) ∧
    (x.staged = [] → y.boot = x.boot ∧ y.version = x.version ∧ y.images = x.images) ∧
    (x.staged ≠ [] → ∃ i, Staged d x i ∧ y.images = (x.images.filter fun j => j.level ≠ i.level) ++ [i] ∧ y.boot.isSome = true ∧
      (y.boot = some true ↔ Acceptable x.version i ∧ (x.boot = some true ∨ Accepted x.version y.images)) ∧
      (y.boot = some true → Signed i → y.version = i.version) ∧ (¬(y.boot = some true ∧ Signed i) → y.version = x.version))

/-- The DROPS of the queues that function f does not own lie outside the control block at cb. -/
def DropsElsewhere (s : State) (f : FuncNo) (cb : Nat) : Prop :=
  ∀ p, (queueOf s p).vf ≠ f ∨ queueOf s p = QueueEntry.zero → (queueOf s p).cb + 0x1C ≤ cb ∨ cb + 8 ≤ (queueOf s p).cb

/-- A die that has had its first handshake since its reset (R384). -/
def Clocked (x : Die) : Prop := x.st = .online ∨ x.st = .withdrawing ∨ x.st = .bypass

/-- The messages of port link among those sent, in their order. -/
def portSends (ms : List Msg) (link : Nat) : List PtpSent :=
  ms.reverse.filterMap fun m => match m with
    | .ptp l x => if l = link then some x else none
    | _ => none

/-- At a handshake each port in the master role whose link is up may send an Announce of the clock's domain and, after it, a
Sync with its timestamp or a Sync and the timestamp in a Follow_Up; no other port sends, and nothing else leaves. -/
def MastersSend (s t : State) (time : DWord) : Prop :=
  ∃ ms : List Msg, t.out = ms ++ s.out ∧ (∀ m ∈ ms, ∃ l x, m = .ptp l x ∧ l < 18) ∧
    (∀ l, l ∈ s.fab.linksDown ∨ ptpRole s.fab l ≠ .master → portSends ms l = []) ∧
    (let dom := s.fab.ptpDomain
     ∀ l, ∃ a b, portSends ms l = a ++ b ∧ (a = [] ∨ a = [⟨.announce, dom, none, some (ptpAnnounced s.fab)⟩]) ∧
      (b = [] ∨ b = [⟨.sync, dom, some time, none⟩] ∨ b = [⟨.sync, dom, none, none⟩, ⟨.followUp, dom, some time, none⟩]))

end Sys2Proof.Claims

/-! ### Dies, resets and time -/

/-- R336, R372, R397, R398, R413, R414, R424, R427, R429: a function-level reset, from its start to its end, which undoes what the
function has begun, with no completion word and no release; a warm reset in each state of the die; the end of a withdrawal,
its deadline, which keeps the die in the grids' die sets, and the write-back.
Of the model's own readings it rests on log entries 28, 54, 70 and 115. -/
def Obligations.ResetsAndWithdrawal : Prop :=
  (∀ s f, ∃ t, exec (.functionLevelReset ⟨f, false⟩) s = .next t ∧ (∀ c ∈ t.ctxs, c.vf ≠ f) ∧
    (∀ q, (queueOf s q).vf = f → queueOf s q ≠ QueueEntry.zero → (queueOf t q).en = false ∧ q ∉ t.tund.looking ∧
      (DropsElsewhere s f (queueOf s q).cb → memVal t (queueOf s q).cb 8 = 0 ∧ memVal t ((queueOf s q).cb + 8) 8 = 0 ∧
        memVal t ((queueOf s q).cb + 0x18) 8 = 0)) ∧
    (∀ x ∈ t.tund.held, x.2.vf ≠ f) ∧ (∀ x ∈ t.tund.released, x.2.vf ≠ f) ∧
    (∀ x ∈ t.tund.heads, x.launch.vf ≠ f) ∧ (∀ n, (frameEntry s n).st = 2 → (frameEntry s n).ovf = f → (frameEntry t n).st = 1) ∧
    (∀ n : Nat, (let h := (funcOf s f).holdq
      let own := (h.extractLsb' 16 12).toNat ≤ n ∧ n < (h.extractLsb' 16 12).toNat + (h.extractLsb' 32 12).toNat
      (own → amGet 0 t.tund.counts n = 0) ∧ (¬own → amGet 0 t.tund.counts n = amGet 0 s.tund.counts n))) ∧
    (∀ x ∈ t.tund.released, x ∈ s.tund.released) ∧
    (∀ r ∈ t.deques, ∀ q, r.queue = some q → queueOf s q ≠ QueueEntry.zero → (queueOf s q).vf ≠ f) ∧
    (amWf QueueEntry.zero s.tund.queues = true → ∀ a,
      (∀ q, (queueOf s q).vf = f → queueOf s q ≠ QueueEntry.zero → a < (queueOf s q).cb ∨ (queueOf s q).cb + 0x20 ≤ a) →
      (∀ c ∈ s.ctxs, a < c.desc + 0x58 ∨ c.desc + 0x60 ≤ a) →
      (∀ d ∈ s.deques, ∀ q, d.queue = some q → a < (queueOf s q).cb + 0x18 ∨ (queueOf s q).cb + 0x1C ≤ a) → memByte t a = memByte s a) ∧
    (∀ c, CtxHere s c → c.vf = f → (∀ G ∈ t.grids, G.asid ≠ c.asid) ∧ (∀ e ∈ t.tlb, e.asid ≠ c.asid) ∧
      (∀ k ∈ s.kcs, ∀ G ∈ s.grids, G.asid = c.asid → k.grid = G.id →
        (∀ x ∈ t.kcs, x.id ≠ k.id) ∧ (∀ x ∈ t.groups, x.kc ≠ k.id) ∧ (∀ x ∈ t.teams, x.kc ≠ k.id) ∧ ∀ x ∈ t.deques, x.kc ≠ k.id) ∧
      (∀ x ∈ t.frames, x.asid ≠ c.asid) ∧
      (∀ r ∈ t.requests, r.asid ≠ c.asid) ∧
      ∀ r ∈ s.requests, r.asid = c.asid → r.who = none → r.dst ≠ 0 → .peer (r.dst - 1) .linkError ∈ t.out) ∧
    (let x := funcOf t f
     x.ctxarg = 0 ∧ x.status = 0 ∧ x.reason = 0 ∧ x.slot = 0 ∧ x.gridid = 0 ∧ x.dbdrop = 0 ∧ x.pending = [] ∧ x.devCtl2 = 0 ∧ x.en = (funcOf s f).en ∧
     x.partn = (funcOf s f).partn ∧ x.s2root = (funcOf s f).s2root ∧ x.slotq = (funcOf s f).slotq ∧ x.holdq = (funcOf s f).holdq ∧
     funcOn t f = false)) ∧
  (∀ s f, ∃ t, exec (.functionLevelReset ⟨f, true⟩) s = .next t ∧ FuncBecomes s t f { funcOf s f with flr := false }) ∧
  (∀ s (f : FuncNo) d ms, s.dies.length = 4 →
    (let x := dieOf s d
     (f ≠ 0 → ∃ t, exec (.warmReset f d ms) s = .next t ∧ Replies s t f 3 []) ∧
     (f = 0 → x.st = .failed → ∃ t, exec (.warmReset f d ms) s = .next t ∧ Replies s t f 3 []) ∧
     (f = 0 → x.st = .online → (ms = 0 ∨ 1000 < ms) → ∃ t, exec (.warmReset f d ms) s = .next t ∧ Replies s t f 2 []) ∧
     (f = 0 → x.st = .online → 1 ≤ ms → ms ≤ 1000 → ∃ t, exec (.warmReset f d ms) s = .next t ∧
       DieIs s t d { x with st := .withdrawing, deadline := ms } ∧ t.out = .mgmt f 0 [] :: s.out ∧
       { t with dies := s.dies, grids := s.grids, out := s.out } = s ∧
       (∀ G ∈ t.grids, (∃ k ∈ s.kcs, k.grid = G.id ∧ k.place.map (fun p => p.die) = some d) → d ∈ G.leaving) ∧
       t.grids.map (fun G => { G with leaving := G.leaving.filter fun e => e ≠ d }) =
         s.grids.map fun G => { G with leaving := G.leaving.filter fun e => e ≠ d }) ∧
     (f = 0 → x.st = .lost → ∃ t, exec (.warmReset f d ms) s = .next t ∧ Resets d x (dieOf t d) ∧ (∀ e, e ≠ d → dieOf t e = dieOf s e) ∧
       t.out = .mgmt f 0 [] :: s.out ∧ CircuitsDown s t d ∧
       { t with dies := s.dies, out := s.out, host := { t.host with circuits := s.host.circuits } } = s) ∧
     (f = 0 → x.st ≠ .failed → x.st ≠ .online → x.st ≠ .lost → ∃ t, exec (.warmReset f d ms) s = .next t ∧ Replies s t f 1 []))) ∧
  (∀ s d, s.dies.length = 4 →
    (let here := s.kcs.filter fun k => decide (k.place.map (fun p => p.die) = some d)
     ((dieOf s d).st = .withdrawing → here = [] →
       ∃ t, exec (.withdrawDone d) s = .next t ∧ DieIs s t d { dieOf s d with st := .bypass, bypass := true } ∧
         (∀ G ∈ t.grids, d ∉ G.leaving) ∧ (∀ c ∈ s.ctxs, (touchedOf t c).getLsbD d.toNat = false) ∧
         (∀ c ∈ t.ctxs, c.dirty.getLsbD d.toNat = false ∧ ∀ l ∈ c.lines, homeDie (64 * l) ≠ d) ∧
         (∀ r ∈ t.replicas, homeDie (r.copy * 65536) ≠ d) ∧ t.kcs = s.kcs ∧ t.groups = s.groups) ∧
     (¬((dieOf s d).st = .withdrawing ∧ here = []) → exec (.withdrawDone d) s = .next s) ∧
     ((dieOf s d).st = .withdrawing → (s.kcs.map fun k => k.id).Nodup → slotsFor s (here.filter isRunning) = true →
       ∃ t, exec (.withdrawDeadline d) s = .next t ∧ Stopped t (here.filter isRunning) 6 ∧ t.mem = s.mem ∧ t.dies = s.dies ∧
         t.grids = s.grids.map fun g => { g with leaving := g.leaving.filter fun x => x ≠ d }) ∧
     (∀ k G, (dieOf s d).st = .withdrawing → here.filter isRunning = [k] → freeSlots (ctxOf s k.asid) = [] → gridOf? s k.grid = some G →
       ∃ t S G', exec (.withdrawDeadline d) s = .next t ∧ { S with grids := s.grids } = s ∧ { G' with leaving := G.leaving } = G ∧
         gridOf? S k.grid = some G' ∧ GridEnded S t G' 2 0) ∧
     ((dieOf s d).st ≠ .withdrawing → exec (.withdrawDeadline d) s = .next s) ∧
     ((dieOf s d).st = .bypass → ∃ t, exec (.writebackDone d) s = .next t ∧ Resets d (dieOf s d) (dieOf t d) ∧
       (∀ e, e ≠ d → dieOf t e = dieOf s e) ∧ { t with dies := s.dies, host := { t.host with circuits := s.host.circuits } } = s ∧
       CircuitsDown s t d) ∧
     ((dieOf s d).st ≠ .bypass → exec (.writebackDone d) s = .next s)))

/-- R382 to R385, R413, R418, R422 to R424: boot verifies and measures the images of the routing die and of each die that
resets, and a monitor that has verified locks limits within their bounds, which afterwards only fall; self-test, training and the handshake bring a die ONLINE, the second
failure makes it FAILED; time corrections, which a die before its first handshake does not take; the roles of the PTP ports,
what they send and what they answer; what only the control firmware sees.
Of the model's own readings it rests on log entries 61, 62, 63, 64, 102 and 103. -/
def Obligations.DieRecoveryAndTime : Prop :=
  (∀ s (images : List BootImage), s.dies.length = 4 →
    ∃ t, exec (.deviceBoot images) s = .next t ∧ { t with dies := s.dies, fab := s.fab, fresh := s.fresh } = s ∧
      ((s.fab.monitorLocked = true ∨ t.fab.rboot ≠ some true → t.fab.monitorLocked = s.fab.monitorLocked ∧
          t.fab.powerLimit = s.fab.powerLimit ∧ t.fab.linkCaps = s.fab.linkCaps) ∧
        (s.fab.monitorLocked = false → t.fab.rboot = some true → t.fab.monitorLocked = true ∧ t.fab.powerLimit ≤ 3200 ∧
          amGet 0 t.fab.linkCaps 0 ≤ 128000 ∧
          ∀ p, p < 18 → amGet 0 t.fab.linkCaps (p + 1) ≤ 400000) ∧
        { t.fab with
          monitorLocked := s.fab.monitorLocked, powerLimit := s.fab.powerLimit, linkCaps := s.fab.linkCaps
          rboot := s.fab.rboot, rversion := s.fab.rversion, rlog := s.fab.rlog } = s.fab) ∧
      (let mine := images.filter fun i => decide (i.die = 4)
       (s.fab.rboot.isSome = true → t.fab.rboot = s.fab.rboot ∧ t.fab.rlog = s.fab.rlog ∧ t.fab.rversion = s.fab.rversion) ∧
       (s.fab.rboot = none → t.fab.rboot.isSome = true ∧ (t.fab.rboot = some true ↔ Accepted s.fab.rversion mine) ∧
         t.fab.rlog = s.fab.rlog ++ mine.map (fun i => i.digest) ∧
         (t.fab.rboot = some true → ∀ i ∈ mine, Signed i → i.version.toNat ≤ t.fab.rversion.toNat))) ∧
      ∀ d, (let mine := images.filter fun i => decide (i.die = d.toNat)
        let x := dieOf s d
        let y := dieOf t d
        (¬(x.st = .resetting ∧ x.boot = none) → y = x) ∧
        (x.st = .resetting → x.boot = none → y.st = .resetting ∧ y.log = x.log ++ mine.map (fun i => i.digest) ∧
          y.images = mine ∧ y.boot.isSome = true ∧
          (y.boot = some true ↔ t.fab.rboot = some true ∧ Accepted x.version mine) ∧
          (y.boot = some true → (∀ i ∈ mine, Signed i → i.version.toNat ≤ y.version.toNat) ∧ 1 ≤ y.meterUs ∧ y.meterUs ≤ 100 ∧
            y.currentClamp ≤ Config.fusedCurrent d.toNat) ∧
          (y.boot = some false → y.version = x.version ∧ y.poolReserve = x.poolReserve ∧ y.meterUs = x.meterUs ∧
            y.replThreshold = x.replThreshold ∧ y.currentClamp = x.currentClamp)))) ∧
  (∀ s d, s.dies.length = 4 → (let x := dieOf s d
    (x.st = .resetting → x.boot = some true →
      (∃ t, exec (.selftestDone ⟨d, true, []⟩) s = .next t ∧ DieBecomes s t d { x with st := .training, fails := 0, terr := 0xFFFFFFFF }) ∧
      (∀ f : CoreFault, f.corner = false → ∃ t, exec (.selftestDone ⟨d, true, [f]⟩) s = .next t ∧ (dieOf t d).st = .training ∧
        (dieOf t d).outOf = x.outOf ∧ coreCaps t d f.core =
          coreCaps s d f.core &&& ~~~((if f.rows then 3 else 0) ||| (if f.cols then 5 else 0))) ∧
      (∀ core, ∃ t, exec (.selftestDone ⟨d, true, [⟨core, false, false, true⟩]⟩) s = .next t ∧ (dieOf t d).st = .training ∧
        core ∈ (dieOf t d).outOf) ∧
      (∃ t, exec (.selftestDone ⟨d, false, []⟩) s = .next t ∧
        DieBecomes s t d { x with fails := x.fails + 1, st := if x.fails = 0 then .resetting else .failed })) ∧
    (¬(x.st = .resetting ∧ x.boot = some true) → ∀ o, o.die = d → exec (.selftestDone o) s = .next s) ∧
    (x.st = .training → (∃ t, exec (.ucieTrained d true) s = .next t ∧ (dieOf t d).st = .syncing ∧ (dieOf t d).fails = 0 ∧
        (dieOf t d).circuits = [] ∧ (∀ e, e ≠ d → dieOf t e = dieOf s e) ∧
        ∀ i : BitVec 8, x.circuits = [i.toNat] → (circuitAt s i).v = true → (circuitAt s i).st = 0 → circuitBad s i (circuitAt s i) = false →
          circuitAt t i = { circuitAt s i with st := 2 }) ∧
      ∃ t, exec (.ucieTrained d false) s = .next t ∧
        DieBecomes s t d { x with fails := x.fails + 1, st := if x.fails = 0 then .training else .failed }) ∧
    (x.st ≠ .training → ∃ t, exec (.ucieTrained d true) s = .next t ∧ DieBecomes s t d { x with retraining := false }) ∧
    (x.st ≠ .failed → x.st ≠ .lost → ∃ t, exec (.ucieRetrainStart d) s = .next t ∧ DieBecomes s t d { x with retraining := true }) ∧
    (x.st = .syncing → ∀ time, ∃ t n, exec (.packageClockHandshake d time) s = .next t ∧ n ≤ terrLimit s.host.timesrc ∧
      (∃ y, TimeSet x y time n ∧ dieOf t d = { y with st := .online, bypass := false, fails := 0 }) ∧ (∀ e, e ≠ d → dieOf t e = dieOf s e) ∧
      MastersSend s t time ∧ { t with dies := s.dies, fresh := s.fresh, out := s.out } = s) ∧
    (Clocked x → ∀ time, ∃ t n, exec (.packageClockHandshake d time) s = .next t ∧ TimeSet x (dieOf t d) time n ∧
      (if s.host.timesrc = 0 then n ≤ 0x20 else n = x.terr.toNat) ∧ (∀ e, e ≠ d → dieOf t e = dieOf s e) ∧
      MastersSend s t time ∧ { t with dies := s.dies, fresh := s.fresh, out := s.out } = s) ∧
    (x.st ≠ .syncing → ¬Clocked x → ∀ time, exec (.packageClockHandshake d time) s = .next s) ∧
    (∃ t, exec (.timeSourceLoss d) s = .next t ∧ DieBecomes s t d { x with terr := 0xFFFFFFFF }) ∧
    (∀ vf, ∃ t, exec (.pluginFault d vf) s = .next t ∧ { t with dies := s.dies } = s ∧ vf ∈ (dieOf t d).stopped ∧
      { dieOf t d with stopped := x.stopped } = x ∧ ∀ e, e ≠ d → dieOf t e = dieOf s e) ∧
    ∃ t, exec (.sModeFault d) s = .next t ∧ DieBecomes s t d { x with restarting := true })) ∧
  (∀ s (o : TimeStamp), s.dies.length = 4 →
    (s.host.timesrc = 1 → Clocked (dieOf s o.die) → ∃ t, exec (.ptmExchange o) s = .next t ∧ t.host = { s.host with ptmoff := o.offset } ∧
      TimeSet (dieOf s o.die) (dieOf t o.die) o.time (min o.bound.toNat 0x320) ∧ (∀ e, e ≠ o.die → dieOf t e = dieOf s e) ∧
      { t with dies := s.dies, host := s.host } = s) ∧
    (s.host.timesrc ≠ 1 ∨ ¬Clocked (dieOf s o.die) →
      ∃ t, exec (.ptmExchange o) s = .next t ∧ t.host = { s.host with ptmoff := o.offset } ∧ (∀ e, dieOf t e = dieOf s e) ∧
        { t with dies := s.dies, host := s.host } = s)) ∧
  (∀ s (m : PtpMessage), s.dies.length = 4 →
    (127 < m.domain ∨ m.domain ≠ s.fab.ptpDomain ∨ m.kind = .pdelay ∨ 18 ≤ m.link ∨ m.link ∈ s.fab.linksDown → exec (.ptpMessage m) s = .next s) ∧
    (m.domain ≤ 127 → m.domain = s.fab.ptpDomain → m.link < 18 → m.link ∉ s.fab.linksDown →
      (let ask : Msg := .ptp m.link ⟨.delayReq, m.domain, none, none⟩
       let role := ptpRole s.fab m.link
       (m.kind = .sync → m.stamp = none → (role = .slave → exec (.ptpMessage m) s = .next { s with out := ask :: s.out }) ∧
         (role ≠ .slave → exec (.ptpMessage m) s = .next s)) ∧
       (m.kind = .delayReq → (role = .master → ∃ t stamp, exec (.ptpMessage m) s = .next t ∧
           t.out = .ptp m.link ⟨.delayResp, m.domain, some stamp, none⟩ :: s.out ∧ { t with out := s.out, fresh := s.fresh } = s) ∧
         (role ≠ .master → exec (.ptpMessage m) s = .next s)) ∧
       (∀ o, (m.kind = .sync ∨ m.kind = .followUp ∨ m.kind = .delayResp) → m.stamp = some o → s.host.timesrc = 2 → role = .slave →
         Clocked (dieOf s o.die) →
         ∃ t, exec (.ptpMessage m) s = .next t ∧ TimeSet (dieOf s o.die) (dieOf t o.die) o.time (min o.bound.toNat 0x190) ∧
           (∀ e, e ≠ o.die → dieOf t e = dieOf s e) ∧ t.out = (if m.kind = .sync then [ask] else []) ++ s.out ∧
           { t with dies := s.dies, out := s.out } = s) ∧
       ((m.kind = .followUp ∨ m.kind = .delayResp) → (m.stamp = none ∨ role ≠ .slave) → exec (.ptpMessage m) s = .next s) ∧
       (∀ p, m.kind = .announce → m.data = some p →
         (let here := amGet none s.fab.ptpBest m.link
          let taken := ∀ q, here = some q → q.sender = p.sender ∨ ptpBetter p q = true
          (taken → ∃ t, exec (.ptpMessage m) s = .next t ∧ { t with fab := { t.fab with ptpBest := s.fab.ptpBest } } = s ∧
            amGet none t.fab.ptpBest m.link = some p ∧ ∀ l, l ≠ m.link → amGet none t.fab.ptpBest l = amGet none s.fab.ptpBest l) ∧
          (¬taken → exec (.ptpMessage m) s = .next s))) ∧
       (m.kind = .announce → m.data = none → exec (.ptpMessage m) s = .next s)))) ∧
  (∀ fab : Fabric, ∀ link p, link < 18 → 127 < fab.ptpOwn.klass → amGet none fab.ptpBest link = some p →
    (∀ l, l ≠ link → amGet none fab.ptpBest l = none) →
    (ptpBetter fab.ptpOwn p = false → ptpRole fab link = .slave ∧ ptpAnnounced fab = { p with steps := p.steps + 1, sender := fab.ptpOwn.ident }) ∧
      (ptpBetter fab.ptpOwn p = true → ptpRole fab link = .master ∧ ptpAnnounced fab = fab.ptpOwn) ∧
      ∀ l, l ≠ link → ptpRole fab l = .master) ∧
  (∀ s b, s.dies.length = 4 → ∃ t, exec (.powerClamp b) s = .next t ∧
    t.fab = { s.fab with clamp := b, powerLimit := t.fab.powerLimit, linkCaps := t.fab.linkCaps } ∧ t.fab.powerLimit ≤ s.fab.powerLimit ∧
    (∀ i, amGet 0 t.fab.linkCaps i ≤ amGet 0 s.fab.linkCaps i) ∧
    (∀ d, dieOf t d = { dieOf s d with currentClamp := (dieOf t d).currentClamp } ∧ (dieOf t d).currentClamp ≤ (dieOf s d).currentClamp) ∧
    (s.fab.monitorLocked = false → t.fab.powerLimit = s.fab.powerLimit ∧ t.fab.linkCaps = s.fab.linkCaps ∧ t.dies = s.dies) ∧
    { t with fab := s.fab, dies := s.dies, fresh := s.fresh } = s)

namespace Sys2Proof.Claims

/-- The address that a peer's request names in the exporting context (R402). -/
def peerVa (s : State) (o : RemoteOps) : Nat := ((amGet Export.zero s.host.exports o.exp.toNat).vabase.toNat + o.off) % 2 ^ 48

/-- A peer's request at an export that lets it in, which resolves to one part of the context's address space; the
translations held may have changed. -/
structure PeerReaches (s : State) (o : RemoteOps) (c : Ctx) (s' : State) (need : Need) (n : Nat) (way : Way) : Prop where
  allowed : exportAllows (amGet Export.zero s.host.exports o.exp.toNat) o = true
  ctx : ctxOf? s (amGet Export.zero s.host.exports o.exp.toNat).asid = some c
  some' : 0 < n
  only : { s' with tlb := s.tlb } = s
  there : resolve s c need true (peerVa s o) n = (s', .ok [⟨way, 0, n, peerVa s o⟩])

/-- A circuit joins port 13, where requests of peers come in, to the service of the address (R379, R415). -/
def PeerServed (s : State) (pa : Nat) (cls : BitVec 2) : Prop :=
  lostStack s pa = false ∧ circuitUp? s 13 (servicePort s pa (!cached s pa cls)) = true

/-- The answer of a home that finds a late cause (R249, R357). -/
def homeSays (cause : Byte) (a : Answer) : Prop :=
  (cause = 0x0F → a = .poisoned) ∧ (cause = 0x07 → a = .append .outside) ∧ (cause = 0x08 → a = .append .sealed) ∧
    (cause = 0x09 → a = .append .beyond)

/-- A peer's request is answered at once, and has no effect. -/
def PeerGets (s : State) (o : RemoteOps) (a : Answer) : Prop := exec (.remoteRequest o) s = .next { s with out := .peer o.dev a :: s.out }

/-- A home's late cause answers the request, which has no effect. -/
def HomeTurns (s : State) (o : RemoteOps) : Option Byte → Prop
  | some b => ∃ a, homeSays b a ∧ a ≠ .data [] ∧ PeerGets s o a
  | none => False

/-- What a whole write of bytes at pa leaves of the poison marks of memory (R411): a part that is written whole loses its
mark, and bytes that carry a mark give it to every part they touch. -/
def MarksAfter (s t : State) (pa n : Nat) (poison : Bool) : Prop :=
  ∀ q, q ∈ t.memPoison ↔ (poison = true ∧ 16 * q < pa + n ∧ pa < 16 * q + 16) ∨ (q ∈ s.memPoison ∧ ¬(pa ≤ 16 * q ∧ 16 * q + 16 ≤ pa + n))

/-- From s' to t a peer's request goes on to target tg, and waits there for its answer, which is the peer's (R402). -/
def Relayed (s s' t : State) (o : RemoteOps) (c : Ctx) (tg : Target) (kind : ReqKind) : Prop :=
  { t with requests := s'.requests, out := s'.out, nextId := s'.nextId } = s' ∧ t.nextId = s'.nextId + 1 ∧
    t.out = wireOf s' tg kind o.scope :: s'.out ∧ ∃ plane,
      t.requests = s'.requests ++ [⟨s'.nextId, none, [], 0, o.dev + 1, peerVa s o, o.scope, c.asid, tg, kind, [], plane⟩]

end Sys2Proof.Claims

/-- R208, R240, R259, R328, R385, R389, R392, R396, R399 to R402, R411, R413, R415, R416, R421: fatal events of a die and the
bypass after it; requests of peers at an export: refused without effect, answered DIE_OFFLINE_REPLY without a circuit, answered
by a late cause of their home, performed (loads, stores, all eight ops of an atomic at both widths, PAGE requests), sent on to
a host window or another peer, or an arrival at a doorbell, which is kept for a saved kernel cluster, forwarded, or dropped
and counted; all but doorbell stores are refused while the context is suspended; failures of requests and links.
Of the model's own readings it rests on log entries 14, 57, 60, 64, 73 and 84. -/
def Obligations.FatalEventsAndFabric : Prop :=
  (∀ s d, s.dies.length = 4 → (let x := dieOf s d
    (x.st ≠ .failed → x.st ≠ .lost → (∃ t, exec (.fatalReport d) s = .next t ∧ DieGone s t d) ∧ (∃ t, exec (.heartbeatMiss d) s = .next t ∧ DieGone s t d) ∧
      (x.retraining = true → ∃ t, exec (.ucieRetrainTimeout d) s = .next t ∧ DieGone s t d)) ∧
    (x.st = .failed ∨ x.st = .lost → exec (.fatalReport d) s = .next s ∧ exec (.heartbeatMiss d) s = .next s) ∧
    (x.retraining = false → exec (.ucieRetrainTimeout d) s = .next s) ∧
    (x.st = .lost → ∃ t, exec (.lostBypassEnter d) s = .next t ∧ DieBecomes s t d { x with bypass := true }) ∧
    (x.st ≠ .lost → exec (.lostBypassEnter d) s = .next s))) ∧
  (∀ s (o : RemoteOps), (let e := amGet Export.zero s.host.exports o.exp.toNat
    (e.v = false ∨ e.size.toNat * 65536 ≤ o.off ∨ (e.sdev ≠ 0x1FF ∧ e.sdev.toNat ≠ o.dev) ∨ (e.svf ≠ 0x3F ∧ e.svf ≠ o.f) ∨
        (e.r = false ∧ ∃ n, o.kind = .load n) ∨ (e.w = false ∧ ∃ b p, o.kind = .store b p) ∨
        ((e.r = false ∨ e.w = false) ∧ ∃ op wide b new, o.kind = .atom op wide b new) ∨
        (e.ap = false ∧ ∃ fn op vals, o.kind = .page fn op vals) ∨
        (∃ op wide b new, o.kind = .atom op wide b new ∧ peerVa s o % (if wide then 8 else 4) ≠ 0) ∨
        (ctxOf? s e.asid = none ∧ ∀ x ∈ s.host.forwards, x.asid ≠ e.asid) ∨
        (∃ c need n u m, ctxOf? s e.asid = some c ∧ resolve s c need true (peerVa s o) n = (u, .error m) ∧
          ((o.kind = .load n ∧ need = { r := true }) ∨ (∃ b p, o.kind = .store b p ∧ n = b.length ∧ need = { w := true }) ∨
            ∃ op wide b new, o.kind = .atom op wide b new ∧ n = (if wide then 8 else 4) ∧ need = { r := true, w := true, atomic := true })) →
      PeerGets s o .linkError))) ∧
  (∀ s (o : RemoteOps) c s' pa cls,
    (let reaches := fun (need : Need) (n : Nat) => PeerReaches s o c s' need n (.mem pa cls)
     let late := fun (need : Need) (n : Nat) => homeLate s' (frameEntry s' (frameNo pa)) need pa n cls
     let held := fun (i : Nat) => memByte s (pa + i)
     let writes := fun (b : List Byte) (a : Answer) (p : Bool) =>
       ∃ t, exec (.remoteRequest o) s = .next t ∧ t.out = .peer o.dev a :: s.out ∧ t.kcs = s.kcs ∧ t.groups = s.groups ∧
         (∀ i, i < b.length → some (memByte t (pa + i)) = b[i]?) ∧ MarksAfter s t pa b.length p ∧
         ∀ a, (a < pa ∨ pa + b.length ≤ a) → a ≠ c.desc + 0x58 → memByte t a = memByte s a
     let turns := fun (need : Need) (n : Nat) => reaches need n →
       (c.suspended = true → PeerGets s o .linkError) ∧
       (c.suspended = false → ¬PeerServed s' pa cls → PeerGets s o .offline) ∧
       (c.suspended = false → PeerServed s' pa cls → late need n ≠ none → HomeTurns s o (late need n))
     let runs := fun (need : Need) (n : Nat) => reaches need n ∧ c.suspended = false ∧ PeerServed s' pa cls ∧ late need n = none
     (∀ n, o.kind = .load n → turns { r := true } n ∧
       (runs { r := true } n → exec (.remoteRequest o) s = .next { s' with out := .peer o.dev (.data ((List.range n).map held)) :: s.out })) ∧
     (∀ b p, o.kind = .store b p → turns { w := true } b.length ∧ (runs { w := true } b.length → writes b (.data []) p)) ∧
     (∀ (op : BitVec 3) wide (b new : DWord), o.kind = .atom op wide b new →
       (let n := if wide then 8 else 4
        let need : Need := { r := true, w := true, atomic := true }
        let old := memVal s pa n
        let made : BitVec (8 * n) := if op = 6 then BitVec.ofNat (8 * n) b.toNat
          else if op = 7 then (if old = b.toNat then BitVec.ofNat (8 * n) new.toNat else BitVec.ofNat (8 * n) old)
          else atomOf op.toNat (BitVec.ofNat (8 * n) old) (BitVec.ofNat (8 * n) b.toNat)
        peerVa s o % n = 0 → b.toNat < 2 ^ (8 * n) → turns need n ∧
          (runs need n → writes (natToBytes n made.toNat) (.data ((List.range n).map held)) false))) ∧
     (∀ fn op off val, o.kind = .page fn op [(off, val)] →
       (let need : Need := if fn = 4 then { r := true, page := true } else { w := true, page := true }
        turns need 1 ∧ (∀ u v, runs need 1 → pageAt s' c (frameNo pa) (off % 65536) (pageReqOf fn op val) = (u, .ok v) →
            exec (.remoteRequest o) s = .next { u with out := .peer o.dev (.data (natToBytes 4 v)) :: u.out }) ∧
          ∀ u b, runs need 1 → pageAt s' c (frameNo pa) (off % 65536) (pageReqOf fn op val) = (u, .error b) → HomeTurns s o (some b))))) ∧
  (∀ s (o : RemoteOps) c s' w off,
    (let reaches := fun (need : Need) (n : Nat) => PeerReaches s o c s' need n (.window w off)
     let up := circuitUp? s' 13 12
     let goesOn := fun (k : ReqKind) => (up = true → ∃ t, exec (.remoteRequest o) s = .next t ∧ Relayed s s' t o c (.window w off) k) ∧
       (up = false → PeerGets s o .offline)
     c.suspended = false →
     (∀ n, o.kind = .load n → reaches { r := true } n → goesOn (.load n)) ∧
     (∀ b p, o.kind = .store b p → reaches { w := true } b.length →
       ∃ t, exec (.remoteRequest o) s = .next t ∧ { t with out := s'.out, nextId := s'.nextId } = s' ∧
         t.out = .peer o.dev (.data []) :: (if up then [wireOf s' (.window w off) (.store b p) o.scope] else []) ++ s.out) ∧
     (∀ op wide b new, o.kind = .atom op wide b new → peerVa s o % (if wide then 8 else 4) = 0 →
       reaches { r := true, w := true, atomic := true } (if wide then 8 else 4) →
       (let allowed := (op = 0 ∨ op = 6 ∨ op = 7) ∧ o.scope = 3 ∧ (amGet Window.zero s.host.windows w).atomc = true
        (allowed → goesOn (.atom op wide b new)) ∧ (¬allowed → PeerGets s o .linkError))))) ∧
  (∀ s (o : RemoteOps) c s' dev exp off, c.suspended = false →
    (∀ n, o.kind = .load n → PeerReaches s o c s' { r := true } n (.fabric dev exp off) →
      ∃ t, exec (.remoteRequest o) s = .next t ∧ Relayed s s' t o c (.fabric dev exp off) (.load n)) ∧
    (∀ b p, o.kind = .store b p → PeerReaches s o c s' { w := true } b.length (.fabric dev exp off) →
      ∃ t, exec (.remoteRequest o) s = .next t ∧ Relayed s s' t o c (.fabric dev exp off) (.store b p)) ∧
    (∀ op wide b new, o.kind = .atom op wide b new → peerVa s o % (if wide then 8 else 4) = 0 →
      PeerReaches s o c s' { r := true, w := true, atomic := true } (if wide then 8 else 4) (.fabric dev exp off) →
      ∃ t, exec (.remoteRequest o) s = .next t ∧ Relayed s s' t o c (.fabric dev exp off) (.atom op wide b new))) ∧
  (∀ s r a, s.requests.find? (fun q => q.id = r.id) = some r → r.who = none → r.dst ≠ 0 → a ≠ .unsupported →
    exec (.memoryResponse (.answer r.id a)) s = .next { s with
      requests := s.requests.filter fun q => q.id ≠ r.id
      out := .peer (r.dst - 1) a :: s.out }) ∧
  (∀ s (o : RemoteOps) c s' b p idx off, o.kind = .store b p → PeerReaches s o c s' { w := true } b.length (.door c.asid idx off) →
    CtxHere s c → s.host.forwards.find? (fun x => x.asid = c.asid) = none →
    (∀ kc core slot T, amGet none c.doors idx = some (kc, core, slot) → s.teams.find? (fun t => t.kc = kc ∧ t.core = core) = some T →
      slot < T.bars.length → MayArrive (barOf T slot) 0 → ¬((barOf T slot).a + 1 = (barOf T slot).e ∧ (barOf T slot).lb = (barOf T slot).eb) →
      ((∀ p, (kcOf s kc).place = some p → circuitUp? s 13 p.die.toNat = true) →
        ∃ t, exec (.remoteRequest o) s = .next t ∧ t.out = .peer o.dev (.data []) :: s.out ∧ t.mem = s.mem ∧
          ((∀ st, (kcOf s kc).status ≠ .saved st) → OnlyTeam { s' with out := t.out } t kc core ∧
            BarBecomes T (teamOf t kc core) slot { barOf T slot with a := (barOf T slot).a + 1 }) ∧
          (∀ st, (kcOf s kc).status = .saved st → { t with ctxs := s.ctxs, out := s'.out } = s' ∧
            amGet 0 (ctxOf t c.asid).counted idx = (amGet 0 c.counted idx + 1) % 2 ^ 64)) ∧
      (∀ p, (kcOf s kc).place = some p → circuitUp? s 13 p.die.toNat = false → PeerGets s o .offline)) ∧
    (amGet none c.doors idx = none → ∃ t, exec (.remoteRequest o) s = .next t ∧
      FuncBecomes { s' with out := .peer o.dev (.data []) :: s.out } t c.vf { funcOf s c.vf with dbdrop := (funcOf s c.vf).dbdrop + 1 })) ∧
  (∀ s (o : RemoteOps) b p x, (let e := amGet Export.zero s.host.exports o.exp.toNat
    let off := peerVa s o - 0xFFFFFFF00000
    o.kind = .store b p → exportAllows e o = true → ctxOf? s e.asid = none → s.host.forwards.find? (fun x => x.asid = e.asid) = some x →
    0xFFFFFFF00000 ≤ peerVa s o → (b.length = 4 ∨ b.length = 8) → off % b.length = 0 → off % 64 + b.length ≤ 8 →
    (x.live = true → ∃ t, exec (.remoteRequest o) s = .next t ∧ { t with out := s.out, nextId := s.nextId } = s ∧
      t.out = [.peer o.dev (.data []),
        .fabricReq s.nextId (.fabric x.dev.toNat x.exp.toNat (64 * (off / 64))) (.door 1 o.release) (if o.release then 3 else 0)] ++ s.out) ∧
    (x.live = false → ∃ t, exec (.remoteRequest o) s = .next t ∧
      FuncBecomes { s with out := .peer o.dev (.data []) :: s.out } t x.vf { funcOf s x.vf with dbdrop := (funcOf s x.vf).dbdrop + 1 }))) ∧
  (∀ s link, exec (.flitReplay link) s = .next s) ∧
  (∀ s link, link < 18 → link ∉ s.fab.linksDown →
    ∃ t, exec (.linkFailure link) s = .next t ∧ link ∈ t.fab.linksDown ∧ (s.requests.all (fun r => r.later.isEmpty) = true →
      ∀ r ∈ s.requests, (∃ dev exp off, r.target = .fabric dev exp off) → r.plane = link → ∀ q ∈ t.requests, q.id ≠ r.id)) ∧
  (∀ s link r g f a, link < 18 → link ∉ s.fab.linksDown → s.requests = [r] → Awaits s r g f a → r.later = [] →
    (∃ dev exp off, r.target = .fabric dev exp off) → r.plane = link →
    ((keptWrites f a).map fun w => (w.lane, w.reg)).Nodup → (∀ w ∈ keptWrites f a, w.reg < 64) →
    ∃ t, exec (.linkFailure link) s = .next t ∧ TrapsLate s t r g f a 0x15) ∧
  (∀ s link, (18 ≤ link ∨ link ∈ s.fab.linksDown) → exec (.linkFailure link) s = .next s) ∧
  (∀ s r g f a w off, Awaits s r g f a → r.later = [] → r.target = .window w off →
    ((keptWrites f a).map fun w => (w.lane, w.reg)).Nodup → (∀ w ∈ keptWrites f a, w.reg < 64) →
    ∃ t, exec (.completionTimeout r.id) s = .next t ∧ TrapsLate s t r g f a 0x15) ∧
  (∀ s req, (∀ r ∈ s.requests, r.id = req → ∃ dev exp off, r.target = .fabric dev exp off) → exec (.completionTimeout req) s = .next s)

/-- R347, R350, R353, R354, R369, R371, R372, R410, R422: the driver's writes of the frame table, which do not reopen a sealed page
nor take a frame that waits for its scrubbing, scrubbing, replicas, for which the requests of a stopped plug-in are dropped and
which are reclaimed for a pool below its reserve with the least recently used first, patrol reads
and token buckets.
Of the model's own readings it rests on log entries 54, 65, 66, 103 and 114. -/
def Obligations.FramesAndReplicas : Prop :=
  (∀ s f (w : BitVec 128), f < 2 ^ 23 → (let e := frameEntryOf w
    let old := frameEntry s f
    let sealedNow := old.st = 2 ∧ old.cls = 1 ∧ old.apst = 2
    let quiet := e.apst = 2 ∨ e.cls ≠ 1 ∨ apNres e = 0
    (∀ r ∈ s.replicas, r.frame ≠ f) →
    ((e.st = 0 ∨ e.st = 1) → old.st ≠ 0 → old.st ≠ 1 → ∃ t, exec (.frameTableWrite f w) s = .next t ∧
      frameEntry t f = { FrameEntry.zero with st := 1 } ∧ (∀ r ∈ t.resvs, r.frame ≠ f) ∧ (∀ j, j ≠ f → frameEntry t j = frameEntry s j) ∧ t.mem = s.mem) ∧
    ((e.st = 0 ∨ e.st = 1) → old.st = 0 → exec (.frameTableWrite f w) s = .next s) ∧
    (old.st = 1 → exec (.frameTableWrite f w) s = .next s) ∧
    (e.st ≠ 0 → e.st ≠ 1 → sealedNow → ¬(e.cls = 1 ∧ e.apst = 2) → exec (.frameTableWrite f w) s = .next s) ∧
    (e.st ≠ 0 → e.st ≠ 1 → old.st ≠ 1 → ¬(sealedNow ∧ ¬(e.cls = 1 ∧ e.apst = 2)) → (∀ x ∈ s.watches, x.frame ≠ f) →
      ∃ t, exec (.frameTableWrite f w) s = .next t ∧ frameEntry t f = e ∧
        (∀ j, j ≠ f → frameEntry t j = frameEntry s j) ∧ (quiet → ∀ r ∈ t.resvs, r.frame ≠ f) ∧
        (∀ r, r.frame ≠ f → (r ∈ t.resvs ↔ r ∈ s.resvs)) ∧ (¬quiet → t.resvs = s.resvs) ∧
        { t with frameTab := s.frameTab, resvs := s.resvs } = s) ∧
    e.vpn = w.extractLsb' 96 32 ∧ e.kasid = w.extractLsb' 80 16 ∧ e.part = w.extractLsb' 72 2 ∧ e.ovf = w.extractLsb' 64 6 ∧
      e.apstate = w.extractLsb' 16 48 ∧ e.apst = w.extractLsb' 6 2 ∧ e.cls = w.extractLsb' 4 2 ∧ e.st = w.extractLsb' 2 2 ∧ e.hwa = w.getLsbD 1)) ∧
  (∀ s f w, 2 ^ 23 ≤ f → exec (.frameTableWrite f w) s = .next s) ∧
  (∀ s f, ((frameEntry s f).st = 1 → ∃ t, exec (.frameScrub f) s = .next t ∧ frameEntry t f = FrameEntry.zero ∧
      (∀ j, j ≠ f → frameEntry t j = frameEntry s j) ∧ (∀ a, memByte t a = if a / 65536 = f then 0 else memByte s a) ∧
      (∀ q ∈ t.memPoison, q / 4096 ≠ f) ∧
      { t with frameTab := s.frameTab, mem := s.mem, memPoison := s.memPoison, oldText := s.oldText } = s) ∧
    ((frameEntry s f).st ≠ 1 → exec (.frameScrub f) s = .next s)) ∧
  (∀ s f copy, Memory.wf s.mem → mayReplicate s f copy = true → replicaDropped s f copy = false → ∃ t, exec (.replicaCreate f copy) s = .next t ∧
      (∃ r, t.replicas = s.replicas ++ [r] ∧ r.frame = f ∧ r.copy = copy) ∧
      (frameEntry t copy).st = 2 ∧ apRepl (frameEntry t copy) = true ∧ (frameEntry t copy).kasid = (frameEntry s f).kasid ∧
      apCtail (frameEntry t copy) = apCtail (frameEntry s f) ∧ (∀ j, j ≠ copy → frameEntry t j = frameEntry s j) ∧
      (∀ i, i < 65536 → memByte t (copy * 65536 + i) = memByte s (f * 65536 + i)) ∧
      ∀ a, a / 65536 ≠ copy → memByte t a = memByte s a) ∧
  (∀ s f copy, mayReplicate s f copy = false ∨ replicaDropped s f copy = true →
    ∃ t, exec (.replicaCreate f copy) s = .next t ∧ { t with fresh := s.fresh } = s) ∧
  (∀ s f copy, (frameEntry s f).ovf ∉ (dieOf s (homeDie (copy * 65536))).stopped → replicaDropped s f copy = false) ∧
  (∀ s copy r, s.replicas.find? (fun r => r.copy = copy) = some r →
    (let part := (frameEntry s copy).part
     let due := poolSize s part < poolReserveOf s part ∧ ∀ q ∈ s.replicas, (frameEntry s q.copy).part = part → r.used ≤ q.used
     (due → ∃ t, exec (.replicaReclaim copy) s = .next t ∧ (∀ q ∈ t.replicas, q.copy ≠ copy) ∧
       frameEntry t copy = { FrameEntry.zero with st := 1 } ∧ (∀ j, j ≠ copy → frameEntry t j = frameEntry s j) ∧ t.mem = s.mem) ∧
     (¬due → exec (.replicaReclaim copy) s = .next s))) ∧
  (∀ s copy, (∀ r ∈ s.replicas, r.copy ≠ copy) → exec (.replicaReclaim copy) s = .next s) ∧
  (∀ s f, s.dies.length = 4 → f < 2 ^ 23 → ∃ t n, exec (.patrolRead f) s = .next t ∧
    DieIs s t (homeDie (f * 65536)) { dieOf s (homeDie (f * 65536)) with corrected := (dieOf s (homeDie (f * 65536))).corrected + n } ∧
    { t with dies := s.dies, fresh := s.fresh } = s) ∧
  (∀ s c (d : DieNo) n, CtxHere s c → (let depth := memVal s (c.desc + 0x54) 2 * 16
    ∃ t, exec (.tokenBucketFill c.asid d n) s = .next t ∧ { t with ctxs := s.ctxs } = s ∧
      amGet 0 (ctxOf t c.asid).tokens d.toNat = min depth (amGet 0 c.tokens d.toNat + n) ∧
      { ctxOf t c.asid with tokens := c.tokens } = c))

/-! ### Access traps -/

namespace Sys2Proof.Claims

/-- The check of R248 turns the access of n bytes at addr away with the miss m, and changed nothing but the translations held. -/
structure TurnedAway (s : State) (c : Issue) (need : Need) (sync feat : Bool) (n : Nat) (addr : DWord) (m : Miss) : Prop where
  checked : (checkThread s (ctxOf s (memberAsid s c.who)) need feat sync n ⟨0, addr, []⟩).2 = .error m
  quiet : { (checkThread s (ctxOf s (memberAsid s c.who)) need feat sync n ⟨0, addr, []⟩).1 with tlb := s.tlb } = s
  row : m.row ≤ 11
  early : m.cause ≠ 0x0F

/-- What a miss of lanes ls raises. -/
def missRaise (m : Miss) (ls : List Nat) : Raise where
  cause := m.cause
  code := BitVec.ofNat 8 m.code
  lanes := maskOf ls
  addr := m.addr
  pages := if m.cause = 0x04 then [pageOf m] else []

/-- An instruction of lane l that is turned away with m has no effect: the trap names the lane, the cause and the address; a
page fault begins run-ahead past the instruction, with the group's registers in the shadow file and its destinations dst
poisoned in every active lane (R351). -/
def RaisesMiss (i : Instr) (s : State) (c : Issue) (g : Group) (l : Nat) (m : Miss) (dst : List Nat) : Prop :=
  (m.cause ≠ 0x04 → ∃ t, exec i s = .next t ∧ TrapTaken s t c (trapOf c (missRaise m [l])) ∧
    { t with groups := s.groups, frames := s.frames, tlb := s.tlb, cur := s.cur, fresh := s.fresh } = s ∧
    { (memberGroup t c.who).regs with frontier := g.regs.frontier } = g.regs ∧
    ∀ kc core idx, Member.group kc core idx ≠ c.who → groupOf t kc core idx = groupOf s kc core idx) ∧
  (m.cause = 0x04 → ∃ t ra, exec i s = .next t ∧ { t with groups := s.groups, tlb := s.tlb, cur := s.cur, fresh := s.fresh } = s ∧
    (memberGroup t c.who).runAhead = some ra ∧ ra.trap = trapOf c (missRaise m [l]) ∧ ra.count = 0 ∧ ra.poison = g.poison ∧
    { ra.shadow with frontier := g.regs.frontier } = g.regs ∧
    { (memberGroup t c.who).regs with frontier := g.regs.frontier } = g.regs ∧
    (∀ kc core idx, Member.group kc core idx ≠ c.who → groupOf t kc core idx = groupOf s kc core idx) ∧
    (∀ lane r, (lane, r) ∈ ra.tainted ↔ lane < g.width ∧ c.mask.getLsbD lane = true ∧ r ∈ dst) ∧
    (∀ lane, c.mask.getLsbD lane = true → LaneAt (memberGroup t c.who).regs lane (nextPc c) c.prio none))

/-- One of the spine that is turned away with m traps at once, and has read no sprue register. -/
def SpineMiss (i : Instr) (s : State) (c : Issue) (k : Kc) (m : Miss) : Prop :=
  ∃ t, exec i s = .next t ∧ TrapTaken s t c (trapOf c (missRaise m [0])) ∧
    { t with kcs := s.kcs, frames := s.frames, tlb := s.tlb, cur := s.cur, fresh := s.fresh } = s ∧
    (∀ j, sprueGet (kcOf t k.id) j = sprueGet k j) ∧ ∀ id, id ≠ k.id → kcOf t id = kcOf s id

/-- A poisoned operand register among regs is DATA_POISON, once the decoding checks have passed (R412): the guard and the
entries of the group are clean. -/
def PoisonedOperand (i : Instr) (gd : PredNo) (regs : List Nat) (ok : Group → Prop) : Prop :=
  ∀ s c g l ls, OnLanes s c g → g.flights = [] → ok g → poisonedLanes g (activeLanes g c gd) regs = l :: ls →
    ∃ t, exec i s = .next t ∧ TrapTaken s t c (trapOf c { cause := 0x0F, lanes := maskOf (l :: ls) })

/-- A load or a store (store) that is turned away. busy says when a release waits instead. -/
def RefusedAccess (i : Instr) (gd : PredNo) (d a : RegField) (size : Nat) (sync store : Bool) (busy : State → Issue → Bool) : Prop :=
  let need : Need := { r := !store, w := store }
  let data := (List.range (regCount size)).map (d.toNat + ·)
  let regs := [a.toNat, a.toNat + 1] ++ if store then data else []
  (∀ s c g l m, OneLane s c g gd l regs → accessOk g size d a → busy s c = false →
    TurnedAway s c need sync true (2 ^ size) (pairAt g l a.toNat) m → RaisesMiss i s c g l m (if store then [] else data)) ∧
  PoisonedOperand i gd regs (fun g => accessOk g size d a) ∧
  (∀ s c k m, SpineAddr s c k gd a → size ≤ 3 → busy s c = false → (store = true → d.toNat < 32) →
    (32 ≤ d.toNat → d.toNat - 32 < k.cfgSprue ∧ (sprueGet k (d.toNat - 32)).st = .empty) →
    TurnedAway (addrRead s k a) c need sync true (2 ^ size) (addrOf k a) m → SpineMiss i s c k m)

/-- Where an atomic of n bytes at addr of context x is turned away by the first rows of R248, and by row 8. On a core without
host-window atomics, a page of a window comes before the alignment. -/
def AtomRows (s : State) (x : Ctx) (feat : Bool) (n : Nat) (addr : DWord) (m : Miss) : Prop :=
  let va := addr.toNat % 2 ^ 48
  let low := addr.toNat < 2 ^ 48
  (feat = true → addr.toNat % n ≠ 0 → m.cause = 0x03 ∧ m.addr = va) ∧
  (addr.toNat % n = 0 → ¬low → m.cause = 0x05 ∧ m.addr = va) ∧
  (∀ tr, low → feat = false → va % 65536 + n ≤ 65536 → (translate s x va).2 = .ok tr → tr.r = true → tr.w = true → tr.aot = none →
    tr.cls = 3 → m.cause = 0x0E ∧ m.addr = va) ∧
  (∀ tr, low → addr.toNat % n = 0 → va % 65536 + n ≤ 65536 → (translate s x va).2 = .ok tr → tr.r = true → tr.w = true → tr.aot = none →
    (∃ a idx off, wayOf tr.pa tr.cls = .door a idx off) → tr.cls ≠ 3 → aliasBad s x va tr = false → m.cause = 0x19 ∧ m.addr = va)

/-- An atomic that is turned away. -/
def RefusedAtom (mk : OpsAtom → Instr) (op : Nat) : Prop :=
  ∀ o : OpsAtom, o.x = false →
    (let n := if o.wide then 8 else 4
     let need : Need := { r := true, w := true, atomic := true }
     let feat := fun (s : State) (c : Issue) => (memberFeat s c.who).getLsbD 3
     let regs := [o.a.toNat, o.a.toNat + 1] ++ (List.range ((if o.wide then 2 else 1) * (if op = 7 then 2 else 1))).map (o.d.toNat + ·)
     let ok := fun (g : Group) => vOk g.budget true o.a.toNat = true ∧ (o.wide = true → o.d.toNat % 2 = 0) ∧ ∀ r ∈ regs.drop 2, r < g.budget ∧ r < 64
     (∀ s c g l m, OneLane s c g o.g l regs → ok g → TurnedAway s c need true (feat s c) n (pairAt g l o.a.toNat) m →
       AtomRows s (ctxOf s (memberAsid s c.who)) (feat s c) n (pairAt g l o.a.toNat) m ∧
         RaisesMiss (mk o) s c g l m ((List.range (if o.wide then 2 else 1)).map (o.d.toNat + ·))) ∧
     PoisonedOperand (mk o) o.g regs ok ∧
     (∀ s c k m, SpineAddr s c k o.g o.a → o.d.toNat < 32 → (op = 7 → o.d.toNat ≠ 31) →
       TurnedAway (addrRead s k o.a) c need true (feat s c) n (addrOf k o.a) m → SpineMiss (mk o) s c k m))

/-- A PAGE instruction that is turned away; a page that is no append page is PROTECTION (R361). reads: it reads data from d. -/
def RefusedPage (i : Instr) (gd : PredNo) (d a : RegField) (size : Nat) (write reads : Bool) : Prop :=
  let need : Need := { r := !write, w := write, page := true }
  let regs := [a.toNat, a.toNat + 1] ++ if reads then (List.range (regCount size)).map (d.toNat + ·) else []
  (∀ s c g l m, OneLane s c g gd l regs → accessOk g size d a → TurnedAway s c need false true 1 (pairAt g l a.toNat) m →
    (∀ tr, (pairAt g l a.toNat).toNat < 2 ^ 48 →
      (translate s (ctxOf s (memberAsid s c.who)) (pairAt g l a.toNat).toNat).2 = .ok tr → tr.cls ≠ 1 →
      (∀ dev exp off, wayOf tr.pa tr.cls ≠ .fabric dev exp off) → m.cause = 0x05) ∧
    RaisesMiss i s c g l m [d.toNat]) ∧
  PoisonedOperand i gd regs (fun g => accessOk g size d a) ∧
  (∀ s c k m, SpineAddr s c k gd a → size ≤ 3 → d.toNat < 32 → TurnedAway s c need false true 1 (addrOf k a) m →
    SpineMiss i s c k m)

end Sys2Proof.Claims

/-- R24, R95, R248, R255, R256, R331, R351, R361, R412: an access that is not naturally aligned where it must be takes
MISALIGNED, one above 2^48 PROTECTION, each before any effect and naming the lane; a register outside the budget is ILLEGAL;
any other load, store, atomic, PAGE instruction or `fence.rp` that a check turns away takes the cause of that check, with its
address, or begins run-ahead on a page fault, an atomic FEATURE_ABSENT at a host window on a core without them and
BARRIER_REMOTE at a doorbell; one with a poisoned address or data register takes DATA_POISON.
Of the model's own readings it rests on log entries 15 and 108. -/
def Obligations.AccessTraps : Prop :=
  (∀ (o : OpsLdo) s c g l, OneLane s c g o.g l [o.a.toNat, o.a.toNat + 1] → o.size.toNat ≤ 4 → accessOk g o.size.toNat o.d o.a →
    (let addr := (pairAt g l o.a.toNat).toNat
     let traps := fun (i : Instr) (cause : Byte) => ∃ t, exec i s = .next t ∧
       TrapTaken s t c (trapOf c { cause := cause, lanes := maskOf [l], addr := addr % 2 ^ 48 }) ∧
       { t with groups := s.groups, frames := s.frames, cur := s.cur, fresh := s.fresh } = s
     (addr % 2 ^ o.size.toNat ≠ 0 → traps (.ldAcq o) 0x03) ∧
     (addr % 2 ^ o.size.toNat = 0 → 2 ^ 48 ≤ addr → traps (.ldAcq o) 0x05) ∧
     (poisonedLanes g [l] ((List.range (regCount o.size.toNat)).map (o.d.toNat + ·)) = [] →
       (o.scope = 3 → fabricPending s (memberAsid s c.who) = false) →
       (addr % 2 ^ o.size.toNat ≠ 0 → traps (.stRel o) 0x03) ∧ (addr % 2 ^ o.size.toNat = 0 → 2 ^ 48 ≤ addr → traps (.stRel o) 0x05)))) ∧
  (∀ (o : OpsLdo) s c g l, OneLane s c g o.g l [o.a.toNat, o.a.toNat + 1] → ¬accessOk g o.size.toNat o.d o.a →
    (∃ t, exec (.ldAcq o) s = .next t ∧ TrapTaken s t c (trapOf c { cause := 0x01, lanes := c.mask })) ∧
    ∃ t, exec (.stRel o) s = .next t ∧ TrapTaken s t c (trapOf c { cause := 0x01, lanes := c.mask })) ∧
  (∀ o : OpsLd, ¬(2 ≤ o.space.toNat ∧ o.space.toNat ≤ 4) → o.size.toNat ≤ 4 →
    RefusedAccess (.ld o) o.g o.d o.a o.size.toNat false false fun _ _ => false) ∧
  (∀ o : OpsSt, ¬(2 ≤ o.space.toNat ∧ o.space.toNat ≤ 4) → o.size.toNat ≤ 4 →
    RefusedAccess (.st o) o.g o.d o.a o.size.toNat false true fun _ _ => false) ∧
  (∀ o : OpsLdo, o.size.toNat ≤ 4 → RefusedAccess (.ldAcq o) o.g o.d o.a o.size.toNat true false fun _ _ => false) ∧
  (∀ o : OpsLdo, o.size.toNat ≤ 4 → RefusedAccess (.stRel o) o.g o.d o.a o.size.toNat true true
    fun s c => decide (o.scope = 3) && fabricPending s (memberAsid s c.who)) ∧
  RefusedAtom .atomAdd 0 ∧ RefusedAtom .atomAddf 1 ∧ RefusedAtom .atomMin 2 ∧ RefusedAtom .atomMax 3 ∧ RefusedAtom .atomAnd 4 ∧
  RefusedAtom .atomOr 5 ∧ RefusedAtom .atomExch 6 ∧ RefusedAtom .atomCas 7 ∧
  (∀ o : OpsM, RefusedPage (.apres o) o.g o.d o.a 2 true true ∧ RefusedPage (.apcmt o) o.g o.d o.a 2 true false ∧
    RefusedPage (.seal o) o.g o.d o.a 2 true false ∧ RefusedPage (.sealW o) o.g o.d o.a 2 true false ∧
    RefusedPage (.tailrd o) o.g o.d o.a 2 false false ∧ RefusedPage (.tailrdR o) o.g o.d o.a 2 false false) ∧
  (∀ o : OpsApst, 2 ≤ o.size.toNat → o.size.toNat ≤ 4 → RefusedPage (.apst o) o.g o.d o.a o.size.toNat true true) ∧
  (∀ o : OpsFrp,
    (∀ s c g l m, OneLane s c g o.g l [o.a.toNat, o.a.toNat + 1] → vOk g.budget true o.a.toNat = true →
      TurnedAway s c { r := true } false true 1 (pairAt g l o.a.toNat) m → RaisesMiss (.fenceRp o) s c g l m []) ∧
    PoisonedOperand (.fenceRp o) o.g [o.a.toNat, o.a.toNat + 1] (fun g => vOk g.budget true o.a.toNat = true) ∧
    (∀ s c k m, SpineAddr s c k o.g o.a → TurnedAway s c { r := true } false true 1 (addrOf k o.a) m →
      SpineMiss (.fenceRp o) s c k m))

/-! ### The machine as a whole -/

/-- Words written out from the spec's worked encodings decode to the instructions they stand for; reserved sizes of a
load are refused (R251). -/
def Obligations.DecodesSpecWords : Prop :=
  decodeTableWord 32 0x40C21C01 = some (.addsS32 { g := 0, x := false, d := 7, a := 2, b := 3 }) ∧
    decodeTableWord 16 0x2862 = some (.addHalf { a := 5, d := 3 }) ∧
    decodeTableWord 32 0x0A83080F = some (.shriS { g := 0, x := false, d := 2, a := 3, imm := 5 }) ∧
    decodeTableWord 32 0x00C24413 = some (.fcmpLt { g := 0, x := false, pd := 1, a := 2, b := 3, comb := 0 }) ∧
    decodeTableWord 32 0x61442819 = some (.fmaF32 { g := 0, x := false, d := 10, a := 4, b := 5 }) ∧
    decodeTableWord 32 0x50451821 = some (.sldUpZ { g := 0, x := false, d := 6, a := 5, b := 65 }) ∧
    decodeTableWord 32 0x2410023B = some (.mma { aBase := 0, bBase := 16, bs := true, shape := 0, type := 2, la := 2 }) ∧
    decodeTableWord 32 0x06861427 = some (.ld { g := 0, x := false, d := 5, a := 6, size := 2, space := 3, la := 0 }) ∧
    decodeTableWord 32 0x0FC2102F = some (.atomCas { g := 0, x := false, d := 4, a := 2, scope := 3, wide := true, la := 0 }) ∧
    decodeTableWord 32 0x07461427 = none ∧
    decodeTableWord 32 0x1002_1031 = some (.apres { g := 0, d := 4, a := 2, la := 1 }) ∧
    decodeTableWord 32 0x0208_0C33 = some (.wsteal { g := 0, d := 3, a := 8, la := 0 }) ∧
    decodeTableWord 32 0x01920035 = some (.arv { g := 0, slot := 2, k6 := 3 }) ∧
    decodeTableWord 32 0x24422837 = some (.lcpy8 { g := 0, d := 10, a := 2, slot := 1, la := 2 }) ∧
    decodeTableWord 32 0x11091839 = some (.sacc { g := 0, reg := 6, k := 9, la := 1 }) ∧
    decodeTableWord 32 0x02001E3F = some (.call { g := 0, prio := 7, imm := 0x200 })

/-- R67, R88 to R95, R170, R186, R190, R235, R291, R351, R412, R435: at a group's or a spine's issue, the bytes at its pc are fetched and decoded; a step
is then exec of the decoded instruction, with the issue recorded; a word that decodes to none is ILLEGAL; a cause met at the
fetch is taken; DATA_POISON, where a lane's entry or guard is poisoned, comes after the causes that the encoding alone
decides; at the deadline any instruction but `yield` is
YIELD_OVERRUN; run-ahead ends when nothing can issue or at its limits and issues otherwise; a cause of the ladle is taken
before the group's next issue; past the limit of a lock-holder section LOCK_HOLDER_LIMIT comes; a halfword is fetched as memory holds it, or as it was before a store that the thread need not see; an event
is executed as it stands.
Of the model's own readings it rests on log entries 3, 69, 80 and 85. -/
def Obligations.StepRunsDecoded : Prop :=
  (∀ s rest g e, s.agenda = .issue (.group g.kc g.core g.idx) :: rest → GroupHere s g → (kcOf s g.kc).place.isSome = true →
    g.ended = false → g.trap = none → g.stopped = none → g.hold = none → g.runAhead = none → g.ladle = [] →
    g.crit = none → nextEntry { s with agenda := rest } g = some e → (g.flights.any fun f => mustLand e f && inFlight f) = false →
    (let m : Member := .group g.kc g.core g.idx
     let s0 := updMember { s with agenda := rest } m fun g => { g with turn := s.fresh + 1 }
     let s1 := updMember s0 m fun g => landFlights g (mustLand e)
     let c0 : Issue := ⟨m, e.pc, e.prio, e.mask, 0, 4, e.wait.isSome⟩
     let fetch := fun (u : State) => fetchBytes u (ctxOf s (memberAsid s m)) (memberDie s m) e.pc (seenPoint u c0)
     (g.ycount.toNat < g.deadline → ∀ s2 bytes, fetch s1 = (s2, .ok bytes) →
       (let c : Issue := { c0 with word := BitVec.ofNat 32 (bytesToNat bytes), len := bytes.length }
        (∀ i n, decode bytes = .ok (i, n) → step s = exec i { s2 with cur := some c }) ∧
        (∀ r, decode bytes = .error r → step s = .next (trapAll s2 c 0x01)))) ∧
     (g.ycount.toNat < g.deadline → ∀ s2 x w, fetch s1 = (s2, .error (x, w)) →
       step s = .next (takeTrap s2 { c0 with word := w, counted := true } {
         cause := x.cause, code := BitVec.ofNat 8 x.code, lanes := e.mask, addr := x.addr
         pages := if x.cause = 0x04 then [pageOf x] else [] })) ∧
     (g.deadline ≤ g.ycount.toNat → e.wait = none → ∀ s2 bytes i n, fetch s0 = (s2, .ok bytes) → decode bytes = .ok (i, n) →
       (∀ o, i ≠ .yield o) → step s = exec (.yieldOverrun m) { s with agenda := rest }))) ∧
  (∀ s rest g, s.agenda = .issue (.group g.kc g.core g.idx) :: rest → GroupHere s g → (kcOf s g.kc).place.isSome = true →
    g.ended = false → g.trap = none → g.stopped = none → g.hold = none → (g.flights.any fun f => inFlight f) = false →
    (let m : Member := .group g.kc g.core g.idx
     let next := nextEntry { s with agenda := rest } g
     (∀ ra, g.runAhead = some ra → (next = none ∨ g.ladle ≠ [] ∨ (g.crit = none ∧ (512 ≤ ra.count ∨ 32 ≤ ra.trap.pages.length))) →
       step s = exec (.runAhead m) { s with agenda := rest }) ∧
     (∀ ra e, g.runAhead = some ra → next = some e → g.ladle = [] → g.crit = none → ra.count < 512 → ra.trap.pages.length < 32 →
       (let s1 := updMember (updMember { s with agenda := rest } m fun g => { g with turn := s.fresh + 1 }) m fun g => landFlights g (mustLand e)
        let c0 : Issue := ⟨m, e.pc, e.prio, e.mask, 0, 4, e.wait.isSome⟩
        ∀ s2 bytes i n, fetchBytes s1 (ctxOf s (memberAsid s m)) (memberDie s m) e.pc (seenPoint s1 c0) = (s2, .ok bytes) →
          decode bytes = .ok (i, n) →
          (let c : Issue := { c0 with word := BitVec.ofNat 32 (bytesToNat bytes), len := bytes.length }
           step s = exec i { s2 with cur := some c }))) ∧
     (∀ e tr more, g.runAhead = none → next = some e → g.ladle = tr :: more →
       ∃ t w, step s = .next t ∧ (groupOf t g.kc g.core g.idx).ladle = more ∧
         TrapTaken { s with agenda := rest } t ⟨m, e.pc, e.prio, e.mask, 0, 4, false⟩ { tr with pc := e.pc, prio := e.prio, word := w }) ∧
     (∀ e, next = some e → g.ladle = [] → g.crit.isSome = true → inCrit g.crit = false →
       step s = exec (.lockHolderLimit m) { s with agenda := rest }))) ∧
  (∀ s rest k, s.agenda = .issue (.spine k.id) :: rest → KcHere s k → spineReady { s with agenda := rest } k = true →
    k.spine.crit.isSome = true → inCrit k.spine.crit = false → step s = exec (.lockHolderLimit (.spine k.id)) { s with agenda := rest }) ∧
  (∀ s rest k, s.agenda = .issue (.spine k.id) :: rest → KcHere s k → spineReady { s with agenda := rest } k = true → k.spine.crit = none →
    (let m : Member := .spine k.id
     let c0 : Issue := ⟨m, k.spine.pc, 0, 1, 0, 4, k.spine.wait.isSome⟩
     let fetch := fetchBytes { s with agenda := rest } (ctxOf s (memberAsid s m)) (memberDie s m) k.spine.pc k.spine.seenFrom
     (∀ s2 bytes, fetch = (s2, .ok bytes) →
       (let c : Issue := { c0 with word := BitVec.ofNat 32 (bytesToNat bytes), len := bytes.length }
        (∀ i n, decode bytes = .ok (i, n) → step s = exec i { s2 with cur := some c }) ∧
        (∀ r, decode bytes = .error r → step s = .next (trapAll s2 c 0x01)))) ∧
     (∀ s2 x w, fetch = (s2, .error (x, w)) →
       step s = .next (takeTrap s2 { c0 with word := w, counted := true } {
         cause := x.cause, code := BitVec.ofNat 8 x.code, lanes := 1, addr := x.addr
         pages := if x.cause = 0x04 then [pageOf x] else [] })))) ∧
  (∀ s c g, s.cur = some c → c.who = .group g.kc g.core g.idx → GroupHere s g → g.runAhead = none → poisonedIssue s c ≠ [] →
    (let poison := Host.Outcome.next (takeTrap s c { cause := 0x0F, lanes := maskOf (poisonedIssue s c) })
     let illegal := Host.Outcome.next (trapAll s c 0x01)
     (∀ o, exec (.fenceCluster o) s = poison ∧ exec (.fenceDevice o) s = poison ∧ exec (.fenceCore o) s = poison) ∧
     (∀ o : OpsLdo, o.size.toNat ≤ 4 →
       (accessOk g o.size.toNat o.d o.a → exec (.ldAcq o) s = poison ∧ exec (.stRel o) s = poison) ∧
       (¬accessOk g o.size.toNat o.d o.a → exec (.ldAcq o) s = illegal ∧ exec (.stRel o) s = illegal)))) ∧
  (∀ s c g l, s.cur = some c → c.who = .group g.kc g.core g.idx → GroupHere s g → (l ∈ poisonedIssue s c ↔
    l ∈ lanesOf g.width (issueMask g c) ∧ (frontierMark l ∈ g.poison ∨
      (c.len = 4 ∧ c.word.extractLsb' 6 3 ≠ 0 ∧ pMark l (c.word.extractLsb' 6 3).toNat ∈ g.poison)))) ∧
  (∀ s c d (pc : VAddr) seen s1 s2 pa cls lo, resolve s c { x := true } true pc.toNat 2 = (s1, .ok [⟨.mem pa cls, 0, 2, pc.toNat⟩]) →
    offline s1 d pa (!cached s1 pa cls) = false → memPoisoned s1 pa 2 = false → lo = [memByte s1 pa, memByte s1 (pa + 1)] →
    (∀ x ∈ s1.oldText, x.1 = pa → x.2.2 < seen) →
    ((memByte s1 pa).getLsbD 0 = false → fetchBytes s c d pc seen = (s1, .ok lo)) ∧
    (∀ pa' cls', (memByte s1 pa).getLsbD 0 = true →
      resolve s1 c { x := true } true (pc.toNat + 2) 2 = (s2, .ok [⟨.mem pa' cls', 0, 2, pc.toNat + 2⟩]) →
      offline s2 d pa' (!cached s2 pa' cls') = false → memPoisoned s2 pa' 2 = false → (∀ x ∈ s2.oldText, x.1 = pa' → x.2.2 < seen) →
      fetchBytes s c d pc seen = (s2, .ok (lo ++ [memByte s2 pa', memByte s2 (pa' + 1)])))) ∧
  (∀ s pa seen, fetchedHalf s pa seen = [memByte s pa, memByte s (pa + 1)] ∨
    ∃ x ∈ s.oldText, x.1 = pa ∧ seen ≤ x.2.2 ∧ fetchedHalf s pa seen = x.2.1) ∧
  (∀ s i rest, s.agenda = .event i :: rest → step s = exec i { s with agenda := rest }) ∧
  (∀ s i, s.agenda = [] → chooseTodo s = some (.event i) → step s = exec i { s with fresh := s.fresh + 1 })

/-- The state after reset: TERR and the quotas as R384 and R393 give them; that dies are RESETTING in bypass is the model's
reading of R413 (log entry 77), and the other values are the model's choice (log entries 1 and 2). The invariant holds there. -/
def Obligations.ResetState : Prop :=
  let s := State.reset
  s.kcs = [] ∧ s.groups = [] ∧ s.ctxs = [] ∧ s.grids = [] ∧ s.requests = [] ∧ (∀ a, memByte s a = 0) ∧ (∀ f, frameEntry s f = FrameEntry.zero) ∧
    (∀ d, (dieOf s d).st = .resetting ∧ (dieOf s d).bypass = true ∧ (dieOf s d).terr = 0xFFFFFFFF ∧ (dieOf s d).energy = 0 ∧
      (dieOf s d).corrected = 0 ∧ (dieOf s d).uncorrected = 0) ∧
    (∀ f, funcOf s f = Func.init) ∧ s.host.pmode = 0 ∧ (∀ q, (queueOf s q).en = false) ∧ (∀ i, (circuitAt s i).st = 0) ∧
    (∀ i, (amGet Export.zero s.host.exports i).v = false) ∧ (∀ i, (amGet Window.zero s.host.windows i).v = false) ∧ State.Inv s

/-- Every step keeps the invariant: memory stays canonical, and the dies four. -/
def Obligations.InvariantKeptByEveryStep : Prop :=
  ∀ s t, State.Inv s → step s = .next t → State.Inv t

/-- Decoding what the encoder gives for a well-formed instruction with a word gives it back, whatever follows it in memory. -/
def Obligations.DecodeEncodeAgree : Prop :=
  ∀ i bytes rest, i.wellFormed = true → encodeBytes i = some bytes → decode (bytes ++ rest) = .ok (i, bytes.length)
end

