-- ==== Sys2Proof/Laws/Map.lean ====
section
/-! SUPPORT. The laws of sparse storage: read after write, and that every operation keeps the canonical form. -/

namespace Sys2Proof.Machine

variable {α : Type}

theorem amGet_amDrop (d : α) (m : AMap α) (n j : Nat) :
    amGet d (amDrop m n) j = if j = n then d else amGet d m j := by
  induction m with
  | nil => simp [amGet, amDrop]
  | cons e rest ih =>
    obtain ⟨k, v⟩ := e
    by_cases h : n = k
    · subst h
      simp only [amDrop, if_true, ih, amGet]
      split <;> simp_all
    · simp only [amDrop, if_neg h, amGet, ih]
      split <;> split <;> simp_all

variable [DecidableEq α]

/-- Read after write, at the same key or another. -/
theorem amGet_amSet (d : α) (m : AMap α) (n : Nat) (x : α) (j : Nat) :
    amGet d (amSet d m n x) j = if j = n then x else amGet d m j := by
  induction m with
  | nil =>
    simp only [amSet]
    split <;> split <;> simp_all [amGet]
  | cons e rest ih =>
    obtain ⟨k, v⟩ := e
    simp only [amSet]
    split
    · next hlt =>
      split
      · next hx =>
        simp only [amGet, amGet_amDrop, hx]
        by_cases hj : j = k
        · have hne : ¬ j = n := by omega
          simp [hj, show ¬ k = n by omega]
        · simp [hj]
      · simp only [amGet, amGet_amDrop]
        by_cases hj : j = n <;> simp [hj]
    · split
      · next hk =>
        subst hk
        rw [ih]
        by_cases hj : j = n <;> simp [hj, amGet]
      · next hk =>
        simp only [amGet, ih]
        by_cases hj : j = k
        · simp [hj, show ¬ k = n by omega]
        · simp [hj]

@[simp] theorem amGet_amSet_same (d : α) (m : AMap α) (n : Nat) (x : α) : amGet d (amSet d m n x) n = x := by
  simp [amGet_amSet]

theorem amGet_amSet_other (d : α) (m : AMap α) (n : Nat) (x : α) {j : Nat} (h : j ≠ n) :
    amGet d (amSet d m n x) j = amGet d m j := by simp [amGet_amSet, h]

theorem amGet_amModify (d : α) (m : AMap α) (n : Nat) (f : α → α) (j : Nat) :
    amGet d (amModify d m n f) j = if j = n then f (amGet d m n) else amGet d m j := amGet_amSet d m n _ j

omit [DecidableEq α] in
theorem amGet_amKeep (d : α) (p : Nat → Bool) (m : AMap α) (j : Nat) :
    amGet d (amKeep p m) j = if p j then amGet d m j else d := by
  induction m with
  | nil => simp [amKeep, amGet]
  | cons e rest ih =>
    obtain ⟨k, v⟩ := e
    simp only [amKeep] at ih ⊢
    by_cases hp : p k
    · simp only [List.filter_cons, hp, if_true, amGet, ih]
      by_cases hj : j = k <;> simp [hj, hp]
    · by_cases hj : j = k <;> simp_all [amGet]

/-! ### The canonical form -/

omit [DecidableEq α] in
theorem amAbove_mono {b b' : Nat} (h : b' ≤ b) {m : AMap α} : amAbove b m = true → amAbove b' m = true := by
  cases m with
  | nil => simp [amAbove]
  | cons e rest =>
    simp only [amAbove, Bool.and_eq_true, decide_eq_true_eq]
    rintro ⟨h1, h2⟩
    exact ⟨by omega, h2⟩

omit [DecidableEq α] in
theorem amAbove_drop {b n : Nat} {m : AMap α} (h : amAbove b m = true) : amAbove b (amDrop m n) = true := by
  induction m generalizing b with
  | nil => simp [amDrop, amAbove]
  | cons e rest ih =>
    obtain ⟨k, v⟩ := e
    simp only [amAbove, Bool.and_eq_true, decide_eq_true_eq] at h
    simp only [amDrop]
    split
    · exact ih (amAbove_mono (Nat.le_of_lt h.1) h.2)
    · simp only [amAbove, Bool.and_eq_true, decide_eq_true_eq]
      exact ⟨h.1, ih h.2⟩

theorem amAbove_set {d : α} {b n : Nat} {m : AMap α} {x : α} (h : amAbove b m = true) (hn : b < n) :
    amAbove b (amSet d m n x) = true := by
  induction m generalizing b with
  | nil => simp only [amSet]; split <;> simp [amAbove, hn]
  | cons e rest ih =>
    obtain ⟨k, v⟩ := e
    simp only [amAbove, Bool.and_eq_true, decide_eq_true_eq] at h
    simp only [amSet]
    split
    · next hk =>
      split
      · simp only [amAbove, Bool.and_eq_true, decide_eq_true_eq]; exact ⟨h.1, amAbove_drop h.2⟩
      · simp only [amAbove, Bool.and_eq_true, decide_eq_true_eq]; exact ⟨hn, hk, amAbove_drop h.2⟩
    · split
      · exact ih (amAbove_mono (Nat.le_of_lt h.1) h.2) hn
      · simp only [amAbove, Bool.and_eq_true, decide_eq_true_eq]; exact ⟨h.1, ih h.2 (by omega)⟩

/-- The canonical form as its two parts. -/
theorem amWf_iff {d : α} {m : AMap α} :
    amWf d m = true ↔ (m = [] ∨ ∃ e rest, m = e :: rest ∧ amAbove e.1 rest = true) ∧ ∀ e ∈ m, e.2 ≠ d := by
  cases m with
  | nil => simp [amWf]
  | cons e rest => simp [amWf]

omit [DecidableEq α] in
theorem amDrop_sub {m : AMap α} {n : Nat} {e : Nat × α} (h : e ∈ amDrop m n) : e ∈ m := by
  induction m with
  | nil => simp [amDrop] at h
  | cons x rest ih =>
    obtain ⟨k, v⟩ := x
    simp only [amDrop] at h
    split at h
    · exact List.mem_cons_of_mem _ (ih h)
    · simp only [List.mem_cons] at h ⊢
      exact h.imp id ih

theorem amSet_mem {d : α} {m : AMap α} {n : Nat} {x : α} {e : Nat × α} (h : e ∈ amSet d m n x) :
    e ∈ m ∨ (e = (n, x) ∧ x ≠ d) := by
  induction m with
  | nil =>
    simp only [amSet] at h
    split at h <;> simp_all
  | cons y rest ih =>
    obtain ⟨k, v⟩ := y
    simp only [amSet] at h
    split at h
    · split at h
      · simp only [List.mem_cons] at h ⊢
        exact .inl (h.imp id amDrop_sub)
      · simp only [List.mem_cons] at h ⊢
        rcases h with h | h | h
        · exact .inr ⟨h, by assumption⟩
        · exact .inl (.inl h)
        · exact .inl (.inr (amDrop_sub h))
    · split at h
      · exact (ih h).imp (List.mem_cons_of_mem _) id
      · simp only [List.mem_cons] at h ⊢
        rcases h with h | h
        · exact .inl (.inl h)
        · exact (ih h).imp .inr id

/-- Writing a key keeps the canonical form. -/
theorem amWf_set {d : α} {m : AMap α} (n : Nat) (x : α) (h : amWf d m = true) : amWf d (amSet d m n x) = true := by
  rw [amWf_iff] at h ⊢
  refine ⟨?_, fun e he => (amSet_mem he).elim (h.2 e) (fun q => q.1 ▸ q.2)⟩
  have key : ∀ m' : AMap α, (m' = [] ∨ ∃ e rest, m' = e :: rest ∧ amAbove e.1 rest = true) ↔
      ∀ (_ : m' ≠ []), ∃ e rest, m' = e :: rest ∧ amAbove e.1 rest = true := by
    intro m'; cases m' <;> simp
  obtain ⟨hs, -⟩ := h
  clear key
  induction m with
  | nil => simp only [amSet]; split <;> simp [amAbove]
  | cons e rest ih =>
    obtain ⟨k, v⟩ := e
    have hr : amAbove k rest = true := by simpa using hs
    simp only [amSet]
    split
    · next hk =>
      split
      · exact .inr ⟨_, _, rfl, amAbove_drop hr⟩
      · refine .inr ⟨_, _, rfl, ?_⟩
        simp only [amAbove, Bool.and_eq_true, decide_eq_true_eq]
        exact ⟨hk, amAbove_drop hr⟩
    · split
      · next hk =>
        apply ih
        cases rest with
        | nil => exact .inl rfl
        | cons e' r' =>
          simp only [amAbove, Bool.and_eq_true, decide_eq_true_eq] at hr
          exact .inr ⟨e', r', rfl, hr.2⟩
      · next h1 h2 => exact .inr ⟨_, _, rfl, amAbove_set hr (by omega)⟩

theorem amWf_modify {d : α} {m : AMap α} (n : Nat) (f : α → α) (h : amWf d m = true) : amWf d (amModify d m n f) = true :=
  amWf_set n _ h

theorem amWf_setAll {d : α} {m : AMap α} (es : List (Nat × α)) (h : amWf d m = true) : amWf d (amSetAll d m es) = true := by
  induction es generalizing m with
  | nil => exact h
  | cons e rest ih => exact ih (amWf_set e.1 e.2 h)

omit [DecidableEq α] in
theorem amAbove_filter {b : Nat} {m : AMap α} (p : Nat × α → Bool) (h : amAbove b m = true) : amAbove b (m.filter p) = true := by
  induction m generalizing b with
  | nil => rfl
  | cons e rest ih =>
    simp only [amAbove, Bool.and_eq_true, decide_eq_true_eq] at h
    by_cases hp : p e
    · simp only [List.filter_cons, hp, if_true, amAbove, Bool.and_eq_true, decide_eq_true_eq]
      exact ⟨h.1, ih h.2⟩
    · simp only [List.filter_cons, hp]
      exact ih (amAbove_mono (Nat.le_of_lt h.1) h.2)

/-- Keeping the entries that satisfy a condition keeps the canonical form. -/
theorem amWf_filter {d : α} {m : AMap α} (p : Nat × α → Bool) (h : amWf d m = true) : amWf d (m.filter p) = true := by
  rw [amWf_iff] at h ⊢
  refine ⟨?_, fun e he => h.2 e (List.mem_of_mem_filter he)⟩
  obtain ⟨hs, -⟩ := h
  induction m with
  | nil => exact .inl rfl
  | cons e rest ih =>
    have hr : amAbove e.1 rest = true := by simpa using hs
    by_cases hp : p e
    · simp only [List.filter_cons, hp, if_true]
      exact .inr ⟨_, _, rfl, amAbove_filter p hr⟩
    · simp only [List.filter_cons, hp]
      apply ih
      cases rest with
      | nil => exact .inl rfl
      | cons e' r' =>
        simp only [amAbove, Bool.and_eq_true, decide_eq_true_eq] at hr
        exact .inr ⟨e', r', rfl, hr.2⟩

theorem amWf_keep {d : α} {m : AMap α} (p : Nat → Bool) (h : amWf d m = true) : amWf d (amKeep p m) = true :=
  amWf_filter _ h

/-! ### Byte maps -/

theorem amWf_putBytes {m : AMap Byte} (a : Nat) (bs : List Byte) (h : amWf 0 m = true) : amWf 0 (putBytes m a bs) = true := by
  induction bs generalizing m a with
  | nil => exact h
  | cons b rest ih => exact ih _ (amWf_set a b h)

theorem amWf_putNat {m : AMap Byte} (a n v : Nat) (h : amWf 0 m = true) : amWf 0 (putNat m a n v) = true :=
  amWf_putBytes a _ h

/-- A byte after a write of bytes at base: the byte written there, else what was there. -/
theorem amGet_putBytes (m : AMap Byte) (a : Nat) (bs : List Byte) (j : Nat) :
    amGet 0 (putBytes m a bs) j = if a ≤ j ∧ j < a + bs.length then bs.getD (j - a) 0 else amGet 0 m j := by
  induction bs generalizing m a with
  | nil => simp [putBytes, show ¬ (a ≤ j ∧ j < a) by omega]
  | cons b rest ih =>
    rw [putBytes, ih, amGet_amSet]
    by_cases h1 : a + 1 ≤ j ∧ j < a + 1 + rest.length
    · rw [if_pos h1, if_pos (by simp only [List.length_cons]; omega), show j - a = (j - (a + 1)) + 1 by omega]
      simp
    · rw [if_neg h1]
      by_cases h2 : j = a
      · subst h2; simp
      · rw [if_neg h2, if_neg (by simp only [List.length_cons]; omega)]

theorem amGet_putBytes_outside (m : AMap Byte) (a : Nat) (bs : List Byte) {j : Nat} (h : j < a ∨ a + bs.length ≤ j) :
    amGet 0 (putBytes m a bs) j = amGet 0 m j := by
  rw [amGet_putBytes, if_neg (by omega)]

end Sys2Proof.Machine
end

