-- ==== Sys2Proof/Laws/State.lean ====
section
/-! SUPPORT. What each update of the state leaves alone, field by field, and what the updated field becomes. -/

namespace Sys2Proof.Machine

variable (s : State)

/-! ### updKc -/

@[simp] theorem updKc_teams (id : Nat) (f : Kc → Kc) : (updKc s id f).teams = s.teams := rfl
@[simp] theorem updKc_groups (id : Nat) (f : Kc → Kc) : (updKc s id f).groups = s.groups := rfl
@[simp] theorem updKc_transfers (id : Nat) (f : Kc → Kc) : (updKc s id f).transfers = s.transfers := rfl
@[simp] theorem updKc_watches (id : Nat) (f : Kc → Kc) : (updKc s id f).watches = s.watches := rfl
@[simp] theorem updKc_deques (id : Nat) (f : Kc → Kc) : (updKc s id f).deques = s.deques := rfl
@[simp] theorem updKc_ctxs (id : Nat) (f : Kc → Kc) : (updKc s id f).ctxs = s.ctxs := rfl
@[simp] theorem updKc_grids (id : Nat) (f : Kc → Kc) : (updKc s id f).grids = s.grids := rfl
@[simp] theorem updKc_frames (id : Nat) (f : Kc → Kc) : (updKc s id f).frames = s.frames := rfl
@[simp] theorem updKc_written (id : Nat) (f : Kc → Kc) : (updKc s id f).written = s.written := rfl
@[simp] theorem updKc_mem (id : Nat) (f : Kc → Kc) : (updKc s id f).mem = s.mem := rfl
@[simp] theorem updKc_memPoison (id : Nat) (f : Kc → Kc) : (updKc s id f).memPoison = s.memPoison := rfl
@[simp] theorem updKc_frameTab (id : Nat) (f : Kc → Kc) : (updKc s id f).frameTab = s.frameTab := rfl
@[simp] theorem updKc_resvs (id : Nat) (f : Kc → Kc) : (updKc s id f).resvs = s.resvs := rfl
@[simp] theorem updKc_replicas (id : Nat) (f : Kc → Kc) : (updKc s id f).replicas = s.replicas := rfl
@[simp] theorem updKc_tlb (id : Nat) (f : Kc → Kc) : (updKc s id f).tlb = s.tlb := rfl
@[simp] theorem updKc_blockMarks (id : Nat) (f : Kc → Kc) : (updKc s id f).blockMarks = s.blockMarks := rfl
@[simp] theorem updKc_oldText (id : Nat) (f : Kc → Kc) : (updKc s id f).oldText = s.oldText := rfl
@[simp] theorem updKc_requests (id : Nat) (f : Kc → Kc) : (updKc s id f).requests = s.requests := rfl
@[simp] theorem updKc_tund (id : Nat) (f : Kc → Kc) : (updKc s id f).tund = s.tund := rfl
@[simp] theorem updKc_dies (id : Nat) (f : Kc → Kc) : (updKc s id f).dies = s.dies := rfl
@[simp] theorem updKc_host (id : Nat) (f : Kc → Kc) : (updKc s id f).host = s.host := rfl
@[simp] theorem updKc_fab (id : Nat) (f : Kc → Kc) : (updKc s id f).fab = s.fab := rfl
@[simp] theorem updKc_nextId (id : Nat) (f : Kc → Kc) : (updKc s id f).nextId = s.nextId := rfl
@[simp] theorem updKc_agenda (id : Nat) (f : Kc → Kc) : (updKc s id f).agenda = s.agenda := rfl
@[simp] theorem updKc_cur (id : Nat) (f : Kc → Kc) : (updKc s id f).cur = s.cur := rfl
@[simp] theorem updKc_fresh (id : Nat) (f : Kc → Kc) : (updKc s id f).fresh = s.fresh := rfl
@[simp] theorem updKc_out (id : Nat) (f : Kc → Kc) : (updKc s id f).out = s.out := rfl

/-! ### updSpine -/

@[simp] theorem updSpine_teams (id : Nat) (f : Spine → Spine) : (updSpine s id f).teams = s.teams := rfl
@[simp] theorem updSpine_groups (id : Nat) (f : Spine → Spine) : (updSpine s id f).groups = s.groups := rfl
@[simp] theorem updSpine_transfers (id : Nat) (f : Spine → Spine) : (updSpine s id f).transfers = s.transfers := rfl
@[simp] theorem updSpine_watches (id : Nat) (f : Spine → Spine) : (updSpine s id f).watches = s.watches := rfl
@[simp] theorem updSpine_deques (id : Nat) (f : Spine → Spine) : (updSpine s id f).deques = s.deques := rfl
@[simp] theorem updSpine_ctxs (id : Nat) (f : Spine → Spine) : (updSpine s id f).ctxs = s.ctxs := rfl
@[simp] theorem updSpine_grids (id : Nat) (f : Spine → Spine) : (updSpine s id f).grids = s.grids := rfl
@[simp] theorem updSpine_frames (id : Nat) (f : Spine → Spine) : (updSpine s id f).frames = s.frames := rfl
@[simp] theorem updSpine_written (id : Nat) (f : Spine → Spine) : (updSpine s id f).written = s.written := rfl
@[simp] theorem updSpine_mem (id : Nat) (f : Spine → Spine) : (updSpine s id f).mem = s.mem := rfl
@[simp] theorem updSpine_memPoison (id : Nat) (f : Spine → Spine) : (updSpine s id f).memPoison = s.memPoison := rfl
@[simp] theorem updSpine_frameTab (id : Nat) (f : Spine → Spine) : (updSpine s id f).frameTab = s.frameTab := rfl
@[simp] theorem updSpine_resvs (id : Nat) (f : Spine → Spine) : (updSpine s id f).resvs = s.resvs := rfl
@[simp] theorem updSpine_replicas (id : Nat) (f : Spine → Spine) : (updSpine s id f).replicas = s.replicas := rfl
@[simp] theorem updSpine_tlb (id : Nat) (f : Spine → Spine) : (updSpine s id f).tlb = s.tlb := rfl
@[simp] theorem updSpine_blockMarks (id : Nat) (f : Spine → Spine) : (updSpine s id f).blockMarks = s.blockMarks := rfl
@[simp] theorem updSpine_oldText (id : Nat) (f : Spine → Spine) : (updSpine s id f).oldText = s.oldText := rfl
@[simp] theorem updSpine_requests (id : Nat) (f : Spine → Spine) : (updSpine s id f).requests = s.requests := rfl
@[simp] theorem updSpine_tund (id : Nat) (f : Spine → Spine) : (updSpine s id f).tund = s.tund := rfl
@[simp] theorem updSpine_dies (id : Nat) (f : Spine → Spine) : (updSpine s id f).dies = s.dies := rfl
@[simp] theorem updSpine_host (id : Nat) (f : Spine → Spine) : (updSpine s id f).host = s.host := rfl
@[simp] theorem updSpine_fab (id : Nat) (f : Spine → Spine) : (updSpine s id f).fab = s.fab := rfl
@[simp] theorem updSpine_nextId (id : Nat) (f : Spine → Spine) : (updSpine s id f).nextId = s.nextId := rfl
@[simp] theorem updSpine_agenda (id : Nat) (f : Spine → Spine) : (updSpine s id f).agenda = s.agenda := rfl
@[simp] theorem updSpine_cur (id : Nat) (f : Spine → Spine) : (updSpine s id f).cur = s.cur := rfl
@[simp] theorem updSpine_fresh (id : Nat) (f : Spine → Spine) : (updSpine s id f).fresh = s.fresh := rfl
@[simp] theorem updSpine_out (id : Nat) (f : Spine → Spine) : (updSpine s id f).out = s.out := rfl

/-! ### updGroup -/

@[simp] theorem updGroup_kcs (kc core idx : Nat) (f : Group → Group) : (updGroup s kc core idx f).kcs = s.kcs := rfl
@[simp] theorem updGroup_teams (kc core idx : Nat) (f : Group → Group) : (updGroup s kc core idx f).teams = s.teams := rfl
@[simp] theorem updGroup_transfers (kc core idx : Nat) (f : Group → Group) : (updGroup s kc core idx f).transfers = s.transfers := rfl
@[simp] theorem updGroup_watches (kc core idx : Nat) (f : Group → Group) : (updGroup s kc core idx f).watches = s.watches := rfl
@[simp] theorem updGroup_deques (kc core idx : Nat) (f : Group → Group) : (updGroup s kc core idx f).deques = s.deques := rfl
@[simp] theorem updGroup_ctxs (kc core idx : Nat) (f : Group → Group) : (updGroup s kc core idx f).ctxs = s.ctxs := rfl
@[simp] theorem updGroup_grids (kc core idx : Nat) (f : Group → Group) : (updGroup s kc core idx f).grids = s.grids := rfl
@[simp] theorem updGroup_frames (kc core idx : Nat) (f : Group → Group) : (updGroup s kc core idx f).frames = s.frames := rfl
@[simp] theorem updGroup_written (kc core idx : Nat) (f : Group → Group) : (updGroup s kc core idx f).written = s.written := rfl
@[simp] theorem updGroup_mem (kc core idx : Nat) (f : Group → Group) : (updGroup s kc core idx f).mem = s.mem := rfl
@[simp] theorem updGroup_memPoison (kc core idx : Nat) (f : Group → Group) : (updGroup s kc core idx f).memPoison = s.memPoison := rfl
@[simp] theorem updGroup_frameTab (kc core idx : Nat) (f : Group → Group) : (updGroup s kc core idx f).frameTab = s.frameTab := rfl
@[simp] theorem updGroup_resvs (kc core idx : Nat) (f : Group → Group) : (updGroup s kc core idx f).resvs = s.resvs := rfl
@[simp] theorem updGroup_replicas (kc core idx : Nat) (f : Group → Group) : (updGroup s kc core idx f).replicas = s.replicas := rfl
@[simp] theorem updGroup_tlb (kc core idx : Nat) (f : Group → Group) : (updGroup s kc core idx f).tlb = s.tlb := rfl
@[simp] theorem updGroup_blockMarks (kc core idx : Nat) (f : Group → Group) : (updGroup s kc core idx f).blockMarks = s.blockMarks := rfl
@[simp] theorem updGroup_oldText (kc core idx : Nat) (f : Group → Group) : (updGroup s kc core idx f).oldText = s.oldText := rfl
@[simp] theorem updGroup_requests (kc core idx : Nat) (f : Group → Group) : (updGroup s kc core idx f).requests = s.requests := rfl
@[simp] theorem updGroup_tund (kc core idx : Nat) (f : Group → Group) : (updGroup s kc core idx f).tund = s.tund := rfl
@[simp] theorem updGroup_dies (kc core idx : Nat) (f : Group → Group) : (updGroup s kc core idx f).dies = s.dies := rfl
@[simp] theorem updGroup_host (kc core idx : Nat) (f : Group → Group) : (updGroup s kc core idx f).host = s.host := rfl
@[simp] theorem updGroup_fab (kc core idx : Nat) (f : Group → Group) : (updGroup s kc core idx f).fab = s.fab := rfl
@[simp] theorem updGroup_nextId (kc core idx : Nat) (f : Group → Group) : (updGroup s kc core idx f).nextId = s.nextId := rfl
@[simp] theorem updGroup_agenda (kc core idx : Nat) (f : Group → Group) : (updGroup s kc core idx f).agenda = s.agenda := rfl
@[simp] theorem updGroup_cur (kc core idx : Nat) (f : Group → Group) : (updGroup s kc core idx f).cur = s.cur := rfl
@[simp] theorem updGroup_fresh (kc core idx : Nat) (f : Group → Group) : (updGroup s kc core idx f).fresh = s.fresh := rfl
@[simp] theorem updGroup_out (kc core idx : Nat) (f : Group → Group) : (updGroup s kc core idx f).out = s.out := rfl

/-! ### updTeam -/

@[simp] theorem updTeam_kcs (kc core : Nat) (f : Team → Team) : (updTeam s kc core f).kcs = s.kcs := rfl
@[simp] theorem updTeam_groups (kc core : Nat) (f : Team → Team) : (updTeam s kc core f).groups = s.groups := rfl
@[simp] theorem updTeam_transfers (kc core : Nat) (f : Team → Team) : (updTeam s kc core f).transfers = s.transfers := rfl
@[simp] theorem updTeam_watches (kc core : Nat) (f : Team → Team) : (updTeam s kc core f).watches = s.watches := rfl
@[simp] theorem updTeam_deques (kc core : Nat) (f : Team → Team) : (updTeam s kc core f).deques = s.deques := rfl
@[simp] theorem updTeam_ctxs (kc core : Nat) (f : Team → Team) : (updTeam s kc core f).ctxs = s.ctxs := rfl
@[simp] theorem updTeam_grids (kc core : Nat) (f : Team → Team) : (updTeam s kc core f).grids = s.grids := rfl
@[simp] theorem updTeam_frames (kc core : Nat) (f : Team → Team) : (updTeam s kc core f).frames = s.frames := rfl
@[simp] theorem updTeam_written (kc core : Nat) (f : Team → Team) : (updTeam s kc core f).written = s.written := rfl
@[simp] theorem updTeam_mem (kc core : Nat) (f : Team → Team) : (updTeam s kc core f).mem = s.mem := rfl
@[simp] theorem updTeam_memPoison (kc core : Nat) (f : Team → Team) : (updTeam s kc core f).memPoison = s.memPoison := rfl
@[simp] theorem updTeam_frameTab (kc core : Nat) (f : Team → Team) : (updTeam s kc core f).frameTab = s.frameTab := rfl
@[simp] theorem updTeam_resvs (kc core : Nat) (f : Team → Team) : (updTeam s kc core f).resvs = s.resvs := rfl
@[simp] theorem updTeam_replicas (kc core : Nat) (f : Team → Team) : (updTeam s kc core f).replicas = s.replicas := rfl
@[simp] theorem updTeam_tlb (kc core : Nat) (f : Team → Team) : (updTeam s kc core f).tlb = s.tlb := rfl
@[simp] theorem updTeam_blockMarks (kc core : Nat) (f : Team → Team) : (updTeam s kc core f).blockMarks = s.blockMarks := rfl
@[simp] theorem updTeam_oldText (kc core : Nat) (f : Team → Team) : (updTeam s kc core f).oldText = s.oldText := rfl
@[simp] theorem updTeam_requests (kc core : Nat) (f : Team → Team) : (updTeam s kc core f).requests = s.requests := rfl
@[simp] theorem updTeam_tund (kc core : Nat) (f : Team → Team) : (updTeam s kc core f).tund = s.tund := rfl
@[simp] theorem updTeam_dies (kc core : Nat) (f : Team → Team) : (updTeam s kc core f).dies = s.dies := rfl
@[simp] theorem updTeam_host (kc core : Nat) (f : Team → Team) : (updTeam s kc core f).host = s.host := rfl
@[simp] theorem updTeam_fab (kc core : Nat) (f : Team → Team) : (updTeam s kc core f).fab = s.fab := rfl
@[simp] theorem updTeam_nextId (kc core : Nat) (f : Team → Team) : (updTeam s kc core f).nextId = s.nextId := rfl
@[simp] theorem updTeam_agenda (kc core : Nat) (f : Team → Team) : (updTeam s kc core f).agenda = s.agenda := rfl
@[simp] theorem updTeam_cur (kc core : Nat) (f : Team → Team) : (updTeam s kc core f).cur = s.cur := rfl
@[simp] theorem updTeam_fresh (kc core : Nat) (f : Team → Team) : (updTeam s kc core f).fresh = s.fresh := rfl
@[simp] theorem updTeam_out (kc core : Nat) (f : Team → Team) : (updTeam s kc core f).out = s.out := rfl

/-! ### updCtx -/

@[simp] theorem updCtx_kcs (a : Asid) (f : Ctx → Ctx) : (updCtx s a f).kcs = s.kcs := rfl
@[simp] theorem updCtx_teams (a : Asid) (f : Ctx → Ctx) : (updCtx s a f).teams = s.teams := rfl
@[simp] theorem updCtx_groups (a : Asid) (f : Ctx → Ctx) : (updCtx s a f).groups = s.groups := rfl
@[simp] theorem updCtx_transfers (a : Asid) (f : Ctx → Ctx) : (updCtx s a f).transfers = s.transfers := rfl
@[simp] theorem updCtx_watches (a : Asid) (f : Ctx → Ctx) : (updCtx s a f).watches = s.watches := rfl
@[simp] theorem updCtx_deques (a : Asid) (f : Ctx → Ctx) : (updCtx s a f).deques = s.deques := rfl
@[simp] theorem updCtx_grids (a : Asid) (f : Ctx → Ctx) : (updCtx s a f).grids = s.grids := rfl
@[simp] theorem updCtx_frames (a : Asid) (f : Ctx → Ctx) : (updCtx s a f).frames = s.frames := rfl
@[simp] theorem updCtx_written (a : Asid) (f : Ctx → Ctx) : (updCtx s a f).written = s.written := rfl
@[simp] theorem updCtx_mem (a : Asid) (f : Ctx → Ctx) : (updCtx s a f).mem = s.mem := rfl
@[simp] theorem updCtx_memPoison (a : Asid) (f : Ctx → Ctx) : (updCtx s a f).memPoison = s.memPoison := rfl
@[simp] theorem updCtx_frameTab (a : Asid) (f : Ctx → Ctx) : (updCtx s a f).frameTab = s.frameTab := rfl
@[simp] theorem updCtx_resvs (a : Asid) (f : Ctx → Ctx) : (updCtx s a f).resvs = s.resvs := rfl
@[simp] theorem updCtx_replicas (a : Asid) (f : Ctx → Ctx) : (updCtx s a f).replicas = s.replicas := rfl
@[simp] theorem updCtx_tlb (a : Asid) (f : Ctx → Ctx) : (updCtx s a f).tlb = s.tlb := rfl
@[simp] theorem updCtx_blockMarks (a : Asid) (f : Ctx → Ctx) : (updCtx s a f).blockMarks = s.blockMarks := rfl
@[simp] theorem updCtx_oldText (a : Asid) (f : Ctx → Ctx) : (updCtx s a f).oldText = s.oldText := rfl
@[simp] theorem updCtx_requests (a : Asid) (f : Ctx → Ctx) : (updCtx s a f).requests = s.requests := rfl
@[simp] theorem updCtx_tund (a : Asid) (f : Ctx → Ctx) : (updCtx s a f).tund = s.tund := rfl
@[simp] theorem updCtx_dies (a : Asid) (f : Ctx → Ctx) : (updCtx s a f).dies = s.dies := rfl
@[simp] theorem updCtx_host (a : Asid) (f : Ctx → Ctx) : (updCtx s a f).host = s.host := rfl
@[simp] theorem updCtx_fab (a : Asid) (f : Ctx → Ctx) : (updCtx s a f).fab = s.fab := rfl
@[simp] theorem updCtx_nextId (a : Asid) (f : Ctx → Ctx) : (updCtx s a f).nextId = s.nextId := rfl
@[simp] theorem updCtx_agenda (a : Asid) (f : Ctx → Ctx) : (updCtx s a f).agenda = s.agenda := rfl
@[simp] theorem updCtx_cur (a : Asid) (f : Ctx → Ctx) : (updCtx s a f).cur = s.cur := rfl
@[simp] theorem updCtx_fresh (a : Asid) (f : Ctx → Ctx) : (updCtx s a f).fresh = s.fresh := rfl
@[simp] theorem updCtx_out (a : Asid) (f : Ctx → Ctx) : (updCtx s a f).out = s.out := rfl

/-! ### updGrid -/

@[simp] theorem updGrid_kcs (g : Word) (f : Grid → Grid) : (updGrid s g f).kcs = s.kcs := rfl
@[simp] theorem updGrid_teams (g : Word) (f : Grid → Grid) : (updGrid s g f).teams = s.teams := rfl
@[simp] theorem updGrid_groups (g : Word) (f : Grid → Grid) : (updGrid s g f).groups = s.groups := rfl
@[simp] theorem updGrid_transfers (g : Word) (f : Grid → Grid) : (updGrid s g f).transfers = s.transfers := rfl
@[simp] theorem updGrid_watches (g : Word) (f : Grid → Grid) : (updGrid s g f).watches = s.watches := rfl
@[simp] theorem updGrid_deques (g : Word) (f : Grid → Grid) : (updGrid s g f).deques = s.deques := rfl
@[simp] theorem updGrid_ctxs (g : Word) (f : Grid → Grid) : (updGrid s g f).ctxs = s.ctxs := rfl
@[simp] theorem updGrid_frames (g : Word) (f : Grid → Grid) : (updGrid s g f).frames = s.frames := rfl
@[simp] theorem updGrid_written (g : Word) (f : Grid → Grid) : (updGrid s g f).written = s.written := rfl
@[simp] theorem updGrid_mem (g : Word) (f : Grid → Grid) : (updGrid s g f).mem = s.mem := rfl
@[simp] theorem updGrid_memPoison (g : Word) (f : Grid → Grid) : (updGrid s g f).memPoison = s.memPoison := rfl
@[simp] theorem updGrid_frameTab (g : Word) (f : Grid → Grid) : (updGrid s g f).frameTab = s.frameTab := rfl
@[simp] theorem updGrid_resvs (g : Word) (f : Grid → Grid) : (updGrid s g f).resvs = s.resvs := rfl
@[simp] theorem updGrid_replicas (g : Word) (f : Grid → Grid) : (updGrid s g f).replicas = s.replicas := rfl
@[simp] theorem updGrid_tlb (g : Word) (f : Grid → Grid) : (updGrid s g f).tlb = s.tlb := rfl
@[simp] theorem updGrid_blockMarks (g : Word) (f : Grid → Grid) : (updGrid s g f).blockMarks = s.blockMarks := rfl
@[simp] theorem updGrid_oldText (g : Word) (f : Grid → Grid) : (updGrid s g f).oldText = s.oldText := rfl
@[simp] theorem updGrid_requests (g : Word) (f : Grid → Grid) : (updGrid s g f).requests = s.requests := rfl
@[simp] theorem updGrid_tund (g : Word) (f : Grid → Grid) : (updGrid s g f).tund = s.tund := rfl
@[simp] theorem updGrid_dies (g : Word) (f : Grid → Grid) : (updGrid s g f).dies = s.dies := rfl
@[simp] theorem updGrid_host (g : Word) (f : Grid → Grid) : (updGrid s g f).host = s.host := rfl
@[simp] theorem updGrid_fab (g : Word) (f : Grid → Grid) : (updGrid s g f).fab = s.fab := rfl
@[simp] theorem updGrid_nextId (g : Word) (f : Grid → Grid) : (updGrid s g f).nextId = s.nextId := rfl
@[simp] theorem updGrid_agenda (g : Word) (f : Grid → Grid) : (updGrid s g f).agenda = s.agenda := rfl
@[simp] theorem updGrid_cur (g : Word) (f : Grid → Grid) : (updGrid s g f).cur = s.cur := rfl
@[simp] theorem updGrid_fresh (g : Word) (f : Grid → Grid) : (updGrid s g f).fresh = s.fresh := rfl
@[simp] theorem updGrid_out (g : Word) (f : Grid → Grid) : (updGrid s g f).out = s.out := rfl

/-! ### updDie -/

@[simp] theorem updDie_kcs (d : DieNo) (f : Die → Die) : (updDie s d f).kcs = s.kcs := rfl
@[simp] theorem updDie_teams (d : DieNo) (f : Die → Die) : (updDie s d f).teams = s.teams := rfl
@[simp] theorem updDie_groups (d : DieNo) (f : Die → Die) : (updDie s d f).groups = s.groups := rfl
@[simp] theorem updDie_transfers (d : DieNo) (f : Die → Die) : (updDie s d f).transfers = s.transfers := rfl
@[simp] theorem updDie_watches (d : DieNo) (f : Die → Die) : (updDie s d f).watches = s.watches := rfl
@[simp] theorem updDie_deques (d : DieNo) (f : Die → Die) : (updDie s d f).deques = s.deques := rfl
@[simp] theorem updDie_ctxs (d : DieNo) (f : Die → Die) : (updDie s d f).ctxs = s.ctxs := rfl
@[simp] theorem updDie_grids (d : DieNo) (f : Die → Die) : (updDie s d f).grids = s.grids := rfl
@[simp] theorem updDie_frames (d : DieNo) (f : Die → Die) : (updDie s d f).frames = s.frames := rfl
@[simp] theorem updDie_written (d : DieNo) (f : Die → Die) : (updDie s d f).written = s.written := rfl
@[simp] theorem updDie_mem (d : DieNo) (f : Die → Die) : (updDie s d f).mem = s.mem := rfl
@[simp] theorem updDie_memPoison (d : DieNo) (f : Die → Die) : (updDie s d f).memPoison = s.memPoison := rfl
@[simp] theorem updDie_frameTab (d : DieNo) (f : Die → Die) : (updDie s d f).frameTab = s.frameTab := rfl
@[simp] theorem updDie_resvs (d : DieNo) (f : Die → Die) : (updDie s d f).resvs = s.resvs := rfl
@[simp] theorem updDie_replicas (d : DieNo) (f : Die → Die) : (updDie s d f).replicas = s.replicas := rfl
@[simp] theorem updDie_tlb (d : DieNo) (f : Die → Die) : (updDie s d f).tlb = s.tlb := rfl
@[simp] theorem updDie_blockMarks (d : DieNo) (f : Die → Die) : (updDie s d f).blockMarks = s.blockMarks := rfl
@[simp] theorem updDie_oldText (d : DieNo) (f : Die → Die) : (updDie s d f).oldText = s.oldText := rfl
@[simp] theorem updDie_requests (d : DieNo) (f : Die → Die) : (updDie s d f).requests = s.requests := rfl
@[simp] theorem updDie_tund (d : DieNo) (f : Die → Die) : (updDie s d f).tund = s.tund := rfl
@[simp] theorem updDie_host (d : DieNo) (f : Die → Die) : (updDie s d f).host = s.host := rfl
@[simp] theorem updDie_fab (d : DieNo) (f : Die → Die) : (updDie s d f).fab = s.fab := rfl
@[simp] theorem updDie_nextId (d : DieNo) (f : Die → Die) : (updDie s d f).nextId = s.nextId := rfl
@[simp] theorem updDie_agenda (d : DieNo) (f : Die → Die) : (updDie s d f).agenda = s.agenda := rfl
@[simp] theorem updDie_cur (d : DieNo) (f : Die → Die) : (updDie s d f).cur = s.cur := rfl
@[simp] theorem updDie_fresh (d : DieNo) (f : Die → Die) : (updDie s d f).fresh = s.fresh := rfl
@[simp] theorem updDie_out (d : DieNo) (f : Die → Die) : (updDie s d f).out = s.out := rfl

/-! ### updFunc -/

@[simp] theorem updFunc_kcs (v : FuncNo) (f : Func → Func) : (updFunc s v f).kcs = s.kcs := rfl
@[simp] theorem updFunc_teams (v : FuncNo) (f : Func → Func) : (updFunc s v f).teams = s.teams := rfl
@[simp] theorem updFunc_groups (v : FuncNo) (f : Func → Func) : (updFunc s v f).groups = s.groups := rfl
@[simp] theorem updFunc_transfers (v : FuncNo) (f : Func → Func) : (updFunc s v f).transfers = s.transfers := rfl
@[simp] theorem updFunc_watches (v : FuncNo) (f : Func → Func) : (updFunc s v f).watches = s.watches := rfl
@[simp] theorem updFunc_deques (v : FuncNo) (f : Func → Func) : (updFunc s v f).deques = s.deques := rfl
@[simp] theorem updFunc_ctxs (v : FuncNo) (f : Func → Func) : (updFunc s v f).ctxs = s.ctxs := rfl
@[simp] theorem updFunc_grids (v : FuncNo) (f : Func → Func) : (updFunc s v f).grids = s.grids := rfl
@[simp] theorem updFunc_frames (v : FuncNo) (f : Func → Func) : (updFunc s v f).frames = s.frames := rfl
@[simp] theorem updFunc_written (v : FuncNo) (f : Func → Func) : (updFunc s v f).written = s.written := rfl
@[simp] theorem updFunc_mem (v : FuncNo) (f : Func → Func) : (updFunc s v f).mem = s.mem := rfl
@[simp] theorem updFunc_memPoison (v : FuncNo) (f : Func → Func) : (updFunc s v f).memPoison = s.memPoison := rfl
@[simp] theorem updFunc_frameTab (v : FuncNo) (f : Func → Func) : (updFunc s v f).frameTab = s.frameTab := rfl
@[simp] theorem updFunc_resvs (v : FuncNo) (f : Func → Func) : (updFunc s v f).resvs = s.resvs := rfl
@[simp] theorem updFunc_replicas (v : FuncNo) (f : Func → Func) : (updFunc s v f).replicas = s.replicas := rfl
@[simp] theorem updFunc_tlb (v : FuncNo) (f : Func → Func) : (updFunc s v f).tlb = s.tlb := rfl
@[simp] theorem updFunc_blockMarks (v : FuncNo) (f : Func → Func) : (updFunc s v f).blockMarks = s.blockMarks := rfl
@[simp] theorem updFunc_oldText (v : FuncNo) (f : Func → Func) : (updFunc s v f).oldText = s.oldText := rfl
@[simp] theorem updFunc_requests (v : FuncNo) (f : Func → Func) : (updFunc s v f).requests = s.requests := rfl
@[simp] theorem updFunc_tund (v : FuncNo) (f : Func → Func) : (updFunc s v f).tund = s.tund := rfl
@[simp] theorem updFunc_dies (v : FuncNo) (f : Func → Func) : (updFunc s v f).dies = s.dies := rfl
@[simp] theorem updFunc_fab (v : FuncNo) (f : Func → Func) : (updFunc s v f).fab = s.fab := rfl
@[simp] theorem updFunc_nextId (v : FuncNo) (f : Func → Func) : (updFunc s v f).nextId = s.nextId := rfl
@[simp] theorem updFunc_agenda (v : FuncNo) (f : Func → Func) : (updFunc s v f).agenda = s.agenda := rfl
@[simp] theorem updFunc_cur (v : FuncNo) (f : Func → Func) : (updFunc s v f).cur = s.cur := rfl
@[simp] theorem updFunc_fresh (v : FuncNo) (f : Func → Func) : (updFunc s v f).fresh = s.fresh := rfl
@[simp] theorem updFunc_out (v : FuncNo) (f : Func → Func) : (updFunc s v f).out = s.out := rfl

/-! ### setFrame -/

@[simp] theorem setFrame_kcs (n : Nat) (e : FrameEntry) : (setFrame s n e).kcs = s.kcs := rfl
@[simp] theorem setFrame_teams (n : Nat) (e : FrameEntry) : (setFrame s n e).teams = s.teams := rfl
@[simp] theorem setFrame_groups (n : Nat) (e : FrameEntry) : (setFrame s n e).groups = s.groups := rfl
@[simp] theorem setFrame_transfers (n : Nat) (e : FrameEntry) : (setFrame s n e).transfers = s.transfers := rfl
@[simp] theorem setFrame_watches (n : Nat) (e : FrameEntry) : (setFrame s n e).watches = s.watches := rfl
@[simp] theorem setFrame_deques (n : Nat) (e : FrameEntry) : (setFrame s n e).deques = s.deques := rfl
@[simp] theorem setFrame_ctxs (n : Nat) (e : FrameEntry) : (setFrame s n e).ctxs = s.ctxs := rfl
@[simp] theorem setFrame_grids (n : Nat) (e : FrameEntry) : (setFrame s n e).grids = s.grids := rfl
@[simp] theorem setFrame_frames (n : Nat) (e : FrameEntry) : (setFrame s n e).frames = s.frames := rfl
@[simp] theorem setFrame_written (n : Nat) (e : FrameEntry) : (setFrame s n e).written = s.written := rfl
@[simp] theorem setFrame_mem (n : Nat) (e : FrameEntry) : (setFrame s n e).mem = s.mem := rfl
@[simp] theorem setFrame_memPoison (n : Nat) (e : FrameEntry) : (setFrame s n e).memPoison = s.memPoison := rfl
@[simp] theorem setFrame_resvs (n : Nat) (e : FrameEntry) : (setFrame s n e).resvs = s.resvs := rfl
@[simp] theorem setFrame_replicas (n : Nat) (e : FrameEntry) : (setFrame s n e).replicas = s.replicas := rfl
@[simp] theorem setFrame_tlb (n : Nat) (e : FrameEntry) : (setFrame s n e).tlb = s.tlb := rfl
@[simp] theorem setFrame_blockMarks (n : Nat) (e : FrameEntry) : (setFrame s n e).blockMarks = s.blockMarks := rfl
@[simp] theorem setFrame_oldText (n : Nat) (e : FrameEntry) : (setFrame s n e).oldText = s.oldText := rfl
@[simp] theorem setFrame_requests (n : Nat) (e : FrameEntry) : (setFrame s n e).requests = s.requests := rfl
@[simp] theorem setFrame_tund (n : Nat) (e : FrameEntry) : (setFrame s n e).tund = s.tund := rfl
@[simp] theorem setFrame_dies (n : Nat) (e : FrameEntry) : (setFrame s n e).dies = s.dies := rfl
@[simp] theorem setFrame_host (n : Nat) (e : FrameEntry) : (setFrame s n e).host = s.host := rfl
@[simp] theorem setFrame_fab (n : Nat) (e : FrameEntry) : (setFrame s n e).fab = s.fab := rfl
@[simp] theorem setFrame_nextId (n : Nat) (e : FrameEntry) : (setFrame s n e).nextId = s.nextId := rfl
@[simp] theorem setFrame_agenda (n : Nat) (e : FrameEntry) : (setFrame s n e).agenda = s.agenda := rfl
@[simp] theorem setFrame_cur (n : Nat) (e : FrameEntry) : (setFrame s n e).cur = s.cur := rfl
@[simp] theorem setFrame_fresh (n : Nat) (e : FrameEntry) : (setFrame s n e).fresh = s.fresh := rfl
@[simp] theorem setFrame_out (n : Nat) (e : FrameEntry) : (setFrame s n e).out = s.out := rfl

/-! ### setSprue -/

@[simp] theorem setSprue_teams (kc i : Nat) (r : SprueReg) : (setSprue s kc i r).teams = s.teams := rfl
@[simp] theorem setSprue_groups (kc i : Nat) (r : SprueReg) : (setSprue s kc i r).groups = s.groups := rfl
@[simp] theorem setSprue_transfers (kc i : Nat) (r : SprueReg) : (setSprue s kc i r).transfers = s.transfers := rfl
@[simp] theorem setSprue_watches (kc i : Nat) (r : SprueReg) : (setSprue s kc i r).watches = s.watches := rfl
@[simp] theorem setSprue_deques (kc i : Nat) (r : SprueReg) : (setSprue s kc i r).deques = s.deques := rfl
@[simp] theorem setSprue_ctxs (kc i : Nat) (r : SprueReg) : (setSprue s kc i r).ctxs = s.ctxs := rfl
@[simp] theorem setSprue_grids (kc i : Nat) (r : SprueReg) : (setSprue s kc i r).grids = s.grids := rfl
@[simp] theorem setSprue_frames (kc i : Nat) (r : SprueReg) : (setSprue s kc i r).frames = s.frames := rfl
@[simp] theorem setSprue_written (kc i : Nat) (r : SprueReg) : (setSprue s kc i r).written = s.written := rfl
@[simp] theorem setSprue_mem (kc i : Nat) (r : SprueReg) : (setSprue s kc i r).mem = s.mem := rfl
@[simp] theorem setSprue_memPoison (kc i : Nat) (r : SprueReg) : (setSprue s kc i r).memPoison = s.memPoison := rfl
@[simp] theorem setSprue_frameTab (kc i : Nat) (r : SprueReg) : (setSprue s kc i r).frameTab = s.frameTab := rfl
@[simp] theorem setSprue_resvs (kc i : Nat) (r : SprueReg) : (setSprue s kc i r).resvs = s.resvs := rfl
@[simp] theorem setSprue_replicas (kc i : Nat) (r : SprueReg) : (setSprue s kc i r).replicas = s.replicas := rfl
@[simp] theorem setSprue_tlb (kc i : Nat) (r : SprueReg) : (setSprue s kc i r).tlb = s.tlb := rfl
@[simp] theorem setSprue_blockMarks (kc i : Nat) (r : SprueReg) : (setSprue s kc i r).blockMarks = s.blockMarks := rfl
@[simp] theorem setSprue_oldText (kc i : Nat) (r : SprueReg) : (setSprue s kc i r).oldText = s.oldText := rfl
@[simp] theorem setSprue_requests (kc i : Nat) (r : SprueReg) : (setSprue s kc i r).requests = s.requests := rfl
@[simp] theorem setSprue_tund (kc i : Nat) (r : SprueReg) : (setSprue s kc i r).tund = s.tund := rfl
@[simp] theorem setSprue_dies (kc i : Nat) (r : SprueReg) : (setSprue s kc i r).dies = s.dies := rfl
@[simp] theorem setSprue_host (kc i : Nat) (r : SprueReg) : (setSprue s kc i r).host = s.host := rfl
@[simp] theorem setSprue_fab (kc i : Nat) (r : SprueReg) : (setSprue s kc i r).fab = s.fab := rfl
@[simp] theorem setSprue_nextId (kc i : Nat) (r : SprueReg) : (setSprue s kc i r).nextId = s.nextId := rfl
@[simp] theorem setSprue_agenda (kc i : Nat) (r : SprueReg) : (setSprue s kc i r).agenda = s.agenda := rfl
@[simp] theorem setSprue_cur (kc i : Nat) (r : SprueReg) : (setSprue s kc i r).cur = s.cur := rfl
@[simp] theorem setSprue_fresh (kc i : Nat) (r : SprueReg) : (setSprue s kc i r).fresh = s.fresh := rfl
@[simp] theorem setSprue_out (kc i : Nat) (r : SprueReg) : (setSprue s kc i r).out = s.out := rfl

/-! ### bump -/

@[simp] theorem bump_kcs  : (bump s).kcs = s.kcs := rfl
@[simp] theorem bump_teams  : (bump s).teams = s.teams := rfl
@[simp] theorem bump_groups  : (bump s).groups = s.groups := rfl
@[simp] theorem bump_transfers  : (bump s).transfers = s.transfers := rfl
@[simp] theorem bump_watches  : (bump s).watches = s.watches := rfl
@[simp] theorem bump_deques  : (bump s).deques = s.deques := rfl
@[simp] theorem bump_ctxs  : (bump s).ctxs = s.ctxs := rfl
@[simp] theorem bump_grids  : (bump s).grids = s.grids := rfl
@[simp] theorem bump_frames  : (bump s).frames = s.frames := rfl
@[simp] theorem bump_written  : (bump s).written = s.written := rfl
@[simp] theorem bump_mem  : (bump s).mem = s.mem := rfl
@[simp] theorem bump_memPoison  : (bump s).memPoison = s.memPoison := rfl
@[simp] theorem bump_frameTab  : (bump s).frameTab = s.frameTab := rfl
@[simp] theorem bump_resvs  : (bump s).resvs = s.resvs := rfl
@[simp] theorem bump_replicas  : (bump s).replicas = s.replicas := rfl
@[simp] theorem bump_tlb  : (bump s).tlb = s.tlb := rfl
@[simp] theorem bump_blockMarks  : (bump s).blockMarks = s.blockMarks := rfl
@[simp] theorem bump_oldText  : (bump s).oldText = s.oldText := rfl
@[simp] theorem bump_requests  : (bump s).requests = s.requests := rfl
@[simp] theorem bump_tund  : (bump s).tund = s.tund := rfl
@[simp] theorem bump_dies  : (bump s).dies = s.dies := rfl
@[simp] theorem bump_host  : (bump s).host = s.host := rfl
@[simp] theorem bump_fab  : (bump s).fab = s.fab := rfl
@[simp] theorem bump_nextId  : (bump s).nextId = s.nextId := rfl
@[simp] theorem bump_agenda  : (bump s).agenda = s.agenda := rfl
@[simp] theorem bump_cur  : (bump s).cur = s.cur := rfl
@[simp] theorem bump_out  : (bump s).out = s.out := rfl

/-! ### send -/

@[simp] theorem send_kcs (m : Msg) : (send s m).kcs = s.kcs := rfl
@[simp] theorem send_teams (m : Msg) : (send s m).teams = s.teams := rfl
@[simp] theorem send_groups (m : Msg) : (send s m).groups = s.groups := rfl
@[simp] theorem send_transfers (m : Msg) : (send s m).transfers = s.transfers := rfl
@[simp] theorem send_watches (m : Msg) : (send s m).watches = s.watches := rfl
@[simp] theorem send_deques (m : Msg) : (send s m).deques = s.deques := rfl
@[simp] theorem send_ctxs (m : Msg) : (send s m).ctxs = s.ctxs := rfl
@[simp] theorem send_grids (m : Msg) : (send s m).grids = s.grids := rfl
@[simp] theorem send_frames (m : Msg) : (send s m).frames = s.frames := rfl
@[simp] theorem send_written (m : Msg) : (send s m).written = s.written := rfl
@[simp] theorem send_mem (m : Msg) : (send s m).mem = s.mem := rfl
@[simp] theorem send_memPoison (m : Msg) : (send s m).memPoison = s.memPoison := rfl
@[simp] theorem send_frameTab (m : Msg) : (send s m).frameTab = s.frameTab := rfl
@[simp] theorem send_resvs (m : Msg) : (send s m).resvs = s.resvs := rfl
@[simp] theorem send_replicas (m : Msg) : (send s m).replicas = s.replicas := rfl
@[simp] theorem send_tlb (m : Msg) : (send s m).tlb = s.tlb := rfl
@[simp] theorem send_blockMarks (m : Msg) : (send s m).blockMarks = s.blockMarks := rfl
@[simp] theorem send_oldText (m : Msg) : (send s m).oldText = s.oldText := rfl
@[simp] theorem send_requests (m : Msg) : (send s m).requests = s.requests := rfl
@[simp] theorem send_tund (m : Msg) : (send s m).tund = s.tund := rfl
@[simp] theorem send_dies (m : Msg) : (send s m).dies = s.dies := rfl
@[simp] theorem send_host (m : Msg) : (send s m).host = s.host := rfl
@[simp] theorem send_fab (m : Msg) : (send s m).fab = s.fab := rfl
@[simp] theorem send_nextId (m : Msg) : (send s m).nextId = s.nextId := rfl
@[simp] theorem send_agenda (m : Msg) : (send s m).agenda = s.agenda := rfl
@[simp] theorem send_cur (m : Msg) : (send s m).cur = s.cur := rfl
@[simp] theorem send_fresh (m : Msg) : (send s m).fresh = s.fresh := rfl

/-! ### updMember -/

@[simp] theorem updMember_kcs (m : Member) (f : Group → Group) : (updMember s m f).kcs = s.kcs := by cases m <;> rfl
@[simp] theorem updMember_teams (m : Member) (f : Group → Group) : (updMember s m f).teams = s.teams := by cases m <;> rfl
@[simp] theorem updMember_transfers (m : Member) (f : Group → Group) : (updMember s m f).transfers = s.transfers := by cases m <;> rfl
@[simp] theorem updMember_watches (m : Member) (f : Group → Group) : (updMember s m f).watches = s.watches := by cases m <;> rfl
@[simp] theorem updMember_deques (m : Member) (f : Group → Group) : (updMember s m f).deques = s.deques := by cases m <;> rfl
@[simp] theorem updMember_ctxs (m : Member) (f : Group → Group) : (updMember s m f).ctxs = s.ctxs := by cases m <;> rfl
@[simp] theorem updMember_grids (m : Member) (f : Group → Group) : (updMember s m f).grids = s.grids := by cases m <;> rfl
@[simp] theorem updMember_frames (m : Member) (f : Group → Group) : (updMember s m f).frames = s.frames := by cases m <;> rfl
@[simp] theorem updMember_written (m : Member) (f : Group → Group) : (updMember s m f).written = s.written := by cases m <;> rfl
@[simp] theorem updMember_mem (m : Member) (f : Group → Group) : (updMember s m f).mem = s.mem := by cases m <;> rfl
@[simp] theorem updMember_memPoison (m : Member) (f : Group → Group) : (updMember s m f).memPoison = s.memPoison := by cases m <;> rfl
@[simp] theorem updMember_frameTab (m : Member) (f : Group → Group) : (updMember s m f).frameTab = s.frameTab := by cases m <;> rfl
@[simp] theorem updMember_resvs (m : Member) (f : Group → Group) : (updMember s m f).resvs = s.resvs := by cases m <;> rfl
@[simp] theorem updMember_replicas (m : Member) (f : Group → Group) : (updMember s m f).replicas = s.replicas := by cases m <;> rfl
@[simp] theorem updMember_tlb (m : Member) (f : Group → Group) : (updMember s m f).tlb = s.tlb := by cases m <;> rfl
@[simp] theorem updMember_blockMarks (m : Member) (f : Group → Group) : (updMember s m f).blockMarks = s.blockMarks := by cases m <;> rfl
@[simp] theorem updMember_oldText (m : Member) (f : Group → Group) : (updMember s m f).oldText = s.oldText := by cases m <;> rfl
@[simp] theorem updMember_requests (m : Member) (f : Group → Group) : (updMember s m f).requests = s.requests := by cases m <;> rfl
@[simp] theorem updMember_tund (m : Member) (f : Group → Group) : (updMember s m f).tund = s.tund := by cases m <;> rfl
@[simp] theorem updMember_dies (m : Member) (f : Group → Group) : (updMember s m f).dies = s.dies := by cases m <;> rfl
@[simp] theorem updMember_host (m : Member) (f : Group → Group) : (updMember s m f).host = s.host := by cases m <;> rfl
@[simp] theorem updMember_fab (m : Member) (f : Group → Group) : (updMember s m f).fab = s.fab := by cases m <;> rfl
@[simp] theorem updMember_nextId (m : Member) (f : Group → Group) : (updMember s m f).nextId = s.nextId := by cases m <;> rfl
@[simp] theorem updMember_agenda (m : Member) (f : Group → Group) : (updMember s m f).agenda = s.agenda := by cases m <;> rfl
@[simp] theorem updMember_cur (m : Member) (f : Group → Group) : (updMember s m f).cur = s.cur := by cases m <;> rfl
@[simp] theorem updMember_fresh (m : Member) (f : Group → Group) : (updMember s m f).fresh = s.fresh := by cases m <;> rfl
@[simp] theorem updMember_out (m : Member) (f : Group → Group) : (updMember s m f).out = s.out := by cases m <;> rfl

/-! ### endIssue -/

@[simp] theorem endIssue_kcs (c : Issue) : (endIssue s c).kcs = s.kcs := rfl
@[simp] theorem endIssue_teams (c : Issue) : (endIssue s c).teams = s.teams := rfl
@[simp] theorem endIssue_groups (c : Issue) : (endIssue s c).groups = s.groups := rfl
@[simp] theorem endIssue_transfers (c : Issue) : (endIssue s c).transfers = s.transfers := rfl
@[simp] theorem endIssue_watches (c : Issue) : (endIssue s c).watches = s.watches := rfl
@[simp] theorem endIssue_deques (c : Issue) : (endIssue s c).deques = s.deques := rfl
@[simp] theorem endIssue_ctxs (c : Issue) : (endIssue s c).ctxs = s.ctxs := rfl
@[simp] theorem endIssue_grids (c : Issue) : (endIssue s c).grids = s.grids := rfl
@[simp] theorem endIssue_frames (c : Issue) : (endIssue s c).frames = s.frames := rfl
@[simp] theorem endIssue_written (c : Issue) : (endIssue s c).written = s.written := rfl
@[simp] theorem endIssue_mem (c : Issue) : (endIssue s c).mem = s.mem := rfl
@[simp] theorem endIssue_memPoison (c : Issue) : (endIssue s c).memPoison = s.memPoison := rfl
@[simp] theorem endIssue_frameTab (c : Issue) : (endIssue s c).frameTab = s.frameTab := rfl
@[simp] theorem endIssue_resvs (c : Issue) : (endIssue s c).resvs = s.resvs := rfl
@[simp] theorem endIssue_replicas (c : Issue) : (endIssue s c).replicas = s.replicas := rfl
@[simp] theorem endIssue_tlb (c : Issue) : (endIssue s c).tlb = s.tlb := rfl
@[simp] theorem endIssue_blockMarks (c : Issue) : (endIssue s c).blockMarks = s.blockMarks := rfl
@[simp] theorem endIssue_oldText (c : Issue) : (endIssue s c).oldText = s.oldText := rfl
@[simp] theorem endIssue_requests (c : Issue) : (endIssue s c).requests = s.requests := rfl
@[simp] theorem endIssue_tund (c : Issue) : (endIssue s c).tund = s.tund := rfl
@[simp] theorem endIssue_dies (c : Issue) : (endIssue s c).dies = s.dies := rfl
@[simp] theorem endIssue_host (c : Issue) : (endIssue s c).host = s.host := rfl
@[simp] theorem endIssue_fab (c : Issue) : (endIssue s c).fab = s.fab := rfl
@[simp] theorem endIssue_nextId (c : Issue) : (endIssue s c).nextId = s.nextId := rfl
@[simp] theorem endIssue_agenda (c : Issue) : (endIssue s c).agenda = s.agenda := rfl
@[simp] theorem endIssue_out (c : Issue) : (endIssue s c).out = s.out := rfl
@[simp] theorem endIssue_cur (c : Issue) : (endIssue s c).cur = none := rfl
@[simp] theorem endIssue_fresh (c : Issue) : (endIssue s c).fresh = s.fresh + 1 := rfl
@[simp] theorem bump_fresh : (bump s).fresh = s.fresh + 1 := rfl

end Sys2Proof.Machine
end

