-- ==== Sys2Proof/Laws/Group.lean ====
section
/-! SUPPORT. Finding members after an update, merging of entries, and what a retiring group instruction does. -/

namespace Sys2Proof.Machine

/-! ### Looking up what was updated -/

/-- A change of a group that leaves its identity alone. -/
def KeepsKey (f : Group → Group) : Prop := ∀ x, (f x).kc = x.kc ∧ (f x).core = x.core ∧ (f x).idx = x.idx

theorem KeepsKey.comp {f h : Group → Group} (hf : KeepsKey f) (hh : KeepsKey h) : KeepsKey fun x => f (h x) := fun x =>
  ⟨(hf _).1.trans (hh x).1, (hf _).2.1.trans (hh x).2.1, (hf _).2.2.trans (hh x).2.2⟩

theorem find_updGroup {s : State} {kc core idx : Nat} {f : Group → Group} (hf : KeepsKey f) (kc' core' idx' : Nat) :
    (updGroup s kc core idx f).groups.find? (fun x => x.kc = kc' ∧ x.core = core' ∧ x.idx = idx') =
      (s.groups.find? (fun x => x.kc = kc' ∧ x.core = core' ∧ x.idx = idx')).map
        fun g => if g.kc = kc ∧ g.core = core ∧ g.idx = idx then f g else g := by
  simp only [updGroup, List.find?_map]
  congr 2
  funext x
  by_cases hx : x.kc = kc ∧ x.core = core ∧ x.idx = idx
  · simp [Function.comp, if_pos hx, (hf x).1, (hf x).2.1, (hf x).2.2]
  · simp [Function.comp, if_neg hx]

theorem groupOf_updGroup_same {s : State} {kc core idx : Nat} {f : Group → Group} (hf : KeepsKey f) {g : Group}
    (h : s.groups.find? (fun x => x.kc = kc ∧ x.core = core ∧ x.idx = idx) = some g) :
    groupOf (updGroup s kc core idx f) kc core idx = f g := by
  have hg := List.find?_some h
  simp only [decide_eq_true_eq] at hg
  simp only [groupOf, find_updGroup hf, h, Option.map_some, Option.getD_some, if_pos hg]

theorem groupOf_updGroup_other {s : State} {kc core idx kc' core' idx' : Nat} {f : Group → Group} (hf : KeepsKey f)
    (hne : ¬ (kc' = kc ∧ core' = core ∧ idx' = idx)) :
    groupOf (updGroup s kc core idx f) kc' core' idx' = groupOf s kc' core' idx' := by
  simp only [groupOf, find_updGroup hf]
  cases h : s.groups.find? (fun x => x.kc = kc' ∧ x.core = core' ∧ x.idx = idx') with
  | none => rfl
  | some g =>
    have hg := List.find?_some h
    simp only [decide_eq_true_eq] at hg
    simp only [Option.map_some, Option.getD_some]
    rw [if_neg]
    rintro ⟨h1, h2, h3⟩
    exact hne ⟨hg.1.symm.trans h1, hg.2.1.symm.trans h2, hg.2.2.symm.trans h3⟩

theorem kcOf_updKc_same {s : State} {id : Nat} {f : Kc → Kc} (hf : ∀ x, (f x).id = x.id) {k : Kc}
    (h : s.kcs.find? (fun x => x.id = id) = some k) : kcOf (updKc s id f) id = f k := by
  have hk := List.find?_some h
  simp only [decide_eq_true_eq] at hk
  simp only [kcOf, updKc, List.find?_map]
  have : ((fun x : Kc => decide (x.id = id)) ∘ fun k => if k.id = id then f k else k) = fun x => decide (x.id = id) := by
    funext x
    by_cases hx : x.id = id <;> simp [Function.comp, hx, hf]
  rw [this, h]
  simp [hk]

theorem kcOf_updKc_other {s : State} {id id' : Nat} {f : Kc → Kc} (hf : ∀ x, (f x).id = x.id) (hne : id' ≠ id) :
    kcOf (updKc s id f) id' = kcOf s id' := by
  simp only [kcOf, updKc, List.find?_map]
  have : ((fun x : Kc => decide (x.id = id')) ∘ fun k => if k.id = id then f k else k) = fun x => decide (x.id = id') := by
    funext x
    by_cases hx : x.id = id <;> simp [Function.comp, hx, hf]
  rw [this]
  cases h : s.kcs.find? (fun x => x.id = id') with
  | none => rfl
  | some k =>
    have hk := List.find?_some h
    simp only [decide_eq_true_eq] at hk
    simp [show ¬ k.id = id by omega]

theorem find_updKc_same {s : State} {id : Nat} {f : Kc → Kc} (hf : ∀ x, (f x).id = x.id) {k : Kc}
    (h : s.kcs.find? (fun x => x.id = id) = some k) : (updKc s id f).kcs.find? (fun x => x.id = id) = some (f k) := by
  have hk := List.find?_some h
  simp only [decide_eq_true_eq] at hk
  simp only [updKc, List.find?_map]
  have : ((fun x : Kc => decide (x.id = id)) ∘ fun k => if k.id = id then f k else k) = fun x => decide (x.id = id) := by
    funext x
    by_cases hx : x.id = id <;> simp [Function.comp, hx, hf]
  rw [this, h]
  simp [hk]

theorem groupOf_of_groups {s t : State} (h : t.groups = s.groups) (kc core idx : Nat) : groupOf t kc core idx = groupOf s kc core idx := by
  simp [groupOf, h]

theorem kcOf_of_kcs {s t : State} (h : t.kcs = s.kcs) (id : Nat) : kcOf t id = kcOf s id := by simp [kcOf, h]

theorem memberGroup_of_groups {s t : State} (h : t.groups = s.groups) (m : Member) : memberGroup t m = memberGroup s m := by
  cases m with
  | spine kc => rfl
  | group kc core idx => exact groupOf_of_groups h kc core idx

theorem OnLanes.group {s : State} {c : Issue} {g : Group} (h : OnLanes s c g) : memberGroup s c.who = g := by
  rw [h.who]
  simp only [memberGroup, groupOf, h.here, Option.getD_some]

theorem OnLanes.notSpine {s : State} {c : Issue} {g : Group} (h : OnLanes s c g) : isSpine c.who = false := by
  rw [h.who]; rfl

theorem OnLanes.kc {s : State} {c : Issue} {g : Group} (h : OnLanes s c g) : memberKc c.who = g.kc := by
  rw [h.who]; rfl

theorem OnLanes.core {s : State} {c : Issue} {g : Group} (h : OnLanes s c g) : memberCore c.who = g.core := by
  rw [h.who]; rfl

theorem OnSpine.kc {s : State} {c : Issue} {k : Kc} (h : OnSpine s c k) : kcOf s k.id = k := by
  simp [kcOf, h.here]

theorem OnSpine.spine {s : State} {c : Issue} {k : Kc} (h : OnSpine s c k) : isSpine c.who = true := by
  rw [h.who]; rfl

theorem OnSpine.id {s : State} {c : Issue} {k : Kc} (h : OnSpine s c k) : memberKc c.who = k.id := by
  rw [h.who]; rfl

/-- The issuer of lanes after a change of its group. -/
theorem OnLanes.upd {s s' : State} {c : Issue} {g : Group} (h : OnLanes s c g) (hs : s'.groups = s.groups)
    {f : Group → Group} (hf : KeepsKey f) : memberGroup (updMember s' c.who f) c.who = f g := by
  have h' := h.here
  rw [← hs] at h'
  rw [h.who]
  exact groupOf_updGroup_same hf h'

/-! ### Joining entries (R171) -/

/-- Some entry of the list is at pc under prio with the wait w and holds the lane. -/
def Holds (l : List Entry) (lane : Nat) (pc : VAddr) (prio : BitVec 6) (w : Option Wait) : Prop :=
  ∃ en ∈ l, en.pc = pc ∧ en.prio = prio ∧ en.mask.getLsbD lane = true ∧ en.wait = w

theorem holds_append {a b : List Entry} {lane : Nat} {pc : VAddr} {prio : BitVec 6} {w : Option Wait} :
    Holds (a ++ b) lane pc prio w ↔ Holds a lane pc prio w ∨ Holds b lane pc prio w := by
  simp only [Holds, List.mem_append, or_and_right, exists_or]

theorem holds_cons {e : Entry} {l : List Entry} {lane : Nat} {pc : VAddr} {prio : BitVec 6} {w : Option Wait} :
    Holds (e :: l) lane pc prio w ↔
      (e.pc = pc ∧ e.prio = prio ∧ e.mask.getLsbD lane = true ∧ e.wait = w) ∨ Holds l lane pc prio w := by
  simp only [Holds, List.mem_cons, or_and_right, exists_or, exists_eq_left]

/-- Joining neither moves a lane nor loses one. -/
theorem holds_join {e : Entry} {l : List Entry} {lane : Nat} {pc : VAddr} {prio : BitVec 6} {w : Option Wait} :
    Holds (joinEntry e l) lane pc prio w ↔ Holds (e :: l) lane pc prio w := by
  induction l with
  | nil => rfl
  | cons x xs ih =>
    simp only [joinEntry]
    split
    · next h =>
      obtain ⟨h1, h2, h3, h4⟩ := h
      simp only [holds_cons, BitVec.getLsbD_or, Bool.or_eq_true, h1, h2, h3, h4]
      tauto
    · simp only [holds_cons] at ih ⊢
      rw [ih]; tauto

theorem holds_merge {es : List Entry} {lane : Nat} {pc : VAddr} {prio : BitVec 6} {w : Option Wait} :
    Holds (mergeEntries es) lane pc prio w ↔ Holds es lane pc prio w := by
  have h : ∀ acc, Holds (es.foldl (fun acc e => joinEntry e acc) acc) lane pc prio w ↔ Holds (acc ++ es) lane pc prio w := by
    induction es with
    | nil => intro acc; simp
    | cons e rest ih =>
      intro acc
      rw [List.foldl_cons, ih, holds_append, holds_append, holds_join, holds_cons, holds_cons]
      tauto
  exact (h []).trans (by simp)

/-- A lane outside the issuing entry stands where it stood. -/
theorem holds_move {g : Group} {c : Issue} {new : List Entry} {lane : Nat} (hl : c.mask.getLsbD lane = false)
    (hn : ∀ e ∈ new, e.mask.getLsbD lane = false) (pc : VAddr) (prio : BitVec 6) (w : Option Wait) :
    Holds (moveEntry g c new).regs.frontier lane pc prio w ↔ Holds g.regs.frontier lane pc prio w := by
  refine holds_merge.trans (holds_append.trans ?_)
  constructor
  · rintro (⟨e, he, r⟩ | ⟨e, he, h1, h2, h3, h4⟩)
    · exact ⟨e, (List.mem_filter.mp he).1, r⟩
    · rw [hn e (List.mem_filter.mp he).1] at h3; cases h3
  · rintro ⟨e, he, h1, h2, h3, h4⟩
    refine .inl ⟨e, List.mem_filter.mpr ⟨he, ?_⟩, h1, h2, h3, h4⟩
    simp only [ne_eq, decide_not, Bool.not_eq_true', decide_eq_false_iff_not]
    intro h0
    rw [h0, hl] at h3; cases h3

/-- Some unblocked entry of the list is at pc under prio and holds the lane. -/
def Covers (l : List Entry) (pc : VAddr) (prio : BitVec 6) (lane : Nat) : Prop :=
  ∃ en ∈ l, en.pc = pc ∧ en.prio = prio ∧ en.mask.getLsbD lane = true ∧ en.wait = none

theorem covers_join_old {e : Entry} {l : List Entry} {pc : VAddr} {prio : BitVec 6} {lane : Nat} (h : Covers l pc prio lane) :
    Covers (joinEntry e l) pc prio lane := by
  induction l with
  | nil => obtain ⟨en, hen, -⟩ := h; cases hen
  | cons x xs ih =>
    obtain ⟨en, hen, h1, h2, h3, h4⟩ := h
    simp only [joinEntry]
    split
    · next hc =>
      rcases List.mem_cons.mp hen with rfl | hen
      · exact ⟨_, List.mem_cons_self, h1, h2, by simp [h3], h4⟩
      · exact ⟨en, List.mem_cons_of_mem _ hen, h1, h2, h3, h4⟩
    · rcases List.mem_cons.mp hen with rfl | hen
      · exact ⟨_, List.mem_cons_self, h1, h2, h3, h4⟩
      · obtain ⟨e', he', r⟩ := ih ⟨en, hen, h1, h2, h3, h4⟩
        exact ⟨e', List.mem_cons_of_mem _ he', r⟩

theorem covers_join_new {e : Entry} {l : List Entry} {lane : Nat} (hm : e.mask.getLsbD lane = true) (hw : e.wait = none) :
    Covers (joinEntry e l) e.pc e.prio lane := by
  induction l with
  | nil => exact ⟨e, by simp [joinEntry], rfl, rfl, hm, hw⟩
  | cons x xs ih =>
    simp only [joinEntry]
    split
    · next hc => exact ⟨_, List.mem_cons_self, hc.1, hc.2.1, by simp [hm], hc.2.2.1⟩
    · obtain ⟨e', he', r⟩ := ih
      exact ⟨e', List.mem_cons_of_mem _ he', r⟩

theorem covers_fold {es acc : List Entry} {pc : VAddr} {prio : BitVec 6} {lane : Nat}
    (h : Covers acc pc prio lane ∨ Covers es pc prio lane) :
    Covers (es.foldl (fun acc e => joinEntry e acc) acc) pc prio lane := by
  induction es generalizing acc with
  | nil =>
    rcases h with h | ⟨en, hen, -⟩
    · exact h
    · cases hen
  | cons e rest ih =>
    rw [List.foldl_cons]
    apply ih
    rcases h with h | ⟨en, hen, h1, h2, h3, h4⟩
    · exact .inl (covers_join_old h)
    · rcases List.mem_cons.mp hen with rfl | hen
      · subst h1; subst h2
        exact .inl (covers_join_new h3 h4)
      · exact .inr ⟨en, hen, h1, h2, h3, h4⟩

/-- Merging loses no lane. -/
theorem covers_merge {es : List Entry} {pc : VAddr} {prio : BitVec 6} {lane : Nat} (h : Covers es pc prio lane) :
    Covers (mergeEntries es) pc prio lane := covers_fold (.inr h)

theorem covers_move {g : Group} {c : Issue} {new : List Entry} {pc : VAddr} {prio : BitVec 6} {lane : Nat}
    (h : Covers new pc prio lane) : Covers (moveEntry g c new).regs.frontier pc prio lane := by
  obtain ⟨en, hen, h1, h2, h3, h4⟩ := h
  apply covers_merge
  refine ⟨en, List.mem_append_right _ (List.mem_filter.mpr ⟨hen, ?_⟩), h1, h2, h3, h4⟩
  simp only [ne_eq, decide_not, Bool.not_eq_true', decide_eq_false_iff_not]
  intro h0
  simp [h0] at h3

/-! ### Counting and moving -/

theorem keepsKey_move (c : Issue) (new : List Entry) : KeepsKey fun g => moveEntry g c new := fun _ => ⟨rfl, rfl, rfl⟩

theorem keepsKey_count (c : Issue) : KeepsKey fun g => countIssue g c := by
  intro x
  simp only [countIssue]
  split
  · exact ⟨rfl, rfl, rfl⟩
  · split <;> exact ⟨rfl, rfl, rfl⟩

theorem keepsKey_land (p : Flight → Bool) : KeepsKey fun g => landFlights g p := by
  intro x
  have : ∀ (l : List Flight) (y : Group), (l.foldl landFlight y).kc = y.kc ∧ (l.foldl landFlight y).core = y.core ∧
      (l.foldl landFlight y).idx = y.idx := by
    intro l
    induction l with
    | nil => intro y; exact ⟨rfl, rfl, rfl⟩
    | cons f fs ih => intro y; exact ih _
  exact this _ _

theorem keepsKey_landAll : KeepsKey landAll := keepsKey_land _

theorem countIssue_regs (g : Group) (c : Issue) : (countIssue g c).regs = g.regs := by
  simp only [countIssue]
  split
  · rfl
  · split <;> rfl

/-- With no run-ahead, counting changes the two counts only, and those that a flight goes back to. -/
theorem countIssue_rest {g : Group} {c : Issue} (h : g.runAhead = none) :
    { countIssue g c with ycount := g.ycount, crit := g.crit, flights := g.flights } = g := by
  cases g
  cases h
  simp only [countIssue]
  split <;> rfl

theorem countIssue_runAhead {g : Group} {c : Issue} (h : g.runAhead = none) : (countIssue g c).runAhead = none := by
  cases g
  cases h
  simp only [countIssue]
  split <;> rfl

/-- Whether the retry mark of a late cause stays. -/
def keepsRetry (g : Group) (c : Issue) : Bool :=
  g.runAhead.isSome || (match g.retry with | some m => c.mask &&& m = 0 | none => false)

/-- The group that a retiring instruction leaves: f did its work. -/
def retiredGroup (g : Group) (c : Issue) (new : List Entry) (f : Group → Group) : Group :=
  let g' := moveEntry (countIssue (f g) c) c new
  if keepsRetry g c then g' else { g' with retry := none }

theorem keepsKey_retired (c : Issue) (new : List Entry) {f : Group → Group} (hf : KeepsKey f) : KeepsKey fun g => retiredGroup g c new f := by
  intro x
  have h := ((keepsKey_move c new).comp ((keepsKey_count c).comp hf)) x
  simp only [retiredGroup]
  split <;> exact h

theorem retireTo_eq (s : State) (c : Issue) (new : List Entry) (f : Group → Group) :
    retireTo s c new f = endIssue (updMember s c.who fun g => retiredGroup g c new f) c := rfl

theorem retired_regs (g : Group) (c : Issue) (new : List Entry) (f : Group → Group) :
    { (retiredGroup g c new f).regs with frontier := (f g).regs.frontier } = (f g).regs := by
  have h : (retiredGroup g c new f).regs = (moveEntry (countIssue (f g) c) c new).regs := by
    simp only [retiredGroup]; split <;> rfl
  rw [h]
  simp [moveEntry, countIssue_regs]

theorem retired_frontier (g : Group) (c : Issue) (new : List Entry) (f : Group → Group) :
    (retiredGroup g c new f).regs.frontier = (moveEntry (countIssue (f g) c) c new).regs.frontier := by
  simp only [retiredGroup]; split <;> rfl

/-- A group x whose registers, counts, windows, retry mark and poison are those of g. -/
def restOf (g x : Group) : Group :=
  { x with
    regs := g.regs, ycount := g.ycount, crit := g.crit, flights := g.flights, retry := g.retry, poison := g.poison }

theorem restOf_count {g x : Group} {c : Issue} (h : x.runAhead = none) : restOf g (countIssue x c) = restOf g x := by
  unfold countIssue
  split
  · simp_all
  · split <;> rfl

theorem retired_rest {g : Group} {c : Issue} {new : List Entry} {f : Group → Group} (hn : g.runAhead = none)
    (hf : { f g with regs := g.regs, flights := g.flights, poison := g.poison } = g) :
    restOf g (retiredGroup g c new f) = g := by
  have hr : (f g).runAhead = none := by
    have := congrArg Group.runAhead hf
    exact this.trans hn
  have h1 : restOf g (retiredGroup g c new f) = restOf g (countIssue (f g) c) := by
    simp only [retiredGroup]
    split <;> rfl
  rw [h1, restOf_count hr]
  have h2 := congrArg (restOf g) hf
  exact h2

/-- What a retiring group instruction does, once for all: f changed registers by e, and the lanes go on in new. -/
theorem laneRegs_retireTo {s s' : State} {c : Issue} {g : Group} (h : OnLanes s c g) (hs : s'.groups = s.groups)
    (new : List Entry) {f : Group → Group} (hk : KeepsKey f)
    (hf : { f g with regs := g.regs, flights := g.flights, poison := g.poison } = g) (e : Effect)
    (hv : ∀ lane r, r < 64 → vGet (f g).regs lane r = (e.v lane r).getD (vGet g.regs lane r))
    (hp : ∀ lane k, lanePred (f g).regs lane k = (e.p lane k).getD (lanePred g.regs lane k))
    (hg : ∀ r, gGet (f g).regs r = (e.g r).getD (gGet g.regs r))
    (hfl : ∀ lane, amGet 0 (f g).regs.lstat lane = amGet 0 g.regs.lstat lane ||| e.flags lane)
    (hsp : (f g).regs.ct = g.regs.ct ∧ (f g).regs.snapTime = g.regs.snapTime ∧ (f g).regs.snapLclk = g.regs.snapLclk ∧
      (f g).regs.snapEctx = g.regs.snapEctx)
    (hgo : ∀ lane, c.mask.getLsbD lane = true → Covers new (e.goes lane).1 (e.goes lane).2 lane)
    (hin : ∀ e ∈ new, ∀ lane, c.mask.getLsbD lane = false → e.mask.getLsbD lane = false)
    (hfr : (f g).regs.frontier = g.regs.frontier) :
    LaneRegs s (retireTo s' c new f) c e := by
  have hm : memberGroup (retireTo s' c new f) c.who = retiredGroup g c new f := by
    rw [retireTo_eq, memberGroup_of_groups (endIssue_groups _ c)]
    exact h.upd hs (keepsKey_retired c new hk)
  have hr := retired_regs g c new f
  generalize hR : (retiredGroup g c new f).regs = R at hr
  have e1 : R.v = (f g).regs.v ∧ R.p = (f g).regs.p ∧ R.g = (f g).regs.g ∧ R.lstat = (f g).regs.lstat ∧ R.ct = (f g).regs.ct ∧
      R.snapTime = (f g).regs.snapTime ∧ R.snapLclk = (f g).regs.snapLclk ∧ R.snapEctx = (f g).regs.snapEctx := by
    rw [← hr]; exact ⟨rfl, rfl, rfl, rfl, rfl, rfl, rfl, rfl⟩
  obtain ⟨a1, a2, a3, a4, a5, a6, a7, a8⟩ := e1
  constructor <;> (try rw [hm]) <;> (try rw [h.group])
  · intro lane r hr; rw [hR, vGet, a1]; exact hv lane r hr
  · intro lane k; rw [hR, lanePred, a2]; exact hp lane k
  · intro r; rw [hR, gGet, a3]; exact hg r
  · intro lane; rw [hR, a4]; exact hfl lane
  · rw [hR, a5, a6, a7, a8]; exact hsp
  · intro lane hl
    rw [LaneAt, retired_frontier]
    exact covers_move (hgo lane hl)
  · intro lane hl pc prio w
    simp only [LaneAt]
    rw [retired_frontier]
    refine (holds_move hl (fun en hen => hin en hen lane hl) pc prio w).trans ?_
    rw [countIssue_regs, hfr]; rfl
  · exact retired_rest h.normal hf
  · intro kc core idx hne
    rw [retireTo_eq, groupOf_of_groups (endIssue_groups _ c), ← groupOf_of_groups hs]
    rw [h.who] at hne ⊢
    exact groupOf_updGroup_other (keepsKey_retired c new hk) (by rintro ⟨rfl, rfl, rfl⟩; exact hne rfl)

end Sys2Proof.Machine
end

