-- ==== Sys2Proof/Laws/Regs.lean ====
section
/-! SUPPORT. Reading registers after writes, sprue registers after reads and writes, and decoding checks that pass. -/

namespace Sys2Proof.Machine

/-! ### Lists -/

theorem mem_dedup {α : Type} [DecidableEq α] {l : List α} {x : α} : x ∈ dedup l ↔ x ∈ l := by
  induction l with
  | nil => simp [dedup]
  | cons y ys ih =>
    simp only [dedup, List.mem_cons, List.mem_filter, ih]
    by_cases h : x = y <;> simp [h]

theorem nodup_dedup {α : Type} [DecidableEq α] (l : List α) : (dedup l).Nodup := by
  induction l with
  | nil => simp [dedup]
  | cons y ys ih =>
    simp only [dedup, List.nodup_cons, List.mem_filter]
    exact ⟨by simp, ih.filter _⟩

theorem nodup_active (g : Group) (c : Issue) (gd : PredNo) : (activeLanes g c gd).Nodup :=
  (List.nodup_range.filter _).filter _

/-! ### v registers -/

theorem vGet_vSet (r : GroupRegs) (l q : Nat) (w : Word) (lane reg : Nat) (h1 : q < 64) (h2 : reg < 64) :
    vGet (vSet r l q w) lane reg = if lane = l ∧ reg = q then w else vGet r lane reg := by
  simp only [vGet, vSet, amGet_amSet]
  by_cases h : lane = l ∧ reg = q
  · obtain ⟨rfl, rfl⟩ := h; simp
  · rw [if_neg h, if_neg (by omega)]

theorem vSet_rest (r : GroupRegs) (l q : Nat) (w : Word) : { vSet r l q w with v := r.v } = r := rfl

theorem putWrites_rest (r : GroupRegs) (ws : List RegWrite) : { putWrites r ws with v := r.v } = r := by
  induction ws generalizing r with
  | nil => rfl
  | cons w ws ih => exact congrArg (fun x : GroupRegs => { x with v := r.v }) (ih (vSet r w.lane w.reg w.val))

/-- What the writes of one lane give a register. -/
theorem vGet_putWrites_congr {r r' : GroupRegs} {ws : List RegWrite} {lane reg : Nat} (hr : reg < 64)
    (hw : ∀ w ∈ ws, w.reg < 64) (h : vGet r lane reg = vGet r' lane reg) :
    vGet (putWrites r ws) lane reg = vGet (putWrites r' ws) lane reg := by
  induction ws generalizing r r' with
  | nil => exact h
  | cons w ws ih =>
    refine ih (fun x hx => hw x (List.mem_cons_of_mem _ hx)) ?_
    have hwr := hw w List.mem_cons_self
    rw [vGet_vSet _ _ _ _ _ _ hwr hr, vGet_vSet _ _ _ _ _ _ hwr hr, h]

theorem vGet_putWrites_other {r : GroupRegs} {ws : List RegWrite} {lane reg : Nat} (hr : reg < 64)
    (hw : ∀ w ∈ ws, w.reg < 64 ∧ w.lane ≠ lane) : vGet (putWrites r ws) lane reg = vGet r lane reg := by
  induction ws generalizing r with
  | nil => rfl
  | cons w ws ih =>
    have hwr := hw w List.mem_cons_self
    refine (ih (fun x hx => hw x (List.mem_cons_of_mem _ hx))).trans ?_
    rw [vGet_vSet _ _ _ _ _ _ hwr.1 hr, if_neg (fun h => hwr.2 h.1.symm)]

theorem putWrites_append (r : GroupRegs) (a b : List RegWrite) : putWrites r (a ++ b) = putWrites (putWrites r a) b :=
  List.foldl_append

/-- Writes made lane after lane: a lane in the list gets its own writes, the others none. -/
theorem vGet_putWrites_lanes {r : GroupRegs} {act : List Nat} (W : Nat → List RegWrite) {lane reg : Nat} (hr : reg < 64)
    (hn : act.Nodup) (hW : ∀ l ∈ act, ∀ w ∈ W l, w.lane = l ∧ w.reg < 64) :
    vGet (putWrites r (act.flatMap W)) lane reg =
      if lane ∈ act then vGet (putWrites r (W lane)) lane reg else vGet r lane reg := by
  induction act generalizing r with
  | nil => rfl
  | cons a rest ih =>
    rw [List.nodup_cons] at hn
    have hW' : ∀ l ∈ rest, ∀ w ∈ W l, w.lane = l ∧ w.reg < 64 := fun l hl => hW l (List.mem_cons_of_mem _ hl)
    rw [List.flatMap_cons, putWrites_append, ih hn.2 hW']
    by_cases ha : lane = a
    · subst ha
      simp [hn.1]
    · have hWa := hW a List.mem_cons_self
      have hold : vGet (putWrites r (W a)) lane reg = vGet r lane reg :=
        vGet_putWrites_other hr fun w hw => ⟨(hWa w hw).2, fun h => ha (h.symm.trans (hWa w hw).1)⟩
      by_cases hl : lane ∈ rest
      · rw [if_pos hl, if_pos (List.mem_cons_of_mem _ hl)]
        exact vGet_putWrites_congr hr (fun w hw => (hW' lane hl w hw).2) hold
      · rw [if_neg hl, if_neg (by simp [ha, hl]), hold]

/-- A result of one lane as register writes. -/
theorem vGet_regWrites (r : GroupRegs) (d : Nat) (wide : Bool) (lane v reg : Nat) (hr : reg < 64)
    (hd : if wide then d + 1 < 64 else d < 64) :
    vGet (putWrites r (regWrites d wide lane v)) lane reg =
      (if reg = d then some (BitVec.ofNat 32 v)
       else if wide = true ∧ reg = d + 1 then some (BitVec.ofNat 32 (v / 2 ^ 32)) else none).getD (vGet r lane reg) := by
  cases wide with
  | false =>
    simp only [Bool.false_eq_true, if_false] at hd
    simp only [regWrites, Bool.false_eq_true, if_false, putWrites, List.foldl_cons, List.foldl_nil]
    rw [vGet_vSet _ _ _ _ _ _ hd hr]
    by_cases h : reg = d <;> simp [h]
  | true =>
    simp only [if_true] at hd
    simp only [regWrites, if_true, putWrites, List.foldl_cons, List.foldl_nil]
    rw [vGet_vSet _ _ _ _ _ _ (by omega) hr, vGet_vSet _ _ _ _ _ _ (by omega) hr]
    by_cases h1 : reg = d
    · simp [h1]
    · by_cases h2 : reg = d + 1 <;> simp [h1, h2]

/-! ### Sticky flags and predicates -/

theorem putFlags_rest (r : GroupRegs) (fs : List (Nat × Flags6)) : { putFlags r fs with lstat := r.lstat } = r := by
  induction fs generalizing r with
  | nil => rfl
  | cons f fs ih =>
    have h : { laneFlags r f.1 f.2 with lstat := r.lstat } = r := by
      simp only [laneFlags]; split <;> rfl
    have h2 := congrArg (fun x : GroupRegs => { x with lstat := r.lstat }) (ih (laneFlags r f.1 f.2))
    exact h2.trans h

theorem lstat_laneFlags (r : GroupRegs) (l : Nat) (f : Flags6) (lane : Nat) :
    amGet 0 (laneFlags r l f).lstat lane = amGet 0 r.lstat lane ||| if lane = l then f else 0 := by
  simp only [laneFlags]
  split
  · next h => simp [h]
  · simp only [amGet_amModify]
    by_cases h : lane = l <;> simp [h]

theorem lstat_putFlags {r : GroupRegs} {act : List Nat} (F : Nat → Flags6) (lane : Nat) :
    amGet 0 (putFlags r (act.map fun l => (l, F l))).lstat lane =
      amGet 0 r.lstat lane ||| if lane ∈ act then F lane else 0 := by
  induction act generalizing r with
  | nil => simp [putFlags]
  | cons a rest ih =>
    have := ih (r := laneFlags r a (F a))
    simp only [putFlags, List.map_cons, List.foldl_cons] at this ⊢
    rw [this, lstat_laneFlags]
    by_cases h1 : lane = a
    · subst h1
      by_cases h2 : lane ∈ rest <;> simp [h2, BitVec.or_assoc]
    · by_cases h2 : lane ∈ rest <;> simp [h1, h2]

theorem setLanePred_rest (r : GroupRegs) (l : Nat) (k : PredNo) (b : Bool) : { setLanePred r l k b with p := r.p } = r := by
  simp only [setLanePred]; split <;> rfl

/-- One bit of a predicate byte after it is set or cleared. -/
theorem predBit_set (x : Byte) (k q : PredNo) (b : Bool) :
    (if b then x ||| BitVec.ofNat 8 (2 ^ k.toNat) else x &&& ~~~BitVec.ofNat 8 (2 ^ k.toNat)).getLsbD q.toNat =
      if q = k then b else x.getLsbD q.toNat := by
  have hbit : ∀ q k : PredNo, (BitVec.ofNat 8 (2 ^ k.toNat)).getLsbD q.toNat = decide (q = k) := by decide
  have hlt : q.toNat < 8 := by omega
  cases b with
  | true =>
    rw [if_pos rfl, BitVec.getLsbD_or, hbit]
    by_cases h : q = k <;> simp only [h, decide_true, decide_false, Bool.or_true, Bool.or_false, if_true, if_false]
  | false =>
    rw [if_neg (by decide), BitVec.getLsbD_and, BitVec.getLsbD_not, hbit]
    by_cases h : q = k <;>
      simp only [h, hlt, decide_true, decide_false, Bool.not_true, Bool.not_false, Bool.and_true, Bool.and_false, if_true, if_false]

theorem lanePred_set (r : GroupRegs) (l : Nat) (k : PredNo) (b : Bool) (lane : Nat) (q : PredNo) (hk : k ≠ 0) :
    lanePred (setLanePred r l k b) lane q = if lane = l ∧ q = k then b else lanePred r lane q := by
  simp only [lanePred, setLanePred, if_neg hk]
  by_cases hq : q = 0
  · simp only [hq, if_true]
    rw [if_neg]; rintro ⟨-, h⟩; exact hk h.symm
  · simp only [if_neg hq, amGet_amSet]
    by_cases hl : lane = l
    · subst hl
      simp only [if_true, true_and]
      rw [← predBit_set (amGet 0 r.p lane) k q b]
    · simp [hl]

theorem lanePred_fold {r : GroupRegs} {act : List Nat} (V : Nat → Bool) (k : PredNo) (hk : k ≠ 0) (lane : Nat) (q : PredNo) :
    lanePred (act.foldl (fun r l => setLanePred r l k (V l)) r) lane q =
      if lane ∈ act ∧ q = k then V lane else lanePred r lane q := by
  induction act generalizing r with
  | nil => simp
  | cons a rest ih =>
    rw [List.foldl_cons, ih, lanePred_set _ _ _ _ _ _ hk]
    by_cases h1 : lane = a
    · subst h1
      by_cases h2 : lane ∈ rest <;> by_cases h3 : q = k <;> simp [h2, h3]
    · by_cases h2 : lane ∈ rest <;> by_cases h3 : q = k <;> simp [h1, h2, h3]

theorem predFold_rest {r : GroupRegs} {act : List Nat} (V : Nat → Bool) (k : PredNo) :
    { act.foldl (fun r l => setLanePred r l k (V l)) r with p := r.p } = r := by
  induction act generalizing r with
  | nil => rfl
  | cons a rest ih =>
    have h2 := congrArg (fun x : GroupRegs => { x with p := r.p }) (ih (r := setLanePred r a k (V a)))
    exact h2.trans (setLanePred_rest r a k (V a))

/-! ### g registers -/

theorem gGet_gSet (r : GroupRegs) (k : Nat) (w : Word) (j : Nat) : gGet (gSet r k w) j = if j = k then w else gGet r j :=
  amGet_amSet 0 r.g k w j

/-! ### The spine's registers -/

theorem xGet_xSet (sp : Spine) (i : Nat) (v : DWord) (j : Nat) :
    xGet (xSet sp i v) j = if j = 0 then 0 else if j = i then v else xGet sp j := by
  simp only [xGet, xSet]
  by_cases hj : j = 0
  · simp [hj]
  · simp only [if_neg hj]
    by_cases hi : i = 0
    · have hji : ¬ j = i := by omega
      simp [hi, hj]
    · simp only [if_neg hi, amGet_amSet]

theorem xSet_rest (sp : Spine) (i : Nat) (v : DWord) : { xSet sp i v with x := sp.x, poison := sp.poison } = sp := by
  simp only [xSet]; split <;> rfl

theorem spinePred_set (sp : Spine) (k : PredNo) (b : Bool) (q : PredNo) (hk : k ≠ 0) :
    spinePred (setSpinePred sp k b) q = if q = k then b else spinePred sp q := by
  simp only [spinePred, setSpinePred, if_neg hk]
  by_cases hq : q = 0
  · simp only [hq, if_true]
    rw [if_neg]; intro h; exact hk h.symm
  · simp only [if_neg hq]
    exact predBit_set sp.p k q b

theorem setSpinePred_rest (sp : Spine) (k : PredNo) (b : Bool) : { setSpinePred sp k b with p := sp.p } = sp := by
  simp only [setSpinePred]; split <;> rfl

/-! ### Sprue registers -/

theorem kcOf_setSprue {s : State} {kc : Nat} {k : Kc} (h : s.kcs.find? (fun x => x.id = kc) = some k) (i : Nat) (r : SprueReg) :
    kcOf (setSprue s kc i r) kc = { k with sprue := amSet SprueReg.init k.sprue i r } :=
  kcOf_updKc_same (f := fun k => { k with sprue := amSet SprueReg.init k.sprue i r }) (fun _ => rfl) h

theorem find_setSprue {s : State} {kc : Nat} {k : Kc} (h : s.kcs.find? (fun x => x.id = kc) = some k) (i : Nat) (r : SprueReg) :
    (setSprue s kc i r).kcs.find? (fun x => x.id = kc) = some { k with sprue := amSet SprueReg.init k.sprue i r } :=
  find_updKc_same (f := fun k => { k with sprue := amSet SprueReg.init k.sprue i r }) (fun _ => rfl) h

theorem kcOf_find {s : State} {kc : Nat} {k : Kc} (h : s.kcs.find? (fun x => x.id = kc) = some k) : kcOf s kc = k := by
  simp only [kcOf, h, Option.getD_some]

theorem sprueGet_amSet (k : Kc) (i : Nat) (r : SprueReg) (j : Nat) :
    sprueGet { k with sprue := amSet SprueReg.init k.sprue i r } j = if j = i then r else sprueGet k j :=
  amGet_amSet SprueReg.init k.sprue i r j

theorem SprueBecomes.refl (s : State) (kc : Nat) : SprueBecomes s s kc fun _ r => r := ⟨fun _ => rfl, rfl, fun _ _ => rfl⟩

theorem SprueBecomes.of_kcs {s s' t t' : State} {kc : Nat} {f : Nat → SprueReg → SprueReg} (h : SprueBecomes s t kc f)
    (hs : s'.kcs = s.kcs) (ht : t'.kcs = t.kcs) : SprueBecomes s' t' kc f := by
  simp only [SprueBecomes, kcOf_of_kcs hs, kcOf_of_kcs ht]
  exact h

theorem sprueBecomes_set {s : State} {kc : Nat} {k : Kc} (h : s.kcs.find? (fun x => x.id = kc) = some k) (i : Nat) (r : SprueReg) :
    SprueBecomes s (setSprue s kc i r) kc fun j q => if j = i then r else q := by
  refine ⟨fun j => ?_, ?_, fun id hid => kcOf_updKc_other (fun _ => rfl) hid⟩
  · rw [kcOf_setSprue h, kcOf_find h, sprueGet_amSet]
  · rw [kcOf_setSprue h, kcOf_find h]

theorem consumeAll_nil (s : State) (kc : Nat) : consumeAll s kc [] = s := rfl

theorem consumeAll_kcs_only (s : State) (kc : Nat) (ks : List Nat) : { consumeAll s kc ks with kcs := s.kcs } = s := by
  induction ks generalizing s with
  | nil => rfl
  | cons i rest ih =>
    have := congrArg (fun x : State => { x with kcs := s.kcs }) (ih (setSprue s kc i (consumed (sprueGet (kcOf s kc) i))))
    exact this

theorem consumeAll_find {s : State} {kc : Nat} {k : Kc} (h : s.kcs.find? (fun x => x.id = kc) = some k) (ks : List Nat) :
    ∃ sp, (consumeAll s kc ks).kcs.find? (fun x => x.id = kc) = some { k with sprue := sp } := by
  induction ks generalizing s k with
  | nil => exact ⟨k.sprue, h⟩
  | cons i rest ih =>
    obtain ⟨sp, hsp⟩ := ih (find_setSprue h i (consumed (sprueGet (kcOf s kc) i)))
    exact ⟨sp, hsp⟩

/-- Registers read once each: each of them, and no other, is consumed once. -/
theorem sprueBecomes_consumeAll {s : State} {kc : Nat} {k : Kc} (h : s.kcs.find? (fun x => x.id = kc) = some k) (ks : List Nat)
    (hn : ks.Nodup) : SprueBecomes s (consumeAll s kc ks) kc fun j q => if j ∈ ks then consumed q else q := by
  induction ks generalizing s k with
  | nil =>
    simp only [List.not_mem_nil, if_false]
    exact SprueBecomes.refl s kc
  | cons i rest ih =>
    rw [List.nodup_cons] at hn
    have h1 := sprueBecomes_set h i (consumed (sprueGet (kcOf s kc) i))
    have h2 := ih (find_setSprue h i (consumed (sprueGet (kcOf s kc) i))) hn.2
    refine ⟨fun j => ?_, ?_, fun id hid => (h2.2.2 id hid).trans (h1.2.2 id hid)⟩
    · refine (h2.1 j).trans ?_
      rw [h1.1 j]
      by_cases hj : j = i
      · subst hj; simp [hn.1]
      · simp [hj]
    · have := congrArg (fun x : Kc => { x with sprue := (kcOf s kc).sprue }) h2.2.1
      exact this.trans h1.2.1

/-! ### Decoding checks -/

theorem checked_ok {s : State} {c : Issue} {l : List (Bool × Byte)} {k : State} (h : ∀ e ∈ l, e.1 = false)
    (hp : poisonedIssue s c = []) : checked s c l k = k := by
  induction l with
  | nil => simp [checked, hp]
  | cons e rest ih =>
    have h1 := h e List.mem_cons_self
    simp only [checked, h1, Bool.false_eq_true, if_false]
    exact ih fun x hx => h x (List.mem_cons_of_mem _ hx)

/-- The frontier entry and the guard of a spine's issue are never poisoned. -/
theorem poisonedIssue_spine {s : State} {c : Issue} (h : isSpine c.who = true) : poisonedIssue s c = [] := by
  simp [poisonedIssue, h]

theorem poisonedIssue_of_group {s t : State} {c : Issue} (h : memberGroup t c.who = memberGroup s c.who) :
    poisonedIssue t c = poisonedIssue s c := by simp only [poisonedIssue, h]

theorem issueBy_some {s : State} {c : Issue} {f : Issue → State} (h : s.cur = some c) : issueBy s f = .next (f c) := by
  simp [issueBy, h]

end Sys2Proof.Machine
end

