-- ==== Sys2Proof/Laws/Compute.lean ====
section
/-! SUPPORT. What a register instruction does, once for every instruction that runs through runReg: on lanes, with a
result that arrives at once or later, and on the spine. -/

namespace Sys2Proof.Machine

theorem LaneRegs.of_same {s s' t : State} {c : Issue} {e : Effect} (h : LaneRegs s' t c e)
    (hm : memberGroup s' c.who = memberGroup s c.who)
    (ho : ∀ kc core idx, Member.group kc core idx ≠ c.who → groupOf s' kc core idx = groupOf s kc core idx) : LaneRegs s t c e := by
  obtain ⟨h1, h2, h3, h4, h5, h6, h9, h7, h8⟩ := h
  rw [hm] at h1 h2 h3 h4 h5 h9 h7
  exact ⟨h1, h2, h3, h4, h5, h6, h9, h7, fun a b d hne => (h8 a b d hne).trans (ho a b d hne)⟩

theorem LaneRegs.of_groups {s s' t : State} {c : Issue} {e : Effect} (h : LaneRegs s' t c e) (hs : s'.groups = s.groups) :
    LaneRegs s t c e := h.of_same (memberGroup_of_groups hs _) fun _ _ _ _ => groupOf_of_groups hs _ _ _

/-- The entry that goes on holds no lane outside the issue. -/
theorem inside_next (c : Issue) (pc : VAddr) : ∀ e ∈ [(⟨pc, c.prio, c.mask, none⟩ : Entry)], ∀ lane,
    c.mask.getLsbD lane = false → e.mask.getLsbD lane = false := by
  intro e he lane h
  rw [List.mem_singleton.mp he]; exact h

/-- The entry that goes on at the next instruction covers its lanes. -/
theorem covers_next (c : Issue) {lane : Nat} (h : c.mask.getLsbD lane = true) :
    Covers [⟨nextPc c, c.prio, c.mask, none⟩] (nextPc c) c.prio lane := ⟨_, List.mem_singleton_self _, rfl, rfl, h, rfl⟩

theorem spreadTaint_none {g : Group} (h : g.runAhead = none) (c : Issue) (gd : PredNo) (a b : List Nat) (dep : Nat → Lanes) :
    spreadTaint g c gd a b dep = g := by simp only [spreadTaint, h]

theorem keepsKey_spread (c : Issue) (gd : PredNo) (a b : List Nat) (dep : Nat → Lanes) :
    KeepsKey fun g => spreadTaint g c gd a b dep := by
  intro x
  simp only [spreadTaint]
  split <;> exact ⟨rfl, rfl, rfl⟩

/-- A change of the issuing group that leaves it as it is. -/
theorem OnLanes.step {s s' : State} {c : Issue} {g : Group} (h : OnLanes s c g) (hs : s'.groups = s.groups) (hc : s'.cur = s.cur)
    {f : Group → Group} (hf : KeepsKey f) (hg : f g = g) : OnLanes (updMember s' c.who f) c g := by
  have hf' : (updMember s' c.who f).groups.find? (fun x => x.kc = g.kc ∧ x.core = g.core ∧ x.idx = g.idx) = some g := by
    rw [h.who]
    have := find_updGroup (s := s') (kc := g.kc) (core := g.core) (idx := g.idx) hf g.kc g.core g.idx
    rw [hs, h.here] at this
    simpa [updMember, hg] using this
  have hm : memberGroup (updMember s' c.who f) c.who = memberGroup s c.who := by
    rw [h.group, h.who, memberGroup, groupOf, ← h.who, hf']; rfl
  exact ⟨by rw [updMember_cur, hc]; exact h.cur, h.who, hf', h.normal, (poisonedIssue_of_group hm).trans h.clean⟩

theorem OnLanes.step_others {s s' : State} {c : Issue} {g : Group} (h : OnLanes s c g) (hs : s'.groups = s.groups)
    {f : Group → Group} (hf : KeepsKey f) (kc core idx : Nat) (hne : Member.group kc core idx ≠ c.who) :
    groupOf (updMember s' c.who f) kc core idx = groupOf s kc core idx := by
  rw [← groupOf_of_groups hs]
  rw [h.who] at hne ⊢
  exact groupOf_updGroup_other hf (by rintro ⟨rfl, rfl, rfl⟩; exact hne rfl)

/-- The change of a group's registers and poison marks. -/
theorem keepsKey_regs (r : Group → GroupRegs) (p : Group → List Nat) : KeepsKey fun g => { g with regs := r g, poison := p g } :=
  fun _ => ⟨rfl, rfl, rfl⟩

/-- What retireWrites does to the group before it moves on. -/
def writeGroup (c : Issue) (la : Nat) (dst : List Nat) (ws : List RegWrite) (fs : List (Nat × Flags6)) (g : Group) : Group :=
  if la = 0 || g.runAhead.isSome then
    { g with regs := putFlags (putWrites g.regs ws) fs, poison := unmark g.poison (writeMarks ws) }
  else { g with flights := g.flights ++ [newFlight g c la dst ws [] fs none] }

theorem retireWrites_eq (s : State) (c : Issue) (la : Nat) (dst : List Nat) (ws : List RegWrite) (fs : List (Nat × Flags6)) :
    retireWrites s c la dst ws fs = retireTo s c [⟨nextPc c, c.prio, c.mask, none⟩] (writeGroup c la dst ws fs) := rfl

theorem keepsKey_writes (c : Issue) (la : Nat) (dst : List Nat) (ws : List RegWrite) (fs : List (Nat × Flags6)) :
    KeepsKey (writeGroup c la dst ws fs) := by
  intro x
  simp only [writeGroup]
  split <;> exact ⟨rfl, rfl, rfl⟩

theorem regs_of_rest {r q : GroupRegs} (h : { r with v := q.v } = q) : r.p = q.p ∧ r.g = q.g ∧ r.lstat = q.lstat ∧ r.ct = q.ct ∧
    r.snapTime = q.snapTime ∧ r.snapLclk = q.snapLclk ∧ r.snapEctx = q.snapEctx ∧ r.frontier = q.frontier := by
  rw [← h]; exact ⟨rfl, rfl, rfl, rfl, rfl, rfl, rfl, rfl⟩

theorem regs_of_lstat {r q : GroupRegs} (h : { r with lstat := q.lstat } = q) : r.v = q.v ∧ r.p = q.p ∧ r.g = q.g ∧ r.ct = q.ct ∧
    r.snapTime = q.snapTime ∧ r.snapLclk = q.snapLclk ∧ r.snapEctx = q.snapEctx ∧ r.frontier = q.frontier := by
  rw [← h]; exact ⟨rfl, rfl, rfl, rfl, rfl, rfl, rfl, rfl⟩

theorem regs_of_p {r q : GroupRegs} (h : { r with p := q.p } = q) : r.v = q.v ∧ r.lstat = q.lstat ∧ r.g = q.g ∧ r.ct = q.ct ∧
    r.snapTime = q.snapTime ∧ r.snapLclk = q.snapLclk ∧ r.snapEctx = q.snapEctx ∧ r.frontier = q.frontier := by
  rw [← h]; exact ⟨rfl, rfl, rfl, rfl, rfl, rfl, rfl, rfl⟩

/-- Register writes of lanes that retire at once: each lane its own writes W, and its flags F. -/
theorem laneRegs_retireWrites {s s' : State} {c : Issue} {g : Group} (h : OnLanes s c g) (hs : s'.groups = s.groups)
    {act act' : List Nat} (hn : act.Nodup) (W : Nat → List RegWrite) (F : Nat → Flags6)
    (hW : ∀ l ∈ act, ∀ w ∈ W l, w.lane = l ∧ w.reg < 64) (dst : List Nat) (e : Effect)
    (hv : ∀ lane r, r < 64 → (if lane ∈ act then vGet (putWrites g.regs (W lane)) lane r else vGet g.regs lane r) =
      (e.v lane r).getD (vGet g.regs lane r))
    (hp : ∀ lane k, e.p lane k = none) (hg : ∀ r, e.g r = none)
    (hfl : ∀ lane, (if lane ∈ act' then F lane else 0) = e.flags lane)
    (hgo : e.goes = fun _ => (nextPc c, c.prio)) :
    LaneRegs s (retireWrites s' c 0 dst (act.flatMap W) (act'.map fun l => (l, F l))) c e := by
  have a1 := putWrites_rest g.regs (act.flatMap W)
  have a2 := putFlags_rest (putWrites g.regs (act.flatMap W)) (act'.map fun l => (l, F l))
  obtain ⟨b1, b2, b3, b4, b5, b6, b7, b8⟩ := regs_of_rest a1
  obtain ⟨d1, d2, d3, d4, d5, d6, d7, d8⟩ := regs_of_lstat a2
  refine laneRegs_retireTo h hs _ (keepsKey_writes c 0 dst _ _) ?_ e ?_ ?_ ?_ ?_ ?_ ?_ (inside_next c _) ?_
  · simp only [writeGroup, decide_true, Bool.true_or, if_true]
  · intro lane r hr
    simp only [writeGroup, decide_true, Bool.true_or, if_true]
    rw [← hv lane r hr, vGet, d1]
    exact vGet_putWrites_lanes W hr hn hW
  · intro lane k
    simp only [writeGroup, decide_true, Bool.true_or, if_true]
    rw [hp, lanePred, d2, b1]; rfl
  · intro r
    simp only [writeGroup, decide_true, Bool.true_or, if_true]
    rw [hg, gGet, d3, b2]; rfl
  · intro lane
    simp only [writeGroup, decide_true, Bool.true_or, if_true]
    rw [lstat_putFlags, b3, hfl]
  · simp only [writeGroup, decide_true, Bool.true_or, if_true]
    rw [d4, d5, d6, d7, b4, b5, b6, b7]
    exact ⟨rfl, rfl, rfl, rfl⟩
  · intro lane hl
    rw [hgo]
    exact covers_next c hl
  · simp only [writeGroup, decide_true, Bool.true_or, if_true]
    rw [d8, b8]

/-- The parts of the state that retiring lanes leave alone. -/
theorem onlyGroups_retireTo {s s' : State} (h : { s' with groups := s.groups, cur := s.cur, fresh := s.fresh } = s) (c : Issue)
    (new : List Entry) (f : Group → Group) : OnlyGroups s (retireTo s' c new f) := by
  rw [retireTo_eq]
  cases hw : c.who with
  | spine kc => rw [← h]; rfl
  | group kc core idx => rw [← h]; rfl

theorem onlyMembers_retireTo {s s' : State} (h : { s' with groups := s.groups, kcs := s.kcs, cur := s.cur, fresh := s.fresh } = s)
    (c : Issue) (new : List Entry) (f : Group → Group) : OnlyMembers s (retireTo s' c new f) := by
  rw [retireTo_eq]
  cases hw : c.who with
  | spine kc => rw [← h]; rfl
  | group kc core idx => rw [← h]; rfl

theorem retireTo_kcs (s : State) (c : Issue) (new : List Entry) (f : Group → Group) : (retireTo s c new f).kcs = s.kcs := by
  rw [retireTo_eq, endIssue_kcs, updMember_kcs]

theorem spruesOk_iff {s : State} {c : Issue} {ks : List Nat} :
    spruesOk s c ks = true ↔ ∀ k ∈ ks, k < (kcOf s (memberKc c.who)).cfgSprue := by simp [spruesOk]

/-- A sprue register that a kernel cluster has is one of a kernel cluster that is there. -/
theorem present_of_counted {s : State} {kc k : Nat} (h : k < (kcOf s kc).cfgSprue) : ∃ q, s.kcs.find? (fun x => x.id = kc) = some q := by
  cases hf : s.kcs.find? (fun x => x.id = kc) with
  | some q => exact ⟨q, rfl⟩
  | none => simp [kcOf, hf, kcNone] at h

theorem sprueBecomes_dedup {s : State} {kc : Nat} {l : List Nat} (h : ∀ k ∈ l, k < (kcOf s kc).cfgSprue) :
    SprueBecomes s (consumeAll s kc (dedup l)) kc fun j q => if j ∈ dedup l then consumed q else q := by
  cases hl : l with
  | nil =>
    simp only [dedup, List.not_mem_nil, if_false]
    exact SprueBecomes.refl s kc
  | cons a rest =>
    obtain ⟨q, hq⟩ := present_of_counted (h a (by simp [hl]))
    exact sprueBecomes_consumeAll hq _ (nodup_dedup _)

/-- On lanes the destination is never a sprue register. -/
theorem operands_sprue_lanes (srcs : List Src) (dst : Dst) :
    (operands srcs dst).flatMap (srcSprue false) = srcs.flatMap (srcSprue false) := by
  cases dst with
  | reg d w old => cases old <;> simp [operands, srcSprue]
  | pred pd old => cases old <;> simp [operands, srcSprue]

theorem allSrcs_eq (o : RegOp) : o.allSrcs = operands o.srcs o.dst := by
  obtain ⟨g, srcs, dst, la, lo, sg, one, cross, dep⟩ := o
  cases dst with
  | reg d w old => cases old <;> rfl
  | pred pd old => cases old <;> rfl

theorem laneSrc_congr {s s' : State} (h : s'.fresh = s.fresh) (k : Kc) (g : Group) (tag lane : Nat) (src : Src) :
    laneSrc s' k g tag lane src = laneSrc s k g tag lane src := by
  cases src <;> simp only [laneSrc, readV, h]

/-- A read of sprue registers changes them and what the member has acquired, and nothing else. -/
theorem readSprues_only (s : State) (c : Issue) (ks : List Nat) :
    { readSprues s c ks with kcs := s.kcs } = acquired s c.who ks := by
  have h := consumeAll_kcs_only s (memberKc c.who) ks
  simp only [readSprues, acquired]
  split
  · rfl
  · cases hw : c.who with
    | spine kc => rw [hw] at h; exact h
    | group kc core idx =>
      rw [hw] at h
      exact congrArg (fun x : State => acquireSwaps x (.group kc core idx)) h

theorem readSprues_kcs (s : State) (c : Issue) (ks : List Nat) :
    (readSprues s c ks).kcs = (consumeAll s (memberKc c.who) ks).kcs := by
  simp only [readSprues]
  split
  · next h => rw [List.isEmpty_iff.mp h]; rfl
  · cases c.who <;> rfl

theorem acquired_groups (s : State) (m : Member) (ks : List Nat) : (acquired s m ks).groups = s.groups := by
  simp only [acquired]; split
  · rfl
  · cases m <;> rfl

theorem acquired_cur (s : State) (m : Member) (ks : List Nat) : (acquired s m ks).cur = s.cur := by
  simp only [acquired]; split
  · rfl
  · cases m <;> rfl

theorem readSprues_groups (s : State) (c : Issue) (ks : List Nat) : (readSprues s c ks).groups = s.groups :=
  (congrArg State.groups (readSprues_only s c ks)).trans (acquired_groups s c.who ks)

theorem readSprues_cur (s : State) (c : Issue) (ks : List Nat) : (readSprues s c ks).cur = s.cur :=
  (congrArg State.cur (readSprues_only s c ks)).trans (acquired_cur s c.who ks)

theorem onlyMembers_updMember (s t : State) (m : Member) (f : Group → Group) :
    { updMember t m f with groups := s.groups, kcs := s.kcs, cur := s.cur, fresh := s.fresh } =
      { t with groups := s.groups, kcs := s.kcs, cur := s.cur, fresh := s.fresh } := by cases m <;> rfl

theorem onlyMembers_readSprues (s : State) (c : Issue) (ks : List Nat) :
    { readSprues s c ks with
      groups := (acquired s c.who ks).groups, kcs := (acquired s c.who ks).kcs, cur := (acquired s c.who ks).cur
      fresh := (acquired s c.who ks).fresh } = acquired s c.who ks := by
  have hk : (acquired s c.who ks).kcs = s.kcs := (congrArg State.kcs (readSprues_only s c ks)).symm
  have h := readSprues_only s c ks
  rw [hk, ← h]

/-- The destination of a legal instruction on lanes. -/
theorem dst_bound {budget : Nat} {d : RegField} {w old : Bool} (h : dstOk false budget (.reg d w old) = true) :
    if w then d.toNat + 1 < 64 else d.toNat < 64 := by
  cases w with
  | true =>
    simp only [dstOk, vOk, Bool.false_eq_true, if_false, if_true, Bool.and_eq_true, decide_eq_true_eq] at h
    simp only [if_true]; omega
  | false => simp only [Bool.false_eq_true, if_false]; omega

theorem regWrites_lane {d : Nat} {w : Bool} {l v : Nat} (hd : if w then d + 1 < 64 else d < 64) :
    ∀ x ∈ regWrites d w l v, x.lane = l ∧ x.reg < 64 := by
  cases w with
  | true =>
    simp only [if_true] at hd
    simp only [regWrites, if_true, List.mem_cons, List.not_mem_nil, or_false]
    rintro x (rfl | rfl)
    · exact ⟨rfl, by dsimp only; omega⟩
    · exact ⟨rfl, by dsimp only; omega⟩
  | false =>
    simp only [Bool.false_eq_true, if_false] at hd
    simp only [regWrites, Bool.false_eq_true, if_false, List.mem_cons, List.not_mem_nil, or_false]
    rintro x rfl
    exact ⟨rfl, hd⟩

/-- Lanes that are ready come to retire in a state U that holds the group unchanged, the sprue registers read having
been consumed; R is each active lane's result. -/
theorem runReg_lanes_ready {s : State} {c : Issue} {g : Group} (o : RegOp) (h : OnLanes s c g) (hr : LanesReady s c g o.g o.srcs o.dst)
    (R : Nat → Nat × Flags6)
    (hR : o.results g.width ((activeLanes g c o.g).map fun l => (l, laneVals s g (operands o.srcs o.dst) l)) =
      (activeLanes g c o.g).map fun l => (l, (R l).1, (R l).2)) :
    ∃ U, OnLanes U c g ∧
      (∀ kc core idx, Member.group kc core idx ≠ c.who → groupOf U kc core idx = groupOf s kc core idx) ∧
      (∀ new f, OnlyMembers (acquired s c.who (spruesRead false (operands o.srcs o.dst))) (retireTo U c new f) ∧
        SprueBecomes s (retireTo U c new f) g.kc
          (fun k r => if k ∈ spruesRead false (operands o.srcs o.dst) then consumed r else r)) ∧
      runReg s c o = match o.dst with
        | .reg d w _ => retireWrites U c o.la (dstV o.dst) ((activeLanes g c o.g).flatMap fun l => regWrites d.toNat w l (R l).1)
            ((activeLanes g c o.g).map fun l => (l, (R l).2))
        | .pred pd _ => retireLanes U c fun x =>
            { x with
              regs := putFlags ((activeLanes g c o.g).foldl (fun r l => setLanePred r l pd (decide ((R l).1 ≠ 0))) x.regs)
                ((activeLanes g c o.g).map fun l => (l, (R l).2))
              poison := unmark x.poison ((activeLanes g c o.g).map fun l => pMark l pd.toNat) } := by
  obtain ⟨hl, hcnt, hfull, hclean, hset1, hset2⟩ := hr
  have hsp := h.notSpine
  have hgr := h.group
  have hdst : dstSprue false o.dst = [] := by cases o.dst <;> rfl
  have hchk : runReg s c o = runOnLanes s c o := by
    rw [runReg, hsp]
    refine (checked_ok ?_ h.clean).trans (by simp)
    simp only [List.mem_cons, List.not_mem_nil, or_false]
    rintro e (rfl | rfl | rfl)
    · rfl
    · simp [hgr, hl]
    · have : spruesOk s c (o.srcs.flatMap (srcSprue false) ++ dstSprue false o.dst) = true := by
        rw [spruesOk_iff, h.kc, hdst, List.append_nil]; exact hcnt
      simp [this]
  rw [hchk]
  have hsprues : dedup (o.allSrcs.flatMap (srcSprue false)) = spruesRead false (operands o.srcs o.dst) := by
    rw [allSrcs_eq]; rfl
  have hcnt' : ∀ k ∈ (operands o.srcs o.dst).flatMap (srcSprue false), k < (kcOf s g.kc).cfgSprue := by
    rw [operands_sprue_lanes]; exact hcnt
  have hnf : (spruesRead false (operands o.srcs o.dst)).find? (fun i => !readable (kcOf s g.kc) i) = none := by
    rw [List.find?_eq_none]
    intro i hi
    simp [(hfull i hi).1]
  have hnp : ((spruesRead false (operands o.srcs o.dst)).any fun i => (sprueGet (kcOf s g.kc) i).poison) = false := by
    rw [List.any_eq_false]
    intro i hi
    simp [(hfull i hi).2]
  have hno : (!(spruesRead false (operands o.srcs o.dst)).isEmpty && hasWaiting g) = false := by
    rcases hset2 with h0 | h0 <;> simp [h0]
  have hset1' : (g.flights.any fun f => writesTo (dstV o.dst) f) = false := hset1
  have hbec := sprueBecomes_dedup hcnt'
  change SprueBecomes s (consumeAll s g.kc (spruesRead false (operands o.srcs o.dst))) g.kc
    (fun j q => if j ∈ spruesRead false (operands o.srcs o.dst) then consumed q else q) at hbec
  rw [runOnLanes]
  simp only [hgr, h.kc, hsprues, hnf, hnp, h.normal, Option.isSome_none, Bool.and_false, Bool.false_eq_true, if_false]
  rw [allSrcs_eq, hclean]
  simp only [List.isEmpty_nil, Bool.not_true, Bool.false_eq_true, if_false, afterFlights, hno, hset1', Bool.not_false, if_true, hgr]
  have hvals : ((activeLanes g c o.g).map fun l => (l, (operands o.srcs o.dst).zipIdx.map fun q => laneSrc s (kcOf s g.kc) g q.2 l q.1)) =
      (activeLanes g c o.g).map fun l => (l, laneVals s g (operands o.srcs o.dst) l) := rfl
  rw [hvals, hR]
  generalize spruesRead false (operands o.srcs o.dst) = L at *
  generalize (operands o.srcs o.dst).flatMap srcCodes = T
  -- the state in which lanes retire
  have hS : OnLanes (updMember (readSprues s c L) c.who fun g => spreadTaint g c o.g T (dstCodes o.dst) o.dep) c g :=
    h.step (readSprues_groups s c L) (readSprues_cur s c L) (keepsKey_spread _ _ _ _ _) (spreadTaint_none h.normal _ _ _ _ _)
  have hoth := h.step_others (readSprues_groups s c L) (keepsKey_spread c o.g T (dstCodes o.dst) o.dep)
  have key : ∀ new f, OnlyMembers (acquired s c.who L) (retireTo (updMember (readSprues s c L) c.who
        fun g => spreadTaint g c o.g T (dstCodes o.dst) o.dep) c new f) ∧
      SprueBecomes s (retireTo (updMember (readSprues s c L) c.who
        fun g => spreadTaint g c o.g T (dstCodes o.dst) o.dep) c new f) g.kc (fun k r => if k ∈ L then consumed r else r) := by
    intro new f
    refine ⟨onlyMembers_retireTo ?_ c new f, hbec.of_kcs rfl ?_⟩
    · rw [onlyMembers_updMember]
      exact onlyMembers_readSprues s c L
    · rw [retireTo_kcs, updMember_kcs, readSprues_kcs, h.kc]
  generalize hU : (updMember (readSprues s c L) c.who fun g => spreadTaint g c o.g T (dstCodes o.dst) o.dep) = U at *
  refine ⟨U, hS, hoth, key, ?_⟩
  have hw2 : (((activeLanes g c o.g).map fun l => (l, (R l).1, (R l).2)).map fun r => (r.1, r.2.2)) =
        (activeLanes g c o.g).map fun l => (l, (R l).2) := by rw [List.map_map]; rfl
  cases hd : o.dst with
  | reg d w old =>
    have hw1 : (((activeLanes g c o.g).map fun l => (l, (R l).1, (R l).2)).flatMap fun r => regWrites d.toNat w r.1 r.2.1) =
        (activeLanes g c o.g).flatMap fun l => regWrites d.toNat w l (R l).1 := by rw [List.flatMap_map]
    dsimp only
    rw [hw1, hw2]
  | pred pd old =>
    have hw3 : ∀ r0 : GroupRegs, (((activeLanes g c o.g).map fun l => (l, (R l).1, (R l).2)).foldl
        (fun r x => setLanePred r x.1 pd (decide (x.2.1 ≠ 0))) r0) =
        (activeLanes g c o.g).foldl (fun r l => setLanePred r l pd (decide ((R l).1 ≠ 0))) r0 := by
      intro r0; rw [List.foldl_map]
    have hw4 : (((activeLanes g c o.g).map fun l => (l, (R l).1, (R l).2)).map fun x => pMark x.1 pd.toNat) =
        (activeLanes g c o.g).map fun l => pMark l pd.toNat := by rw [List.map_map]; rfl
    simp only [hw2, hw3, hw4]

/-- What runReg does on lanes when everything is ready, with the result at once: R is each active lane's result. -/
theorem runReg_lanes {s : State} {c : Issue} {g : Group} (o : RegOp) (h : OnLanes s c g) (hr : LanesReady s c g o.g o.srcs o.dst)
    (hla : o.la = 0) (R : Nat → Nat × Flags6)
    (hR : o.results g.width ((activeLanes g c o.g).map fun l => (l, laneVals s g (operands o.srcs o.dst) l)) =
      (activeLanes g c o.g).map fun l => (l, (R l).1, (R l).2)) :
    OnlyMembers (acquired s c.who (spruesRead false (operands o.srcs o.dst))) (runReg s c o) ∧
      SprueBecomes s (runReg s c o) g.kc (fun k r => if k ∈ spruesRead false (operands o.srcs o.dst) then consumed r else r) ∧
      LaneRegs s (runReg s c o) c (resultEffect c (activeLanes g c o.g) o.dst R) := by
  obtain ⟨U, hS, hoth, key, heq⟩ := runReg_lanes_ready o h hr R hR
  have hl := hr.legal
  rw [heq]
  generalize spruesRead false (operands o.srcs o.dst) = L at *
  have hm : memberGroup U c.who = memberGroup s c.who := by rw [hS.group, h.group]
  cases hd : o.dst with
  | reg d w old =>
    have hb : if w then d.toNat + 1 < 64 else d.toNat < 64 := by
      rw [hd, Bool.and_eq_true] at hl
      exact dst_bound hl.2
    refine ⟨(key _ _).1, (key _ _).2, ?_⟩
    dsimp only
    rw [hla]
    refine (laneRegs_retireWrites hS rfl (nodup_active g c o.g) (fun l => regWrites d.toNat w l (R l).1) (fun l => (R l).2)
      (fun l _ => regWrites_lane hb) _ _ ?_ (fun _ _ => rfl) (fun _ => rfl) (fun lane => rfl) rfl).of_same hm hoth
    intro lane r hr64
    simp only [resultEffect]
    by_cases hmem : lane ∈ activeLanes g c o.g
    · rw [if_pos hmem, if_pos hmem, vGet_regWrites _ _ _ _ _ _ hr64 hb]
    · rw [if_neg hmem, if_neg hmem]; rfl
  | pred pd old =>
    have hpd : pd ≠ 0 := by
      rw [hd, Bool.and_eq_true] at hl
      simpa [dstOk] using hl.2
    refine ⟨(key _ _).1, (key _ _).2, ?_⟩
    have a1 := predFold_rest (r := g.regs) (act := activeLanes g c o.g) (fun l => decide ((R l).1 ≠ 0)) pd
    obtain ⟨b1, b2, b3, b4, b5, b6, b7, b8⟩ := regs_of_p a1
    have a2 := putFlags_rest ((activeLanes g c o.g).foldl (fun r l => setLanePred r l pd (decide ((R l).1 ≠ 0))) g.regs)
      ((activeLanes g c o.g).map fun l => (l, (R l).2))
    obtain ⟨d1, d2, d3, d4, d5, d6, d7, d8⟩ := regs_of_lstat a2
    refine (laneRegs_retireTo hS rfl _ (keepsKey_regs (fun x => putFlags ((activeLanes g c o.g).foldl
      (fun r l => setLanePred r l pd (decide ((R l).1 ≠ 0))) x.regs) ((activeLanes g c o.g).map fun l => (l, (R l).2)))
      fun x => unmark x.poison ((activeLanes g c o.g).map fun l => pMark l pd.toNat)) rfl _ ?_ ?_ ?_ ?_ ?_ ?_
      (inside_next c _) (d8.trans b8)).of_same hm hoth
    · intro lane r _
      rw [vGet, d1, b1]; rfl
    · intro lane k
      have hx := lanePred_fold (r := g.regs) (act := activeLanes g c o.g) (fun l => decide ((R l).1 ≠ 0)) pd hpd lane k
      have hy : lanePred (putFlags ((activeLanes g c o.g).foldl (fun r l => setLanePred r l pd (decide ((R l).1 ≠ 0))) g.regs)
          ((activeLanes g c o.g).map fun l => (l, (R l).2))) lane k =
          if lane ∈ activeLanes g c o.g ∧ k = pd then decide ((R lane).1 ≠ 0) else lanePred g.regs lane k := by
        rw [← hx, lanePred, d2]; rfl
      refine hy.trans ?_
      simp only [resultEffect]
      split <;> rfl
    · intro r
      rw [gGet, d3, b3]; rfl
    · intro lane
      rw [lstat_putFlags, b2]; rfl
    · rw [d4, d5, d6, d7, b4, b5, b6, b7]
      exact ⟨rfl, rfl, rfl, rfl⟩
    · intro lane hlane
      exact covers_next c hlane

/-- With a lookahead the result stays in flight. -/
theorem runReg_lanes_later {s : State} {c : Issue} {g : Group} (o : RegOp) (h : OnLanes s c g) {d : RegField}
    (hd : o.dst = .reg d false false) (hr : LanesReady s c g o.g o.srcs (.reg d false false)) (hla : o.la ≠ 0) (hx : o.cross = none) :
    OnlyMembers (acquired s c.who (spruesRead false o.srcs)) (runReg s c o) ∧
      SprueBecomes s (runReg s c o) g.kc (fun k r => if k ∈ spruesRead false o.srcs then consumed r else r) ∧
      LaneRegs s (runReg s c o) c (Effect.none c) ∧
      ∃ f ∈ (memberGroup (runReg s c o) c.who).flights, f.issue = c ∧ f.ask = none ∧ f.gwrites = [] ∧
        f.writes = (activeLanes g c o.g).flatMap (fun l => regWrites d.toNat false l (o.one (laneVals s g o.srcs l)).1) ∧
        f.flags = (activeLanes g c o.g).map fun l => (l, (o.one (laneVals s g o.srcs l)).2) := by
  have hops : operands o.srcs o.dst = o.srcs := by rw [hd]; simp [operands]
  rw [← hd] at hr
  obtain ⟨U, hS, hoth, key, heq⟩ := runReg_lanes_ready o h hr (fun l => o.one (laneVals s g o.srcs l)) (by
    simp only [RegOp.results, hx, hops, List.map_map]; rfl)
  rw [heq, hd]
  rw [hops] at key
  have hcond : (decide (o.la = 0) || g.runAhead.isSome) = false := by simp [hla, h.normal]
  have hm : memberGroup U c.who = memberGroup s c.who := by rw [hS.group, h.group]
  refine ⟨(key _ _).1, (key _ _).2, ?_, ?_⟩
  · refine (laneRegs_retireTo hS rfl _ (keepsKey_writes c o.la _ _ _) ?_ (Effect.none c) ?_ ?_ ?_ ?_ ?_ ?_
      (inside_next c _) (by simp [writeGroup, hcond])).of_same hm hoth
    · simp [writeGroup, hcond]
    · intro lane r _
      simp [writeGroup, hcond, Effect.none]
    · intro lane k
      simp [writeGroup, hcond, Effect.none]
    · intro r
      simp [writeGroup, hcond, Effect.none]
    · intro lane
      simp [writeGroup, hcond, Effect.none]
    · simp [writeGroup, hcond]
    · intro lane hlane
      exact covers_next c hlane
  · have hgm : memberGroup (retireWrites U c o.la (dstV (.reg d false false))
        ((activeLanes g c o.g).flatMap fun l => regWrites d.toNat false l (o.one (laneVals s g o.srcs l)).1)
        ((activeLanes g c o.g).map fun l => (l, (o.one (laneVals s g o.srcs l)).2))) c.who = retiredGroup g c [⟨nextPc c, c.prio, c.mask, none⟩]
        (writeGroup c o.la (dstV (.reg d false false)) ((activeLanes g c o.g).flatMap fun l => regWrites d.toNat false l (o.one (laneVals s g o.srcs l)).1)
        ((activeLanes g c o.g).map fun l => (l, (o.one (laneVals s g o.srcs l)).2))) :=
      hS.upd rfl (keepsKey_retired c _ (keepsKey_writes c o.la _ _ _))
    rw [hgm]
    have hfl : ∀ (new : List Entry) (F : Group → Group), (retiredGroup g c new F).flights = (moveEntry (countIssue (F g) c) c new).flights := by
      intro new F
      simp only [retiredGroup]
      split <;> rfl
    have hcf : ∀ x : Group, (countIssue x c).flights = x.flights ∨ (countIssue x c).flights = x.flights.map countFlight := by
      intro x
      simp only [countIssue]
      split
      · exact .inl rfl
      · split
        · exact .inl rfl
        · exact .inr rfl
    rw [hfl, moveEntry]
    rcases hcf (writeGroup c o.la (dstV (.reg d false false)) ((activeLanes g c o.g).flatMap fun l =>
      regWrites d.toNat false l (o.one (laneVals s g o.srcs l)).1)
      ((activeLanes g c o.g).map fun l => (l, (o.one (laneVals s g o.srcs l)).2)) g) with hc | hc
    all_goals
      dsimp only
      rw [hc]
      simp only [writeGroup, hcond, Bool.false_eq_true, if_false, List.map_append, List.mem_append, List.map_cons, List.map_nil,
        List.mem_singleton]
      refine ⟨_, .inr rfl, ?_⟩
      split <;> (try split) <;> exact ⟨rfl, rfl, rfl, rfl, rfl⟩

/-! ### On the spine -/

theorem kcOf_updSpine_same {s : State} {id : Nat} {f : Spine → Spine} {k : Kc} (h : s.kcs.find? (fun x => x.id = id) = some k) :
    kcOf (updSpine s id f) id = { k with spine := f k.spine } :=
  kcOf_updKc_same (f := fun k => { k with spine := f k.spine }) (fun _ => rfl) h

theorem find_updSpine_same {s : State} {id : Nat} {f : Spine → Spine} {k : Kc} (h : s.kcs.find? (fun x => x.id = id) = some k) :
    (updSpine s id f).kcs.find? (fun x => x.id = id) = some { k with spine := f k.spine } :=
  find_updKc_same (f := fun k => { k with spine := f k.spine }) (fun _ => rfl) h

theorem kcOf_updSpine_other {s : State} {id id' : Nat} {f : Spine → Spine} (h : id' ≠ id) :
    kcOf (updSpine s id f) id' = kcOf s id' :=
  kcOf_updKc_other (f := fun k => { k with spine := f k.spine }) (fun _ => rfl) h

/-- What a retiring spine instruction does: f changed the spine of k; S holds k with other sprue registers. -/
theorem spineRegs_retireTo {s S : State} {c : Issue} {k : Kc} (h : OnSpine s c k) {q : AMap SprueReg}
    (hS : S.kcs.find? (fun x => x.id = k.id) = some { k with sprue := q })
    (ho : ∀ id, id ≠ k.id → kcOf S id = kcOf s id) (pc : VAddr) (f : Spine → Spine)
    (x : Nat → Option DWord) (p : PredNo → Option Bool) (fl : Flags6)
    (hx : ∀ r, xGet (f k.spine) r = if r = 0 then 0 else (x r).getD (xGet k.spine r))
    (hp : ∀ j, spinePred (f k.spine) j = (p j).getD (spinePred k.spine j))
    (hfl : (f k.spine).lstat = k.spine.lstat ||| fl)
    (hf : { f k.spine with x := k.spine.x, p := k.spine.p, lstat := k.spine.lstat, poison := k.spine.poison } = k.spine) :
    SpineRegs s (retireSpineTo S c pc f) k.id x p fl pc := by
  have hk : kcOf (retireSpineTo S c pc f) k.id = { k with
      sprue := q, spine := { f k.spine with pc := pc, wait := none, crit := (f k.spine).crit.map (· + 1) } } := by
    rw [retireSpineTo, kcOf_of_kcs (endIssue_kcs _ c), h.id]
    exact (kcOf_updSpine_same hS)
  constructor <;> (try rw [hk]) <;> (try rw [h.kc])
  · intro r
    exact hx r
  · intro j
    exact hp j
  · exact hfl
  · exact congrArg (fun y : Spine => { y with pc := k.spine.pc, wait := k.spine.wait, crit := k.spine.crit }) hf
  · intro id hid
    rw [retireSpineTo, kcOf_of_kcs (endIssue_kcs _ c), h.id, ← ho id hid]
    exact kcOf_updSpine_other hid

/-- The sprue registers that a retiring spine instruction leaves. -/
theorem sprue_retireSpineTo {s S : State} {c : Issue} {k : Kc} (h : OnSpine s c k) {q : AMap SprueReg}
    (hS : S.kcs.find? (fun x => x.id = k.id) = some { k with sprue := q }) (pc : VAddr) (f : Spine → Spine)
    {G : Nat → SprueReg → SprueReg} (hG : SprueBecomes s S k.id G) :
    SprueBecomes s (updSpine (retireSpineTo S c pc f) k.id fun _ => k.spine) k.id G := by
  have hk1 : (retireSpineTo S c pc f).kcs.find? (fun x => x.id = k.id) = some { k with
      sprue := q, spine := { f k.spine with pc := pc, wait := none, crit := (f k.spine).crit.map (· + 1) } } := by
    rw [retireSpineTo, endIssue_kcs, h.id]
    exact (find_updSpine_same hS)
  have hk : kcOf (updSpine (retireSpineTo S c pc f) k.id fun _ => k.spine) k.id = kcOf S k.id := by
    rw [kcOf_find hS]
    exact (kcOf_updSpine_same hk1)
  refine ⟨fun j => ?_, ?_, fun id hid => ?_⟩
  · rw [hk]; exact hG.1 j
  · rw [hk]; exact hG.2.1
  · refine Eq.trans ?_ (hG.2.2 id hid)
    refine (kcOf_updSpine_other hid).trans ?_
    rw [retireSpineTo, kcOf_of_kcs (endIssue_kcs _ c), h.id]
    exact kcOf_updSpine_other hid

theorem onlyKcs_retireSpineTo {s S : State} (h : { S with kcs := s.kcs, cur := s.cur, fresh := s.fresh } = s) (c : Issue) (pc : VAddr)
    (f : Spine → Spine) : OnlyKcs s (retireSpineTo S c pc f) := by
  rw [← h]; rfl

theorem retireNop_spine {s : State} {c : Issue} {k : Kc} (h : OnSpine s c k) : retireNop s c = retireSpineTo s c (nextPc c) id := by
  rw [retireNop, h.who]; rfl

/-- A spine instruction that only goes on. -/
theorem spine_nop {s : State} {c : Issue} {k : Kc} (h : OnSpine s c k) :
    OnlyKcs s (retireNop s c) ∧ SprueBecomes s (updSpine (retireNop s c) k.id fun _ => k.spine) k.id (fun _ q => q) ∧
      SpineRegs s (retireNop s c) k.id (fun _ => none) (fun _ => none) 0 (nextPc c) := by
  rw [retireNop_spine h]
  have hS : s.kcs.find? (fun x => x.id = k.id) = some { k with sprue := k.sprue } := h.here
  refine ⟨onlyKcs_retireSpineTo rfl _ _ _, sprue_retireSpineTo h hS _ _ (SprueBecomes.refl s k.id),
    spineRegs_retireTo h hS (fun _ _ => rfl) _ _ _ _ _ ?_ (fun _ => rfl) ?_ rfl⟩
  · intro r
    by_cases hr : r = 0
    · simp [hr, xGet]
    · simp [hr]
  · simp

theorem xGet_result {sp : Spine} {d : Nat} {v : DWord} {fl : Flags6} (r : Nat) :
    xGet { xSet sp d v with lstat := fl } r = if r = 0 then 0 else (if r = d then some v else none).getD (xGet sp r) := by
  have := xGet_xSet sp d v r
  change xGet (xSet sp d v) r = _
  rw [this]
  by_cases h0 : r = 0
  · simp [h0]
  · by_cases hd : r = d <;> simp [h0, hd]

/-- The spine's decoding checks pass. -/
theorem runReg_spine_checks {s : State} {c : Issue} {k : Kc} (o : RegOp) (h : OnSpine s c k) (hlo : o.lanesOnly = false)
    (hr : SpineReady k o.srcs o.dst) : runReg s c o = runOnSpine s c o := by
  have hk := h.kc
  rw [runReg, h.spine, hlo]
  refine (checked_ok ?_ (poisonedIssue_spine h.spine)).trans (by simp)
  simp only [List.mem_cons, List.not_mem_nil, or_false]
  have hbud : ∀ b, (o.srcs.all (srcOk true b) && dstOk true b o.dst) = true := by
    intro b
    have hs : ∀ x : Src, srcOk true b x = srcOk true 0 x := by intro x; cases x <;> rfl
    have hd : dstOk true b o.dst = dstOk true 0 o.dst := by cases o.dst <;> rfl
    rw [hd, funext hs]
    exact hr.legal
  rintro e (rfl | rfl | rfl)
  · rfl
  · simp [hbud]
  · have : spruesOk s c (o.srcs.flatMap (srcSprue true) ++ dstSprue true o.dst) = true := by
      rw [spruesOk_iff, h.id, hk]; exact hr.counted
    simp [this]

/-- The spine's execution when its guard is true and nothing blocks. -/
theorem runOnSpine_ready {s : State} {c : Issue} {k : Kc} (o : RegOp) (h : OnSpine s c k)
    (hr : SpineReady k o.srcs o.dst) (hon : spinePred k.spine o.g = true) :
    runOnSpine s c o =
      match o.dst with
      | .pred pd _ => retireSpine (consumeAll s k.id (spruesRead true (operands o.srcs o.dst))) c fun sp =>
          { setSpinePred sp pd (decide ((o.one ((operands o.srcs o.dst).map (spineSrc k))).1 ≠ 0)) with
            lstat := sp.lstat ||| (o.one ((operands o.srcs o.dst).map (spineSrc k))).2 }
      | .reg d w _ =>
        if d.toNat < 32 then
          retireSpine (consumeAll s k.id (spruesRead true (operands o.srcs o.dst))) c fun sp =>
            { xSet sp d.toNat (spineResult w o.signed (o.one ((operands o.srcs o.dst).map (spineSrc k))).1) with
              lstat := sp.lstat ||| (o.one ((operands o.srcs o.dst).map (spineSrc k))).2 }
        else
          retireSpine (consumeAll (setSprue s k.id (d.toNat - 32) (written (sprueGet k (d.toNat - 32))
              (spineResult w o.signed (o.one ((operands o.srcs o.dst).map (spineSrc k))).1))) k.id
              (spruesRead true (operands o.srcs o.dst))) c fun sp =>
            { sp with lstat := sp.lstat ||| (o.one ((operands o.srcs o.dst).map (spineSrc k))).2 } := by
  have hk := h.kc
  have hsprues : dedup ((operands o.srcs o.dst).flatMap (srcSprue true)) = spruesRead true (operands o.srcs o.dst) := rfl
  have hnf : (spruesRead true (operands o.srcs o.dst)).find? (fun i => !readable k i) = none := by
    rw [List.find?_eq_none]
    intro i hi
    simp [(hr.full i hi).1]
  have hnp : ((spruesRead true (operands o.srcs o.dst)).any fun i => (sprueGet k i).poison) = false := by
    rw [List.any_eq_false]
    intro i hi
    simp [(hr.full i hi).2]
  have hnx : (((operands o.srcs o.dst).flatMap srcX).any fun r => k.spine.poison.contains r) = false := by
    rw [List.any_eq_false]
    intro r hr'
    simp only [hr.clean r hr', Bool.false_eq_true, not_false_eq_true]
  rw [runOnSpine]
  simp only [h.id, hk, hon, allSrcs_eq, hsprues, hnf, hnp, hnx, Bool.not_true, Bool.false_eq_true, if_false, Bool.or_self]
  cases hd : o.dst with
  | pred pd old => rfl
  | reg d w old =>
    dsimp only
    split
    · rfl
    · next hlt =>
      have hmem : d.toNat - 32 ∈ dstSprue true o.dst := by
        rw [hd]
        simp [dstSprue, spineSprue, show 32 ≤ d.toNat by omega]
      have hemp := hr.empty _ hmem
      simp only [ssetReg, hemp, Option.getD_some, Option.isSome_some, if_true]
      rfl

theorem spineRegs_pred {s S : State} {c : Issue} {k : Kc} (h : OnSpine s c k) {q : AMap SprueReg}
    (hS : S.kcs.find? (fun x => x.id = k.id) = some { k with sprue := q })
    (ho : ∀ id, id ≠ k.id → kcOf S id = kcOf s id) {pd : PredNo} (hpd : pd ≠ 0) (b : Bool) (fl : Flags6) :
    SpineRegs s (retireSpine S c fun sp => { setSpinePred sp pd b with lstat := sp.lstat ||| fl }) k.id (fun _ => none)
      (fun j => if j = pd then some b else none) fl (nextPc c) := by
  have hrest := setSpinePred_rest k.spine pd b
  refine spineRegs_retireTo h hS ho _ _ _ _ _ ?_ ?_ rfl ?_
  · intro r'
    have hx : (setSpinePred k.spine pd b).x = k.spine.x := by
      have := congrArg Spine.x hrest
      exact this
    by_cases hr0 : r' = 0
    · simp [hr0, xGet]
    · simp [hr0, xGet, hx]
  · intro j
    refine (spinePred_set k.spine pd b j hpd).trans ?_
    split <;> rfl
  · have h2 := congrArg (fun y : Spine => { y with lstat := k.spine.lstat, x := k.spine.x, poison := k.spine.poison }) hrest
    exact h2

theorem spineRegs_x {s S : State} {c : Issue} {k : Kc} (h : OnSpine s c k) {q : AMap SprueReg}
    (hS : S.kcs.find? (fun x => x.id = k.id) = some { k with sprue := q })
    (ho : ∀ id, id ≠ k.id → kcOf S id = kcOf s id) (d : Nat) (v : DWord) (fl : Flags6) :
    SpineRegs s (retireSpine S c fun sp => { xSet sp d v with lstat := sp.lstat ||| fl }) k.id
      (fun j => if j = d then some v else none) (fun _ => none) fl (nextPc c) := by
  have hrest := xSet_rest k.spine d v
  refine spineRegs_retireTo h hS ho _ _ _ _ _ (fun r' => xGet_result r') ?_ rfl ?_
  · intro j
    have : (xSet k.spine d v).p = k.spine.p := by
      have := congrArg Spine.p hrest
      exact this
    simp only [spinePred, this, Option.getD_none]
  · have h2 := congrArg (fun y : Spine => { y with lstat := k.spine.lstat, p := k.spine.p }) hrest
    exact h2

theorem spineRegs_flags {s S : State} {c : Issue} {k : Kc} (h : OnSpine s c k) {q : AMap SprueReg}
    (hS : S.kcs.find? (fun x => x.id = k.id) = some { k with sprue := q })
    (ho : ∀ id, id ≠ k.id → kcOf S id = kcOf s id) (fl : Flags6) :
    SpineRegs s (retireSpine S c fun sp => { sp with lstat := sp.lstat ||| fl }) k.id (fun _ => none) (fun _ => none) fl (nextPc c) := by
  refine spineRegs_retireTo h hS ho _ _ _ _ _ ?_ (fun _ => rfl) rfl rfl
  intro r'
  by_cases hr0 : r' = 0
  · simp [hr0, xGet]
  · rw [if_neg hr0]; rfl

theorem onlyKcs_of {s S : State} (h : { S with kcs := s.kcs } = s) : { S with kcs := s.kcs, cur := s.cur, fresh := s.fresh } = s := by
  have := congrArg (fun x : State => { x with cur := s.cur, fresh := s.fresh }) h
  exact this

/-- The sprue registers after a write of one and reads of others. -/
theorem sprue_set_consume {s : State} {k : Kc} (h : s.kcs.find? (fun x => x.id = k.id) = some k) (d : Nat) (v : DWord)
    {L : List Nat} (hnd : L.Nodup) (hd : d ∉ L) :
    SprueBecomes s (consumeAll (setSprue s k.id d (written (sprueGet k d) v)) k.id L) k.id
      (fun j q => if j ∈ L then consumed q else if j = d then written q v else q) := by
  have hset := sprueBecomes_set h d (written (sprueGet k d) v)
  have hbec2 := sprueBecomes_consumeAll (find_setSprue h d (written (sprueGet k d) v)) L hnd
  refine ⟨fun j => ?_, ?_, fun id hid => (hbec2.2.2 id hid).trans (hset.2.2 id hid)⟩
  · refine (hbec2.1 j).trans ?_
    rw [hset.1 j]
    dsimp only
    by_cases hj : j = d
    · subst hj
      rw [if_pos rfl, if_neg hd, if_neg hd, if_pos rfl, kcOf_find h]
    · rw [if_neg hj, if_neg hj]
  · have := congrArg (fun x : Kc => { x with sprue := (kcOf s k.id).sprue }) hbec2.2.1
    exact this.trans hset.2.1

/-- What runReg does on the spine when everything is ready. -/
theorem runReg_spine {s : State} {c : Issue} {k : Kc} (o : RegOp) (h : OnSpine s c k) (hlo : o.lanesOnly = false)
    (hr : SpineReady k o.srcs o.dst) :
    OnlyKcs s (runReg s c o) ∧
      (let on := spinePred k.spine o.g
       let r := o.one ((operands o.srcs o.dst).map (spineSrc k))
       SprueBecomes s (updSpine (runReg s c o) k.id fun _ => k.spine) k.id (fun j q =>
         if on = true ∧ j ∈ spruesRead true (operands o.srcs o.dst) then consumed q
         else match o.dst with
           | .reg d w _ => if on = true ∧ j + 32 = d.toNat then written q (spineResult w o.signed r.1) else q
           | .pred .. => q) ∧
       SpineRegs s (runReg s c o) k.id
         (fun j => match o.dst with
           | .reg d w _ => if on = true ∧ j = d.toNat ∧ j < 32 then some (spineResult w o.signed r.1) else none
           | .pred .. => none)
         (fun q => match o.dst with
           | .pred pd _ => if on = true ∧ q = pd then some (decide (r.1 ≠ 0)) else none
           | .reg .. => none)
         (if on then r.2 else 0) (nextPc c)) := by
  rw [runReg_spine_checks o h hlo hr]
  cases hon : spinePred k.spine o.g with
  | false =>
    have hrun : runOnSpine s c o = retireNop s c := by
      rw [runOnSpine]
      simp only [h.id, h.kc, hon, Bool.not_false, if_true]
    rw [hrun]
    obtain ⟨n1, n2, n3⟩ := spine_nop h
    refine ⟨n1, ?_, ?_⟩
    · simp only [Bool.false_eq_true, false_and, if_false]
      cases o.dst <;> exact n2
    · simp only [Bool.false_eq_true, false_and, if_false]
      cases o.dst <;> exact n3
  | true =>
    rw [runOnSpine_ready o h hr hon]
    simp only [true_and, if_true]
    have hnd : (spruesRead true (operands o.srcs o.dst)).Nodup := nodup_dedup _
    have hbec := sprueBecomes_consumeAll h.here (spruesRead true (operands o.srcs o.dst)) hnd
    obtain ⟨q0, hq0⟩ := consumeAll_find h.here (spruesRead true (operands o.srcs o.dst))
    have honly := onlyKcs_of (consumeAll_kcs_only s k.id (spruesRead true (operands o.srcs o.dst)))
    have hLfull : ∀ i ∈ spruesRead true (operands o.srcs o.dst), isFull (sprueGet k i) = true := fun i hi => by
      have h1 := (hr.full i hi).1
      rw [readable, Bool.and_eq_true] at h1
      exact h1.1
    have hl := hr.legal
    have hempty := hr.empty
    generalize o.one ((operands o.srcs o.dst).map (spineSrc k)) = r
    generalize spruesRead true (operands o.srcs o.dst) = L at *
    rw [Bool.and_eq_true] at hl
    cases hd : o.dst with
    | pred pd old =>
      have hpd : pd ≠ 0 := by
        have := hl.2
        rw [hd] at this
        simpa [dstOk] using this
      exact ⟨onlyKcs_retireSpineTo honly _ _ _, sprue_retireSpineTo h hq0 _ _ hbec, spineRegs_pred h hq0 hbec.2.2 hpd _ _⟩
    | reg d w old =>
      dsimp only
      by_cases hd32 : d.toNat < 32
      · rw [if_pos hd32]
        refine ⟨onlyKcs_retireSpineTo honly _ _ _, ?_, ?_⟩
        · have hG : (fun (j : Nat) (q : SprueReg) => if j ∈ L then consumed q
              else if j + 32 = d.toNat then written q (spineResult w o.signed r.1) else q) =
              fun j q => if j ∈ L then consumed q else q := by
            funext j q
            rw [if_neg (show ¬ j + 32 = d.toNat by omega)]
          rw [hG]
          exact sprue_retireSpineTo h hq0 _ _ hbec
        · have hG : (fun (j : Nat) => if j = d.toNat ∧ j < 32 then some (spineResult w o.signed r.1) else none) =
              fun j => if j = d.toNat then some (spineResult w o.signed r.1) else none := by
            funext j
            by_cases hj : j = d.toNat
            · rw [if_pos ⟨hj, by omega⟩, if_pos hj]
            · rw [if_neg (fun hh => hj hh.1), if_neg hj]
          rw [hG]
          exact spineRegs_x h hq0 hbec.2.2 _ _ _
      · rw [if_neg hd32]
        have hmem : d.toNat - 32 ∈ dstSprue true o.dst := by
          rw [hd]
          simp [dstSprue, spineSprue, show 32 ≤ d.toNat by omega]
        have hnotL : d.toNat - 32 ∉ L := by
          intro hi
          have h1 := hLfull _ hi
          rw [isFull, hempty _ hmem] at h1
          simp at h1
        have hall := sprue_set_consume h.here (d.toNat - 32) (spineResult w o.signed r.1) hnd hnotL
        obtain ⟨q1, hq1⟩ := consumeAll_find (find_setSprue h.here (d.toNat - 32)
          (written (sprueGet k (d.toNat - 32)) (spineResult w o.signed r.1))) L
        have h0 := congrArg (fun x : State => { x with kcs := s.kcs }) (consumeAll_kcs_only (setSprue s k.id (d.toNat - 32)
          (written (sprueGet k (d.toNat - 32)) (spineResult w o.signed r.1))) k.id L)
        have honly2 : { consumeAll (setSprue s k.id (d.toNat - 32)
            (written (sprueGet k (d.toNat - 32)) (spineResult w o.signed r.1))) k.id L with
            kcs := s.kcs, cur := s.cur, fresh := s.fresh } = s := onlyKcs_of h0
        refine ⟨onlyKcs_retireSpineTo honly2 _ _ _, ?_, ?_⟩
        · have hG : (fun (j : Nat) (q : SprueReg) => if j ∈ L then consumed q
              else if j + 32 = d.toNat then written q (spineResult w o.signed r.1) else q) =
              fun j q => if j ∈ L then consumed q else if j = d.toNat - 32 then written q (spineResult w o.signed r.1) else q := by
            funext j q
            by_cases hj : j = d.toNat - 32
            · rw [if_pos (show j + 32 = d.toNat by omega), if_pos hj]
            · rw [if_neg (show ¬ j + 32 = d.toNat by omega), if_neg hj]
          rw [hG]
          exact sprue_retireSpineTo h hq1 _ _ hall
        · have hG : (fun (j : Nat) => if j = d.toNat ∧ j < 32 then some (spineResult w o.signed r.1) else none) =
              fun _ => none := by
            funext j
            rw [if_neg (by omega)]
          rw [hG]
          exact spineRegs_flags h hq1 hall.2.2 _

end Sys2Proof.Machine
end

