-- ==== Sys2Proof/Laws/Memory.lean ====
section
/-! SUPPORT. Device memory: what a read gives after each operation, and that every operation keeps the canonical
form of the memory's list. -/

namespace Sys2Proof.Machine

/-! ### Single operations: what they change -/

@[simp] theorem noteStore_mem (s : State) (pa n : Nat) : (noteStore s pa n).mem = s.mem := by
  unfold noteStore
  split
  · rfl
  · dsimp only; split <;> rfl

@[simp] theorem memWrite_mem (s : State) (pa : Nat) (bytes : List Byte) : (memWrite s pa bytes).mem = putBytes s.mem pa bytes := by
  simp [memWrite]

@[simp] theorem memWriteNat_mem (s : State) (pa n v : Nat) : (memWriteNat s pa n v).mem = putBytes s.mem pa (natToBytes n v) := by
  simp [memWriteNat]

/-- A read of a byte after a write: the byte written there, else what was there. -/
theorem memByte_memWrite (s : State) (pa : Nat) (bytes : List Byte) (a : Nat) :
    memByte (memWrite s pa bytes) a = if pa ≤ a ∧ a < pa + bytes.length then bytes.getD (a - pa) 0 else memByte s a := by
  simp only [memByte, memWrite_mem]; exact amGet_putBytes s.mem pa bytes a

theorem memByte_memWrite_outside (s : State) (pa : Nat) (bytes : List Byte) {a : Nat} (h : a < pa ∨ pa + bytes.length ≤ a) :
    memByte (memWrite s pa bytes) a = memByte s a := by
  simp only [memByte, memWrite_mem]; exact amGet_putBytes_outside s.mem pa bytes h

/-- A byte after a frame is scrubbed. -/
theorem memByte_zeroFrame (s : State) (f a : Nat) : memByte (zeroFrame s f) a = if a / 65536 = f then 0 else memByte s a := by
  have h := amGet_amKeep (0 : Byte) (fun k => decide (k / 65536 ≠ f)) s.mem a
  simp only [amKeep] at h
  simp only [memByte, zeroFrame]
  rw [h]
  by_cases hf : a / 65536 = f <;> simp [hf]

/-! ### The canonical form -/

theorem memWrite_wf {s : State} (pa : Nat) (bytes : List Byte) (h : Memory.wf s.mem) : Memory.wf (memWrite s pa bytes).mem := by
  rw [memWrite_mem]; exact amWf_putBytes pa bytes h

theorem memWriteNat_wf {s : State} (pa n v : Nat) (h : Memory.wf s.mem) : Memory.wf (memWriteNat s pa n v).mem :=
  memWrite_wf pa _ h

theorem zeroFrame_wf {s : State} (f : Nat) (h : Memory.wf s.mem) : Memory.wf (zeroFrame s f).mem := amWf_filter _ h

theorem touch_wf {s : State} (c : Ctx) (d : DieNo) (h : Memory.wf s.mem) : Memory.wf (touch s c d).mem := by
  simp only [touch]
  split
  · exact h
  · exact amWf_putNat _ _ _ h

theorem ctxWrite_wf {s : State} (c : Ctx) (pa : Nat) (cls : BitVec 2) (bytes : List Byte) (h : Memory.wf s.mem) :
    Memory.wf (ctxWrite s c pa cls bytes).mem := by
  simp only [ctxWrite]
  split
  · exact memWrite_wf pa bytes (touch_wf c _ h)
  · exact memWrite_wf pa bytes h

theorem leftDie_wf {s : State} (k : Kc) (h : Memory.wf s.mem) : Memory.wf (leftDie s k).mem := by
  simp only [leftDie]
  split
  · split
    · exact amWf_putNat _ _ _ h
    · exact h
  · exact h

theorem allocate_wf {s t : State} {c : Ctx} {va pte : Nat} {cls : BitVec 2} (h : Memory.wf s.mem) (ht : allocate s c va pte cls = .ok t) :
    Memory.wf t.mem := by
  simp only [allocate] at ht
  split at ht
  · cases ht
  · split at ht
    · cases ht
    · injection ht with ht
      subst ht
      exact memWriteNat_wf _ _ _ (memWriteNat_wf _ _ _ (zeroFrame_wf _ h))

theorem addDrops_wf {s : State} (q : BitVec 8) (n : Nat) (h : Memory.wf s.mem) : Memory.wf (addDrops s q n).mem := amWf_putNat _ _ _ h

theorem untouchIfIdle_wf {s : State} (asid : Asid) (h : Memory.wf s.mem) : Memory.wf (untouchIfIdle s asid).mem := by
  simp only [untouchIfIdle]
  split
  · exact h
  · split
    · exact amWf_putNat _ _ _ h
    · exact h

theorem untouch_wf {s : State} (d : DieNo) (h : Memory.wf s.mem) : Memory.wf (untouch s d).mem := by
  have key : ∀ (cs : List Ctx) (s : State), Memory.wf s.mem → Memory.wf (cs.foldl (fun s c =>
      let w := memNat s (c.desc + 0x58) 1
      if w.testBit d.toNat then { s with mem := putNat s.mem (c.desc + 0x58) 1 (w - 2 ^ d.toNat) } else s) s).mem := by
    intro cs
    induction cs with
    | nil => exact fun _ h => h
    | cons c cs ih =>
      intro s h
      refine ih _ ?_
      dsimp only
      split
      · exact amWf_putNat _ _ _ h
      · exact h
  exact key s.ctxs _ h

theorem copyFrame_wf {s : State} (src dst : Nat) (h : Memory.wf s.mem) : Memory.wf (copyFrame s src dst).mem :=
  amWf_setAll _ (zeroFrame_wf dst h)

/-- Steps that each keep the form keep it together. -/
theorem fold_wf {β : Type} (f : State → β → State) (hf : ∀ s b, Memory.wf s.mem → Memory.wf (f s b).mem) (l : List β) :
    ∀ s, Memory.wf s.mem → Memory.wf (l.foldl f s).mem := by
  induction l with
  | nil => exact fun _ h => h
  | cons b l ih => exact fun s h => ih _ (hf s b h)

theorem writeImage_wf {s : State} (k : Kc) (status : Byte) (h : Memory.wf s.mem) : Memory.wf (writeImage s k status).mem := by
  unfold writeImage bump
  generalize imageBase s k = base
  generalize imageLayout s k = lay
  generalize imageHeader s k status _ = header
  dsimp only
  apply fold_wf
  · intro s b hs
    exact amWf_putBytes (base + b.2) (blockBytes b.1) hs
  · apply fold_wf
    · intro s b hs
      exact amWf_putNat (base + 64 + 8 * b.2) 8 (dirEntry b.1) hs
    · exact amWf_putBytes base header h

theorem flrQueue_mem (s : State) (e : Nat × QueueEntry) :
    (flrQueue s e).mem = putNat (putNat s.mem e.2.cb 16 0) (e.2.cb + 0x18) 8 0 := by
  simp only [flrQueue]

theorem flrQueue_wf {s : State} (e : Nat × QueueEntry) (h : Memory.wf s.mem) : Memory.wf (flrQueue s e).mem := by
  rw [flrQueue_mem]
  generalize 0x18 = k
  exact amWf_putNat _ _ _ (amWf_putNat _ _ _ h)

/-- Three entries and bytes written one after the other. -/
theorem tables_wf {m : AMap Byte} (h : Memory.wf m) (a b c d n x y z : Nat) (bytes : List Byte) :
    Memory.wf (putBytes (putNat (putNat (putNat m a n x) b n y) c n z) d bytes) :=
  amWf_putBytes d bytes (amWf_putNat c n z (amWf_putNat b n y (amWf_putNat a n x h)))

theorem placedMem_wf (nbits w : Nat) {m : AMap Byte} (h : Memory.wf m) : Memory.wf (placedMem nbits w m) := by
  unfold placedMem
  exact tables_wf h _ _ _ _ _ _ _ _ _

theorem withFetchWord_wf {s : State} (nbits w : Nat) (h : Memory.wf s.mem) : Memory.wf (s.withFetchWord nbits w).mem := by
  unfold State.withFetchWord placeWord'
  exact placedMem_wf nbits w h

/-- Reset memory lists nothing. -/
theorem reset_mem_wf : Memory.wf State.reset.mem := by decide

end Sys2Proof.Machine
end

