-- ==== Sys2Proof/Laws/Rules.lean ====
section
/-! SUPPORT. From what runReg does to the rules of single instructions: a register instruction satisfies Computes for any
result function that agrees with its own on values that fit the operands. -/

namespace Sys2Proof.Machine

/-- A bound on the value a source can have. -/
def srcBound : Src → Nat
  | .reg _ w => if w then 2 ^ 64 else 2 ^ 32
  | .sel _ w => if w then 2 ^ 64 else 2 ^ 32
  | .imm n => n + 1
  | .pred _ => 2

/-- Values that fit their sources, one for each. -/
def Fits (srcs : List Src) (vals : List Nat) : Prop := List.Forall₂ (fun src v => v < srcBound src) srcs vals

theorem laneSrc_bound (s : State) (k : Kc) (g : Group) (tag lane : Nat) (src : Src) : laneSrc s k g tag lane src < srcBound src := by
  cases src with
  | reg f w =>
    cases w with
    | true => simp only [laneSrc, srcBound, if_true]; exact BitVec.isLt _
    | false => simp only [laneSrc, srcBound, Bool.false_eq_true, if_false]; exact BitVec.isLt _
  | sel b w =>
    cases w with
    | true =>
      simp only [laneSrc, srcBound, if_true]
      split
      · exact BitVec.isLt _
      · split <;> exact BitVec.isLt _
    | false =>
      simp only [laneSrc, srcBound, Bool.false_eq_true, if_false]
      split
      · exact BitVec.isLt _
      · split <;> exact BitVec.isLt _
  | imm n => simp [laneSrc, srcBound]
  | pred p => simp only [laneSrc, srcBound]; split <;> omega

theorem spineField_bound (k : Kc) (f : Nat) (w : Bool) : spineField k f w < if w then 2 ^ 64 else 2 ^ 32 := by
  cases w with
  | true =>
    simp only [spineField, if_true]
    split <;> exact BitVec.isLt _
  | false =>
    simp only [spineField, Bool.false_eq_true, if_false]
    exact Nat.mod_lt _ (by decide)

theorem spineSrc_bound (k : Kc) (src : Src) : spineSrc k src < srcBound src := by
  cases src with
  | reg f w => exact spineField_bound k f.toNat w
  | sel b w => exact spineField_bound k b.toNat w
  | imm n => simp [spineSrc, srcBound]
  | pred p => simp only [spineSrc, srcBound]; split <;> omega

theorem fits_map {srcs : List Src} {f : Src → Nat} (h : ∀ x, f x < srcBound x) : Fits srcs (srcs.map f) := by
  induction srcs with
  | nil => exact .nil
  | cons x xs ih => exact .cons (h x) ih

theorem fits_laneVals (s : State) (g : Group) (srcs : List Src) (lane : Nat) : Fits srcs (laneVals s g srcs lane) := by
  have : ∀ (n : Nat), Fits srcs ((srcs.zipIdx n).map fun q => laneSrc s (kcOf s g.kc) g q.2 lane q.1) := by
    induction srcs with
    | nil => intro n; exact .nil
    | cons x xs ih =>
      intro n
      rw [List.zipIdx_cons, List.map_cons]
      exact .cons (laneSrc_bound _ _ _ _ _ _) (ih _)
  exact this 0

/-- The rule of an instruction with one result per lane. -/
theorem lanesCompute_of {i : Instr} {srcs : List Src} {dst : Dst} {gd : PredNo} {res : List Nat → Nat × Flags6} (o : RegOp)
    (hex : ∀ s, exec i s = issueBy s fun c => runReg s c o) (h1 : o.g = gd) (h2 : o.srcs = srcs) (h3 : o.dst = dst)
    (hla : o.la = 0) (hx : o.cross = none)
    (hres : ∀ vals, Fits (operands srcs dst) vals → o.one vals = res vals) :
    LanesCompute i gd srcs dst (fun _ _ vals lane => res (vals lane)) := by
  subst h1; subst h2; subst h3
  intro s c g h hr
  refine ⟨runReg s c o, (hex s).trans (issueBy_some h.cur), ?_⟩
  refine runReg_lanes o h hr hla (fun l => res (laneVals s g (operands o.srcs o.dst) l)) ?_
  simp only [RegOp.results, hx, List.map_map]
  apply List.map_congr_left
  intro l _
  simp only [Function.comp, hres _ (fits_laneVals s g _ l)]

/-- The rule of an instruction on the spine. -/
theorem spineComputes_of {i : Instr} {srcs : List Src} {dst : Dst} {gd : PredNo} {signed : Bool} {res : List Nat → Nat × Flags6} (o : RegOp)
    (hex : ∀ s, exec i s = issueBy s fun c => runReg s c o) (h1 : o.g = gd) (h2 : o.srcs = srcs) (h3 : o.dst = dst)
    (h4 : o.signed = signed) (hlo : o.lanesOnly = false)
    (hres : ∀ vals, Fits (operands srcs dst) vals → o.one vals = res vals) :
    SpineComputes i gd srcs dst signed res := by
  subst h1; subst h2; subst h3; subst h4
  intro s c k h hr
  refine ⟨runReg s c o, (hex s).trans (issueBy_some h.cur), ?_⟩
  have := runReg_spine o h hlo hr
  rw [hres _ (fits_map (spineSrc_bound k))] at this
  exact this

/-- The rule of an instruction of both units. -/
theorem computes_of {i : Instr} {srcs : List Src} {dst : Dst} {gd : PredNo} {signed : Bool} {res : List Nat → Nat × Flags6} (o : RegOp)
    (hex : ∀ s, exec i s = issueBy s fun c => runReg s c o) (h1 : o.g = gd) (h2 : o.srcs = srcs) (h3 : o.dst = dst)
    (h4 : o.signed = signed) (hla : o.la = 0) (hx : o.cross = none) (hlo : o.lanesOnly = false)
    (hres : ∀ vals, Fits (operands srcs dst) vals → o.one vals = res vals) :
    Computes i gd srcs dst signed res :=
  ⟨lanesCompute_of o hex h1 h2 h3 hla hx hres, spineComputes_of o hex h1 h2 h3 h4 hlo hres⟩

/-- The rule of a lane-crossing instruction: the result of a lane from all active lanes' values. -/
theorem lanesCompute_cross {i : Instr} {srcs : List Src} {dst : Dst} {gd : PredNo}
    {res : Nat → List Nat → (Nat → List Nat) → Nat → Nat × Flags6} (o : RegOp)
    (hex : ∀ s, exec i s = issueBy s fun c => runReg s c o) (h1 : o.g = gd) (h2 : o.srcs = srcs) (h3 : o.dst = dst)
    (hla : o.la = 0)
    (hres : ∀ width (act : List Nat) (vals : Nat → List Nat), (∀ l, Fits (operands srcs dst) (vals l)) →
      o.results width (act.map fun l => (l, vals l)) = act.map fun l => (l, (res width act vals l).1, (res width act vals l).2)) :
    LanesCompute i gd srcs dst res := by
  subst h1; subst h2; subst h3
  intro s c g h hr
  refine ⟨runReg s c o, (hex s).trans (issueBy_some h.cur), ?_⟩
  exact runReg_lanes o h hr hla _ (hres _ _ _ (fits_laneVals s g _))

/-- The rule of a long-latency register instruction with a lookahead. -/
theorem lanesLater_of {i : Instr} {srcs : List Src} {d : RegField} {gd : PredNo} {res : List Nat → Nat × Flags6} (o : RegOp)
    (hex : ∀ s, exec i s = issueBy s fun c => runReg s c o) (h1 : o.g = gd) (h2 : o.srcs = srcs) (h3 : o.dst = .reg d false false)
    (hla : o.la ≠ 0) (hx : o.cross = none) (hres : ∀ vals, Fits srcs vals → o.one vals = res vals) :
    LanesComputeLater i gd srcs d res := by
  subst h1; subst h2
  intro s c g h hr
  refine ⟨runReg s c o, (hex s).trans (issueBy_some h.cur), ?_⟩
  have := runReg_lanes_later o h h3 hr hla hx
  have he : ∀ l, o.one (laneVals s g o.srcs l) = res (laneVals s g o.srcs l) := fun l => hres _ (fits_laneVals s g _ l)
  simp only [he] at this
  exact this

end Sys2Proof.Machine
end

