-- ==== Sys2Proof/Tests/Slice0.lean ====
section
/-! SUPPORT. Tests: words of the spec's worked encodings, ill-formed instructions that are refused, values of the spec's
examples, and a concrete state and operands for the hypotheses of each statement. -/

namespace Sys2Proof.Tests

open Sys2Proof Sys2Proof.Machine Sys2Proof.Claims

/-! ### Small states -/

/-- A grid of one kernel cluster. -/
def mould0 : Mould := ⟨0, 0, [0, 0, 0, 0], [], 1, 1, 0, 0, 1, 0, 1, 1, 1, 16, 32, 0, true, 0, 0, 0, []⟩
def grid0 : Grid := ⟨0, 1, ⟨List.replicate 64 0, 0, 1, 0, []⟩, mould0, 1, 1, 1, [0], 1, 0, 0, 0, false, [], false⟩

/-- One kernel cluster: a spine and a group of width 8 on core 0 of die 0; virtual page 0 lies in frame 4. -/
def base : State := { State.reset.withFetchWord 32 0x0D with agenda := [], grids := [grid0] }
def g0 : Group := groupOf base 1 0 0
def k0 : Kc := { placedKc 1 with sprue := [(3, ⟨7, .full 1, 1, 0, 0, 0, false⟩), (31, ⟨0, .filling 1, 2, 1, 0, 0, false⟩)] }
def t0 : Team := teamOf base 1 0
def c0 : Ctx := ctxOf base 1

def lanes : Issue := ⟨.group 1 0 0, 0, 0, 0xFF, 0x0D, 4, false⟩
def spine : Issue := ⟨.spine 1, 0, 0, 1, 0x0D, 4, false⟩

/-- The group issues; it, the kernel cluster and the team are as given. -/
def laneState (g : Group) (k : Kc) (t : Team) : State := { base with cur := some lanes, groups := [g], kcs := [k], teams := [t] }
def spineState (k : Kc) : State := { base with cur := some spine, kcs := [k] }
def onL : State := laneState g0 k0 t0
def onS : State := spineState k0

theorem lanes_here : OnLanes onL lanes g0 := ⟨rfl, by decide, by decide, by decide, by decide⟩
theorem spine_here : OnSpine onS spine k0 := ⟨rfl, by decide, by decide⟩

/-- A group, kernel cluster or team in place of those of `onL`. -/
theorem lanes_with (g : Group) (k : Kc) (t : Team) (h : g.kc = 1 ∧ g.core = 0 ∧ g.idx = 0) (hr : g.runAhead = none)
    (hc : poisonedIssue (laneState g k t) lanes = [] := by decide) : OnLanes (laneState g k t) lanes g :=
  ⟨rfl, by simp [lanes, h], by simp [laneState], hr, hc⟩
theorem spine_with (k : Kc) (h : k.id = 1) : OnSpine (spineState k) spine k := ⟨rfl, by simp [spine, h], by simp [spineState]⟩

/-- No mark in the group's registers, none at its issue. -/
theorem clean_of (s : State) (g : Group) (h : memberGroup s lanes.who = g) (hp : g.poison = []) : poisonedIssue s lanes = [] := by
  simp [poisonedIssue, h, hp]

/-! ### Words of the spec's worked encodings (R65 to R87 and the tables of each family) -/

theorem test_decode_integer : decodeTableWord 32 0x40C21C01 = some (.addsS32 ⟨0, false, 7, 2, 3⟩) ∧
    decodeTableWord 32 0x830A4003 = some (.dot2S16 ⟨0, 16, 10, 12⟩) ∧ decodeTableWord 32 0x66104807 = some (.shrrS32 ⟨0, 18, 16, 24⟩) ∧
    decodeTableWord 32 0xA4D26407 = some (.packS16 ⟨0, 25, 18, 19⟩) := by decide
theorem test_decode_immediates : decodeTableWord 32 0xFFC41009 = some (.addi ⟨0, false, 4, 4, 0x3FF⟩) ∧
    decodeTableWord 32 0xFFFE240B = some (.movl ⟨0, 9, 0xFFFE⟩) ∧ decodeTableWord 32 0x1234260B = some (.movh ⟨0, 9, 0x1234⟩) ∧
    decodeTableWord 32 0x0A83080F = some (.shriS ⟨0, false, 2, 3, 5⟩) := by decide
theorem test_decode_half : decodeTableWord 16 0x2862 = some (.addHalf ⟨5, 3⟩) ∧ decodeTableWord 16 0x2192 = some (.mulF32Half ⟨4, 12⟩) := by
  decide
theorem test_decode_compares : decodeTableWord 32 0x00C24413 = some (.fcmpLt ⟨0, false, 1, 2, 3, 0⟩) ∧
    decodeTableWord 32 0x01C8C611 = some (.icmpLtN ⟨0, true, 1, 8, 7, 0⟩) ∧
    decodeTableWord 32 0x81C61415 = some (.sel ⟨0, false, 5, 6, 7, 4⟩) ∧ decodeTableWord 32 0x00022C17 = some (.pand ⟨0, 3, 1, 2⟩) := by decide
theorem test_decode_float : decodeTableWord 32 0x61442819 = some (.fmaF32 ⟨0, false, 10, 4, 5⟩) ∧
    decodeTableWord 32 0x4047181D = some (.rsqrtF32 ⟨0, 6, 7, 4⟩) ∧
    decodeTableWord 32 0x124D301F = some (.cvtE4m3F32 ⟨0, 12, 13, 0, true⟩) := by decide
theorem test_decode_control : decodeTableWord 32 0x00180C25 = some (.rdc ⟨0, 3, 0x18⟩) ∧ decodeTableWord 32 0x02050825 = some (.v2g ⟨0, 2, 5⟩) ∧
    decodeTableWord 32 0x0006147F = some (.br ⟨1, 5, 6⟩) ∧ decodeTableWord 32 0x02001E3F = some (.call ⟨0, 7, 0x200⟩) ∧
    decodeTableWord 32 0x0002540D = some (.prio ⟨0, 9⟩) ∧ decodeTableWord 32 0x000A8C0D = some (.trap ⟨0, 0x2A⟩) ∧
    decodeTableWord 32 0xFFFFC40D = some (.yield ⟨0xFFF, 63⟩) ∧ decodeTableWord 32 0x0000180D = some .critOn ∧
    decodeTableWord 32 0x0000200D = some .gstep := by decide
theorem test_decode_crossing : decodeTableWord 32 0x50451821 = some (.sldUpZ ⟨0, false, 6, 5, 65⟩) ∧
    decodeTableWord 32 0x8547_2421 = some (.sldDnZ ⟨0, false, 9, 7, 21⟩) ∧ decodeTableWord 32 0x20078C23 = some (.raddF32 ⟨0, 35, 7⟩) := by decide
theorem test_decode_matrix : decodeTableWord 32 0x2410023B = some (.mma ⟨0, 16, true, 0, 2, 2⟩) ∧
    decodeTableWord 32 0x1642A23D = some (.drainRc ⟨40, 2, 1, true, 1⟩) := by decide
theorem test_decode_memory : decodeTableWord 32 0x06861427 = some (.ld ⟨0, false, 5, 6, 2, 3, 0⟩) ∧
    decodeTableWord 32 0x00C22029 = some (.st ⟨0, 8, 2, 3, 0, 0⟩) ∧ decodeTableWord 32 0x444B2A27 = some (.ld ⟨0, true, 10, 11, 1, 2, 4⟩) ∧
    decodeTableWord 32 0x0482042B = some (.ldAcq ⟨0, 1, 2, 2, 2, 0⟩) ∧ decodeTableWord 32 0x0E82042B = some (.stRel ⟨0, 1, 2, 2, 3, 0⟩) ∧
    decodeTableWord 32 0x0080002D = some (.fenceDevice ⟨0⟩) ∧ decodeTableWord 32 0x0182002D = some (.fenceRp ⟨0, 2⟩) := by decide
theorem test_decode_atomics : decodeTableWord 32 0x0402102F = some (.atomAdd ⟨0, false, 4, 2, 2, false, 0⟩) ∧
    decodeTableWord 32 0x20491E2F = some (.atomAddf ⟨0, true, 7, 9, 0, false, 2⟩) ∧
    decodeTableWord 32 0x0FC2102F = some (.atomCas ⟨0, false, 4, 2, 3, true, 0⟩) := by decide
theorem test_decode_pages : decodeTableWord 32 0x10021031 = some (.apres ⟨0, 4, 2, 1⟩) ∧ decodeTableWord 32 0x02021431 = some (.apcmt ⟨0, 5, 2, 0⟩) ∧
    decodeTableWord 32 0x04C21831 = some (.apst ⟨0, 6, 2, 3, 0⟩) ∧ decodeTableWord 32 0x06421431 = some (.sealW ⟨0, 5, 2, 0⟩) ∧
    decodeTableWord 32 0x08021431 = some (.tailrd ⟨0, 5, 2, 0⟩) ∧ decodeTableWord 32 0x0A022031 = some (.twatch ⟨0, 8, 2, 0⟩) := by decide
theorem test_decode_work : decodeTableWord 32 0x10080C33 = some (.wpop ⟨0, 3, 8, 1⟩) ∧ decodeTableWord 32 0x02080C33 = some (.wsteal ⟨0, 3, 8, 0⟩) ∧
    decodeTableWord 32 0x04080C33 = some (.wpush ⟨0, 3, 8, 0⟩) ∧ decodeTableWord 32 0x06061433 = some (.wdepDec ⟨0, 5, 6, 0⟩) ∧
    decodeTableWord 32 0x06461433 = some (.wdepAdd ⟨0, 5, 6, 0⟩) ∧ decodeTableWord 32 0x08000833 = some (.wqryDeque ⟨0, 2, 0⟩) := by decide
theorem test_decode_sprue : decodeTableWord 32 0x00091039 = some (.sget ⟨0, 4, 9, 0⟩) ∧ decodeTableWord 32 0x00C10839 = some (.sarm ⟨0, 2, 1, 0⟩) ∧
    decodeTableWord 32 0x11091839 = some (.sacc ⟨0, 6, 9, 1⟩) := by decide
theorem test_decode_barriers : decodeTableWord 32 0x01920035 = some (.arv ⟨0, 2, 3⟩) ∧ decodeTableWord 32 0x00221435 = some (.wait ⟨0, 5, 2⟩) ∧
    decodeTableWord 32 0x00510035 = some (.step ⟨0, 1, 0⟩) := by decide
theorem test_decode_ladle : decodeTableWord 32 0x24422837 = some (.lcpy8 ⟨0, 10, 2, 1, 2⟩) ∧
    decodeTableWord 32 0x00840237 = some (.lxfr ⟨0, 4, 2, 0⟩) ∧ decodeTableWord 32 0x0C802637 = some (.lwp ⟨0, 9, 2, 0⟩) := by decide

/-- Reserved codes are refused: a load of size code 5 or 7, an immediate shift by the operand width, the halfword 0. -/
theorem test_decode_reserved : decodeTableWord 32 0x07461427 = none ∧ decodeTableWord 32 0x4083080F = none ∧
    decodeTableWord 16 0 = none := by decide

/-! ### Ill-formed instructions (R93): one term for each check -/

theorem test_illFormed_zeros : (Instr.movHalf ⟨0, 0⟩).wellFormed = false := by decide
theorem test_illFormed_shifts : (Instr.shli ⟨0, false, 1, 2, 32⟩).wellFormed = false ∧ (Instr.shriN ⟨0, true, 2, 4, 64⟩).wellFormed = false ∧
    (Instr.shriS ⟨0, false, 1, 2, 127⟩).wellFormed = false ∧ (Instr.shrriS ⟨0, false, 1, 2, 32⟩).wellFormed = false ∧
    (Instr.rotli ⟨0, true, 2, 4, 64⟩).wellFormed = false ∧ (Instr.rotli ⟨0, true, 2, 4, 63⟩).wellFormed = true := by decide
theorem test_illFormed_compares : (Instr.icmpEq ⟨0, false, 1, 2, 3, 6⟩).wellFormed = false ∧ (Instr.icmpGeN ⟨0, false, 0, 2, 3, 0⟩).wellFormed = false ∧
    (Instr.fcmpLt ⟨0, false, 1, 2, 3, 7⟩).wellFormed = false ∧ (Instr.fcmpNum ⟨0, false, 0, 2, 3, 5⟩).wellFormed = false := by decide
theorem test_illFormed_predicates : (Instr.pand ⟨0, 0, 1, 2⟩).wellFormed = false ∧ (Instr.por ⟨0, 0, 1, 2⟩).wellFormed = false ∧
    (Instr.pxor ⟨0, 0, 1, 2⟩).wellFormed = false ∧ (Instr.pandn ⟨0, 0, 1, 2⟩).wellFormed = false ∧ (Instr.pnot ⟨0, 0, 1⟩).wellFormed = false ∧
    (Instr.pmov ⟨0, 0, 1⟩).wellFormed = false := by decide
theorem test_illFormed_control : (Instr.rdc ⟨0, 1, 0x09⟩).wellFormed = false ∧ (Instr.wrc ⟨0, 1, 0x33⟩).wellFormed = false := by decide
theorem test_illFormed_memory : (Instr.ld ⟨0, false, 1, 2, 5, 0, 0⟩).wellFormed = false ∧ (Instr.ld ⟨0, false, 1, 2, 2, 6, 0⟩).wellFormed = false ∧
    (Instr.ld ⟨0, true, 1, 2, 2, 0, 0⟩).wellFormed = false ∧ (Instr.st ⟨0, 1, 2, 5, 0, 0⟩).wellFormed = false ∧
    (Instr.st ⟨0, 1, 2, 2, 7, 0⟩).wellFormed = false ∧ (Instr.ldAcq ⟨0, 1, 2, 5, 0, 0⟩).wellFormed = false ∧
    (Instr.stRel ⟨0, 1, 2, 7, 0, 0⟩).wellFormed = false ∧ (Instr.apst ⟨0, 1, 2, 1, 0⟩).wellFormed = false := by decide
theorem test_illFormed_atomics : (Instr.atomAdd ⟨0, true, 1, 2, 1, false, 0⟩).wellFormed = false ∧
    (Instr.atomAddf ⟨0, true, 1, 2, 1, false, 0⟩).wellFormed = false ∧ (Instr.atomMin ⟨0, true, 1, 2, 2, false, 0⟩).wellFormed = false ∧
    (Instr.atomMax ⟨0, true, 1, 2, 2, false, 0⟩).wellFormed = false ∧ (Instr.atomAnd ⟨0, true, 1, 2, 3, false, 0⟩).wellFormed = false ∧
    (Instr.atomOr ⟨0, true, 1, 2, 3, false, 0⟩).wellFormed = false ∧ (Instr.atomExch ⟨0, true, 1, 2, 1, false, 0⟩).wellFormed = false ∧
    (Instr.atomCas ⟨0, true, 1, 2, 1, false, 0⟩).wellFormed = false := by decide
theorem test_illFormed_others : (Instr.step ⟨0, 1, 8⟩).wellFormed = false ∧ (Instr.mma ⟨0, 16, false, 0, 7, 0⟩).wellFormed = false := by decide

/-! ### Witnesses: register instructions. A pair, a g register, a FULL sprue register, v63, p7 and an EMPTY sprue
destination each occur. -/

theorem ready_lanes : LanesReady onL lanes g0 0 [.reg 2 true, .sel 4 true] (.reg 62 true false) :=
  ⟨by decide, by decide, by decide, by decide, by decide⟩
theorem ready_lanes_read : LanesReady onL lanes g0 0 [.reg 2 true, .sel 64 true] (.reg 62 true true) :=
  ⟨by decide, by decide, by decide, by decide, by decide⟩
theorem ready_lanes_sprue : LanesReady onL lanes g0 0 [.reg 2 false, .sel 99 false] (.reg 63 false false) :=
  ⟨by decide, by decide, by decide, by decide, by decide⟩
theorem ready_lanes_sprue_read : LanesReady onL lanes g0 0 [.reg 63 false, .sel 99 false] (.reg 0 false true) :=
  ⟨by decide, by decide, by decide, by decide, by decide⟩
theorem ready_lanes_one : LanesReady onL lanes g0 0 [.reg 63 false] (.reg 0 false false) := ⟨by decide, by decide, by decide, by decide, by decide⟩
theorem ready_lanes_wide : LanesReady onL lanes g0 0 [.reg 62 true] (.reg 0 false false) := ⟨by decide, by decide, by decide, by decide, by decide⟩
theorem ready_lanes_imm : LanesReady onL lanes g0 0 [.imm 0xFFFF] (.reg 0 false true) := ⟨by decide, by decide, by decide, by decide, by decide⟩
theorem ready_lanes_pred : LanesReady onL lanes g0 0 [.reg 62 true, .sel 0 true] (.pred 7 true) :=
  ⟨by decide, by decide, by decide, by decide, by decide⟩
theorem ready_lanes_preds : LanesReady onL lanes g0 0 [.pred 0, .pred 7] (.pred 1 false) := ⟨by decide, by decide, by decide, by decide, by decide⟩
theorem ready_spine : SpineReady k0 [.reg 31 true, .sel 0 true] (.reg 0 true true) := ⟨by decide, by decide, by decide, by decide, by decide⟩
theorem ready_spine_sprue : SpineReady k0 [.reg 1 true, .sel 35 true] (.reg 33 true false) := ⟨by decide, by decide, by decide, by decide, by decide⟩
theorem ready_spine_sprue_read : SpineReady k0 [.reg 1 false, .sel 35 false] (.reg 31 false true) :=
  ⟨by decide, by decide, by decide, by decide, by decide⟩
theorem ready_spine_one : SpineReady k0 [.reg 35 false] (.reg 31 false false) := ⟨by decide, by decide, by decide, by decide, by decide⟩
theorem ready_spine_wide : SpineReady k0 [.reg 35 true] (.reg 34 false false) := ⟨by decide, by decide, by decide, by decide, by decide⟩
theorem ready_spine_imm : SpineReady k0 [.imm 0x8000] (.reg 5 false true) := ⟨by decide, by decide, by decide, by decide, by decide⟩
theorem ready_spine_pred : SpineReady k0 [.reg 31 true, .sel 35 true] (.pred 7 true) := ⟨by decide, by decide, by decide, by decide, by decide⟩
theorem ready_spine_preds : SpineReady k0 [.pred 0, .pred 7] (.pred 1 false) := ⟨by decide, by decide, by decide, by decide, by decide⟩

/-- A group on the lanes and a spine whose operands are ready, for a shape of sources and destination. -/
abbrev Met (srcsL : List Src) (dstL : Dst) (srcsS : List Src) (dstS : Dst) : Prop :=
  OnLanes onL lanes g0 ∧ LanesReady onL lanes g0 0 srcsL dstL ∧ OnSpine onS spine k0 ∧ SpineReady k0 srcsS dstS

theorem witness_IntegerAddSubMinMax : Met [.reg 2 true, .sel 4 true] (.reg 62 true false) [.reg 1 true, .sel 35 true] (.reg 33 true false) :=
  ⟨lanes_here, ready_lanes, spine_here, ready_spine_sprue⟩
theorem witness_MultiplyAndDot : Met [.reg 2 true, .sel 64 true] (.reg 62 true true) [.reg 31 true, .sel 0 true] (.reg 0 true true) :=
  ⟨lanes_here, ready_lanes_read, spine_here, ready_spine⟩
theorem witness_MultiplyAndDot_words : Met [.reg 63 false, .sel 99 false] (.reg 0 false true) [.reg 1 false, .sel 35 false] (.reg 31 false true) :=
  ⟨lanes_here, ready_lanes_sprue_read, spine_here, ready_spine_sprue_read⟩
theorem witness_LogicAndShifts : Met [.reg 2 false, .sel 99 false] (.reg 63 false false) [.reg 1 true, .sel 35 true] (.reg 33 true false) :=
  ⟨lanes_here, ready_lanes_sprue, spine_here, ready_spine_sprue⟩
theorem witness_BitOperationsAndPacking : Met [.reg 63 false] (.reg 0 false false) [.reg 35 false] (.reg 31 false false) :=
  ⟨lanes_here, ready_lanes_one, spine_here, ready_spine_one⟩
theorem witness_BitOperationsAndPacking_perm : Met [.reg 63 false, .sel 99 false] (.reg 0 false true) [.reg 1 false, .sel 35 false] (.reg 31 false true) :=
  ⟨lanes_here, ready_lanes_sprue_read, spine_here, ready_spine_sprue_read⟩
theorem witness_Immediates : Met [.imm 0xFFFF] (.reg 0 false true) [.imm 0x8000] (.reg 5 false true) :=
  ⟨lanes_here, ready_lanes_imm, spine_here, ready_spine_imm⟩
theorem witness_Immediates_shift : (31#7).toNat < width false ∧ (63#7).toNat < width true ∧
    Met [.reg 63 false] (.reg 0 false false) [.reg 35 false] (.reg 31 false false) :=
  ⟨by decide, by decide, lanes_here, ready_lanes_one, spine_here, ready_spine_one⟩
theorem witness_HalfwordForms : Met [.reg 63 false] (.reg 0 false false) [.reg 35 false] (.reg 31 false false) :=
  ⟨lanes_here, ready_lanes_one, spine_here, ready_spine_one⟩
theorem witness_HalfwordForms_movg : OnLanes onL lanes g0 ∧ LanesReady onL lanes g0 0 [.sel 95 false] (.reg 63 false false) ∧ OnSpine onS spine k0 :=
  ⟨lanes_here, ⟨by decide, by decide, by decide, by decide, by decide⟩, spine_here⟩
theorem witness_IntegerCompares : Met [.reg 62 true, .sel 0 true] (.pred 7 true) [.reg 31 true, .sel 35 true] (.pred 7 true) :=
  ⟨lanes_here, ready_lanes_pred, spine_here, ready_spine_pred⟩
theorem witness_FloatCompares : Met [.reg 62 true, .sel 0 true] (.pred 7 true) [.reg 31 true, .sel 35 true] (.pred 7 true) :=
  ⟨lanes_here, ready_lanes_pred, spine_here, ready_spine_pred⟩
theorem witness_SelectAndPredicates : Met [.pred 0, .pred 7] (.pred 1 false) [.pred 0, .pred 7] (.pred 1 false) ∧
    LanesReady onL lanes g0 0 [.reg 2 true, .sel 4 true, .pred 7] (.reg 62 true false) ∧
    SpineReady k0 [.reg 1 true, .sel 35 true, .pred 0] (.reg 33 true false) :=
  ⟨⟨lanes_here, ready_lanes_preds, spine_here, ready_spine_preds⟩, ⟨by decide, by decide, by decide, by decide, by decide⟩,
    ⟨by decide, by decide, by decide, by decide, by decide⟩⟩
theorem witness_FloatArithmetic : Met [.reg 2 true, .sel 64 true] (.reg 62 true true) [.reg 31 true, .sel 0 true] (.reg 0 true true) :=
  ⟨lanes_here, ready_lanes_read, spine_here, ready_spine⟩
theorem witness_PackedHalves : OnLanes onL lanes g0 ∧ LanesReady onL lanes g0 0 [.reg 63 false, .sel 99 false] (.reg 0 false true) ∧ OnSpine onS spine k0 :=
  ⟨lanes_here, ready_lanes_sprue_read, spine_here⟩
theorem witness_TranscendentalFunctions : Met [.reg 63 false] (.reg 0 false false) [.reg 35 false] (.reg 31 false false) ∧ (15 : BitVec 4) ≠ 0 :=
  ⟨⟨lanes_here, ready_lanes_one, spine_here, ready_spine_one⟩, by decide⟩
theorem witness_Conversions : Met [.reg 62 true] (.reg 0 false false) [.reg 35 true] (.reg 34 false false) :=
  ⟨lanes_here, ready_lanes_wide, spine_here, ready_spine_wide⟩
theorem witness_LaneCrossing : OnLanes onL lanes g0 ∧ LanesReady onL lanes g0 0 [.reg 2 true, .sel 4 true] (.reg 62 true false) ∧ OnSpine onS spine k0 :=
  ⟨lanes_here, ready_lanes, spine_here⟩

/-- Codes with values: 1 and the smallest subnormal of f32; 0x38 in e4m3 is 1; an l6 code. -/
theorem exactly_one (m : Nat) (e : Int) (h : (m : ℚ) * 2 ^ e = 1) : exactly false m e = 1 := by simp [exactly, h]
theorem witness_exact_values : valueOf fmtF32 0x3F800000 = some 1 ∧ valueOf fmtE4m3 0x38 = some 1 ∧ valueOf fmtF32 0 = some 0 := by
  refine ⟨?_, ?_, ?_⟩
  · show some (exactly false 8388608 (-23)) = some 1
    rw [exactly_one _ _ (by norm_num)]
  · show some (exactly false 8 (-3)) = some 1
    rw [exactly_one _ _ (by norm_num)]
  · show some (exactly false 0 (-149)) = some 0
    simp [exactly]
theorem witness_l6_values : (l6Unpack 0x02 matches .real false _) = true ∧ (-15 : Int) ≤ 2 ∧ (2 : Int) ≤ 15 := by decide

/-! ### Witnesses: control flow -/


theorem witness_ControlTransfers : OnLanes onL lanes g0 ∧ g0.flights = [] ∧ 64 ≤ g0.budget ∧ vOk g0.budget true 62 = true ∧
    poisonedLanes g0 (activeLanes g0 lanes 0) [62, 63] = [] ∧
    (∀ l ∈ activeLanes g0 lanes 0, (vGet g0.regs l 62).getLsbD 0 = false) :=
  ⟨lanes_here, by decide, by decide, by decide, by decide, by decide⟩
theorem witness_ControlTransfers_spine : OnSpine onS spine k0 ∧ k0.spine.poison.contains 31 = false ∧ (xGet k0.spine 31).getLsbD 0 = false :=
  ⟨spine_here, by decide, by decide⟩
/-- Lane 1's r2 is odd, and so is the spine's x5. -/
def gOdd : Group := { g0 with regs := { g0.regs with v := [(64 + 2, 0x1001)] } }
def kOdd : Kc := { k0 with spine := { k0.spine with x := [(5, 0x1001)] } }
theorem witness_ControlTransfers_odd : OnLanes (laneState gOdd k0 t0) lanes gOdd ∧ gOdd.flights = [] ∧ vOk gOdd.budget true 2 = true ∧
    vOk gOdd.budget true 3 = false ∧ poisonedLanes gOdd (activeLanes gOdd lanes 0) [2, 3] = [] ∧
    (activeLanes gOdd lanes 0).filter (fun l => (vGet gOdd.regs l 2).getLsbD 0) = [1] :=
  ⟨lanes_with _ _ _ ⟨by decide, by decide, by decide⟩ (by decide), by decide, by decide, by decide, by decide, by decide⟩
theorem witness_ControlTransfers_oddSpine : OnSpine (spineState kOdd) spine kOdd ∧ spinePred kOdd.spine 0 = true ∧
    kOdd.spine.poison.contains 5 = false ∧ (xGet kOdd.spine 5).getLsbD 0 = true :=
  ⟨spine_with _ (by decide), by decide, by decide, by decide⟩
theorem witness_HintsAndYield : OnLanes onL lanes g0 ∧ g0.flights = [] ∧ OnSpine onS spine k0 := ⟨lanes_here, by decide, spine_here⟩

/-- A second kernel cluster of the grid. -/
def k2 : Kc := { k0 with id := 2, spine := { k0.spine with ended := true } }
def counted : Issue := { spine with counted := true }
theorem witness_GridSteps_lanes : OnLanes onL lanes g0 ∧ g0.flights = [] := ⟨lanes_here, by decide⟩
theorem witness_GridSteps_through : OnSpine { onS with cur := some counted } counted k0 ∧
    gridOf? { onS with cur := some counted } k0.grid = some grid0 ∧ counted.counted = true ∧ k0.spine.gsteps ≤ grid0.boundary :=
  ⟨⟨rfl, by decide, by decide⟩, by decide, rfl, by decide⟩
/-- Its spine has arrived at the first boundary, which has not completed. -/
def k1 : Kc := { k0 with spine := { k0.spine with gsteps := 1 } }
theorem witness_GridSteps_waits : OnSpine { spineState k1 with cur := some counted } counted k1 ∧
    gridOf? { spineState k1 with cur := some counted } k1.grid = some grid0 ∧ counted.counted = true ∧ grid0.boundary < k1.spine.gsteps :=
  ⟨⟨rfl, by decide, by decide⟩, by decide, rfl, by decide⟩
def twoKcs (k : Kc) : State := { base with cur := some spine, kcs := [k0, k] }
theorem witness_GridSteps_arrives : OnSpine (twoKcs { k0 with id := 2 }) spine k0 ∧ gridOf? (twoKcs { k0 with id := 2 }) k0.grid = some grid0 ∧
    spine.counted = false ∧ grid0.boundary < k0.spine.gsteps + 1 ∧
    ∃ q ∈ (twoKcs { k0 with id := 2 }).kcs, q.id ≠ k0.id ∧ q.grid = k0.grid ∧ q.spine.ended = false ∧ q.spine.gsteps ≤ grid0.boundary :=
  ⟨⟨rfl, by decide, by decide⟩, by decide, by decide, by decide, by decide⟩
theorem witness_GridSteps_completes : OnSpine (twoKcs k2) spine k0 ∧ gridOf? (twoKcs k2) k0.grid = some grid0 ∧ grid0.leaving = [] ∧
    spine.counted = false ∧ k0.spine.gsteps = grid0.boundary ∧ k0.spine.ended = false ∧ (∀ q ∈ (twoKcs k2).kcs, q.id = k0.id → q = k0) ∧
    ∀ q ∈ (twoKcs k2).kcs, q.id ≠ k0.id → q.grid = k0.grid → q.spine.ended = true ∨ grid0.boundary < q.spine.gsteps :=
  ⟨⟨rfl, by decide, by decide⟩, by decide, by decide, by decide, by decide, by decide, by decide, by decide⟩
/-- p1 is true in lane 7 alone: `@p1 exit` leaves lanes 0 to 6. -/
def gp : Group := { g0 with regs := { g0.regs with p := amSet 0 g0.regs.p 7 2 } }
theorem witness_Exits_some : OnLanes (laneState gp k0 t0) lanes gp ∧ gp.flights = [] ∧ lanes.mask &&& ~~~maskOf (activeLanes gp lanes 1) ≠ 0 :=
  ⟨lanes_with _ _ _ (by decide) (by decide), by decide, by decide⟩
theorem witness_Exits_all : OnLanes onL lanes g0 ∧ g0.flights = [] ∧ lanes.mask &&& ~~~maskOf (activeLanes g0 lanes 0) = 0 ∧
    (∀ e ∈ g0.regs.frontier, e.mask = lanes.mask) ∧ (kcOf onL g0.kc).spine.ended = false ∧
    (∀ G, gridOf? onL (kcOf onL g0.kc).grid = some G → G.leaving = []) :=
  ⟨lanes_here, by decide, by decide, by decide, by decide, fun _ h => by simp only [show gridOf? onL (kcOf onL g0.kc).grid = some grid0 by decide] at h; cases h; rfl⟩
theorem witness_Exits_spineStays : OnSpine onS spine k0 ∧ spinePred k0.spine 1 = false := ⟨spine_here, by decide⟩
theorem witness_Exits_spine : OnSpine onS spine k0 ∧ spinePred k0.spine 0 = true ∧ (∃ g ∈ onS.groups, g.kc = k0.id ∧ g.ended = false) ∧
    gridOf? onS k0.grid = some grid0 ∧ grid0.leaving = [] := ⟨spine_here, by decide, by decide, by decide, by decide⟩
theorem witness_Exits_last : OnSpine { twoKcs k2 with groups := [] } spine k0 ∧ spinePred k0.spine 0 = true ∧
    (∀ g ∈ ({ twoKcs k2 with groups := [] } : State).groups, g.kc = k0.id → g.ended = true) ∧
    (∀ x ∈ ({ twoKcs k2 with groups := [] } : State).transfers, x.kc ≠ k0.id) ∧
    (∃ q ∈ ({ twoKcs k2 with groups := [] } : State).kcs, q.grid = k0.grid ∧ q.id ≠ k0.id) :=
  ⟨⟨rfl, by decide, by decide⟩, by decide, by decide, by decide, by decide⟩
/-- The grid's only kernel cluster, whose groups have ended. -/
def alone : State := { onS with groups := [] }
theorem witness_Exits_grid : OnSpine alone spine k0 ∧ spinePred k0.spine 0 = true ∧ (∀ q ∈ alone.kcs, q.grid = k0.grid → q.id = k0.id) ∧
    gridOf? alone k0.grid = some grid0 ∧ gridSize grid0 ≤ grid0.nextCluster ∧ alone.transfers = [] ∧ alone.groups = [] ∧
    BoundaryOpen alone k0.grid k0.id ∧ (∀ r ∈ alone.deques, r.kc ≠ k0.id) ∧ ctxOf? alone k0.asid = some c0 :=
  ⟨⟨rfl, by decide, by decide⟩, by decide, by decide, by decide, by decide, rfl, rfl, fun _ _ => .inr (by decide), by decide, by decide⟩
/-- A completion word at 0xFF00 and a counter to decrement. -/
def doneLaunch : Launch := ⟨natToBytes 8 0x400 ++ List.replicate 16 0 ++ natToBytes 8 0xFF00 ++ List.replicate 32 0, 0, 1, 0, []⟩
theorem witness_Exits_completed : recField doneLaunch.bytes 0x18 8 ≠ 0 ∧ (recHeader doneLaunch.bytes).getLsbD 10 = true ∧
    (resolve (removeGrid alone grid0) c0 { w := true } true (recField doneLaunch.bytes 0x18 8) 8).2.toOption = some [⟨.mem 0x4FF00 0, 0, 8, 0xFF00⟩] ∧
    recField grid0.launch.bytes 0x18 8 = 0 ∧ ctxOf? (removeGrid alone grid0) 1 = some c0 := by decide
theorem witness_SoftwareTraps : OnLanes onL lanes g0 ∧ g0.flights = [] ∧ activeLanes g0 lanes 0 ≠ [] ∧ activeLanes g0 lanes 1 = [] ∧
    (ctxOf onL (memberAsid onL lanes.who)).dbg = false := ⟨lanes_here, by decide, by decide, by decide, by decide⟩
def debugged : State := { onL with ctxs := [{ c0 with dbg := true }] }
theorem witness_SoftwareTraps_debug : OnLanes debugged lanes g0 ∧ g0.flights = [] ∧ activeLanes g0 lanes 0 ≠ [] ∧
    (ctxOf debugged (memberAsid debugged lanes.who)).dbg = true := ⟨⟨rfl, by decide, by decide, by decide, by decide⟩, by decide, by decide, by decide⟩
theorem witness_SoftwareTraps_spine : OnSpine onS spine k0 ∧ spinePred k0.spine 0 = true ∧ spinePred k0.spine 7 = false ∧
    (ctxOf { onS with ctxs := [{ c0 with dbg := true }] } 1).dbg = true := ⟨spine_here, by decide, by decide, by decide⟩

/-! ### Witnesses: control registers, reductions, sprue registers -/

theorem witness_ControlReads : OnLanes onL lanes g0 ∧ g0.flights = [] ∧ activeLanes g0 lanes 0 ≠ [] ∧ vOk g0.budget false 63 = true ∧
    (0x32 : BitVec 8).toNat ∈ laneIndices ∧ (0x09 : BitVec 8).toNat ∉ laneIndices ∧ activeLanes g0 lanes 1 = [] :=
  ⟨lanes_here, by decide, by decide, by decide, by decide, by decide, by decide⟩
theorem witness_ControlReads_spine : OnSpine onS spine k0 ∧ spinePred k0.spine 0 = true ∧
    (0x32 : BitVec 8).toNat ∈ spineIndices ∧ (0x1B : BitVec 8).toNat ∈ laneIndices ∧ (0x1B : BitVec 8).toNat ∉ spineIndices :=
  ⟨spine_here, by decide, by decide, by decide, by decide⟩
theorem witness_ControlWrites : OnLanes onL lanes g0 ∧ g0.flights = [] ∧ vOk g0.budget false 63 = true ∧
    poisonedLanes g0 (activeLanes g0 lanes 0) [63] = [] ∧ (0x1A : BitVec 8).toNat ∈ laneIndices :=
  ⟨lanes_here, by decide, by decide, by decide, by decide⟩
theorem witness_ControlWrites_spine : OnSpine onS spine k0 ∧ spinePred k0.spine 0 = true ∧ k0.spine.poison.contains 31 = false :=
  ⟨spine_here, by decide, by decide⟩
theorem witness_ReductionsAndVotes : OnLanes onL lanes g0 ∧ g0.flights = [] ∧ g0.width ∈ [8, 16, 32, 64] ∧ vOk g0.budget false 63 = true ∧
    poisonedLanes g0 (activeLanes g0 lanes 0) [63] = [] := ⟨lanes_here, by decide, by decide, by decide, by decide⟩
theorem witness_ReductionsAndVotes_sprue : 63 - 32 < (kcOf onL g0.kc).cfgSprue ∧ (onL.kcs.find? (fun x => x.id = g0.kc)).isSome = true ∧
    (sprueGet (kcOf onL g0.kc) (63 - 32)).st = .filling 1 := by decide
theorem witness_SprueRegisters_read : SprueHere onL g0.kc 3 ∧ vOk g0.budget true 62 = true ∧ readable (kcOf onL g0.kc) 3 = true ∧ isFull (sprueGet (kcOf onL g0.kc) 3) = true ∧
    (sprueGet (kcOf onL g0.kc) 3).poison = false := ⟨⟨by decide, ⟨k0, by decide⟩⟩, by decide, by decide, by decide, by decide⟩
theorem witness_SprueRegisters_read_spine : OnSpine onS spine k0 ∧ SprueHere onS k0.id 3 ∧ spinePred k0.spine 0 = true ∧
    isFull (sprueGet k0 3) = true ∧ readable k0 3 = true ∧ (sprueGet k0 3).poison = false :=
  ⟨spine_here, ⟨by decide, ⟨k0, by decide⟩⟩, by decide, by decide, by decide, by decide⟩
theorem witness_SprueRegisters_written : OnLanes onL lanes g0 ∧ g0.flights = [] ∧ SprueHere onL g0.kc 0 ∧
    poisonedLanes g0 (activeLanes g0 lanes 0) [62, 63] = [] ∧ (sprueGet (kcOf onL g0.kc) 0).st = .empty ∧
    (sprueGet (kcOf onL g0.kc) 31).st = .filling 1 :=
  ⟨lanes_here, by decide, ⟨by decide, ⟨k0, by decide⟩⟩, by decide, by decide, by decide⟩
theorem witness_SprueRegisters_spine : OnSpine onS spine k0 ∧ SprueHere onS k0.id 31 ∧ k0.spine.poison.contains 30 = false ∧
    k0.spine.poison.contains 31 = false ∧ (sprueGet k0 0).st = .empty ∧ (xGet k0.spine 30).extractLsb' 27 37 = 0 ∧
    (sprueGet k0 31).st = .filling 1 :=
  ⟨spine_here, ⟨by decide, ⟨k0, by decide⟩⟩, by decide, by decide, by decide, by decide, by decide⟩

/-! ### Witnesses: barriers -/

/-- Slot 0 expects two groups, slot 1 is one arrival short, slot 2 is faulted, slot 3 is full, slot 5 is faulted with two
host arrivals, slot 15 holds a doorbell. -/
def bar (e a : BitVec 10) (f : Bool) : Barrier := ⟨0, e, a, 0, 0, f, 0, false, none⟩
def bars1 : List Barrier := [bar 2 0 false, bar 1 0 false, bar 2 0 true, bar 2 2 false, Barrier.init, { bar 2 0 true with h := 2 }] ++ List.replicate 9 Barrier.init ++
  [{ Barrier.init with x := true, door := some 16383 }]
/-- A stepped region of slot 1 with some written bytes. -/
def region1 : Region := ⟨7, 0, 64, 0, false, 1, [], amSet 0 [] 4 9, amSet false [] 1 true, [], [], [], [], []⟩
def t1 : Team := { t0 with bars := bars1, regions := [region1] }
def onB : State := laneState g0 k0 t1
theorem atBarrier (slot : BitVec 4) (h : slot.toNat < (kcOf onB g0.kc).cfgBar) (h2 : slot.toNat < t1.bars.length) : AtBarrier onB lanes g0 slot t1 :=
  ⟨lanes_with _ _ _ (by decide) (by decide), by decide, h, by decide, h2⟩

theorem witness_BarriersAndSteps_arrive : AtBarrier onB lanes g0 0 t1 ∧ MayArrive (barOf t1 0) 2 ∧
    ¬((barOf t1 0).a + 1 = (barOf t1 0).e ∧ (barOf t1 0).lb = (barOf t1 0).eb) :=
  ⟨atBarrier 0 (by decide) (by decide), ⟨by decide, by decide, by decide, by decide⟩, by decide⟩
theorem witness_BarriersAndSteps_last : AtBarrier onB lanes g0 1 t1 ∧ MayArrive (barOf t1 1) 0 ∧
    ((barOf t1 1).a + 1 = (barOf t1 1).e ∧ (barOf t1 1).lb = (barOf t1 1).eb) ∧
    region1 ∈ t1.regions ∧ region1.idx = (7 : BitVec 6).toNat ∧ region1.slot = (1 : BitVec 4).toNat ∧ region1.held = [] ∧ amWf 0 region1.nextPl = true :=
  ⟨atBarrier 1 (by decide) (by decide), ⟨by decide, by decide, by decide, by decide⟩, by decide, by decide, by decide, by decide, by decide, by decide⟩
theorem witness_BarriersAndSteps_bad : AtBarrier onB lanes g0 2 t1 ∧ (barOf t1 2).f = true ∧ AtBarrier onB lanes g0 3 t1 ∧
    (barOf t1 3).e ≤ (barOf t1 3).a ∧ AtBarrier onB lanes g0 4 t1 ∧ (barOf t1 4).e = 0 :=
  ⟨atBarrier 2 (by decide) (by decide), by decide, atBarrier 3 (by decide) (by decide), by decide, atBarrier 4 (by decide) (by decide), by decide⟩
/-- A second group waits on slot 0. -/
def gWaits : Group := { g0 with idx := 1, regs := { g0.regs with frontier := [⟨8, 0, 0xFF, some (.phase 0 0)⟩] } }
def onW : State := { onB with groups := [g0, gWaits] }
theorem witness_BarriersAndSteps_mismatch : AtBarrier onW lanes g0 0 t1 ∧ Mismatch (barOf t1 0) 5 ∧
    (∃ e ∈ (groupOf onW g0.kc g0.core 1).regs.frontier, e.wait = some (.phase 0 0)) :=
  ⟨⟨⟨rfl, by decide, by decide, by decide, by decide⟩, by decide, by decide, by decide, by decide⟩, ⟨by decide, by decide, by decide⟩, by decide⟩
/-- A group whose lane 0 holds n in r63. -/
def gn (n : Word) : Group := { g0 with regs := { g0.regs with v := amSet 0 g0.regs.v 63 n } }
def onN (n : Word) : State := laneState (gn n) k0 t1
theorem atBarrierN (n : Word) (slot : BitVec 4) (h : slot.toNat < t1.bars.length) : AtBarrier (onN n) lanes (gn n) slot t1 := by
  refine ⟨lanes_with _ _ _ (by simp only [gn]; decide) (by simp only [gn]; decide) (clean_of _ (gn n) ?_ rfl), by simp only [gn]; decide, ?_, ?_, h⟩
  · show ([gn n].find? fun g => g.kc = 1 ∧ g.core = 0 ∧ g.idx = 0).getD groupNone = gn n
    have e : (gn n).kc = 1 ∧ (gn n).core = 0 ∧ (gn n).idx = 0 := by simp only [gn]; decide
    simp [e]
  · exact Nat.lt_of_lt_of_le h (show t1.bars.length ≤ k0.cfgBar by decide)
  · show [t1].find? (fun t => t.kc = g0.kc ∧ t.core = g0.core) = some t1
    decide
theorem witness_BarriersAndSteps_barm : AtBarrier (onN 1023) lanes (gn 1023) 0 t1 ∧ vOk (gn 1023).budget false 63 = true ∧
    activeLanes (gn 1023) lanes 0 = 0 :: [1, 2, 3, 4, 5, 6, 7] ∧ (gn 1023).poison.contains (0 * 64 + 63) = false ∧ (barOf t1 0).f = false ∧
    (let e := (vGet (gn 1023).regs 0 63).toNat; e ≤ 1023 ∧ e ≠ 0 ∧ ¬(e ≠ 0 ∧ e ≤ (barOf t1 0).a.toNat ∧ (barOf t1 0).lb = (barOf t1 0).eb)) :=
  ⟨atBarrierN _ 0 (by decide), by decide, by decide, by decide, by decide, by decide⟩
theorem witness_BarriersAndSteps_barm_zero : activeLanes (gn 0) lanes 0 = 0 :: [1, 2, 3, 4, 5, 6, 7] ∧ (vGet (gn 0).regs 0 63).toNat = 0 ∧
    (barOf t1 4).a = 0 ∧ (barOf t1 4).eb = 0 ∧ (barOf t1 4).lb = 0 ∧ (barOf t1 4).f = false ∧ AtBarrier (onN 0) lanes (gn 0) 4 t1 :=
  ⟨by decide, by decide, by decide, by decide, by decide, by decide, atBarrierN _ 4 (by decide)⟩
theorem witness_BarriersAndSteps_recover : AtBarrier (onN 1) lanes (gn 1) 2 t1 ∧ (barOf t1 2).f = true ∧ (vGet (gn 1).regs 0 63).toNat ≤ 1023 ∧
    (barOf t1 2).h.toNat < (vGet (gn 1).regs 0 63).toNat := ⟨atBarrierN _ 2 (by decide), by decide, by decide, by decide⟩
theorem witness_BarriersAndSteps_completes : AtBarrier (onN 1) lanes (gn 1) 3 t1 ∧ (barOf t1 3).f = false ∧ (vGet (gn 1).regs 0 63).toNat = 1 ∧
    1 ≤ (barOf t1 3).a.toNat ∧ (barOf t1 3).lb = (barOf t1 3).eb ∧ AtBarrier (onN 1) lanes (gn 1) 5 t1 ∧ (barOf t1 5).f = true ∧
    1 ≤ (barOf t1 5).h.toNat := ⟨atBarrierN _ 3 (by decide), by decide, by decide, by decide, by decide, atBarrierN _ 5 (by decide), by decide, by decide⟩
theorem witness_BarriersAndSteps_zeroBad : AtBarrier (onN 0) lanes (gn 0) 3 t1 ∧ (vGet (gn 0).regs 0 63).toNat = 0 ∧ (barOf t1 3).f = false ∧
    ¬((barOf t1 3).a = 0 ∧ (barOf t1 3).eb = 0 ∧ (barOf t1 3).lb = 0) := ⟨atBarrierN _ 3 (by decide), by decide, by decide, by decide⟩
theorem witness_BarriersAndSteps_large : AtBarrier (onN 1024) lanes (gn 1024) 0 t1 ∧ 1023 < (vGet (gn 1024).regs 0 63).toNat :=
  ⟨atBarrierN _ 0 (by decide), by decide⟩
theorem witness_BarriersAndSteps_wait : AtBarrier (onN 0) lanes (gn 0) 0 t1 ∧ wokeFaulted (gn 0) lanes = false ∧ wokeFaulted (gn 1) lanes = false ∧
    (barOf t1 0).p = (vGet (gn 0).regs 0 63).extractLsb' 0 16 ∧ stopping (kcOf (onN 0) (gn 0).kc) = false ∧
    ⟨lanes.pc, lanes.prio, lanes.mask, none⟩ ∈ (gn 0).regs.frontier ∧
    AtBarrier (onN 1) lanes (gn 1) 0 t1 ∧ (barOf t1 0).p ≠ (vGet (gn 1).regs 0 63).extractLsb' 0 16 :=
  ⟨atBarrierN _ 0 (by decide), by decide, by decide, by decide, by decide, by decide, atBarrierN _ 0 (by decide), by decide⟩
theorem witness_BarriersAndSteps_woke : wokeFaulted { g0 with regs := { g0.regs with frontier := [⟨0, 0, 0xFF, some (.faulted 0)⟩] } } lanes = true := by
  decide
theorem witness_BarriersAndSteps_bexp : AtBarrier onB lanes g0 15 t1 ∧ vOk g0.budget true 62 = true ∧ (barOf t1 15).door = some 16383 ∧
    AtBarrier onB lanes g0 14 t1 ∧ (barOf t1 14).door = none ∧ ctxOf? onB (memberAsid onB lanes.who) = some c0 ∧ amGet none c0.doors 0 = none :=
  ⟨atBarrier 15 (by decide) (by decide), by decide, by decide, atBarrier 14 (by decide) (by decide), by decide, by decide, by decide⟩

/-- Every doorbell of the context is taken. -/
def allDoors : AMap (Option (Nat × Nat × Nat)) := (List.range 16384).map fun j => (j, some (1, 0, 0))
theorem amGet_map (f : Nat → Option (Nat × Nat × Nat)) (l : List Nat) (j : Nat) (h : j ∈ l) : amGet none (l.map fun i => (i, f i)) j = f j := by
  induction l with
  | nil => cases h
  | cons i l ih =>
    simp only [List.map_cons, amGet]
    split
    · next e => rw [e]
    · next e => exact ih ((List.mem_cons.mp h).resolve_left e)
theorem withDoors (d : AMap (Option (Nat × Nat × Nat))) :
    (ctxOf { onB with ctxs := [{ c0 with doors := d }] } (memberAsid onB lanes.who)).doors = d := rfl
theorem witness_BarriersAndSteps_bexpFull : (barOf t1 14).door = none ∧
    ∀ j, j < 16384 → amGet none (ctxOf { onB with ctxs := [{ c0 with doors := allDoors }] } (memberAsid onB lanes.who)).doors j ≠ none := by
  refine ⟨by decide, fun j h => ?_⟩
  rw [withDoors, allDoors, amGet_map _ _ _ (List.mem_range.mpr h)]
  decide

/-! ### Witnesses: memory. Lane 7 alone is active under p1. -/

/-- Lane 7's r2 and r3 hold an address, r4 on hold data. -/
def gAt (addr : Word) (data : List Word) : Group := { gp with regs := { gp.regs with
  v := data.zipIdx.foldl (fun m d => amSet 0 m (452 + d.2) d.1) (amSet 0 gp.regs.v 450 addr) } }
def onAt (addr : Word) (data : List Word) : State := laneState (gAt addr data) k0 t0
theorem gAt_clean (s : State) (addr : Word) (data : List Word) (hg : s.groups = [gAt addr data]) : poisonedIssue s lanes = [] :=
  clean_of s (gAt addr data) (by
    show groupOf s 1 0 0 = _
    have e : (gAt addr data).kc = 1 ∧ (gAt addr data).core = 0 ∧ (gAt addr data).idx = 0 := by simp only [gAt]; decide
    simp [groupOf, hg, e]) rfl
theorem gAt_on (s : State) (addr : Word) (data : List Word) (h : s.cur = some lanes) (hg : s.groups = [gAt addr data]) :
    OnLanes s lanes (gAt addr data) :=
  ⟨h, by simp only [gAt]; decide, by simp [hg], by simp only [gAt]; decide, gAt_clean s addr data hg⟩
theorem gAt_active (addr : Word) (data : List Word) : activeLanes (gAt addr data) lanes 1 = [7] := by
  show activeLanes gp lanes 1 = [7]
  decide
theorem oneLane (s : State) (addr : Word) (data : List Word) (regs : List Nat) (h : s.cur = some lanes) (hg : s.groups = [gAt addr data]) :
    OneLane s lanes (gAt addr data) 1 7 regs :=
  ⟨gAt_on s addr data h hg, by simp only [gAt]; decide, gAt_active addr data, by
    have e : (gAt addr data).poison = [] := rfl
    simp [poisonedLanes, e]⟩

def resolved (s : State) (c : Issue) (need : Need) (sync feat : Bool) (n : Nat) (addr : DWord) : State :=
  (checkThread s (ctxOf s (memberAsid s c.who)) need feat sync n ⟨0, addr, []⟩).1
theorem reaches (s : State) (c : Issue) (need : Need) (sync feat : Bool) (n : Nat) (addr : DWord) (pa : Nat) (cls : BitVec 2)
    (h : (checkThread s (ctxOf s (memberAsid s c.who)) need feat sync n ⟨0, addr, []⟩).2.toOption = some [⟨.mem pa cls, 0, n, addr.toNat % 2 ^ 48⟩])
    (h2 : pieceLate (resolved s c need sync feat n addr) (memberDie (resolved s c need sync feat n addr) c.who) need
      ⟨.mem pa cls, 0, n, addr.toNat % 2 ^ 48⟩ = none)
    (h3 : { resolved s c need sync feat n addr with tlb := s.tlb } = s) :
    Reaches s c need sync feat n addr (resolved s c need sync feat n addr) pa cls := by
  refine ⟨Prod.ext rfl ?_, h2, h3⟩
  revert h
  cases (checkThread s (ctxOf s (memberAsid s c.who)) need feat sync n ⟨0, addr, []⟩).2 <;> simp [Except.toOption]

theorem someLanes (s : State) (addr : Word) (data : List Word) (regs : List Nat) (h : s.cur = some lanes) (hg : s.groups = [gAt addr data]) :
    SomeLanes s lanes (gAt addr data) 1 regs :=
  ⟨gAt_on s addr data h hg, by simp only [gAt]; decide, by
    have e : (gAt addr data).poison = [] := rfl
    simp [poisonedLanes, e]⟩

/-- All eight lanes act: lane l holds an address in r2, r3 and its number in r4. -/
def gAll (addr : Nat → Word) : Group :=
  { g0 with regs := { g0.regs with v := (List.range 8).flatMap fun l => [(64 * l + 2, addr l), (64 * l + 4, BitVec.ofNat 32 (l + 1))] } }
def onAll (addr : Nat → Word) (t : Team) : State := laneState (gAll addr) k0 t
theorem gAll_lanes (addr : Nat → Word) : activeLanes (gAll addr) lanes 0 = [0, 1, 2, 3, 4, 5, 6, 7] := by
  show activeLanes g0 lanes 0 = _
  decide
theorem gAll_clean (s : State) (addr : Nat → Word) (hg : s.groups = [gAll addr]) : poisonedIssue s lanes = [] :=
  clean_of s (gAll addr) (by
    show groupOf s 1 0 0 = _
    have e : (gAll addr).kc = 1 ∧ (gAll addr).core = 0 ∧ (gAll addr).idx = 0 := by simp only [gAll]; decide
    simp [groupOf, hg, e]) rfl
theorem allLanes (s : State) (addr : Nat → Word) (regs : List Nat) (h : s.cur = some lanes) (hg : s.groups = [gAll addr]) :
    SomeLanes s lanes (gAll addr) 0 regs :=
  ⟨⟨h, rfl, by simp [hg], rfl, gAll_clean s addr hg⟩, rfl, by
    have e : (gAll addr).poison = [] := rfl
    simp [poisonedLanes, e]⟩

theorem allOk {rs : List (Thread × Except Miss (List Piece))} {ps : List (List Piece)} (h : rs.map (fun r => r.2.toOption) = ps.map some) :
    rs.map (fun r => r.2) = ps.map .ok := by
  induction rs generalizing ps with
  | nil => cases ps <;> simp_all
  | cons r rs ih =>
    cases ps with
    | nil => simp at h
    | cons p ps =>
      simp only [List.map_cons, List.cons.injEq] at h ⊢
      obtain ⟨h1, h2⟩ := h
      refine ⟨?_, ih h2⟩
      revert h1
      cases r.2 <;> simp [Except.toOption]
def resolvedAll (s : State) (c : Issue) (need : Need) (sync feat : Bool) (n : Nat) (ls : List Nat) (addr : Nat → DWord) : State :=
  (checkAll s (ctxOf s (memberAsid s c.who)) need feat sync n (ls.map fun l => ⟨l, addr l, []⟩)).1
theorem allReach (s : State) (c : Issue) (need : Need) (sync feat : Bool) (n : Nat) (ls : List Nat) (addr : Nat → DWord) (pa : Nat → Nat)
    (cls : Nat → BitVec 2)
    (h : (checkAll s (ctxOf s (memberAsid s c.who)) need feat sync n (ls.map fun l => ⟨l, addr l, []⟩)).2.map (fun r => r.2.toOption) =
      (ls.map fun l => [⟨.mem (pa l) (cls l), 0, n, (addr l).toNat % 2 ^ 48⟩]).map some)
    (h2 : ∀ l ∈ ls, pieceLate (resolvedAll s c need sync feat n ls addr) (memberDie (resolvedAll s c need sync feat n ls addr) c.who) need
      ⟨.mem (pa l) (cls l), 0, n, (addr l).toNat % 2 ^ 48⟩ = none)
    (h3 : { resolvedAll s c need sync feat n ls addr with tlb := s.tlb } = s) :
    AllReach s c need sync feat n ls addr (resolvedAll s c need sync feat n ls addr) pa cls :=
  ⟨rfl, (allOk h).trans (by rw [List.map_map]; rfl), h2, h3⟩

/-- Eight lanes load 16 bytes each, down from the top of page 0. -/
def down (l : Nat) : Word := BitVec.ofNat 32 (0xFFF0 - 16 * l)
theorem witness_GlobalLoads_lanes : SomeLanes (onAll down t0) lanes (gAll down) 0 [2, 3] ∧ accessOk (gAll down) 4 60 2 ∧
    AllReach (onAll down t0) lanes { r := true } false true 16 (activeLanes (gAll down) lanes 0) (fun l => pairAt (gAll down) l 2)
      (resolvedAll (onAll down t0) lanes { r := true } false true 16 (activeLanes (gAll down) lanes 0) fun l => pairAt (gAll down) l 2)
      (fun l => 0x4FFF0 - 16 * l) (fun _ => 0) :=
  ⟨allLanes _ _ _ rfl rfl, ⟨by decide, by decide⟩, allReach _ _ _ _ _ _ _ _ _ _ (by decide) (by decide) rfl⟩
/-- Eight lanes store to one word. -/
def same (_ : Nat) : Word := 0xFFFC
theorem witness_GlobalStores_lanes : SomeLanes (onAll same t0) lanes (gAll same) 0 [2, 3, 4] ∧ accessOk (gAll same) 2 4 2 ∧
    fabricPending (onAll same t0) (memberAsid (onAll same t0) lanes.who) = false ∧
    AllReach (onAll same t0) lanes { w := true } true true 4 (activeLanes (gAll same) lanes 0) (fun l => pairAt (gAll same) l 2)
      (resolvedAll (onAll same t0) lanes { w := true } true true 4 (activeLanes (gAll same) lanes 0) fun l => pairAt (gAll same) l 2)
      (fun _ => 0x4FFFC) (fun _ => 0) :=
  ⟨allLanes _ _ _ rfl rfl, ⟨by decide, by decide⟩, by decide, allReach _ _ _ _ _ _ _ _ _ _ (by decide) (by decide) rfl⟩

/-- 16 bytes at the top of page 0, which lies in frame 4, and 8 bytes for each need. -/
theorem witness_GlobalLoads : OneLane (onAt 0xFFF0 []) lanes (gAt 0xFFF0 []) 1 7 [2, 3] ∧ accessOk (gAt 0xFFF0 []) 4 60 2 ∧
    Reaches (onAt 0xFFF0 []) lanes { r := true } false true 16 (pairAt (gAt 0xFFF0 []) 7 2) (resolved (onAt 0xFFF0 []) lanes { r := true } false true 16 0xFFF0) 0x4FFF0 0 ∧
    Reaches (onAt 0xFFF0 []) lanes { r := true } true true 8 (pairAt (gAt 0xFFF0 []) 7 2) (resolved (onAt 0xFFF0 []) lanes { r := true } true true 8 0xFFF0) 0x4FFF0 0 :=
  ⟨oneLane _ _ _ _ rfl rfl, ⟨by decide, by decide⟩, reaches _ _ _ _ _ _ 0xFFF0 0x4FFF0 0 (by decide) (by decide) rfl,
    reaches _ _ _ _ _ _ 0xFFF0 0x4FFF0 0 (by decide) (by decide) rfl⟩
/-- The spine with the address in x2; s3 is FULL with 7. -/
def kAt (addr : DWord) (data : DWord) : Kc := { k0 with spine := { k0.spine with x := amSet 0 (amSet 0 k0.spine.x 2 addr) 4 data } }
def onX (addr data : DWord) : State := spineState (kAt addr data)
theorem spineAddr (addr data : DWord) (a : RegField) (h : a.toNat < 32) : SpineAddr (onX addr data) spine (kAt addr data) 0 a :=
  ⟨spine_with _ rfl, by show spinePred k0.spine 0 = true; decide, ⟨rfl, rfl, rfl⟩, fun x => absurd x (by omega)⟩
theorem witness_GlobalLoads_spine : SpineAddr (onX 0xFFF8 0) spine (kAt 0xFFF8 0) 0 2 ∧ (sprueGet (kAt 0xFFF8 0) 0).st = .empty ∧
    Reaches (addrRead (onX 0xFFF8 0) (kAt 0xFFF8 0) 2) spine { r := true } true true 8 (addrOf (kAt 0xFFF8 0) 2)
      (resolved (addrRead (onX 0xFFF8 0) (kAt 0xFFF8 0) 2) spine { r := true } true true 8 0xFFF8) 0x4FFF8 0 :=
  ⟨spineAddr _ _ _ (by decide), by decide, reaches _ _ _ _ _ _ 0xFFF8 0x4FFF8 0 (by decide) (by decide) rfl⟩
/-- The address from the sprue register s3, which holds 7: one byte. -/
theorem witness_GlobalLoads_sprue : SpineAddr onS spine k0 0 35 ∧
    Reaches (addrRead onS k0 35) spine { r := true } false true 1 (addrOf k0 35) (resolved (addrRead onS k0 35) spine { r := true } false true 1 7) 0x40007 0 :=
  ⟨⟨spine_here, by decide, ⟨rfl, rfl, rfl⟩, fun _ => by decide⟩, reaches _ _ _ _ _ _ 7 0x40007 0 (by decide) (by decide) rfl⟩
theorem witness_GlobalStores : OneLane (onAt 0xFFF0 [1, 2, 3, 4]) lanes (gAt 0xFFF0 [1, 2, 3, 4]) 1 7 [2, 3, 4, 5, 6, 7] ∧
    accessOk (gAt 0xFFF0 [1, 2, 3, 4]) 4 4 2 ∧
    Reaches (onAt 0xFFF0 [1, 2, 3, 4]) lanes { w := true } true true 16 (pairAt (gAt 0xFFF0 [1, 2, 3, 4]) 7 2)
      (resolved (onAt 0xFFF0 [1, 2, 3, 4]) lanes { w := true } true true 16 0xFFF0) 0x4FFF0 0 :=
  ⟨oneLane _ _ _ _ rfl rfl, ⟨by decide, by decide⟩, reaches _ _ _ _ _ _ 0xFFF0 0x4FFF0 0 (by decide) (by decide) rfl⟩
theorem witness_GlobalStores_spine : SpineAddr (onX 0xFFF8 5) spine (kAt 0xFFF8 5) 0 2 ∧
    Reaches (addrRead (onX 0xFFF8 5) (kAt 0xFFF8 5) 2) spine { w := true } true true 8 (addrOf (kAt 0xFFF8 5) 2)
      (resolved (addrRead (onX 0xFFF8 5) (kAt 0xFFF8 5) 2) spine { w := true } true true 8 0xFFF8) 0x4FFF8 0 :=
  ⟨spineAddr _ _ _ (by decide), reaches _ _ _ _ _ _ 0xFFF8 0x4FFF8 0 (by decide) (by decide) rfl⟩
/-- The last 16 bytes of the A buffer, through `ar`, by lane 7. -/
theorem witness_BufferAccesses : SomeLanes (onAt 4080 []) lanes (gAt 4080 []) 1 [2] ∧ bufTarget (kcOf (onAt 4080 []) 1) 0 4 4080 = .ok (0, 4080) ∧
    bufCheck (onAt 4080 []) 1 0 .bufA 4080 16 false false false 4 4080 = none ∧ bufPoisoned t0 .bufA 4080 16 = false ∧
    bufCheck (onAt 4080 []) 1 0 .bufA 4080 16 true false false 4 4080 = none ∧ inRegion t0 4080 16 = false :=
  ⟨someLanes _ _ _ _ rfl rfl, by rfl, by decide, by decide, by decide, by decide⟩
/-- Eight lanes, a word each, inside the stepped region of `t1`, which the group is behind; and inside one of the fault rule,
all at one word. -/
def words (l : Nat) : Word := BitVec.ofNat 32 (4 * l)
def tBehind : Team := { t1 with regions := [{ region1 with prev := [(4, 5)], behind := [0] }] }
def tFault : Team := { t1 with regions := [{ region1 with rule := 3 }] }
theorem witness_BufferAccesses_loads : SomeLanes (onAll words tBehind) lanes (gAll words) 0 [2] ∧
    (∀ l ∈ activeLanes (gAll words) lanes 0, (bufTarget (kcOf (onAll words tBehind) 1) 0 3 (4 * l)).toOption = some (0, 4 * l) ∧
      bufCheck (onAll words tBehind) 1 0 .bufA (4 * l) 4 false false false 2 (4 * l) = none ∧ bufPoisoned tBehind .bufA (4 * l) 4 = false) ∧
    (∃ r, regionAt tBehind 4 1 = some r ∧ (gAll words).idx ∈ r.behind) :=
  ⟨allLanes _ _ _ rfl rfl, by decide, ⟨{ region1 with prev := [(4, 5)], behind := [0] }, by decide⟩⟩
theorem witness_BufferAccesses_stores : SomeLanes (onAll words t1) lanes (gAll words) 0 [2, 4] ∧
    (∀ l ∈ activeLanes (gAll words) lanes 0, (bufTarget (kcOf (onAll words t1) 1) 0 3 (4 * l)).toOption = some (0, 4 * l) ∧
      bufCheck (onAll words t1) 1 0 .bufA (4 * l) 4 true false false 2 (4 * l) = none) ∧
    ((activeLanes (gAll words) lanes 0).filter fun l => collides t1 (gAll words).idx 4 (fun l => 4 * l) (activeLanes (gAll words) lanes 0) l) = [] ∧
    (t1.regions.map fun r => r.idx).Nodup ∧ (gAll words).idx ∉ region1.arrived :=
  ⟨allLanes _ _ _ rfl rfl, by decide, by decide, by decide, by decide⟩
def atOne (_ : Nat) : Word := 60
theorem witness_BufferAccesses_collide : SomeLanes (onAll atOne tFault) lanes (gAll atOne) 0 [2, 4] ∧
    bufCheck (onAll atOne tFault) 1 0 .bufA 60 4 true false false 2 60 = none ∧
    ((activeLanes (gAll atOne) lanes 0).filter fun l => collides tFault (gAll atOne).idx 4 (fun _ => 60) (activeLanes (gAll atOne) lanes 0) l) =
      0 :: [1, 2, 3, 4, 5, 6, 7] := ⟨allLanes _ _ _ rfl rfl, by decide, by decide⟩
theorem witness_Fences : OnLanes onL lanes g0 ∧ g0.flights = [] ∧ 7 ∈ activeLanes g0 lanes 0 ∧ ctxOf? onL (memberAsid onL lanes.who) = some c0 ∧
    OnSpine onS spine k0 ∧ spinePred k0.spine 0 = true ∧ ctxOf? onS (memberAsid onS spine.who) = some c0 ∧
    fabricPending onL (memberAsid onL lanes.who) = false ∧ relayPending onL (memberAsid onL lanes.who) = false :=
  ⟨lanes_here, by decide, by decide, by decide, spine_here, by decide, by decide, by decide, by decide⟩
/-- A store of the context to a peer, and a load that a peer made and the device relays. -/
def sending (who : Option Member) (dst : Nat) (k : ReqKind) : State :=
  { onL with requests := [⟨7, who, [(0, 0)], 0, dst, 0x20000, 3, 1, .fabric 9 31 0, k, [], 3⟩] }
theorem witness_Fences_pending : fabricPending (sending (some (.group 1 0 0)) 0 (.store [1] false)) (memberAsid onL lanes.who) = true ∧
    relayPending (sending none 9 (.load 4)) (memberAsid onL lanes.who) = true ∧
    OnLanes (sending none 9 (.load 4)) lanes g0 := ⟨by decide, by decide, ⟨rfl, by decide, by decide, by decide, by decide⟩⟩
theorem witness_Fences_rp : OneLane (onAt 0xFFF8 []) lanes (gAt 0xFFF8 []) 1 7 [] ∧ amGet none c0.owners (0x4FFF8 / 8) = none ∧
    pieceLate (resolved (onAt 0xFFF8 []) lanes { r := true } false true 1 0xFFF8) 0 { r := true } ⟨.mem (0x4FFF8 / 8 * 8) 0, 0, 8, 0⟩ = none ∧
    Reaches (onAt 0xFFF8 []) lanes { r := true } false true 1 (pairAt (gAt 0xFFF8 []) 7 2) (resolved (onAt 0xFFF8 []) lanes { r := true } false true 1 0xFFF8) 0x4FFF8 0 :=
  ⟨oneLane _ _ _ _ rfl rfl, by decide, by decide, reaches _ _ _ _ _ _ 0xFFF8 0x4FFF8 0 (by decide) (by decide) rfl⟩
theorem witness_Fences_rp_spine : SpineAddr (onX 0xFFF8 0) spine (kAt 0xFFF8 0) 0 2 ∧
    Reaches (onX 0xFFF8 0) spine { r := true } false true 1 (addrOf (kAt 0xFFF8 0) 2) (resolved (onX 0xFFF8 0) spine { r := true } false true 1 0xFFF8) 0x4FFF8 0 :=
  ⟨spineAddr _ _ _ (by decide), reaches _ _ _ _ _ _ 0xFFF8 0x4FFF8 0 (by decide) (by decide) rfl⟩
def rwAtom : Need := { r := true, w := true, atomic := true }
/-- A wide compare and swap: operands in r60 to r63. -/
theorem witness_Atomics : OneLane (onAt 0xFFF8 []) lanes (gAt 0xFFF8 []) 1 7 ([2, 3] ++ (List.range 4).map (60 + ·)) ∧ vOk (gAt 0xFFF8 []).budget true 2 = true ∧
    60 + 4 ≤ (gAt 0xFFF8 []).budget ∧ Reaches (onAt 0xFFF8 []) lanes rwAtom true ((memberFeat (onAt 0xFFF8 []) lanes.who).getLsbD 3) 8
      (pairAt (gAt 0xFFF8 []) 7 2) (resolved (onAt 0xFFF8 []) lanes rwAtom true ((memberFeat (onAt 0xFFF8 []) lanes.who).getLsbD 3) 8 0xFFF8) 0x4FFF8 0 :=
  ⟨oneLane _ _ _ _ rfl rfl, by decide, by decide, reaches _ _ _ _ _ _ 0xFFF8 0x4FFF8 0 (by decide) (by decide) rfl⟩
theorem witness_Atomics_buffer : OneLane (onAt 4088 []) lanes (gAt 4088 []) 1 7 ([2] ++ (List.range 4).map (60 + ·)) ∧
    (onAt 4088 []).teams.find? (fun t => t.kc = 1 ∧ t.core = 0) = some t0 ∧ (vGet (gAt 4088 []).regs 7 2).toNat % 8 = 0 ∧
    bufCheck (onAt 4088 []) 1 0 .bufA 4088 8 true false true 2 4088 = none ∧ bufPoisoned t0 .bufA 4088 8 = false :=
  ⟨oneLane _ _ _ _ rfl rfl, by decide, by decide, by decide, by decide⟩
theorem witness_Atomics_lanes : SomeLanes (onAll same t0) lanes (gAll same) 0 [2, 3, 4] ∧ vOk (gAll same).budget true 2 = true ∧
    activeLanes (gAll same) lanes 0 ≠ [] ∧ (∀ l ∈ activeLanes (gAll same) lanes 0, pairAt (gAll same) l 2 = 0xFFFC) ∧
    AllReach (onAll same t0) lanes rwAtom true ((memberFeat (onAll same t0) lanes.who).getLsbD 3) 4 (activeLanes (gAll same) lanes 0)
      (fun _ => 0xFFFC) (resolvedAll (onAll same t0) lanes rwAtom true ((memberFeat (onAll same t0) lanes.who).getLsbD 3) 4
        (activeLanes (gAll same) lanes 0) fun _ => 0xFFFC) (fun _ => 0x4FFFC) (fun _ => 0) :=
  ⟨allLanes _ _ _ rfl rfl, by decide, by decide, by decide, allReach _ _ _ _ _ _ _ _ _ _ (by decide) (by decide) rfl⟩
def lastWord (_ : Nat) : Word := 4092
theorem witness_Atomics_bufferLanes : SomeLanes (onAll lastWord t0) lanes (gAll lastWord) 0 [2, 4] ∧
    (∀ l ∈ activeLanes (gAll lastWord) lanes 0, (vGet (gAll lastWord).regs l 2).toNat = 4092) ∧ 4092 % 4 = 0 ∧
    bufCheck (onAll lastWord t0) 1 0 .bufA 4092 4 true false true 2 4092 = none ∧ bufPoisoned t0 .bufA 4092 4 = false :=
  ⟨allLanes _ _ _ rfl rfl, by decide, by decide, by decide, by decide⟩
theorem witness_Atomics_spine : SpineAddr (onX 0xFFF8 1) spine (kAt 0xFFF8 1) 0 2 ∧
    Reaches (addrRead (onX 0xFFF8 1) (kAt 0xFFF8 1) 2) spine rwAtom true ((memberFeat (onX 0xFFF8 1) spine.who).getLsbD 3) 8 (addrOf (kAt 0xFFF8 1) 2)
      (resolved (addrRead (onX 0xFFF8 1) (kAt 0xFFF8 1) 2) spine rwAtom true ((memberFeat (onX 0xFFF8 1) spine.who).getLsbD 3) 8 0xFFF8) 0x4FFF8 0 :=
  ⟨spineAddr _ _ _ (by decide), reaches _ _ _ _ _ _ 0xFFF8 0x4FFF8 0 (by decide) (by decide) rfl⟩

/-! ### Witnesses: append pages. Page 1 lies in frame 5. -/

/-- An entry of class 1 with tails, reservations and SEALW, WLOG 6, SCOPE 2. -/
def page (rtail ctail nres : Nat) (sealw : Bool) (apst : BitVec 2) : FrameEntry :=
  ⟨1, 1, 0, 0, apPack rtail ctail nres 6 2 sealw false, apst, 1, 2, false⟩
/-- The state with that page mapped at virtual page 1. -/
def paged (s : State) (e : FrameEntry) (rs : List Resv) : State :=
  { s with mem := putNat s.mem 0x30008 8 0x40000000005003D, frameTab := amSet FrameEntry.zero s.frameTab 5 e, resvs := rs }
def wr : Need := { r := false, w := true, page := true }
def rd : Need := { r := true, w := false, page := true }
def lanePage (e : FrameEntry) (rs : List Resv) (off : Word) (data : List Word) : State := paged (onAt (0x10000 + off) data) e rs
/-- Lane 7 reaches a page with an address and data. -/
abbrev MetPage (need : Need) (e : FrameEntry) (rs : List Resv) (off : Word) (data : List Word) : Prop :=
  OneLane (lanePage e rs off data) lanes (gAt (0x10000 + off) data) 1 7 [2, 3, 4] ∧ accessOk (gAt (0x10000 + off) data) 2 4 2 ∧
    Reaches (lanePage e rs off data) lanes need false true 1 (pairAt (gAt (0x10000 + off) data) 7 2)
      (resolved (lanePage e rs off data) lanes need false true 1 (0x10000 + off.setWidth 64)) (0x50000 + off.toNat) 1 ∧
    (∀ w ∈ (lanePage e rs off data).watches, w.frame ≠ (0x50000 + off.toNat) / 65536)
theorem witness_AppendPages_apres : MetPage wr (page 65532 65532 15 false 1) [] 0 [4] ∧
    refusal (lanePage (page 65532 65532 15 false 1) [] 0 [4]) 5 (reserveSize 4) = none ∧
    apNres (frameEntry (lanePage (page 65532 65532 15 false 1) [] 0 [4]) 5) < 16 :=
  ⟨⟨oneLane _ _ _ _ rfl rfl, ⟨by decide, by decide⟩, reaches _ _ _ _ _ _ 0x10000 0x50000 1 (by decide) (by decide) rfl, by decide⟩, by decide, by decide⟩
theorem witness_AppendPages_refused : MetPage wr (page 65536 0 1 false 1) [] 0 [4] ∧
    refusal (lanePage (page 65536 0 1 false 1) [] 0 [4]) 5 (reserveSize 4) = some 0x80000002 :=
  ⟨⟨oneLane _ _ _ _ rfl rfl, ⟨by decide, by decide⟩, reaches _ _ _ _ _ _ 0x10000 0x50000 1 (by decide) (by decide) rfl, by decide⟩, by decide⟩
theorem witness_AppendPages_apcmt : MetPage wr (page 65536 65532 1 true 1) [⟨5, 65532, 4, false⟩] 65532 [] ∧
    (frameEntry (lanePage (page 65536 65532 1 true 1) [⟨5, 65532, 4, false⟩] 65532 []) 5).apst ≠ 2 ∧
    resvsOf (lanePage (page 65536 65532 1 true 1) [⟨5, 65532, 4, false⟩] 65532 []) 5 = [⟨5, 65532, 4, false⟩] ∧
    apCtail (frameEntry (lanePage (page 65536 65532 1 true 1) [⟨5, 65532, 4, false⟩] 65532 []) 5) + 4 ≤ 65536 :=
  ⟨⟨oneLane _ _ _ _ rfl rfl, ⟨by decide, by decide⟩, reaches _ _ _ _ _ _ 0x1FFFC 0x5FFFC 1 (by decide) (by decide) rfl, by decide⟩, by decide, by decide, by decide⟩
theorem witness_AppendPages_seal : MetPage wr (page 8 4 1 false 1) [⟨5, 4, 4, false⟩] 0 [] ∧ MetPage wr (page 4 4 0 false 2) [] 0 [] ∧
    (page 8 4 1 false 1).apst ≠ 2 ∧ apSealw (page 8 4 1 false 1) = false :=
  ⟨⟨oneLane _ _ _ _ rfl rfl, ⟨by decide, by decide⟩, reaches _ _ _ _ _ _ 0x10000 0x50000 1 (by decide) (by decide) rfl, by decide⟩,
    ⟨oneLane _ _ _ _ rfl rfl, ⟨by decide, by decide⟩, reaches _ _ _ _ _ _ 0x10000 0x50000 1 (by decide) (by decide) rfl, by decide⟩, by decide, by decide⟩
theorem witness_AppendPages_tailrd : MetPage rd (page 8 4 1 true 1) [⟨5, 4, 4, false⟩] 65535 [] :=
  ⟨oneLane _ _ _ _ rfl rfl, ⟨by decide, by decide⟩, reaches _ _ _ _ _ _ 0x1FFFF 0x5FFFF 1 (by decide) (by decide) rfl, by decide⟩
theorem witness_AppendPages_apst : MetPage wr (page 65532 65532 0 false 1) [] 0 [9] ∧
    refusal (lanePage (page 65532 65532 0 false 1) [] 0 [9]) 5 (2 ^ 2) = none ∧ apNres (page 65532 65532 0 false 1) < 16 ∧
    resvsOf (lanePage (page 65532 65532 0 false 1) [] 0 [9]) 5 = [] ∧ apCtail (page 65532 65532 0 false 1) ≤ apRtail (page 65532 65532 0 false 1) :=
  ⟨⟨oneLane _ _ _ _ rfl rfl, ⟨by decide, by decide⟩, reaches _ _ _ _ _ _ 0x10000 0x50000 1 (by decide) (by decide) rfl, by decide⟩,
    by decide, by decide, by decide, by decide⟩
/-- Eight lanes reserve 4 or 8 bytes each in one page. -/
def pageStart (_ : Nat) : Word := 0x10000
def allPage : State := paged (onAll pageStart t0) (page 16 16 0 false 1) []
theorem witness_AppendPages_lanes : SomeLanes allPage lanes (gAll pageStart) 0 [2, 3, 4] ∧ accessOk (gAll pageStart) 2 4 2 ∧
    AllReach allPage lanes wr false true 1 (activeLanes (gAll pageStart) lanes 0) (fun l => pairAt (gAll pageStart) l 2)
      (resolvedAll allPage lanes wr false true 1 (activeLanes (gAll pageStart) lanes 0) fun l => pairAt (gAll pageStart) l 2)
      (fun _ => 0x50000) (fun _ => 1) ∧
    (∀ l ∈ activeLanes (gAll pageStart) lanes 0, 0 < reserveSize (vGet (gAll pageStart).regs l 4).toNat ∧
      reserveSize (vGet (gAll pageStart).regs l 4).toNat ≤ 2 ^ (apWlog (frameEntry allPage 5) + 10)) ∧ allPage.watches = [] ∧
    apNres (frameEntry allPage 5) + 8 ≤ 16 ∧ 16 + 48 ≤ 65536 ∧ apCtail (frameEntry allPage 5) ≤ apRtail (frameEntry allPage 5) :=
  ⟨allLanes _ _ _ rfl rfl, ⟨by decide, by decide⟩, allReach _ _ _ _ _ _ _ _ _ _ (by decide) (by decide) rfl, by decide, rfl, by decide,
    by decide, by decide⟩
def spinePage (e : FrameEntry) (rs : List Resv) : State := paged (onX 0x10000 4) e rs
theorem witness_AppendPages_spine : SpineAddr (spinePage (page 65532 65532 0 false 1) []) spine (kAt 0x10000 4) 0 2 ∧
    Reaches (spinePage (page 65532 65532 0 false 1) []) spine wr false true 1 (addrOf (kAt 0x10000 4) 2)
      (resolved (spinePage (page 65532 65532 0 false 1) []) spine wr false true 1 0x10000) 0x50000 1 ∧
    (∀ w ∈ (spinePage (page 65532 65532 0 false 1) []).watches, w.frame ≠ 5) ∧
    refusal (spinePage (page 65532 65532 0 false 1) []) 5 (reserveSize 4) = none :=
  ⟨⟨⟨rfl, by decide, by decide⟩, by decide, ⟨rfl, rfl, rfl⟩, fun x => absurd x (by decide)⟩,
    reaches _ _ _ _ _ _ 0x10000 0x50000 1 (by decide) (by decide) rfl, by decide, by decide⟩
/-- The watch word: threshold 65536, slot 15. -/
theorem witness_TailWatches : OnLanes (lanePage (page 0 0 0 false 1) [] 0 [0xF10000]) lanes (gAt 0x10000 [0xF10000]) ∧
    activeLanes (gAt 0x10000 [0xF10000]) lanes 1 = 7 :: [] ∧
    (let w : Word := vGet (gAt 0x10000 [0xF10000]).regs 7 4
     w.extractLsb' 24 8 = 0 ∧ w.extractLsb' 17 3 = 0 ∧ (w.extractLsb' 20 4).toNat < k0.cfgBar ∧ 0 < (w.extractLsb' 0 17).toNat) ∧
    Reaches (lanePage (page 0 0 0 false 1) [] 0 [0xF10000]) lanes rd false true 1 (pairAt (gAt 0x10000 [0xF10000]) 7 2)
      (resolved (lanePage (page 0 0 0 false 1) [] 0 [0xF10000]) lanes rd false true 1 0x10000) 0x50000 1 ∧
    watchesOn (lanePage (page 0 0 0 false 1) [] 0 [0xF10000]) lanes.who < 16 ∧ apCtail (page 0 0 0 false 1) = 0 :=
  ⟨gAt_on _ _ _ rfl rfl, gAt_active _ _, by decide, reaches _ _ _ _ _ _ 0x10000 0x50000 1 (by decide) (by decide) rfl, by decide, by decide⟩
/-- A sealed page, and threshold 4 below CTAIL 8; slot 15 expects four arrivals. -/
def tDue : Team := { t0 with bars := List.replicate 16 { Barrier.init with e := 4 } }
def dueState (apst : BitVec 2) : State := paged (laneState (gAt 0x10000 [0xF00004]) k0 tDue) (page 8 8 0 false apst) []
theorem witness_TailWatches_due : OneLane (dueState 1) lanes (gAt 0x10000 [0xF00004]) 1 7 [2, 3, 4] ∧
    Reaches (dueState 1) lanes rd false true 1 (pairAt (gAt 0x10000 [0xF00004]) 7 2)
      (resolved (dueState 1) lanes rd false true 1 0x10000) 0x50000 1 ∧
    OneLane (dueState 2) lanes (gAt 0x10000 [0xF00004]) 1 7 [2, 3, 4] ∧
    Reaches (dueState 2) lanes rd false true 1 (pairAt (gAt 0x10000 [0xF00004]) 7 2)
      (resolved (dueState 2) lanes rd false true 1 0x10000) 0x50000 1 ∧
    watchesOn (dueState 1) lanes.who < 16 ∧ watchesOn (dueState 2) lanes.who < 16 ∧ (dueState 1).watches = [] ∧
    (15 < tDue.bars.length ∧ (barOf tDue 15).f = false ∧ (barOf tDue 15).a.toNat + 1 < (barOf tDue 15).e.toNat) ∧
    (vGet (gAt 0x10000 [0xF00004]).regs 7 4).toNat = 0xF00004 :=
  ⟨oneLane _ _ _ _ rfl rfl, reaches _ _ _ _ _ _ 0x10000 0x50000 1 (by decide) (by decide) rfl, oneLane _ _ _ _ rfl rfl,
    reaches _ _ _ _ _ _ 0x10000 0x50000 1 (by decide) (by decide) rfl, by decide, by decide, rfl, by decide, by decide⟩
theorem witness_TailWatches_full : 16 ≤ watchesOn { onL with watches := List.replicate 16 ⟨1, 0, 0, 5, 8⟩ } lanes.who ∧
    OnLanes { onL with watches := List.replicate 16 ⟨1, 0, 0, 5, 8⟩ } lanes g0 ∧ OnSpine onS spine k0 :=
  ⟨by decide, ⟨rfl, by decide, by decide, by decide, by decide⟩, spine_here⟩

/-! ### Witnesses: matrix tiles and work queues -/

/-- CT is the last tile of the C buffer. -/
def gc : Group := { g0 with regs := { g0.regs with ct := 3072 } }
def onC : State := laneState gc k0 t0
theorem witness_MatrixPasses : OnLanes onC lanes gc ∧ gc.flights = [] ∧ TeamHere onC gc t0 ∧ (memberCaps onC lanes.who).getLsbD 3 = true ∧
    (memberFeat onC lanes.who).getLsbD 0 = true ∧ (memberFeat onC lanes.who).getLsbD 1 = true ∧ fusedWith onC lanes gc ⟨0, 0, true, 48, 0, 0⟩ = [] ∧
    octetsOf gc.width (issueMask gc lanes) = [0] ∧ gc.regs.ct.toNat + 1024 * 0 + 1024 ≤ t0.cSize ∧
    0 + 8 * (shapeRows 0 / 8) ≤ min gc.budget 64 ∧ 48 + 8 * (shapeCols 0 / 8) ≤ min gc.budget 64 ∧
    poisonedLanes gc (octetLanes [0]) (List.range 64) = [] ∧ OnSpine onS spine k0 :=
  ⟨lanes_with _ _ _ (by decide) (by decide), by decide, by unfold TeamHere; decide, by decide, by decide, by decide, by decide, by decide, by decide,
    by decide, by decide, by decide, spine_here⟩
def noCaps : State := { onC with dies := onC.dies.map fun d => { d with capsOff := [(0, 8)] } }
theorem witness_MatrixPasses_absent : OnLanes noCaps lanes gc ∧ TeamHere noCaps gc t0 ∧ (memberCaps noCaps lanes.who).getLsbD 3 = false :=
  ⟨⟨rfl, by decide, by decide, by decide, by decide⟩, by unfold TeamHere; decide, by decide⟩
/-- Row and column scales in the last 128 bytes of the A buffer. -/
def gcs : Group := { gc with regs := { gc.regs with v := amSet 0 gc.regs.v 63 3968 } }
theorem witness_DrainsAndClears : OnLanes (laneState gcs k0 t0) lanes gcs ∧ gcs.flights = [] ∧ TeamHere (laneState gcs k0 t0) gcs t0 ∧
    32 + 32 / perReg 0 ≤ gcs.budget ∧ 32 + 32 / perReg 0 ≤ 64 ∧ vOk gcs.budget false 63 = true ∧ octetsOf gcs.width (issueMask gcs lanes) = [0] ∧
    poisonedLanes gcs [0] [63] = [] ∧ (vGet gcs.regs 0 63).toNat % 4 = 0 ∧ gcs.regs.ct.toNat + 1024 * 0 + 1024 ≤ t0.cSize ∧
    bufPoisoned t0 .bufC 3072 1024 = false ∧ flagsPoisoned t0 3072 = false ∧ (∀ r ∈ t0.regions, gcs.idx ∉ r.behind) ∧ (vGet gcs.regs 0 63).toNat + 128 ≤ t0.aSize ∧
    rangeLocked (laneState gcs k0 t0) 1 0 .bufA 3968 128 false = false ∧ bufPoisoned t0 .bufA 3968 128 = false ∧ OnSpine onS spine k0 :=
  ⟨lanes_with _ _ _ (by decide) (by decide), by decide, by unfold TeamHere; decide, by decide, by decide, by decide, by decide, by decide, by decide, by decide,
    by decide, by decide, by decide, by decide, by decide, by decide, spine_here⟩

def rec1 : DequeRec := ⟨1, 0, false, none, List.replicate 64 1, []⟩
/-- Lane 7's r2 gives the last 64-byte area of the A buffer. -/
def onD (g : Group) (ds : List DequeRec) : State := { laneState g k0 t0 with deques := ds }
theorem areaReady (s : State) (b : Bool) (hc : s.cur = some lanes) (hg : s.groups = [gAt 4032 []]) (ht : s.teams = [t0])
    (ha : areaMiss s 1 0 4032 b = none) : AreaReady s lanes (gAt 4032 []) ⟨1, 63, 2, 0⟩ t0 7 [] b :=
  ⟨gAt_on _ _ _ hc hg, rfl, by unfold TeamHere; rw [ht]; decide, gAt_active _ _, by decide, by decide, ha⟩
def gPop : Group := { g0 with startPopped := true }
theorem popReady (ds : List DequeRec) (h : ds ∈ [[], [rec1]]) : AreaReady (onD gPop ds) lanes gPop ⟨0, 63, 2, 0⟩ t0 0 [1, 2, 3, 4, 5, 6, 7] true := by
  refine ⟨⟨rfl, by decide, ?_, by decide, clean_of _ gPop (by show ([gPop].find? fun g => g.kc = 1 ∧ g.core = 0 ∧ g.idx = 0).getD groupNone = gPop; decide) rfl⟩, by decide, ?_, by decide, by decide, by decide, ?_⟩
  · show [gPop].find? (fun x => x.kc = gPop.kc ∧ x.core = gPop.core ∧ x.idx = gPop.idx) = some gPop
    decide
  · show [t0].find? (fun t => t.kc = gPop.kc ∧ t.core = gPop.core) = some t0
    decide
  · revert ds
    decide
theorem witness_DequeInstructions_pop : AreaReady (onD gPop []) lanes gPop ⟨0, 63, 2, 0⟩ t0 0 [1, 2, 3, 4, 5, 6, 7] true ∧
    AreaReady (onD gPop [rec1]) lanes gPop ⟨0, 63, 2, 0⟩ t0 0 [1, 2, 3, 4, 5, 6, 7] true ∧
    (onD gPop [rec1]).deques = [] ++ rec1 :: [] ∧ bound gPop rec1 = true ∧ rec1.bytes.length = 64 ∧ gPop.startPopped = true :=
  ⟨popReady _ (by decide), popReady _ (by decide), rfl, by decide, by decide, rfl⟩
theorem witness_DequeInstructions_poisoned : AreaReady (onD gPop [{ rec1 with poison := [1] }]) lanes gPop ⟨0, 63, 2, 0⟩ t0 0 [1, 2, 3, 4, 5, 6, 7] true ∧
    bound gPop { rec1 with poison := [1] } = true := by
  refine ⟨⟨⟨rfl, by decide, ?_, by decide, by decide⟩, by decide, ?_, by decide, by decide, by decide, by decide⟩, by decide⟩
  · show [gPop].find? (fun x => x.kc = gPop.kc ∧ x.core = gPop.core ∧ x.idx = gPop.idx) = some gPop
    decide
  · show [t0].find? (fun t => t.kc = gPop.kc ∧ t.core = gPop.core) = some t0
    decide
theorem witness_DequeInstructions_start : (onD { g0 with startPopped := false } [{ rec1 with start := true }]).deques.find?
      (fun q => q.kc = 1 && q.core = 0 && q.start) = some { rec1 with start := true } ∧
    AreaReady (onD { g0 with startPopped := false } [{ rec1 with start := true }]) lanes { g0 with startPopped := false } ⟨0, 63, 2, 0⟩ t0 0 [1, 2, 3, 4, 5, 6, 7] true :=
  ⟨by decide, ⟨rfl, by decide, by decide, by decide, by decide⟩, by decide, by unfold TeamHere; decide, by decide, by decide, by decide, by decide⟩
/-- A second kernel cluster of the grid on another core, with a record. -/
def k3 : Kc := { k0 with id := 2, place := some ⟨0, 1, 0, 0, 0⟩ }
def rec2 : DequeRec := { rec1 with kc := 2 }
def onSteal : State := { onD (gAt 4032 []) [rec2] with kcs := [k0, k3] }
theorem witness_DequeInstructions_steal : AreaReady onSteal lanes (gAt 4032 []) ⟨1, 63, 2, 0⟩ t0 7 [] true ∧
    (∃ q ∈ onSteal.deques, q.start = false ∧ (kcOf onSteal q.kc).grid = (kcOf onSteal 1).grid ∧ (kcOf onSteal q.kc).place.isSome = true ∧
      hwCore (kcOf onSteal q.kc) q.core ≠ hwCore (kcOf onSteal 1) 0) ∧
    (∀ r ∈ onSteal.deques, r.bytes.length = 64 ∧ r.poison = []) ∧ stealable (onD (gAt 4032 []) [rec1]) 1 0 = [] :=
  ⟨areaReady _ _ rfl rfl rfl (by decide), by decide, by decide, by decide⟩
set_option maxRecDepth 4000 in
theorem witness_DequeInstructions_push : AreaReady (onD (gAt 4032 []) []) lanes (gAt 4032 []) ⟨1, 63, 2, 0⟩ t0 7 [] false ∧
    bufPoisoned t0 .bufA 4032 64 = false ∧ dequeRoom (onD (gAt 4032 []) []) 1 0 = true ∧
    dequeRoom (onD (gAt 4032 []) (List.replicate 256 rec1)) 1 0 = false ∧
    AreaReady (onD (gAt 4032 []) (List.replicate 256 rec1)) lanes (gAt 4032 []) ⟨1, 63, 2, 0⟩ t0 7 [] false :=
  ⟨areaReady _ _ rfl rfl rfl (by decide), by decide, by decide, by decide, areaReady _ _ rfl rfl rfl (by decide)⟩
/-- `wpush` by the spine: the status register is x4, which also names core 0; the record lies at x2. -/
def pusher : Issue := { spine with word := 0x04001033 }
def onPush : State := { onX 0xFFC0 0 with cur := some pusher }
set_option maxRecDepth 4000 in
theorem witness_DequeInstructions_spine : SpineAddr onPush pusher (kAt 0xFFC0 0) 0 2 ∧ bitsOf pusher.word 15 10 = 4 ∧
    (xGet (kAt 0xFFC0 0).spine 4).toNat % 16 < (kAt 0xFFC0 0).rows * (kAt 0xFFC0 0).cols ∧
    Reaches onPush pusher { r := true } true true 64 (xGet (kAt 0xFFC0 0).spine 2) (resolved onPush pusher { r := true } true true 64 0xFFC0) 0x4FFC0 0 ∧
    dequeRoom onPush 1 0 = true ∧ dequeRoom { onPush with deques := List.replicate 256 rec1 } 1 0 = false :=
  ⟨⟨⟨rfl, by decide, by decide⟩, by decide, ⟨rfl, rfl, rfl⟩, fun x => absurd x (by decide)⟩, by decide, by decide,
    reaches _ _ _ _ _ _ 0xFFC0 0x4FFC0 0 (by decide) (by decide) rfl, by decide, by decide⟩
/-- The team's WAKE slot is 1, and its first record makes an arrival there. -/
def waking : State := { onB with grids := [{ grid0 with mould := { mould0 with wqv := true, wake := 4 } }] }
theorem witness_DequeInstructions_wakes : wakeSlot waking 1 = some 4 ∧ boundCount waking 1 0 = 0 ∧
    waking.teams.find? (fun q => q.kc = 1 ∧ q.core = 0) = some t1 ∧ 4 < t1.bars.length ∧ (barOf t1 4).f = false ∧ (barOf t1 4).a ≠ 1023 ∧
    (barOf t1 4).e = 0 ∧ (barOf t1 5).f = true ∧ (barOf t1 5).h ≠ 1023 := by decide
/-- The function owns counter 4095 alone. -/
def quota : Func := { Func.init with holdq := 0x0000_0001_0FFF_0000 }
def withQuota (s : State) : State := { s with host := { s.host with funcs := [(0, some quota)] } }
/-- Counter 4095 stands at 1, and a record waits for it. -/
theorem witness_DependencesAndQueries_releases : (let T : Tundish := { base.tund with counts := [(4095, 1)], held := [(4095, grid0.launch)] }
    amGet 0 T.counts 4095 = 1 ∧ (T.held.filter fun h => h.1 = 4095) ≠ []) := by decide
theorem witness_DependencesAndQueries : OneLane (withQuota (onAt 4095 [])) lanes (gAt 4095 []) 1 7 [2] ∧ vOk (gAt 4095 []).budget false 63 = true ∧
    ownsCounter (withQuota (onAt 4095 [])) (ctxOf (withQuota (onAt 4095 [])) (memberAsid (withQuota (onAt 4095 [])) lanes.who)).vf (4095 % 4096) = true ∧
    (amGet QueueEntry.zero (onAt 255 []).tund.queues (255 % 256)).vf = (ctxOf (onAt 255 []) (memberAsid (onAt 255 []) lanes.who)).vf :=
  ⟨oneLane _ _ _ _ rfl rfl, by decide, by decide, by decide⟩
theorem witness_DependencesAndQueries_spine : OnSpine (withQuota (onX 4095 0)) spine (kAt 4095 0) ∧ spinePred (kAt 4095 0).spine 0 = true ∧
    (kAt 4095 0).spine.poison.contains 2 = false ∧ ownsCounter (withQuota (onX 4095 0)) (ctxOf (withQuota (onX 4095 0)) 1).vf
      ((xGet (kAt 4095 0).spine 2).toNat % 2 ^ 32 % 4096) = true := ⟨⟨rfl, by decide, by decide⟩, by decide, by decide, by decide⟩

/-! ### Witnesses: the ladle -/

/-- A request block: four words from A + 128 to the W buffer (0), to cores of a mask (1), added into A + 256 (2). -/
def blockBytes (ctl mcast dst : Nat) : List Byte := natToBytes 8 128 ++ natToBytes 8 dst ++ natToBytes 4 4 ++ natToBytes 2 1 ++ natToBytes 2 1 ++
  natToBytes 2 1 ++ List.replicate 26 0 ++ natToBytes 4 ctl ++ natToBytes 4 mcast ++ natToBytes 4 0
def tk (fn : Nat) : Team :=
  { t0 with
    a := putBytes [] 0 (if fn = 0 then blockBytes 82 0 0 else if fn = 1 then blockBytes 82 1 0 else blockBytes 4242 0 256)
    bars := bars1, free := 0xFFFF }
/-- A group at the kick of a block at r63 of lane 0. -/
theorem kicks (g : Group) (fn : Nat) (T : Team) (sized : Bool) (hg : g.kc = 1 ∧ g.core = 0 ∧ g.idx = 0 ∧ g.runAhead = none ∧ g.flights = [])
    (hl : vOk g.budget false 63 = true ∧ 0 < k0.cfgBar) (ha : activeLanes g lanes 0 = 0 :: [1, 2, 3, 4, 5, 6, 7])
    (hc : g.poison.contains (0 * 64 + 63) = false) (ht : TeamHere (laneState g k0 T) g T)
    (hr : let a := (vGet g.regs 0 63).toNat
      a % 64 = 0 ∧ a + 64 ≤ T.aSize ∧ inRegion T a 64 = false ∧ rangeLocked (laneState g k0 T) 1 0 .bufA a 64 false = false ∧
        bufPoisoned T .bufA a 64 = false)
    (hb : let b := parseBlock (bufRead T .bufA (vGet g.regs 0 63).toNat 64)
      blockDenied (laneState g k0 T) 1 0 fn b = false ∧ blockMisaligned b = false ∧ sized = decide (0 < b.count) ∧ blockCores 0 fn b ≠ [] ∧
        ∀ i ∈ blockCores 0 fn b, (barOf (teamOf (laneState g k0 T) 1 i) 0).e ≠ 0 ∧ (barOf (teamOf (laneState g k0 T) 1 i) 0).f = false ∧
          (barOf (teamOf (laneState g k0 T) 1 i) 0).eb.toNat + b.count < 2 ^ 32 ∧
          (fn = 1 → (teamOf (laneState g k0 T) 1 i).free.getLsbD 0 = true)) :
    KickReady (laneState g k0 T) lanes g fn ⟨0, 63, 0, 0⟩ T 0 [1, 2, 3, 4, 5, 6, 7] sized := by
  obtain ⟨h1, h2, h3, h4, h5⟩ := hg
  refine ⟨?_, ?_, h4, h5, ht, ⟨hl.1, ?_⟩, ha, hc, ?_, ?_, fun _ => ?_⟩
  · rw [h1, h2, h3]; rfl
  · simp [laneState]
  · rw [h1]; exact hl.2
  · rw [h1, h2]; exact hr
  · rw [h1, h2]; exact hb
  · rw [h1, h2]
    show ([] : List Nat).length + 2 ≤ 32
    decide
theorem kick_lxfr : KickReady (laneState g0 k0 (tk 0)) lanes g0 0 ⟨0, 63, 0, 0⟩ (tk 0) 0 [1, 2, 3, 4, 5, 6, 7] true :=
  kicks _ _ _ _ (by decide) (by decide) (by decide) (by decide) (by unfold TeamHere; decide) (by decide) (by decide)
theorem kick_lmcs : KickReady (laneState g0 k0 (tk 1)) lanes g0 1 ⟨0, 63, 0, 0⟩ (tk 1) 0 [1, 2, 3, 4, 5, 6, 7] true :=
  kicks _ _ _ _ (by decide) (by decide) (by decide) (by decide) (by unfold TeamHere; decide) (by decide) (by decide)
theorem kick_lred : KickReady (laneState g0 k0 (tk 2)) lanes g0 2 ⟨0, 63, 0, 0⟩ (tk 2) 0 [1, 2, 3, 4, 5, 6, 7] true :=
  kicks _ _ _ _ (by decide) (by decide) (by decide) (by decide) (by unfold TeamHere; decide) (by decide) (by decide)
/-- A group that holds a kick back. -/
def gHoldL : Group := { g0 with hold := some (.locks lanes 2 ⟨0, 63, 0, 0⟩) }
def gHoldM : Group := { g0 with hold := some (.mcast lanes ⟨0, 63, 0, 0⟩) }
theorem kick_lred_held : KickReady (laneState gHoldL k0 (tk 2)) lanes gHoldL 2 ⟨0, 63, 0, 0⟩ (tk 2) 0 [1, 2, 3, 4, 5, 6, 7] true :=
  kicks _ _ _ _ (by decide) (by decide) (by decide) (by decide) (by unfold TeamHere; decide) (by decide) (by decide)
theorem kick_lmcs_held : KickReady (laneState gHoldM k0 (tk 1)) lanes gHoldM 1 ⟨0, 63, 0, 0⟩ (tk 1) 0 [1, 2, 3, 4, 5, 6, 7] true :=
  kicks _ _ _ _ (by decide) (by decide) (by decide) (by decide) (by unfold TeamHere; decide) (by decide) (by decide)
theorem witness_LadleKicks : OnLanes (laneState g0 k0 (tk 0)) lanes g0 ∧ KickReady (laneState g0 k0 (tk 0)) lanes g0 0 ⟨0, 63, 0, 0⟩ (tk 0) 0 [1, 2, 3, 4, 5, 6, 7] true ∧
    KickReady (laneState g0 k0 (tk 1)) lanes g0 1 ⟨0, 63, 0, 0⟩ (tk 1) 0 [1, 2, 3, 4, 5, 6, 7] true ∧
    KickReady (laneState g0 k0 (tk 2)) lanes g0 2 ⟨0, 63, 0, 0⟩ (tk 2) 0 [1, 2, 3, 4, 5, 6, 7] true :=
  ⟨lanes_with _ _ _ (by decide) (by decide), kick_lxfr, kick_lmcs, kick_lred⟩
/-- A block of no bytes. -/
def tNone : Team := { tk 0 with a := putBytes (tk 0).a 20 [0, 0] }
theorem witness_LadleKicks_empty : KickReady (laneState g0 k0 tNone) lanes g0 0 ⟨0, 63, 0, 0⟩ tNone 0 [1, 2, 3, 4, 5, 6, 7] false ∧
    (barOf tNone 0).a.toNat + 1 < (barOf tNone 0).e.toNat :=
  ⟨kicks _ _ _ _ (by decide) (by decide) (by decide) (by decide) (by unfold TeamHere; decide) (by decide) (by decide), by decide⟩
/-- Blocks that the rows of R284 turn away: at 32, at the end of the buffer, locked by a transfer, from a reserved space,
from an odd address, at a slot that is not armed, and past the largest EB. -/
def gBlock (a : Word) : Group := { g0 with regs := { g0.regs with v := [(63, a)] } }
def kickBlock (T : Team) : Block := parseBlock (bufRead T .bufA 0 64)
def badSpace : Team := { tk 0 with a := putBytes (tk 0).a 0 (blockBytes 0xFF 0 0) }
def badSource : Team := { tk 0 with a := putBytes (tk 0).a 0 [129] }
def nearFull : Team := { tk 0 with bars := { bar 2 0 false with eb := 0xFFFFFFF8 } :: bars1.drop 1 }
theorem witness_LadleKicks_refused : OnLanes (laneState (gBlock 32) k0 (tk 0)) lanes (gBlock 32) ∧ (32 : Nat) % 64 ≠ 0 ∧
    OnLanes (laneState (gBlock 4096) k0 (tk 0)) lanes (gBlock 4096) ∧ (4096 : Nat) % 64 = 0 ∧ (tk 0).aSize < 4096 + 64 ∧
    blockDenied (laneState g0 k0 badSpace) 1 0 0 (kickBlock badSpace) = true ∧
    blockDenied (laneState g0 k0 badSource) 1 0 0 (kickBlock badSource) = false ∧ blockMisaligned (kickBlock badSource) = true ∧
    (barOf (tk 0) 4).e = 0 ∧ blockCores 0 0 (kickBlock (tk 0)) = [0] ∧
    2 ^ 32 ≤ (barOf nearFull 0).eb.toNat + (kickBlock nearFull).count ∧ (barOf nearFull 0).e ≠ 0 ∧ (barOf nearFull 0).f = false :=
  ⟨lanes_with _ _ _ (by decide) (by decide), by decide, lanes_with _ _ _ (by decide) (by decide), by decide, by decide, by decide, by decide,
    by decide, by decide, by decide, by decide, by decide, by decide⟩
theorem witness_LadleKicks_counts : AtBarrier onB lanes g0 0 t1 ∧ activeLanes g0 lanes 1 = [] ∧ (barOf t1 0).f = false ∧
    (barOf t1 0).a.toNat + 1 < (barOf t1 0).e.toNat := ⟨atBarrier 0 (by decide) (by decide), by decide, by decide, by decide⟩
/-- 16 bytes of memory to the last part of the W buffer. -/
def gcp : Group := gAt 0xFFF0 [0x40000FF0]
theorem witness_LadleKicks_copy : OneLane (laneState gcp k0 t1) lanes gcp 1 7 [2, 3, 4] ∧ AtBarrier (laneState gcp k0 t1) lanes gcp 0 t1 ∧
    vOk gcp.budget true 2 = true ∧ vOk gcp.budget false 4 = true ∧
    Reaches (laneState gcp k0 t1) lanes { r := true } true true 16 (pairAt gcp 7 2) (resolved (laneState gcp k0 t1) lanes { r := true } true true 16 0xFFF0) 0x4FFF0 0 ∧
    (vGet gcp.regs 7 4).toNat % 16 = 0 ∧ copyDest (vGet gcp.regs 7 4) = some (.bufW, 4080) ∧ 4080 + 16 ≤ bufSize t1 .bufW ∧
    (barOf t1 0).e ≠ 0 ∧ (barOf t1 0).f = false ∧ (barOf t1 0).a < (barOf t1 0).e ∧ (barOf t1 0).eb.toNat + 16 < 2 ^ 32 :=
  ⟨oneLane _ _ _ _ rfl rfl, ⟨gAt_on _ _ _ rfl rfl, by decide, by decide, by decide, by decide⟩, by decide, by decide,
    reaches _ _ _ _ _ _ 0xFFF0 0x4FFF0 0 (by decide) (by decide) rfl, by decide, by decide, by decide, by decide, by decide, by decide, by decide⟩
theorem witness_LadleKicks_lwp : TeamHere onB g0 t1 ∧ (15 : BitVec 4).toNat < (kcOf onB g0.kc).cfgBar ∧ amGet none t1.chans 15 = none ∧
    amGet none ({ t1 with chans := [(15, some 7)] } : Team).chans 15 = some 7 ∧ (∀ x ∈ onB.transfers, ¬(x.kc = 1 ∧ x.core = 0 ∧ x.chan = some 7)) :=
  ⟨by unfold TeamHere; decide, by decide, by decide, by decide, by decide⟩
/-- A copy of two words from A + 128 to the W buffer, counting in slot 0. -/
def leg1 : Leg := ⟨0, [(0, 128), (16, 144)], false⟩
def x1 : Transfer :=
  ⟨9, 1, 0, 0, 1, 0xFF, some 7, 0, .bufA, .bufW, 4, .copy, some (128, 136), some (0, 8), 0, [leg1], true, false, false, [], []⟩
def onT (x : Transfer) : State := { onB with transfers := [x] }
/-- The kick runs while its block is locked. -/
theorem witness_LadleKicks_locked : rangeLocked (onT { x1 with srcIv := some (0, 64), dstIv := some (0, 64), dspace := .bufA }) 1 0 .bufA 0 64 false = true := by decide
theorem runs (x : Transfer) (h : x.id = 9 ∧ x.started = true ∧ x.stopped = false ∧ x.chan ≠ none ∧ x.fetched = [])
    (hk : x.sspace ≠ .global ∧ 0 < x.esize ∧ (x.red = .addF32 → x.esize = 4) ∧ (x.red = .addBf16 → x.esize = 2)) (hc : x.kc = 1 ∧ x.core = 0) :
    Runs (onT x) x t1 :=
  ⟨by simp [onT], h.2, hk, by rw [hc.1, hc.2]; show [t1].find? (fun t => t.kc = 1 ∧ t.core = 0) = some t1; decide⟩
theorem legReady (n : Nat) (h : n = 16 ∨ n = 32) : LegReady (onT x1) x1 n t1 leg1 t1 := by
  rcases h with rfl | rfl <;>
    exact ⟨by decide, by unfold Aligned; decide, ⟨.inl (by decide), by decide⟩, by decide, by decide, ⟨by decide, by decide, by decide⟩⟩
theorem goesOn : GoesOn (onT x1) 1 := ⟨k0, by decide, rfl, fun G h => by
  simp only [show gridOf? (onT x1) k0.grid = some grid0 by decide, Option.some.injEq] at h
  rw [← h]
  decide⟩
/-- Two elements a part apart: the first 16 bytes are one, all of them both. -/
theorem witness_LadleEvents_lands : Runs (onT x1) x1 t1 ∧ LegReady (onT x1) x1 16 t1 leg1 t1 ∧ LegReady (onT x1) x1 32 t1 leg1 t1 ∧
    x1.dspace ≠ .global ∧ leg1.arrived = false ∧ landsNow x1 16 leg1 = [(0, 128)] ∧ landsAfter x1 32 leg1 = [] ∧ GoesOn (onT x1) x1.kc :=
  ⟨runs _ (by decide) (by decide) (by decide), legReady _ (.inl rfl), legReady _ (.inr rfl), by decide, by decide, by decide, by decide, goesOn⟩
/-- Four elements of a part of memory at the top of page 0 land together, one more comes after them. -/
def leg4 : Leg := ⟨0, [(0xFFE0, 128), (0xFFE4, 132), (0xFFE8, 136), (0xFFEC, 140), (0xFFF0, 144)], false⟩
def x4 : Transfer := { x1 with dspace := .global, dstIv := none, legs := [leg4] }
theorem witness_LadleEvents_memory : Runs (onT x4) x4 t1 ∧ landsNow x4 16 leg4 = leg4.todo.take 4 ∧ Aligned x4 (landsNow x4 16 leg4) ∧
    landsAfter x4 16 leg4 = [(0xFFF0, 144)] ∧ (landsNow x4 16 leg4).Pairwise (fun e e' => e.1 + 4 ≤ e'.1) ∧
    (∀ e ∈ landsNow x4 16 leg4, bufPoisoned t1 .bufA e.2 4 = false) ∧ AwaitsMore t1 0 ∧ unitSpan x4 (landsNow x4 16 leg4) = (0xFFE0, 16) ∧
    (ladleSide (onT x4) x4 true 0xFFE0 16).2.toOption = some ⟨.mem 0x4FFE0 0, 0, 16, 0xFFE0⟩ ∧
    { (ladleSide (onT x4) x4 true 0xFFE0 16).1 with tlb := (onT x4).tlb } = onT x4 :=
  ⟨runs _ (by decide) (by decide) (by decide), by decide, by unfold Aligned; decide, by decide, by decide, by decide, ⟨by decide, by decide, by decide⟩,
    by decide, by decide, rfl⟩
/-- A copy from an unmapped page, and the same met again after an answer. -/
def x2 : Transfer := { x1 with sspace := .global, srcIv := none, legs := [{ leg1 with todo := [(0, 0x20000)] }] }
theorem meets (x : Transfer) (h : x ∈ [x2, { x2 with retried := true }]) :
    Meets (onT x) x ((nextMiss (onT x) x).getD ⟨0, 0, 0, 0, false, false, false⟩) := by
  simp only [List.mem_cons, List.not_mem_nil, or_false] at h
  have some_of : ∀ o : Option Miss, o.isSome = true → o = some (o.getD ⟨0, 0, 0, 0, false, false, false⟩) := fun o h => by cases o <;> simp_all
  rcases h with rfl | rfl <;> exact ⟨by decide, ⟨rfl, rfl⟩, some_of _ (by decide)⟩
theorem witness_LadleEvents_pageFault : (∃ m, Meets (onT x2) x2 m ∧ m.cause = 0x04) ∧ x2.retried = false :=
  ⟨⟨_, meets x2 (by simp), by decide⟩, rfl⟩
def x3 : Transfer := { x2 with retried := true }
theorem witness_LadleEvents_denied : (∃ m, Meets (onT x3) x3 m) ∧ x3.retried = true ∧ GoesOn (onT x3) x3.kc ∧
    x3.legs = [{ leg1 with todo := [(0, 0x20000)] }] ∧ leg1.arrived = false ∧ AwaitsMore t1 x3.slot ∧
    (onT x3).groups.find? (fun y => y.kc = x3.kc ∧ y.core = x3.core ∧ y.idx = x3.group) = some g0 ∧ g0.ended = false :=
  ⟨⟨_, meets x3 (by simp [x3])⟩, rfl, goesOn, rfl, rfl, ⟨by decide, by decide, by decide⟩, by decide, rfl⟩
theorem witness_LadleKicks_pointer : amGet none ({ t1 with chans := [(0, some 7)] } : Team).chans 0 = some 7 ∧
    (onT x1).transfers.find? (fun y => y.kc = 1 ∧ y.core = 0 ∧ y.chan = some 7) = some x1 ∧ x1.legs = [leg1] ∧
    leg1.todo = (0, 128) :: [(16, 144)] := by decide
theorem witness_LadleEvents_start : (onT { x1 with started := false }).transfers.find? (fun t => t.id = x1.id) = some { x1 with started := false } ∧
    ((onT { x1 with started := false }).transfers.find? fun q => q.chan = x1.chan ∧
      hwCore (kcOf (onT { x1 with started := false }) q.kc) q.core = hwCore (kcOf (onT { x1 with started := false }) x1.kc) x1.core) =
        some { x1 with started := false } := ⟨by decide, by decide⟩
theorem witness_LadleEvents_held : KickReady (laneState gHoldL k0 (tk 2)) lanes gHoldL (2 : BitVec 2).toNat ⟨0, 63, 0, 0⟩ (tk 2) 0 [1, 2, 3, 4, 5, 6, 7] true ∧
    KickReady (laneState gHoldM k0 (tk 1)) lanes gHoldM 1 ⟨0, 63, 0, 0⟩ (tk 1) 0 [1, 2, 3, 4, 5, 6, 7] true := ⟨kick_lred_held, kick_lmcs_held⟩

/-! ### Witnesses: traps, saves, the tundish -/

def tr0 : Trap := trapOf spine { cause := 0x03 }
def fr0 : Frame := frameOf onS (.spine 1) tr0
def framed : State := { onS with frames := [fr0] }
theorem witness_TrapFrames_room : framed.frames[0]? = some fr0 ∧ ctxOf? framed fr0.asid = some c0 ∧ frameCont c0 fr0 = false ∧ ringRoom framed c0 fr0 = true ∧
    (let slot := ringSlot c0 (memVal framed (c0.desc + 0x28) 8); slot + 128 ≤ c0.desc + 0x28 ∨ c0.desc + 0x30 ≤ slot) := by decide
def fullRing : State := { framed with mem := putNat framed.mem 0x1028 8 1 }
theorem witness_TrapFrames_full : fullRing.frames[0]? = some fr0 ∧ ctxOf? fullRing fr0.asid = some c0 ∧ frameCont c0 fr0 = false ∧
    ringRoom fullRing c0 fr0 = false := by decide
/-- The member's kernel cluster has been saved already. -/
def framedSaved : State := { framed with kcs := [{ k0 with status := .saved 1, slotNo := some 0, place := none }] }
theorem witness_TrapFrames_saved : fr0.whose = .member (.spine 1) ∧ (kcOf framedSaved 1).status = .saved 1 ∧ framedSaved.written = [] ∧
    (∃ k ∈ framedSaved.kcs, k.id = 1) ∧ fr0.trap.cause ≠ 0x0D ∧ ringRoom framedSaved c0 fr0 = true := by decide
def kTrap : Kc := { k0 with spine := { k0.spine with trap := some tr0 } }
def wSpine : Written := ⟨1, 5, 0x78, fr0⟩
def answered : State := { spineState kTrap with written := [wSpine] }
theorem witness_TrapAnswers_spine : AnswerSpine answered ⟨1, 5⟩ wSpine kTrap tr0 ∧ causeSkips tr0.cause = false ∧ tr0.imprecise = false :=
  ⟨⟨by decide, by decide, by decide, by decide, by decide⟩, by decide, by decide⟩
def trg : Trap := trapOf lanes { cause := 0x03, lanes := 0xFF }
def gTrap : Group := { g0 with trap := some trg }
def wGroup : Written := ⟨1, 6, 0x78, frameOf onL lanes.who trg⟩
def answeredG : State := { laneState gTrap k0 t0 with written := [wGroup] }
theorem witness_TrapAnswers_group : AnswerGroup answeredG ⟨1, 6⟩ wGroup gTrap trg ∧ trg.imprecise = false ∧ causeSkips trg.cause = false ∧ trg.late = false ∧
    (∃ e ∈ gTrap.regs.frontier, e.pc = trg.pc ∧ e.prio = trg.prio ∧ e.wait = none ∧ e.mask.getLsbD 7 = true) :=
  ⟨⟨by decide, by decide, by decide, by decide, by decide⟩, by decide, by decide, by decide, by decide⟩
/-- A PAGE_FAULT issues again for the whole entry, another cause for the lanes in LANES. -/
theorem witness_TrapAnswers_retry : gTrap.regs.frontier.filter (fun x => x.pc = trg.pc ∧ x.prio = trg.prio) = [⟨0, 0, 0xFF, none⟩] ∧
    trg.cause ≠ 0x04 ∧ trg.cause ≠ 0x06 ∧ trg.cause ≠ 0x0C ∧ (trapOf lanes { cause := 0x04 }).late = false := by decide
theorem witness_TrapAnswers_end : findWritten answered ⟨1, 5⟩ = some wSpine ∧ gridOf? answered wSpine.frame.grid = some grid0 := by decide
/-- The spine waits for s0, which is EMPTY, and the group has ended. -/
def kStuck : Kc := { k0 with spine := { k0.spine with wait := some (.sprueFull 0) } }
def stuck : State := { base with kcs := [kStuck], groups := [{ g0 with ended := true }] }
theorem witness_DeadlockWatchdog : stuck.kcs.find? (fun x => x.id = kStuck.id) = some kStuck ∧ gridOf? stuck kStuck.grid = some grid0 ∧
    deadlocked stuck kStuck = true ∧ onS.kcs.find? (fun x => x.id = k0.id) = some k0 ∧ gridOf? onS k0.grid = some grid0 ∧ deadlocked onS k0 = false := by
  decide
def kStop : Kc := { k0 with status := .stopping 1, slotNo := some 0, spine := { k0.spine with stopped := true } }
def toSave : State := { base with kcs := [kStop], groups := [{ g0 with stopped := some 64 }] }
theorem witness_SaveAndResume_save : toSave.kcs.find? (fun x => x.id = kStop.id) = some kStop ∧ saveReady toSave kStop = true ∧
    onS.kcs.find? (fun x => x.id = k0.id) = some k0 ∧ saveReady onS k0 = false := by decide
/-- The context keeps its descriptor at 0x40 below the image, and touched die 0, which is withdrawing. -/
def leaving : State := { toSave with
  ctxs := [{ c0 with desc := 0x40, saveBase := 0x1000, dirty := 0xE }], mem := putNat toSave.mem 0x98 1 0xF
  dies := toSave.dies.map fun d => { d with st := .withdrawing } }
theorem witness_SaveAndResume_leaves : saveReady leaving kStop = true ∧
    (ctxOf? leaving kStop.asid).map (fun c => (decide (c.desc + 0x58 < imageBase leaving kStop), c.dirty.getLsbD 0)) = some (true, false) ∧
    kStop.place.map (fun p => (p.die, (dieOf leaving p.die).st)) = some (0, .withdrawing) ∧
    (leaving.kcs.all fun q => q.id = kStop.id) = true ∧ (leftDie leaving kStop).mem ≠ leaving.mem := by decide
def kSaved : Kc := { k0 with status := .saved 1, slotNo := some 0, place := none }
def saved (req : Nat) (ds : List DieNo) : State :=
  { base with
    kcs := [kSaved], grids := [{ grid0 with dies := ds }]
    mem := putNat base.mem 0x28 4 req
    dies := base.dies.map fun d => { d with featOff := (List.range 48).map fun i => (i, 4) } }
theorem witness_SaveAndResume_resume : (saved 0x100 [0]).kcs.find? (fun x => x.id = kSaved.id) = some kSaved ∧
    gridOf? (saved 0x100 [0]) kSaved.grid = some { grid0 with dies := [0] } ∧ mayResume (saved 0x100 [0]) kSaved { grid0 with dies := [0] } = true ∧
    resumesLater (saved 0x100 [0]) kSaved { grid0 with dies := [0] } = false ∧
    anyCoreMeets (saved 0x100 [0]) kSaved.asid (withRegion mould0 (BitVec.ofNat 32 (memVal (saved 0x100 [0]) (imageBase (saved 0x100 [0]) kSaved + 0x28) 4))) = true ∧
    ((candsOn [0] 1 1).find? (fitsAt (saved 0x100 [0]) mould0 0x100 none fun i => boundRecs (saved 0x100 [0]) 1 i)).isSome = true := by decide
/-- Another kernel cluster of the grid, with a higher CLUSTER, waits for the first. -/
def kHigher : Kc := { kSaved with id := 2, cluster := 1 }
theorem witness_SaveAndResume_later : (let s : State := { saved 0 [0] with kcs := [kHigher, kSaved] }
    resumesLater s kHigher { grid0 with dies := [0] } = true ∧ resumesLater s kSaved { grid0 with dies := [0] } = false) := by decide
theorem witness_SaveAndResume_nowhere : mayResume (saved 0x400 [0]) kSaved { grid0 with dies := [0] } = true ∧
    anyCoreMeets (saved 0x400 [0]) kSaved.asid (withRegion mould0 (BitVec.ofNat 32 (memVal (saved 0x400 [0]) (imageBase (saved 0x400 [0]) kSaved + 0x28) 4))) = false ∧
    mayResume (saved 0 []) kSaved { grid0 with dies := [] } = true ∧ anyCoreMeets (saved 0 []) kSaved.asid 0 = true ∧
    (candsOn [] 1 1).find? (fitsAt (saved 0 []) mould0 0 none fun i => boundRecs (saved 0 []) 1 i) = none ∧
    mayResume onS k0 grid0 = false := by decide

/-- Queue 0 of four slots: ring at 0x8000, control block at 0x9000. -/
def queue0 (work : Bool) : QueueEntry := ⟨0x8000, 2, 0x9000, work, 0, 1, true⟩
/-- A record with a header whose phase bit is that of the first pass, and a kernel grid of 1 × 1 × 1 with its mould at 0x100. -/
def queued (work : Bool) (hdr : Nat) : State :=
  { withQuota base with
    mem := putNat (putNat (putNat base.mem 0x8000 8 hdr) 0x8008 8 0x100) 0x8010 8 0x100010001
    tund := { base.tund with queues := [(0, queue0 work)], looking := [0], counts := [(4095, 1)] } }
def heldQuota : Func := { quota with holdq := quota.holdq ||| 1 }
def held (s : State) : State := { s with host := { s.host with funcs := [(0, some heldQuota)] } }
theorem witness_FeedQueues_notify : (queueOf (queued false 0) 0).en = true ∧ (queueOf (queued false 0) 1).en = false := by decide
theorem witness_FeedQueues_empty : served (queued false 0) 0 = true ∧ 0 ∈ (queued false 0).tund.looking ∧ slotReady (queued false 0) (queue0 false) = false := by decide
theorem witness_FeedQueues_padding : served (queued false 0x100) 0 = true ∧ slotReady (queued false 0x100) (queue0 false) = true ∧
    (recHeader (slotBytes (queued false 0x100) (queue0 false))).extractLsb' 0 8 = 0 := by decide
theorem witness_FeedQueues_bad : slotReady (queued false 0x103) (queue0 false) = true ∧
    (recHeader (slotBytes (queued false 0x103) (queue0 false))).extractLsb' 0 8 ≠ 0 ∧
    badRecord (queued false 0x103) (queue0 false) (slotBytes (queued false 0x103) (queue0 false)) = true := by decide
theorem witness_FeedQueues_held : slotReady (held (queued false 0xFFF0301)) (queue0 false) = true ∧
    badRecord (held (queued false 0xFFF0301)) (queue0 false) (slotBytes (held (queued false 0xFFF0301)) (queue0 false)) = false ∧
    mustHold (held (queued false 0xFFF0301)) (slotBytes (held (queued false 0xFFF0301)) (queue0 false)) = true ∧
    heldOf (held (queued false 0xFFF0301)) 0 < holdQuota (held (queued false 0xFFF0301)) 0 := by decide
theorem witness_FeedQueues_stays : slotReady (queued false 0x101) (queue0 false) = true ∧
    badRecord (queued false 0x101) (queue0 false) (slotBytes (queued false 0x101) (queue0 false)) = false ∧
    mustHold (queued false 0x101) (slotBytes (queued false 0x101) (queue0 false)) = false := by decide
/-- A mould of one core with one group of width 8, at VA 0x100. -/
def withMould (s : State) : State :=
  { s with
    kcs := [], groups := [], teams := [], grids := []
    mem := putNat (putNat (putNat s.mem 0x40124 4 0x201) 0x40130 4 0x11111) 0x40138 4 0x10001 }
def rec0 : Launch := ⟨slotBytes (withMould (queued false 0x101)) (queue0 false), 0, 1, 0, []⟩
def mouldRead : Mould := ⟨256, 0, [0], [(1, 1, 8, 8)], 1, 1, 1, 1, 1, 0, 1, 1, 0, 0, 0, 0, false, 0, 0, 0, []⟩
def startState : State := { withMould (queued false 0x101) with tund := { (withMould (queued false 0x101)).tund with heads := [⟨.ring 0, rec0, mouldRead, false, 0, false, [], []⟩] } }
theorem witness_PlacementAndWork_latched : LatchedAll (let s := withMould (queued false 0x101); { s with ctxs := s.ctxs.map (latchDesc s) }) := by
  unfold LatchedAll
  decide
theorem witness_PlacementAndWork_none : (withMould base).grids = [] ∧ (withMould base).tund.heads = [] ∧ (withMould base).tund.released = [] ∧
    (withMould base).tund.looking = [] ∧ (withMould base).tund.rr = [] := by decide
theorem witness_PlacementAndWork_head : allHeads (withMould (queued false 0x101)) = [.ring 0] ∧ headLaunch (withMould (queued false 0x101)) (.ring 0) = some rec0 := by
  decide
set_option maxRecDepth 20000 in
theorem witness_PlacementAndWork_mould : readMould (withMould (queued false 0x101)) rec0 = some mouldRead := by decide +kernel
set_option maxRecDepth 20000 in
theorem witness_PlacementAndWork_start : dimsBad rec0 mouldRead = false ∧ unplaceable (withMould (queued false 0x101)) rec0 mouldRead = false ∧
    mouldRead.klass ≤ 3 ∧ (tryStart startState (.ring 0) rec0 mouldRead).isSome = true := by decide
def headBlocked : Head := ⟨.ring 0, ⟨[], 0, 1, 0, []⟩, mould0, true, 0, false, [], []⟩
theorem witness_PlacementAndWork_ages : ({ base.tund with heads := [headBlocked] } : Tundish).heads.find?
    (fun h => h.launch.queue = 0 && h.blocked && !h.aged) = some headBlocked := by decide
def worker : State := { queued true 0x102 with grids := [{ grid0 with mould := { mould0 with wqv := true, wq := 0 } }] }
def released (s : State) : State := { s with tund := { s.tund with released := [(8, ⟨natToBytes 64 0x102, 0, 1, 0, []⟩)] } }
theorem witness_PlacementAndWork_deposit : (releasedWork (released worker) 0).isSome = true ∧ chooseWorker (workers (released worker) 0 1) = some t0 ∧
    releasedWork worker 0 = none ∧ (queueOf worker 0).work = true ∧ (ringHead worker 0).isSome = true ∧ chooseWorker (workers worker 0 1) = some t0 ∧
    ringHead (queued true 0) 0 = none := by decide
/-- A budget of 5 µJ, used up by 5; the kernel cluster runs, with and without a free save slot. -/
def gridBudget : Grid := { grid0 with ebudget := 5 }
theorem witness_EnergyMetering_exhausted : (let s : State := { onS with grids := [gridBudget] }
    let run := (kcsOf s 0).filter isRunning
    gridBudget.ebudget ≤ gridBudget.charged + 5 ∧ gridOf? s 0 = some gridBudget ∧ run = [k0] ∧ slotsFor s run = true ∧
      slotsFor { s with ctxs := [{ c0 with slotsUsed := [0] }] } run = false ∧ (s.kcs.map fun k => k.id).Nodup) := by decide
theorem witness_EnergyMetering : onS.dies.length = 4 ∧ ctxOf? { onS with kcs := [] } 1 = some c0 ∧ gridOf? { onS with kcs := [] } 0 = some grid0 ∧ grid0.asid = 1 ∧
    (kcsOf { onS with kcs := [] } 0).filter isRunning = [] := by decide

/-! ### Witnesses: answers, completions, limits -/

def fl0 : Flight :=
  ⟨lanes, 3, 4, 0, [5], [⟨0, 5, 7⟩, ⟨7, 63, 9⟩], [], [(0, 1), (7, 2)], none, g0.regs, [], g0.ycount, g0.crit, g0.deadline⟩
theorem witness_Completions : GroupHere { onL with groups := [{ g0 with flights := [fl0] }] } { g0 with flights := [fl0] } ∧ fl0.ask = none ∧
    (fl0.writes.map fun w => (w.lane, w.reg)).Nodup ∧ (∀ w ∈ fl0.writes, w.reg < 64) ∧ (fl0.flags.map fun x => x.1).Nodup :=
  ⟨by unfold GroupHere; decide, by decide, by decide, by decide, by decide⟩
def gRun : Group := { g0 with runAhead := some ⟨g0.regs, trapOf lanes { cause := 0x04, lanes := 1 }, [], 3, []⟩ }
theorem witness_RunAhead : GroupHere { onL with groups := [gRun] } gRun ∧ (gRun.runAhead.map fun r => r.trap.cause) = some 0x04 :=
  ⟨by unfold GroupHere; decide, by decide⟩
def req0 : Request := ⟨7, some (.group 1 0 0), [(0, 0)], 0, 5, 0x20000, 3, 1, .window 3 0, .load 4, [], 0⟩
def asked0 : Asked := ⟨[7], [], [], some (5, 2, false), 1, false, [], []⟩
/-- A group whose one flight waits for request 7. -/
def flOf (a : Asked) : Flight := ⟨lanes, 0, 4, 0, [5], [], [], [], some a, g0.regs, [], g0.ycount, g0.crit, g0.deadline⟩
def gAsk (a : Asked) : Group := { g0 with flights := [flOf a] }
def asking (r : Request) (a : Asked) : State := { onL with groups := [gAsk a], requests := [r] }
theorem awaits (r : Request) (a : Asked) (h : r.id = 7 ∧ r.who = some (.group 1 0 0) ∧ r.lanes ≠ [])
    (ha : a.waiting = [7] ∧ a.late = [] ∧ a.pend = []) : Awaits (asking r a) r (gAsk a) (flOf a) a :=
  ⟨by simp [asking], h.2.1, h.2.2, by
    show [gAsk a].find? (fun x => x.kc = g0.kc ∧ x.core = g0.core ∧ x.idx = g0.idx) = some (gAsk a)
    have e : (gAsk a).kc = g0.kc ∧ (gAsk a).core = g0.core ∧ (gAsk a).idx = g0.idx := ⟨rfl, rfl, rfl⟩
    simp [e], rfl, rfl, by rw [ha.1, h.1], ha.2, rfl⟩
/-- A load of one lane; `atom.add` of two lanes at one address of a host window, and a chain of `atom.exch`. -/
def reqAdd : Request := { req0 with lanes := [(0, 0), (3, 5)], kind := .atom 0 false 5 0 }
def reqExch : Request := { req0 with kind := .atom 6 false 5 0, later := [(3, .atom 6 false 6 0)] }
def askedAtom : Asked := { asked0 with keep := true, undone := 9, got := [(1, 0, [4, 0, 0, 0])] }
theorem witness_Answers : Awaits (asking req0 asked0) req0 (gAsk asked0) (flOf asked0) asked0 ∧ req0.later = [] ∧
    Gets req0 [1, 2, 3, 4] [(0, 0, [1, 2, 3, 4])] ∧ failure (isAtomic req0.kind) .offline = some 0x14 ∧
    failure (isAtomic req0.kind) .unsupported = some 0x15 ∧ keptWrites (flOf asked0) asked0 = [] :=
  ⟨awaits _ _ (by decide) (by decide), rfl, rfl, by decide, by decide, rfl⟩
theorem witness_Answers_atomics : Awaits (asking reqAdd askedAtom) reqAdd (gAsk askedAtom) (flOf askedAtom) askedAtom ∧
    Gets reqAdd [2, 0, 0, 0] [(0, 0, [2, 0, 0, 0]), (3, 0, [7, 0, 0, 0])] ∧ reqAdd.target = .window 3 0 ∧ isAtomic reqAdd.kind = true ∧
    keptWrites (flOf askedAtom) askedAtom = [⟨1, 5, 4⟩] ∧
    ((keptWrites (flOf askedAtom) askedAtom).map fun w => (w.lane, w.reg)).Nodup := by
  refine ⟨awaits _ _ (by decide) (by decide), ?_, rfl, rfl, by decide, by decide⟩
  simp only [Gets, reqAdd, req0]
  decide
theorem witness_Answers_chain : Awaits (asking reqExch askedAtom) reqExch (gAsk askedAtom) (flOf askedAtom) askedAtom ∧
    reqExch.later = (3, .atom 6 false 6 0) :: [] ∧ Gets reqExch [9, 0, 0, 0] [(0, 0, [9, 0, 0, 0])] ∧
    (∀ w off, reqExch.target = .window w off → w ∉ askedAtom.refused) ∧ Answer.linkError ≠ .unsupported ∧
    failure (isAtomic reqExch.kind) .linkError = some 0x15 := by
  refine ⟨awaits _ _ (by decide) (by decide), rfl, ?_, fun w off _ => by simp [askedAtom, asked0], by decide, by decide⟩
  simp only [Gets, reqExch, req0]
  decide
/-- A PAGE instruction's two lanes that name one page of a peer. -/
def reqPage : Request := { req0 with lanes := [(0, 0), (3, 0)], target := .fabric 9 31 0, kind := .page 4 0 [(0, []), (0, [])] }
theorem witness_Answers_page : Awaits (asking reqPage askedAtom) reqPage (gAsk askedAtom) (flOf askedAtom) askedAtom ∧
    Gets reqPage [1, 0, 0, 0, 2, 0, 0, 0] [(0, 0, [1, 0, 0, 0]), (3, 0, [2, 0, 0, 0])] ∧
    failure (isAtomic reqPage.kind) (.append .outside) = some 0x07 := by
  refine ⟨awaits _ _ (by decide) (by decide), ?_, by decide⟩
  simp only [Gets, reqPage, req0]
  decide
def reqS : Request := { req0 with who := some (.spine 1) }
def kAsk (load : Option (Nat × Nat × Bool)) : Kc := { k0 with spine := { k0.spine with asked := some (spine, { asked0 with load := load }) } }
theorem witness_Answers_spine : ∀ load ∈ [some (31, 2, false), none],
    ({ spineState (kAsk load) with requests := [reqS] } : State).requests.find? (fun q => q.id = reqS.id) = some reqS ∧
    reqS.later = [] ∧ reqS.who = some (.spine (kAsk load).id) ∧ reqS.lanes ≠ [] ∧ KcHere { spineState (kAsk load) with requests := [reqS] } (kAsk load) ∧
    (kAsk load).spine.asked = some (spine, { asked0 with load := load }) ∧ isPush spine.word = false ∧ (kAsk load).spine.trap = none ∧
    (kAsk load).spine.wait = none ∧ Gets reqS [1, 2, 3, 4] [(0, 0, [1, 2, 3, 4])] := by
  intro load h
  simp only [List.mem_cons, List.not_mem_nil, or_false] at h
  rcases h with rfl | rfl <;>
    exact ⟨by decide, rfl, rfl, by decide, by unfold KcHere; decide, rfl, by decide, rfl, rfl, rfl⟩
theorem witness_Errors : onL.dies.length = 4 ∧ GroupHere onL g0 ∧ KcHere onL k0 ∧ onL.teams.find? (fun x => x.kc = t0.kc ∧ x.core = t0.core) = some t0 :=
  ⟨by decide, by unfold GroupHere; decide, by unfold KcHere; decide, by decide⟩
def gLate : Group := { g0 with deadline := 16, ycount := 16 }
theorem witness_MemberLimits_overrun : GroupHere (laneState gLate k0 t0) gLate ∧ gLate.ended = false ∧ gridOf? (laneState gLate k0 t0) (kcOf (laneState gLate k0 t0) gLate.kc).grid = some grid0 ∧
    gLate.deadline ≤ gLate.ycount.toNat ∧ g0.ycount.toNat < g0.deadline ∧ GroupHere onL g0 :=
  ⟨by unfold GroupHere; decide, by decide, by decide, by decide, by decide, by unfold GroupHere; decide⟩
def kCrit : Kc := { k0 with status := .stopping 5, slotNo := some 0, spine := { k0.spine with crit := some 16383, wait := some (.boundary 1), gsteps := 1 } }
def gCrit : Group := { g0 with crit := some 16383, regs := { g0.regs with frontier := [⟨4, 0, 0xFF, some (.phase 0 0)⟩] } }
theorem witness_MemberLimits_crit : GroupHere (laneState gCrit kCrit t0) gCrit ∧ gCrit.crit = some 16383 ∧ KcHere (laneState gCrit kCrit t0) kCrit ∧
    stopping kCrit = true ∧ stopping (kcOf (laneState gCrit kCrit t0) gCrit.kc) = true ∧ kCrit.spine.crit = some 16383 ∧ kCrit.spine.wait = some (.boundary 1) ∧
    gCrit.regs.frontier ≠ [] ∧ (∀ e ∈ gCrit.regs.frontier, e.wait.isSome = true) ∧ gCrit.ended = false :=
  ⟨by unfold GroupHere; decide, rfl, by unfold KcHere; decide, by decide, by decide, rfl, rfl, by decide, by decide, rfl⟩

/-! ### Witnesses: the host link, dies, the fabric -/

/-- Doorbell 1 of the context's slot 0 rings slot 0 of the team `t1`. -/
def cDoor : Ctx := { c0 with doors := [(1, some (1, 0, 0))] }
def rung : State := { onB with ctxs := [cDoor] }
theorem witness_HostAccesses_doorbell : funcOn rung 0 = true ∧ (4 + 64 : Nat) < 2 ^ 26 ∧ (68 : Nat) % 4 = 0 ∧ 68 % 64 + 4 ≤ 8 ∧
    rung.ctxs.find? (fun c => c.vf = 0 && decide (c.slot.toNat = 68 / 2 ^ 20)) = some cDoor ∧ CtxHere rung cDoor ∧
    rung.host.forwards.find? (fun x => x.asid = cDoor.asid) = none ∧ cDoor.suspended = false ∧ amGet none cDoor.doors (68 % 2 ^ 20 / 64) = some (1, 0, 0) ∧
    rung.teams.find? (fun t => t.kc = 1 ∧ t.core = 0) = some t1 ∧ 0 < t1.bars.length ∧ MayArrive (barOf t1 0) 0 ∧
    ¬((barOf t1 0).a + 1 = (barOf t1 0).e ∧ (barOf t1 0).lb = (barOf t1 0).eb) :=
  ⟨by decide, by decide, by decide, by decide, by decide, by unfold CtxHere; decide, by decide, by decide, by decide, by decide, by decide,
    ⟨by decide, by decide, by decide, by decide⟩, by decide⟩
/-- A circuit joins the host port to die 0 there. -/
def rungUp : State := { rung with host := { rung.host with circuits := [(0, ⟨true, 12, 0, 0, 0, 2, none⟩)] } }
theorem witness_HostAccesses_door : AtDoor rungUp 0 64 cDoor 1 ∧ (∀ p, (kcOf rungUp 1).place = some p → circuitUp? rungUp 12 p.die.toNat = true) ∧
    (kcOf rung 1).place = some ⟨0, 0, 0, 0, 0⟩ ∧ circuitUp? rung 12 0 = false ∧ amGet none cDoor.doors 2 = none ∧ 64 % 64 = 0 :=
  ⟨⟨by decide, by unfold CtxHere; decide, by decide⟩, fun p h => by cases h; decide, by decide, by decide, by decide, by decide⟩
theorem witness_HostAccesses_dropped : funcOn rung 0 = true ∧ (2 ^ 26 - 4 : Nat) < 2 ^ 26 ∧ (8 : Nat) < (2 ^ 26 - 4) % 64 + 4 ∧
    (∀ c ∈ rung.ctxs, ¬(c.vf = 0 ∧ c.slot.toNat = (2 ^ 26 - 4) / 2 ^ 20)) := by decide
theorem witness_HostAccesses_qrsv : funcOn (queued false 0) (queueOf (queued false 0) 0).vf = true ∧ (queueOf (queued false 0) 0).en = true ∧
    memVal (queued false 0) 0x9000 8 + 1 - ridx (queued false 0) 0 ≤ 2 ^ (queueOf (queued false 0) 0).log2n := by decide
def ringFull : State := { queued false 0 with mem := putNat (queued false 0).mem 0x9000 8 4 }
theorem witness_HostAccesses_qrsvFull : (queueOf ringFull 0).en = true ∧ 2 ^ (queueOf ringFull 0).log2n < memVal ringFull 0x9000 8 + 1 - ridx ringFull 0 := by decide
theorem witness_HostAccesses_window : (amGet Window.zero base.host.windows 255).hbase.toNat % 4096 = 0 ∧ (255 : Nat) < 256 ∧ funcOn base 0 = true := by decide
theorem witness_HostAccesses_export : (amGet Export.zero base.host.exports 31).vabase.toNat % 65536 = 0 ∧
    (amGet Export.zero base.host.exports 31).vabase.toNat < 2 ^ 48 ∧ (31 : Nat) < 32 ∧ funcOn base 0 = true ∧
    (0x100 : DWord).extractLsb' 0 2 = base.host.timesrc := by decide
def circuits0 : State := { base with host := { base.host with circuits := [(0, ⟨true, 12, 0, 0, 0, 2, none⟩), (1, ⟨true, 13, 0, 0, 1, 2, none⟩)] } }
theorem witness_HostAccesses_posted : (0x50000 + [1#8, 2#8].length : Nat) ≤ 2 ^ 39 ∧ circuitUp? circuits0 12 (servicePort circuits0 0x50000 false) = true ∧
    circuitUp? base 12 (servicePort base 0x50000 false) = false ∧ lostStack circuits0 0x50000 = false := by decide
/-- Memory that the host reaches, a poisoned part, a page that forbids the write, and a function under reset. -/
theorem witness_HostAccesses_memory : HostReaches circuits0 0x50000 ∧ HostReaches circuits0 0x50001 ∧ ¬HostReaches base 0x50000 ∧
    ¬PoisonIn circuits0 0x50000 8 ∧ PoisonIn { circuits0 with memPoison := [0x5000] } 0x50000 8 ∧ HostWrites circuits0 0x50000 := by
  refine ⟨⟨by decide, by decide⟩, ⟨by decide, by decide⟩, fun h => absurd h.2 (by decide), ?_, ⟨0x5000, by decide, by decide, by decide⟩, ?_⟩
  · rintro ⟨q, h, -⟩
    exact absurd h (by simp [circuits0, base, State.withFetchWord, placeWord', State.reset])
  · intro h
    exact absurd h (by decide)
theorem witness_HostAccesses_off : funcOn { base with host := { base.host with funcs := [(0, some { Func.init with flr := true })] } } 0 = false := by decide
/-- A descriptor at 0x2000 of context 2. -/
def withDesc (asid tctl : Nat) (cs : List Ctx) : State :=
  { base with
    ctxs := cs, mem := putNat (putNat base.mem 0x2000 8 asid) 0x2018 8 tctl
    host := { base.host with funcs := [(0, some { Func.init with ctxarg := 0x2000 })] } }
theorem witness_ContextCommands_busy : (funcOf { base with host := { base.host with funcs := [(1, some { Func.init with pending := [1] })] } } 1).pending ≠ [] := by decide
theorem witness_ContextCommands_create : (funcOf (withDesc 2 0 [c0]) 0).pending = [] ∧ descBad (withDesc 2 0 [c0]) 0 0x2000 = false ∧ ctxOf? (withDesc 2 0 [c0]) 2 = none ∧
    freeCtxSlot (withDesc 2 0 [c0]) 0 = some 1 ∧ descBad (withDesc 2 0x20000 [c0]) 0 0x2000 = true ∧
    descBad (withDesc 1 0 [c0]) 0 0x2000 = false ∧ (ctxOf? (withDesc 1 0 [c0]) 1).isSome = true := by decide
def allSlots : List Ctx := (List.range 64).map fun i => { c0 with asid := BitVec.ofNat 16 (i + 3), slot := BitVec.ofNat 6 i }
theorem witness_ContextCommands_noSlot : descBad (withDesc 2 0 allSlots) 0 0x2000 = false ∧ ctxOf? (withDesc 2 0 allSlots) 2 = none ∧
    freeCtxSlot (withDesc 2 0 allSlots) 0 = none := by decide
/-- One save slot, at 0x4000000, whose image says status 1; with no save slot the descriptor names none. -/
def withImage : State := { withDesc 2 0 [c0] with mem := putNat (putNat (withDesc 2 0 [c0]).mem 0x2038 8 0x4000001) 0x4000000 1 1 }
theorem witness_ContextCommands_image : descBad withImage 0 0x2000 = false ∧ ctxOf? withImage 2 = none ∧ freeCtxSlot withImage 0 = some 1 ∧
    memVal withImage 0x2038 8 % 2 ^ 12 = 1 ∧ memVal withImage 0x2038 8 / 2 ^ 26 % 2 ^ 26 * 2 ^ 26 = 0x4000000 ∧
    memByte withImage 0x4000000 = 1 ∧ gridOf? withImage 9 = none ∧ memVal (withDesc 2 0 [c0]) 0x2038 8 % 2 ^ 12 = 0 := by decide
/-- An arrival counted at doorbell 1 while the context was suspended. -/
def cCounted : Ctx := { cDoor with counted := [(1, 1)] }
theorem witness_ContextCommands_counted : (let s : State := { rung with
        ctxs := [cCounted], host := { rung.host with funcs := [(0, some { Func.init with ctxarg := 0x1000 })] } }
    argCtx s 0 = some cCounted ∧ ctxOf? s cCounted.asid = some cCounted ∧ (∀ x ∈ s.host.forwards, x.asid ≠ cCounted.asid) ∧
      amGet none cCounted.doors 1 = some (1, 0, 0) ∧ s.teams.find? (fun t => t.kc = 1 ∧ t.core = 0) = some t1 ∧ (barOf t1 0).f = false ∧
      (barOf t1 0).e = 2 ∧ (barOf t1 0).a = 0) := by decide
theorem witness_ContextCommands_unknown : argCtx (withDesc 2 0 [c0]) 0 = none ∧ ownGrid base 0 99 = none := by decide
/-- The argument names the context's descriptor. -/
def named (s : State) : State := { s with host := { s.host with funcs := [(0, some { Func.init with ctxarg := 0x1000 })] } }
theorem witness_ContextCommands_suspend : (funcOf (named onS) 0).pending = [] ∧ argCtx (named onS) 0 = some c0 ∧ ((named onS).kcs.map fun k => k.id).Nodup ∧
    CtxHere (named onS) c0 ∧ ((named onS).kcs.filter fun k => k.asid = c0.asid && isRunning k).length ≤ (freeSlots c0).length ∧ c0.counted = [] :=
  ⟨by decide, by decide, by decide, by unfold CtxHere; decide, by decide, rfl⟩
def cFull : Ctx := { c0 with slotsUsed := [0] }
def noSave : State := { named onS with ctxs := [cFull] }
theorem witness_ContextCommands_noSaveSlot : argCtx noSave 0 = some cFull ∧
    (freeSlots cFull).length < (noSave.kcs.filter fun k => k.asid = cFull.asid && isRunning k).length := by decide
theorem witness_ContextCommands_grid : gridOf? (named onS) grid0.id = some grid0 ∧ ctxOf? (named onS) grid0.asid = some c0 ∧ c0.vf = 0 ∧
    (∀ k ∈ (named onS).kcs, k.grid = grid0.id → k.asid = grid0.asid) ∧
    ((named onS).kcs.filter fun k => k.grid = grid0.id && isRunning k).length ≤ (freeSlots c0).length := by decide
theorem witness_PartitionModes : base.host.pmReq = none ∧ (∀ c ∈ ({ base with ctxs := [] } : State).ctxs, ¬partDies base.host.pmode c.part ≠ partDies 1 c.part) ∧
    (∃ c ∈ base.ctxs, partDies base.host.pmode c.part ≠ partDies 1 c.part) ∧ (base.kcs.map fun k => k.id).Nodup ∧
    slotsFor base (base.kcs.filter fun k => decide (partDies base.host.pmode (ctxOf base k.asid).part ≠ partDies 1 (ctxOf base k.asid).part) && isRunning k) = true := by
  decide
def forced (s : State) : State := { s with host := { s.host with pmReq := some (1, true) } }
theorem witness_PartitionModes_forced : (affectedKcs (forced onS) 1).filter (fun k => isRunning k || stopping k) = [k0] ∧ gridOf? (forced onS) k0.grid = some grid0 ∧
    (∃ k ∈ affectedKcs (forced onS) 1, (isRunning k || stopping k) = true) ∧
    (affectedKcs (forced { base with kcs := [], ctxs := [] }) 1).all (fun k => !(isRunning k || stopping k)) = true := by decide
/-- The context's frames lie on die 0; then on dies 0 and 2. -/
theorem frameOfOne (s : State) (e : FrameEntry) (n f : Nat) (asid : Asid) (h : s.frameTab = [(n, e)]) (hf : FrameOfCtx s asid f) : f = n := by
  by_contra q
  have : (frameEntry s f).st = 0 := by simp [frameEntry, h, amGet, q, FrameEntry.zero]
  exact absurd (this.symm.trans hf.1) (by decide)
theorem witness_PartitionModes_moved : (let s := forced { base with kcs := [], groups := [], ctxs := [c0] }
    s.host.pmReq = some (1, true) ∧ s.host.pmode ≠ 3 ∧ s.ctxs = [c0] ∧ partDies s.host.pmode c0.part ≠ partDies 1 c0.part ∧
      (affectedKcs s 1).all (fun k => !(isRunning k || stopping k)) = true ∧ amWf FrameEntry.zero s.frameTab = true ∧
      (∀ f, FrameOfCtx s c0.asid f → apRepl (frameEntry s f) = false → homeDie (f * 65536) ∈ partDies 1 0) ∧
      MovesTo s.host.pmode 1 c0.part 0) := by
  refine ⟨rfl, by decide, rfl, by decide, by decide, by decide, fun f hf _ => ?_, fun _ => rfl, fun h => absurd h (by decide)⟩
  rw [frameOfOne _ { FrameEntry.zero with kasid := 1, st := 2 } 4 f _ (by decide) hf]
  decide
theorem witness_PartitionModes_ended : (let s := forced { base with
        kcs := [], groups := [], ctxs := [c0]
        frameTab := [(4, { FrameEntry.zero with kasid := 1, st := 2 }), (0x400000, { FrameEntry.zero with kasid := 1, st := 2 })] }
    (frameEntry s 4).st = 2 ∧ (frameEntry s 4).kasid = c0.asid ∧ (frameEntry s 0x400000).st = 2 ∧ (frameEntry s 0x400000).kasid = c0.asid ∧
      apRepl (frameEntry s 4) = false ∧ apRepl (frameEntry s 0x400000) = false ∧
      (∀ p, ¬(homeDie (4 * 65536) ∈ partDies 1 p ∧ homeDie (0x400000 * 65536) ∈ partDies 1 p)) ∧
      (s.grids.filter fun g => g.asid = c0.asid) = [grid0] ∧ gridOf? s 0 = some grid0) := by decide
theorem witness_PartitionModes_noSlot : (let s : State := { onS with ctxs := [cFull] }
    s.kcs.filter (fun k => decide (partDies s.host.pmode (ctxOf s k.asid).part ≠ partDies 1 (ctxOf s k.asid).part) && isRunning k) = [k0] ∧
      freeSlots (ctxOf s k0.asid) = [] ∧ gridOf? s k0.grid = some grid0) := by decide
def fencingState : State := { base with host := { base.host with funcs := [(63, some { Func.init with fencing := true })] } }
theorem witness_TablesAndCircuits_fence : (funcOf fencingState 63).fencing = true ∧ (fencingState.ctxs.map fun c => c.asid).Nodup ∧ (funcOf base 63).fencing = false := by decide
theorem witness_TablesAndCircuits_queue : (let s : State := { base with host := { base.host with funcs := [(0, some { Func.init with slotq := 0x100000 })] } }
    let e : QueueEntry := ⟨0x8000, 20, 0x9000, false, 0, 1, true⟩
    let w : BitVec 256 := BitVec.ofNat 256 (queueBits e)
    queueEntryOf w = e ∧ queueReserved w = false ∧ ¬(funcOf s 0).slotq.toNat < slotsUsedBy s 0 255 + 2 ^ 20 ∧ (funcOf base 0).slotq.toNat < slotsUsedBy base 0 255 + 2 ^ 20) := by decide
theorem witness_TablesAndCircuits_circuits : (circuitAt base 255).st = 0 ∧ circuitBad base 255 ⟨true, 0, 4, 0, 0, 0, none⟩ = false ∧
    circuitBad base 255 ⟨true, 15, 4, 0, 0, 0, none⟩ = true ∧
    (∀ st : BitVec 2, (circuitAt { base with host := { base.host with circuits := [(255, ⟨true, 0, 4, 0, 0, st, none⟩)] } } 255).st = st) ∧
    circuitHolds base ⟨false, 0, 4, 0, 0, 3, none⟩ = false := by decide
theorem witness_ManagementCommands : (1 : FuncNo) ≠ 0 ∧ (dieOf base 0).st = .online ∧ (dieOf base 3).st = .resetting ∧ (dieOf base 3).boot ≠ some false ∧
    ctxOf? base 1 = some c0 ∧ ctxOf? base 2 = none ∧ (287 : BitVec 9).toNat ≤ 287 ∧ CtxHere base c0 ∧ c0.counted = [] ∧ base.fab.attestIdx < 2 ^ 20 ∧
    (∃ x ∈ ({ base with host := { base.host with forwards := [⟨1, 0, 0, 287, 3, true⟩] } } : State).host.forwards, x.asid = 1) :=
  ⟨by decide, by decide, by decide, by decide, by decide, by decide, by decide, by unfold CtxHere; decide, rfl, by decide, by decide⟩
/-- Die 0 in a state. -/
def die0 (st : DieState) : State := { base with dies := base.dies.modify 0 fun d => { d with st := st } }
theorem witness_ManagementCommands_states : ∀ st ∈ [DieState.online, .withdrawing, .bypass, .resetting, .training, .syncing, .lost, .failed],
    (dieOf (die0 st) 0).st = st ∧ (die0 st).dies.length = 4 := by decide
theorem witness_ManagementCommands_counted : CtxHere { base with ctxs := [{ c0 with counted := [(1, 3)] }] } { c0 with counted := [(1, 3)] } := by
  unfold CtxHere
  decide
theorem witness_ManagementCommands_attested : 2 ^ 20 ≤ ({ base with fab := { base.fab with attestIdx := 2 ^ 20 } } : State).fab.attestIdx := by decide
theorem witness_ResetsAndWithdrawal : (die0 .withdrawing).dies.length = 4 ∧ ((die0 .withdrawing).kcs.filter fun k => decide (k.place.map (fun p => p.die) = some 0)) ≠ [] ∧
    ((die0 .withdrawing).kcs.map fun k => k.id).Nodup ∧ slotsFor (die0 .withdrawing) ((die0 .withdrawing).kcs.filter fun k => decide (k.place.map (fun p => p.die) = some 0) && isRunning k) = true ∧
    (({ die0 .withdrawing with kcs := [] } : State).kcs.filter fun k => decide (k.place.map (fun p => p.die) = some 0)) = [] ∧ (1000 : Nat) ≤ 1000 := by decide
/-- A state with one feed queue, of function 1. -/
def oneQueue : State := { base with tund := { base.tund with queues := [(2, { QueueEntry.zero with cb := 0x7000, vf := 1, en := true })] } }

theorem witness_ResetsAndWithdrawal_flr : (queueOf oneQueue 2).vf = 1 ∧ queueOf oneQueue 2 ≠ QueueEntry.zero ∧
    DropsElsewhere oneQueue 1 (queueOf oneQueue 2).cb := by
  refine ⟨rfl, by decide, ?_⟩
  unfold DropsElsewhere
  decide

theorem witness_ResetsAndWithdrawal_noSlot : (let s : State := { die0 .withdrawing with ctxs := [cFull], kcs := [k0] }
    (s.kcs.filter fun k => decide (k.place.map (fun p => p.die) = some 0)).filter isRunning = [k0] ∧ freeSlots (ctxOf s k0.asid) = [] ∧
      gridOf? s k0.grid = some grid0 ∧ (dieOf s 0).st = .withdrawing) := by decide
/-- Images of a die: the monitor and the scheduler, which verify. -/
def bootImages : List BootImage := [⟨0, .monitor, 2, 7, true⟩, ⟨0, .scheduler, 2, 8, true⟩]
theorem witness_DieRecoveryAndTime_boot : Accepted 1 bootImages ∧ ¬Accepted 3 bootImages ∧ (dieOf base 3).boot = none ∧ base.fab.rboot = none := by
  refine ⟨⟨⟨_, List.mem_cons_self, rfl⟩, ⟨_, List.mem_cons_of_mem _ List.mem_cons_self, rfl⟩, fun i h _ => ?_⟩, fun h => ?_, by decide, by decide⟩
  · simp only [bootImages, List.mem_cons, List.not_mem_nil, or_false] at h
    rcases h with rfl | rfl <;> decide
  · exact absurd (h.2.2 ⟨0, .monitor, 2, 7, true⟩ (by decide) (fun vf q => by cases q)).2 (by decide)
theorem witness_DieRecoveryAndTime_clocked : Clocked (dieOf base 0) ∧ ¬Clocked (dieOf base 3) ∧ (dieOf base 3).st ≠ .syncing :=
  ⟨.inl (by decide), fun h => absurd h (by unfold Clocked; decide), by decide⟩
/-- Better and worse Announce data than the device's own, on link 5. -/
def better : PtpData := ⟨1, 6, 0x20, 0, 1, 1, 0, 9⟩
def worse : PtpData := ⟨255, 248, 0xFE, 0xFFFF, 255, 9, 1, 9⟩
theorem witness_DieRecoveryAndTime_ptp : (let f := fun (p : PtpData) => { base.fab with ptpBest := [(5, some p)] }
    ptpRole (f better) 5 = .slave ∧ ptpRole (f worse) 5 = .master ∧ 127 < base.fab.ptpOwn.klass ∧ ptpBetter base.fab.ptpOwn better = false ∧
      ptpBetter base.fab.ptpOwn worse = true ∧ amGet none (f better).ptpBest 5 = some better) := by decide
theorem witness_DieRecoveryAndTime : base.dies.length = 4 ∧ (dieOf base 3).st = .resetting ∧
    (let s : State := { base with dies := base.dies.modify 3 fun d => { d with boot := some true } }; (dieOf s 3).st = .resetting ∧ (dieOf s 3).boot = some true) ∧
    (dieOf (die0 .training) 0).st = .training ∧ (dieOf (die0 .syncing) 0).st = .syncing ∧ (dieOf base 0).st ≠ .failed ∧ (dieOf base 0).st ≠ .lost ∧
    ({ base with host := { base.host with timesrc := 1 } } : State).host.timesrc = 1 ∧ base.host.timesrc ≠ 1 ∧ (17 : Nat) < 18 ∧ 17 ∉ base.fab.linksDown ∧
    ({ base with host := { base.host with timesrc := 2 } } : State).host.timesrc = 2 ∧ (127 : Nat) ≤ 127 := by decide
theorem witness_FatalEvents : base.dies.length = 4 ∧ (dieOf base 0).st ≠ .failed ∧ (dieOf base 0).st ≠ .lost ∧ (dieOf (die0 .lost) 0).st = .lost ∧
    (dieOf { base with dies := base.dies.modify 0 fun d => { d with retraining := true } } 0).retraining = true := by decide
/-- The context has touched die 0, and has a grid there. -/
def touched : State := { base with mem := putNat base.mem 0x1058 1 1 }
theorem witness_FatalEvents_touched : (touchedOf touched c0).getLsbD 0 = true ∧ (touched.ctxs.filter fun c => (touchedOf touched c).getLsbD 0) = [c0] ∧
    (touched.grids.filter fun g => g.asid = c0.asid) = [grid0] ∧ touched.transfers = [] ∧
    (∀ c ∈ base.ctxs, (touchedOf base c).getLsbD 0 = false) ∧ ctxOf? (removeGrid touched grid0) 1 = some c0 := by decide
/-- Export 31 of the first 64 KiB of context 1. -/
def exported : State := { circuits0 with host := { circuits0.host with exports := [(31, ⟨0, 1, 0x1FF, 0x3F, 1, false, true, true, true⟩)] } }
def peer (off : Nat) (k : RemoteKind) : RemoteOps := ⟨9, 5, 31, off, 2, false, k⟩
theorem witness_RemoteRequest_refused : (amGet Export.zero exported.host.exports 30).v = false ∧ (1 : BitVec 20).toNat * 65536 ≤ (peer 65536 (.load 8)).off := by decide
/-- What the peer's address resolves to. -/
def reached (s : State) (c : Ctx) (need : Need) (n off : Nat) : State := (resolve s c need true off n).1
theorem peerReaches (s : State) (o : RemoteOps) (c : Ctx) (need : Need) (n : Nat) (way : Way) (va : Nat)
    (h : exportAllows (amGet Export.zero s.host.exports o.exp.toNat) o = true)
    (hc : ctxOf? s (amGet Export.zero s.host.exports o.exp.toNat).asid = some c)
    (hv : peerVa s o = va) (hn : 0 < n)
    (hr : (resolve s c need true va n).2.toOption = some [⟨way, 0, n, va⟩])
    (ho : { reached s c need n va with tlb := s.tlb } = s) : PeerReaches s o c (reached s c need n va) need n way := by
  refine ⟨h, hc, hn, ho, ?_⟩
  rw [hv]
  refine Prod.ext rfl ?_
  revert hr
  cases (resolve s c need true va n).2 <;> simp [Except.toOption]
/-- A request of n bytes at 0xFFF8, to memory that the state s maps at 0x4FFF8. -/
theorem peerAt (s : State) (k : RemoteKind) (c : Ctx) (need : Need) (n : Nat) (way : Way)
    (h : exportAllows (amGet Export.zero s.host.exports 31) (peer 0xFFF8 k) = true)
    (hc : ctxOf? s (amGet Export.zero s.host.exports 31).asid = some c) (hv : peerVa s (peer 0xFFF8 k) = 0xFFF8) (hn : 0 < n)
    (hr : (resolve s c need true 0xFFF8 n).2.toOption = some [⟨way, 0, n, 0xFFF8⟩])
    (ho : { reached s c need n 0xFFF8 with tlb := s.tlb } = s) :
    PeerReaches s (peer 0xFFF8 k) c (reached s c need n 0xFFF8) need n way := peerReaches s _ c need n way _ h hc hv hn hr ho
def nR : Need := { r := true }
def nW : Need := { w := true }
def nA : Need := { r := true, w := true, atomic := true }
def load8 : RemoteKind := .load 8
def store2 : RemoteKind := .store [1, 2] true
theorem witness_RemoteRequest_load : PeerReaches exported (peer 0xFFF8 load8) c0 (reached exported c0 nR 8 0xFFF8) nR 8 (.mem 0x4FFF8 0) ∧
    c0.suspended = false ∧ PeerServed (reached exported c0 nR 8 0xFFF8) 0x4FFF8 0 ∧
    (let s' := reached exported c0 nR 8 0xFFF8; homeLate s' (frameEntry s' (frameNo 0x4FFF8)) nR 0x4FFF8 8 0 = none) :=
  ⟨peerAt _ _ _ _ _ _ (by decide) (by decide) (by decide) (by decide) (by decide) rfl, rfl, ⟨by decide, by decide⟩, by decide⟩
theorem witness_RemoteRequest_store : PeerReaches exported (peer 0xFFF8 store2) c0 (reached exported c0 nW 2 0xFFF8) nW 2 (.mem 0x4FFF8 0) ∧
    PeerServed (reached exported c0 nW 2 0xFFF8) 0x4FFF8 0 ∧
    (let s' := reached exported c0 nW 2 0xFFF8; homeLate s' (frameEntry s' (frameNo 0x4FFF8)) nW 0x4FFF8 2 0 = none) :=
  ⟨peerAt _ _ _ _ _ _ (by decide) (by decide) (by decide) (by decide) (by decide) rfl, ⟨by decide, by decide⟩, by decide⟩
/-- No circuit, a poisoned part, a suspended context. -/
def noPath : State := { exported with host := { exported.host with circuits := [] } }
def dirtyPart : State := { exported with memPoison := [0x4FFF] }
def pausedCtx : Ctx := { c0 with suspended := true }
def paused : State := { exported with ctxs := [pausedCtx] }
theorem witness_RemoteRequest_fails :
    PeerReaches noPath (peer 0xFFF8 load8) c0 (reached noPath c0 nR 8 0xFFF8) nR 8 (.mem 0x4FFF8 0) ∧
    ¬PeerServed (reached noPath c0 nR 8 0xFFF8) 0x4FFF8 0 ∧
    PeerReaches dirtyPart (peer 0xFFF8 load8) c0 (reached dirtyPart c0 nR 8 0xFFF8) nR 8 (.mem 0x4FFF8 0) ∧
    PeerServed (reached dirtyPart c0 nR 8 0xFFF8) 0x4FFF8 0 ∧
    (let s' := reached dirtyPart c0 nR 8 0xFFF8; homeLate s' (frameEntry s' (frameNo 0x4FFF8)) nR 0x4FFF8 8 0 = some 0x0F) ∧
    homeSays 0x0F .poisoned ∧
    PeerReaches paused (peer 0xFFF8 load8) pausedCtx (reached paused pausedCtx nR 8 0xFFF8) nR 8 (.mem 0x4FFF8 0) :=
  ⟨peerAt _ _ _ _ _ _ (by decide) (by decide) (by decide) (by decide) (by decide) rfl, fun h => absurd h.2 (by decide),
    peerAt _ _ _ _ _ _ (by decide) (by decide) (by decide) (by decide) (by decide) rfl, ⟨by decide, by decide⟩, by decide,
    ⟨fun _ => rfl, fun h => absurd h (by decide), fun h => absurd h (by decide), fun h => absurd h (by decide)⟩,
    peerAt _ _ _ _ _ _ (by decide) (by decide) (by decide) (by decide) (by decide) rfl⟩
/-- `exch` of 4 bytes, `cas` of 8; one misaligned. -/
theorem witness_RemoteRequest_atom :
    PeerReaches exported (peer 0xFFF8 (.atom 6 false 5 0)) c0 (reached exported c0 nA 4 0xFFF8) nA 4 (.mem 0x4FFF8 0) ∧
    PeerServed (reached exported c0 nA 4 0xFFF8) 0x4FFF8 0 ∧
    PeerReaches exported (peer 0xFFF8 (.atom 7 true 0 (2 ^ 40))) c0 (reached exported c0 nA 8 0xFFF8) nA 8 (.mem 0x4FFF8 0) ∧
    PeerServed (reached exported c0 nA 8 0xFFF8) 0x4FFF8 0 ∧ peerVa exported (peer 0xFFF8 (.atom 7 true 0 5)) % 8 = 0 ∧
    peerVa exported (peer 0xFFFC (.atom 7 true 0 5)) % 8 ≠ 0 :=
  ⟨peerAt _ _ _ _ _ _ (by decide) (by decide) (by decide) (by decide) (by decide) rfl, ⟨by decide, by decide⟩,
    peerAt _ _ _ _ _ _ (by decide) (by decide) (by decide) (by decide) (by decide) rfl, ⟨by decide, by decide⟩, by decide, by decide⟩
/-- A tail read of an append page of the context, in frame 4; a commit there that no reservation allows. -/
def appendExported : State := { exported with
  mem := putNat exported.mem 0x30000 8 0x40000000004003D, frameTab := [(4, { page 8 8 0 false 1 with vpn := 0 })]
  host := { exported.host with exports := [(31, ⟨0, 1, 0x1FF, 0x3F, 1, true, true, true, true⟩)] } }
def nP (w : Bool) : Need := { r := !w, w := w, page := true }
theorem witness_RemoteRequest_page :
    PeerReaches appendExported (peer 0 (.page 4 0 [(0, [])])) c0 (reached appendExported c0 (nP false) 1 0) (nP false) 1 (.mem 0x40000 1) ∧
    PeerServed (reached appendExported c0 (nP false) 1 0) 0x40000 1 ∧
    (pageAt (reached appendExported c0 (nP false) 1 0) c0 (frameNo 0x40000) 0 (pageReqOf 4 0 [])).2.toOption.isSome = true ∧
    PeerReaches appendExported (peer 0 (.page 1 0 [(0, [])])) c0 (reached appendExported c0 (nP true) 1 0) (nP true) 1 (.mem 0x40000 1) ∧
    (match (pageAt (reached appendExported c0 (nP true) 1 0) c0 (frameNo 0x40000) 0 (pageReqOf 1 0 [])).2 with
     | .error b => decide (b = 0x07)
     | .ok _ => false) = true :=
  ⟨peerReaches _ _ _ _ _ _ _ (by decide) (by decide) (by decide) (by decide) (by decide) rfl, ⟨by decide, by decide⟩, by decide,
    peerReaches _ _ _ _ _ _ _ (by decide) (by decide) (by decide) (by decide) (by decide) rfl, by decide⟩
/-- Virtual page 0 mapped to window 3 of the host, with AtomicOps, or to export 5 of device 9; a circuit joins port 13 to
port 12. -/
def mapped (pte : Nat) (atomc : Bool) : State := { exported with
  mem := putNat exported.mem 0x30000 8 pte
  host := { exported.host with
    windows := [(3, { Window.zero with v := true, size := 1, atomc := atomc })], circuits := (3, ⟨true, 13, 12, 0, 0, 2, none⟩) :: exported.host.circuits } }
def pteWindow : Nat := 0xC0503000000003D
def ptePeer : Nat := 0xC0C12500000003D
theorem witness_RemoteRequest_window :
    PeerReaches (mapped pteWindow true) (peer 0xFFF8 load8) c0 (reached (mapped pteWindow true) c0 nR 8 0xFFF8) nR 8 (.window 3 0xFFF8) ∧
    PeerReaches (mapped pteWindow true) (peer 0xFFF8 store2) c0 (reached (mapped pteWindow true) c0 nW 2 0xFFF8) nW 2 (.window 3 0xFFF8) ∧
    PeerReaches (mapped pteWindow true) (peer 0xFFF8 (.atom 7 true 0 5)) c0 (reached (mapped pteWindow true) c0 nA 8 0xFFF8) nA 8 (.window 3 0xFFF8) ∧
    circuitUp? (reached (mapped pteWindow true) c0 nA 8 0xFFF8) 13 12 = true ∧ (amGet Window.zero (mapped pteWindow true).host.windows 3).atomc = true ∧
    PeerReaches (mapped pteWindow false) (peer 0xFFF8 (.atom 1 false 0 5)) c0 (reached (mapped pteWindow false) c0 nA 4 0xFFF8) nA 4 (.window 3 0xFFF8) ∧
    circuitUp? exported 13 12 = false :=
  ⟨peerAt _ _ _ _ _ _ (by decide) (by decide) (by decide) (by decide) (by decide) rfl, peerAt _ _ _ _ _ _ (by decide) (by decide) (by decide) (by decide) (by decide) rfl,
    peerAt _ _ _ _ _ _ (by decide) (by decide) (by decide) (by decide) (by decide) rfl, by decide, by decide,
    peerAt _ _ _ _ _ _ (by decide) (by decide) (by decide) (by decide) (by decide) rfl, by decide⟩
theorem witness_RemoteRequest_onward :
    PeerReaches (mapped ptePeer true) (peer 0xFFF8 load8) c0 (reached (mapped ptePeer true) c0 nR 8 0xFFF8) nR 8 (.fabric 9 5 0xFFF8) ∧
    PeerReaches (mapped ptePeer true) (peer 0xFFF8 store2) c0 (reached (mapped ptePeer true) c0 nW 2 0xFFF8) nW 2 (.fabric 9 5 0xFFF8) ∧
    PeerReaches (mapped ptePeer true) (peer 0xFFF8 (.atom 3 false 0 5)) c0 (reached (mapped ptePeer true) c0 nA 4 0xFFF8) nA 4 (.fabric 9 5 0xFFF8) :=
  ⟨peerAt _ _ _ _ _ _ (by decide) (by decide) (by decide) (by decide) (by decide) rfl, peerAt _ _ _ _ _ _ (by decide) (by decide) (by decide) (by decide) (by decide) rfl,
    peerAt _ _ _ _ _ _ (by decide) (by decide) (by decide) (by decide) (by decide) rfl⟩
/-- The answer to a request that the device sent on for device 5; the home's address is not mapped. -/
theorem witness_RemoteRequest_relayed : (let r : Request := { req0 with who := none, dst := 6, target := .fabric 9 5 0 }
    ({ base with requests := [r] } : State).requests.find? (fun q => q.id = r.id) = some r ∧ r.dst - 1 = 5) ∧
    (match (resolve exported c0 nR true (peerVa exported (peer 0x8000 load8)) 8).2 with
     | .error _ => false
     | .ok _ => true) = true ∧
    (match (resolve { exported with mem := putNat exported.mem 0x30000 8 0 } c0 nR true (peerVa exported (peer 0x8000 load8)) 8).2 with
     | .error _ => true
     | .ok _ => false) = true := by decide
/-- Doorbell 1 of context 1, whose window's first page is mapped at virtual page 0, through an export of it; doorbell 2 is free. -/
def doorExported : State := { rung with
  mem := putNat rung.mem 0x30000 8 0xC0400000010003D
  host := { rung.host with
    circuits := [(0, ⟨true, 13, 0, 0, 0, 2, none⟩)], exports := [(31, ⟨0, 1, 0x1FF, 0x3F, 1, false, true, true, true⟩)] } }
def noDoorPath : State := { doorExported with host := { doorExported.host with circuits := [] } }
def store4 : RemoteKind := .store [1, 0, 0, 0] false
theorem witness_RemoteRequest_door :
    PeerReaches doorExported (peer 64 store4) cDoor (reached doorExported cDoor nW 4 64) nW 4 (.door 1 1 0) ∧
    CtxHere doorExported cDoor ∧ doorExported.host.forwards = [] ∧ amGet none cDoor.doors 1 = some (1, 0, 0) ∧
    doorExported.teams.find? (fun t => t.kc = 1 ∧ t.core = 0) = some t1 ∧ MayArrive (barOf t1 0) 0 ∧
    (∀ p, (kcOf doorExported 1).place = some p → circuitUp? doorExported 13 p.die.toNat = true) ∧ (kcOf doorExported 1).status = .running ∧
    PeerReaches doorExported (peer 128 store4) cDoor (reached doorExported cDoor nW 4 128) nW 4 (.door 1 2 0) ∧ amGet none cDoor.doors 2 = none ∧
    PeerReaches noDoorPath (peer 64 store4) cDoor (reached noDoorPath cDoor nW 4 64) nW 4 (.door 1 1 0) ∧
    (kcOf noDoorPath 1).place = some ⟨0, 0, 0, 0, 0⟩ ∧ circuitUp? noDoorPath 13 0 = false :=
  ⟨peerReaches _ _ _ _ _ _ _ (by decide) (by decide) (by decide) (by decide) (by decide) rfl, by unfold CtxHere; decide, rfl, by decide, by decide,
    ⟨by decide, by decide, by decide, by decide⟩, fun p h => by cases h; decide, by decide,
    peerReaches _ _ _ _ _ _ _ (by decide) (by decide) (by decide) (by decide) (by decide) rfl, by decide,
    peerReaches _ _ _ _ _ _ _ (by decide) (by decide) (by decide) (by decide) (by decide) rfl, by decide, by decide⟩
/-- The kernel cluster whose team holds the doorbell is saved. -/
def doorSaved : State := { doorExported with kcs := doorExported.kcs.map fun k => { k with status := .saved 1, place := none } }
theorem witness_RemoteRequest_doorSaved :
    PeerReaches doorSaved (peer 64 store4) cDoor (reached doorSaved cDoor nW 4 64) nW 4 (.door 1 1 0) ∧ (kcOf doorSaved 1).status = .saved 1 ∧
    (kcOf doorSaved 1).place = none ∧ doorSaved.teams.find? (fun t => t.kc = 1 ∧ t.core = 0) = some t1 :=
  ⟨peerReaches _ _ _ _ _ _ _ (by decide) (by decide) (by decide) (by decide) (by decide) rfl, by decide, by decide, by decide⟩
/-- Context 1 has retired: its doorbells go on to export 2 of device 7, or nowhere. -/
def gone (live : Bool) : State := { base with
  ctxs := [], host := { base.host with forwards := [⟨1, 0, 0, 7, 2, live⟩], exports := [(31, ⟨0xFFFFFFF00000, 16, 0x1FF, 0x3F, 1, false, true, true, true⟩)] } }
theorem witness_RemoteRequest_forwarded : ∀ live ∈ [true, false],
    exportAllows (amGet Export.zero (gone live).host.exports 31) (peer 192 store4) = true ∧
    ctxOf? (gone live) (amGet Export.zero (gone live).host.exports 31).asid = none ∧
    (gone live).host.forwards.find? (fun x => x.asid = (amGet Export.zero (gone live).host.exports 31).asid) = some ⟨1, 0, 0, 7, 2, live⟩ ∧
    peerVa (gone live) (peer 192 store4) = 0xFFFFFFF000C0 := by decide
/-- A link fails under the request that a group waits for, whose chain is over. -/
def reqFab : Request := { req0 with target := .fabric 9 31 0, plane := 17 }
theorem witness_Links : (17 : Nat) < 18 ∧ 17 ∉ base.fab.linksDown ∧ Awaits (asking reqFab asked0) reqFab (gAsk asked0) (flOf asked0) asked0 ∧
    (asking reqFab asked0).requests = [reqFab] ∧ reqFab.plane = 17 ∧ reqFab.later = [] :=
  ⟨by decide, by decide, awaits _ _ (by decide) (by decide), rfl, rfl, rfl⟩
theorem witness_CompletionTimeout : Awaits (asking req0 asked0) req0 (gAsk asked0) (flOf asked0) asked0 ∧ req0.target = .window 3 0 ∧
    ∀ r ∈ ({ base with requests := [reqFab] } : State).requests, r.id = 7 → ∃ dev exp off, r.target = .fabric dev exp off := by
  refine ⟨awaits _ _ (by decide) (by decide), rfl, ?_⟩
  intro r hr _
  simp at hr
  subst hr
  exact ⟨9, 31, 0, rfl⟩
theorem witness_FramesAndReplicas_write : (frameEntry base 4).st ≠ 0 ∧ (frameEntry base 6).st = 0 ∧ (∀ r ∈ base.replicas, r.frame ≠ 4) ∧ (∀ x ∈ base.watches, x.frame ≠ 4) ∧
    (frameEntryOf 0x0000_0001_0001_0000_0000_0000_0000_0058#128).st = 2 ∧ (frameEntryOf 4#128).st = 1 ∧ 2 ^ 23 - 1 < 2 ^ 23 := by decide
theorem witness_FramesAndReplicas_scrub : (frameEntry { base with frameTab := [(7, { FrameEntry.zero with st := 1 })] } 7).st = 1 ∧ (frameEntry base 7).st ≠ 1 := by decide
/-- Frame 5 is sealed; frame 2^20 is homed on another die, which is ONLINE. -/
def sealedPage : State := { base with frameTab := [(5, page 64 64 0 false 2)], dies := base.dies.map fun d => { d with st := .online } }
theorem witness_FramesAndReplicas_replica : mayReplicate sealedPage 5 (2 ^ 21) = true ∧ mayReplicate base 5 6 = false ∧
    (∃ r ∈ ({ sealedPage with replicas := [⟨5, 2 ^ 21, 0⟩] } : State).replicas, r.copy = 2 ^ 21) := by decide
/-- A sealed page in frame 5, which the driver would reopen; a replica of it in frame 2^21 that its pool claims back. -/
def lowPool : State := { sealedPage with
  replicas := [⟨5, 2 ^ 21, 3⟩], dies := sealedPage.dies.map fun d => { d with poolReserve := 2 ^ 24 } }
theorem witness_FramesAndReplicas_sealed : (frameEntry sealedPage 5).st = 2 ∧ (frameEntry sealedPage 5).cls = 1 ∧ (frameEntry sealedPage 5).apst = 2 ∧
    (frameEntryOf 0x58#128).st = 2 ∧ (frameEntryOf 0x58#128).apst = 1 ∧ (frameEntry base 6).apst ≠ 2 ∧ (∀ r ∈ sealedPage.replicas, r.frame ≠ 5) := by decide
theorem witness_FramesAndReplicas_due : lowPool.replicas.find? (fun r => r.copy = 2 ^ 21) = some ⟨5, 2 ^ 21, 3⟩ ∧
    poolSize lowPool (frameEntry lowPool (2 ^ 21)).part < poolReserveOf lowPool (frameEntry lowPool (2 ^ 21)).part ∧
    (∀ q ∈ lowPool.replicas, (3 : Nat) ≤ q.used) ∧ ¬poolSize sealedPage 0 < poolReserveOf sealedPage 0 := by decide
theorem witness_FramesAndReplicas_wf : Memory.wf sealedPage.mem ∧ sealedPage.dies.length = 4 ∧ CtxHere base c0 :=
  ⟨by decide, by decide, by unfold CtxHere; decide⟩

/-! ### Witnesses: access traps, the machine as a whole -/

theorem witness_AccessTraps_misaligned : OneLane (onAt 0xFFF9 []) lanes (gAt 0xFFF9 []) 1 7 [2, 3] ∧ accessOk (gAt 0xFFF9 []) 3 60 2 ∧
    (pairAt (gAt 0xFFF9 []) 7 2).toNat % 2 ^ 3 ≠ 0 ∧ poisonedLanes (gAt 0xFFF9 []) [7] [60, 61] = [] :=
  ⟨oneLane _ _ _ _ rfl rfl, ⟨by decide, by decide⟩, by decide, by decide⟩
/-- The pair r4, r5 holds an address from 2^48 on. -/
theorem witness_AccessTraps_high : OneLane (onAt 0 [0, 0x10000]) lanes (gAt 0 [0, 0x10000]) 1 7 [4, 5] ∧ accessOk (gAt 0 [0, 0x10000]) 4 60 4 ∧
    (pairAt (gAt 0 [0, 0x10000]) 7 4).toNat % 2 ^ 4 = 0 ∧ 2 ^ 48 ≤ (pairAt (gAt 0 [0, 0x10000]) 7 4).toNat :=
  ⟨oneLane _ _ _ _ rfl rfl, ⟨by decide, by decide⟩, by decide, by decide⟩
theorem witness_AccessTraps_illegal : OneLane (onAt 0 []) lanes (gAt 0 []) 1 7 [3, 4] ∧ ¬accessOk (gAt 0 []) 3 60 3 ∧ ¬accessOk (gAt 0 []) 4 62 2 :=
  ⟨oneLane _ _ _ _ rfl rfl, by unfold accessOk; decide, by unfold accessOk; decide⟩
def missed (r : Except Miss (List Piece)) (cause : Byte) : Bool := match r with
  | .error m => decide (m.cause = cause) && decide (m.row ≤ 11)
  | .ok _ => false
/-- A page fault: virtual page 2 is not mapped. -/
theorem turnedAway (s : State) (c : Issue) (need : Need) (sync feat : Bool) (n : Nat) (addr : DWord) (cause : Byte) (he : cause ≠ 0x0F)
    (h : missed (checkThread s (ctxOf s (memberAsid s c.who)) need feat sync n ⟨0, addr, []⟩).2 cause = true)
    (hq : { (checkThread s (ctxOf s (memberAsid s c.who)) need feat sync n ⟨0, addr, []⟩).1 with tlb := s.tlb } = s) :
    ∃ m, TurnedAway s c need sync feat n addr m ∧ m.cause = cause := by
  revert h
  cases e : (checkThread s (ctxOf s (memberAsid s c.who)) need feat sync n ⟨0, addr, []⟩).2 with
  | ok p => intro h; cases h
  | error m =>
    intro h
    have h' : m.cause = cause ∧ m.row ≤ 11 := by simpa [missed] using h
    exact ⟨m, ⟨e, hq, h'.2, h'.1 ▸ he⟩, h'.1⟩
theorem witness_AccessTraps_fault : OneLane (onAt 0x20000 []) lanes (gAt 0x20000 []) 1 7 [2, 3] ∧ accessOk (gAt 0x20000 []) 3 60 2 ∧
    (∃ m, TurnedAway (onAt 0x20000 []) lanes { r := true } false true 8 0x20000 m ∧ m.cause = 0x04) ∧
    (∃ m, TurnedAway (onAt 0x20000 []) lanes { r := true } false true 1 0x20000 m ∧ m.cause = 0x04) ∧
    ∃ m, TurnedAway (onAt 0x20000 []) lanes { w := true } true true 8 0x20000 m ∧ m.cause = 0x04 :=
  ⟨oneLane _ _ _ _ rfl rfl, ⟨by decide, by decide⟩, turnedAway _ _ _ _ _ _ _ _ (by decide) (by decide) rfl,
    turnedAway _ _ _ _ _ _ _ _ (by decide) (by decide) rfl, turnedAway _ _ _ _ _ _ _ _ (by decide) (by decide) rfl⟩
theorem witness_AccessTraps_protection : OneLane (onAt 0 [0, 0x10000]) lanes (gAt 0 [0, 0x10000]) 1 7 [4, 5, 60, 61] ∧
    ∃ m, TurnedAway (onAt 0 [0, 0x10000]) lanes { w := true } true true 8 0x1000000000000 m ∧ m.cause = 0x05 :=
  ⟨oneLane _ _ _ _ rfl rfl, turnedAway _ _ _ _ _ _ _ _ (by decide) (by decide) rfl⟩
theorem witness_AccessTraps_spine : SpineAddr (onX 0x20000 0) spine (kAt 0x20000 0) 0 2 ∧ (sprueGet (kAt 0x20000 0) 0).st = .empty ∧
    ∃ m, TurnedAway (addrRead (onX 0x20000 0) (kAt 0x20000 0) 2) spine { r := true } false true 8 (addrOf (kAt 0x20000 0) 2) m ∧ m.cause = 0x04 :=
  ⟨spineAddr _ _ _ (by decide), by decide, turnedAway _ _ _ _ _ _ _ _ (by decide) (by decide) rfl⟩
/-- An atomic at an odd address; at a host window on a core without them; at a doorbell. -/
def noFeat : State := { onAt 0xFFF8 [] with
  mem := putNat (onAt 0xFFF8 []).mem 0x30000 8 pteWindow, dies := (onAt 0xFFF8 []).dies.map fun d => { d with featOff := [(0, 8)] }
  host := { base.host with windows := [(3, { Window.zero with v := true, size := 1 })] } }
def atDoorbell : State := { onAt 64 [] with mem := putNat (onAt 64 []).mem 0x30000 8 0xC0400000010003D }
theorem witness_AccessTraps_atomics :
    OneLane (onAt 0xFFF9 []) lanes (gAt 0xFFF9 []) 1 7 [2, 3, 60] ∧ (memberFeat (onAt 0xFFF9 []) lanes.who).getLsbD 3 = true ∧
    (∃ m, TurnedAway (onAt 0xFFF9 []) lanes nA true true 4 0xFFF9 m ∧ m.cause = 0x03) ∧
    OneLane noFeat lanes (gAt 0xFFF8 []) 1 7 [2, 3, 60] ∧ (memberFeat noFeat lanes.who).getLsbD 3 = false ∧
    (∃ m, TurnedAway noFeat lanes nA true false 4 0xFFF8 m ∧ m.cause = 0x0E) ∧
    (match (translate noFeat c0 0xFFF8).2 with
     | .ok tr => tr.r && tr.w && tr.aot.isNone && decide (tr.cls = 3)
     | .error _ => false) = true ∧
    OneLane atDoorbell lanes (gAt 64 []) 1 7 [2, 3, 60] ∧ (∃ m, TurnedAway atDoorbell lanes nA true true 4 64 m ∧ m.cause = 0x19) :=
  ⟨oneLane _ _ _ _ rfl rfl, by decide, turnedAway _ _ _ _ _ _ _ _ (by decide) (by decide) rfl, oneLane _ _ _ _ rfl rfl, by decide,
    turnedAway _ _ _ _ _ _ _ _ (by decide) (by decide) rfl, by decide, oneLane _ _ _ _ rfl rfl,
    turnedAway _ _ _ _ _ _ _ _ (by decide) (by decide) rfl⟩
/-- A PAGE instruction at a page that is no append page. -/
theorem witness_AccessTraps_page : OneLane (onAt 0 []) lanes (gAt 0 []) 1 7 [2, 3] ∧
    (∃ m, TurnedAway (onAt 0 []) lanes (nP true) false true 1 0 m ∧ m.cause = 0x05) ∧
    (match (translate (onAt 0 []) c0 0).2 with
     | .ok tr => decide (tr.cls ≠ 1)
     | .error _ => false) = true := ⟨oneLane _ _ _ _ rfl rfl, turnedAway _ _ _ _ _ _ _ _ (by decide) (by decide) rfl, by decide⟩
def gDirtyAddr : Group := { gAt 0 [] with poison := [vMark 7 2] }
theorem witness_AccessTraps_poisoned : OnLanes (laneState gDirtyAddr k0 t0) lanes gDirtyAddr ∧ gDirtyAddr.flights = [] ∧ accessOk gDirtyAddr 3 60 2 ∧
    poisonedLanes gDirtyAddr (activeLanes gDirtyAddr lanes 1) [2, 3] = [7] :=
  ⟨lanes_with _ _ _ ⟨by decide, by decide, by decide⟩ (by decide), by decide, ⟨by decide, by decide⟩, by decide⟩
def fetched : State := { onL with cur := none, agenda := [.issue (.group 1 0 0)] }
def entry0 : Entry := ⟨0, 0, 0xFF, none⟩
theorem witness_StepRunsDecoded_group : GroupHere fetched g0 ∧ (kcOf fetched 1).place.isSome = true ∧ g0.ended = false ∧ g0.trap = none ∧ g0.stopped = none ∧ g0.hold = none ∧
    g0.ladle = [] ∧ g0.crit = none ∧ nextEntry { fetched with agenda := [] } g0 = some entry0 ∧ (g0.flights.any fun f => mustLand entry0 f && inFlight f) = false ∧
    g0.ycount.toNat < g0.deadline :=
  ⟨by unfold GroupHere; decide, by decide, by decide, by decide, by decide, by decide, by decide, by decide, by decide, by decide, by decide⟩
/-- The state that the group fetches in, at entry e, and its issue. -/
def turned (s : State) : State := updMember { s with agenda := [] } (.group 1 0 0) fun g => { g with turn := s.fresh + 1 }
def fetching (s : State) (e : Entry) : State := updMember (turned s) (.group 1 0 0) fun g => landFlights g (mustLand e)
def issueAt (e : Entry) : Issue := ⟨.group 1 0 0, e.pc, e.prio, e.mask, 0, 4, false⟩
def fetchAt (s : State) (e : Entry) : State × Except (Miss × Word) (List Byte) :=
  fetchBytes (fetching s e) c0 0 e.pc (seenPoint (fetching s e) (issueAt e))
theorem witness_StepRunsDecoded_bytes : (fetchAt fetched entry0).2.toOption = some [0x0D, 0, 0, 0] ∧
    (decode [0x0D, 0, 0, 0]).toOption = some (.nop ⟨0⟩, 4) ∧ (decode [0, 0]).toOption = none ∧
    poisonedIssue (fetchAt fetched entry0).1 { issueAt entry0 with word := 0x0D } = [] := by decide
/-- Lane 0's entry is poisoned; the entry stands in an unmapped page; the group is at its deadline. -/
def fetchedBy (g : Group) : State := { fetched with groups := [g] }
def gMarked : Group := { g0 with poison := [frontierMark 0] }
def entryFar : Entry := ⟨0x20000, 0, 0xFF, none⟩
def gFar : Group := { g0 with regs := { g0.regs with frontier := [entryFar] } }
theorem witness_StepRunsDecoded_poisoned : GroupHere (fetchedBy gMarked) gMarked ∧ nextEntry { fetchedBy gMarked with agenda := [] } gMarked = some entry0 ∧
    (fetchAt (fetchedBy gMarked) entry0).2.toOption = some [0x0D, 0, 0, 0] ∧
    poisonedIssue (fetchAt (fetchedBy gMarked) entry0).1 { issueAt entry0 with word := 0x0D } ≠ [] :=
  ⟨by unfold GroupHere; decide, by decide, by decide, by decide⟩
theorem witness_StepRunsDecoded_fault : GroupHere (fetchedBy gFar) gFar ∧ nextEntry { fetchedBy gFar with agenda := [] } gFar = some entryFar ∧
    (match (fetchAt (fetchedBy gFar) entryFar).2 with
     | .error x => x.1.cause
     | .ok _ => 0) = 0x04 := ⟨by unfold GroupHere; decide, by decide, by decide⟩
def gSpent : Group := { g0 with deadline := 16, ycount := 16 }
theorem witness_StepRunsDecoded_overrun : GroupHere (fetchedBy gSpent) gSpent ∧ gSpent.deadline ≤ gSpent.ycount.toNat ∧
    nextEntry { fetchedBy gSpent with agenda := [] } gSpent = some entry0 ∧ entry0.wait = none ∧
    (fetchBytes (turned (fetchedBy gSpent)) c0 0 0 (seenPoint (turned (fetchedBy gSpent)) (issueAt entry0))).2.toOption = some [0x0D, 0, 0, 0] :=
  ⟨by unfold GroupHere; decide, by decide, by decide, rfl, by decide⟩
/-- A group in run-ahead: one that goes on, one at its limit; a cause of the ladle; a lock-holder section past its limit. -/
def gAhead (n : Nat) : Group := { g0 with runAhead := some ⟨g0.regs, trapOf lanes { cause := 0x04, lanes := 1 }, [], n, []⟩ }
def gKick : Group := { g0 with ladle := [trg] }
def gHeld : Group := { g0 with crit := some 16384 }
def kHeld : Kc := { k0 with spine := { k0.spine with crit := some 16384 } }
theorem witness_StepRunsDecoded_ahead : GroupHere (fetchedBy (gAhead 3)) (gAhead 3) ∧
    nextEntry { fetchedBy (gAhead 3) with agenda := [] } (gAhead 3) = some entry0 ∧ (gAhead 3).ladle = [] ∧ (gAhead 3).crit = none ∧
    (fetchAt (fetchedBy (gAhead 3)) entry0).2.toOption = some [0x0D, 0, 0, 0] ∧
    poisonedIssue (fetchAt (fetchedBy (gAhead 3)) entry0).1 { issueAt entry0 with word := 0x0D } = [] :=
  ⟨by unfold GroupHere; decide, by decide, by decide, by decide, by decide, by decide⟩
theorem witness_StepRunsDecoded_limits : GroupHere (fetchedBy (gAhead 512)) (gAhead 512) ∧ GroupHere (fetchedBy gKick) gKick ∧
    nextEntry { fetchedBy gKick with agenda := [] } gKick = some entry0 ∧ gKick.ladle = [trg] ∧
    GroupHere (fetchedBy gHeld) gHeld ∧ nextEntry { fetchedBy gHeld with agenda := [] } gHeld = some entry0 ∧ inCrit gHeld.crit = false ∧
    KcHere { onS with kcs := [kHeld], agenda := [.issue (.spine 1)] } kHeld ∧ spineReady { onS with kcs := [kHeld], agenda := [] } kHeld = true :=
  ⟨by unfold GroupHere; decide, by unfold GroupHere; decide, by decide, by decide, by unfold GroupHere; decide, by decide, by decide,
    by unfold KcHere; decide, by decide⟩
/-- A store has changed the halfword at 0x40000, and the thread need not see it. -/
theorem witness_StepRunsDecoded_old : (let s : State := { fetched with oldText := [(0x40000, [1, 2], 5)] }
    (∃ x ∈ s.oldText, x.1 = 0x40000 ∧ 3 ≤ x.2.2) ∧ ∀ x ∈ s.oldText, x.1 = 0x40000 → x.2.2 < 6) := by decide
theorem witness_StepRunsDecoded_spine : KcHere { onS with agenda := [.issue (.spine 1)] } k0 ∧ spineReady { onS with agenda := [] } k0 = true ∧ k0.spine.crit = none :=
  ⟨by unfold KcHere; decide, by decide, by decide⟩
/-- A word at the end of page 0, whose second half lies at the start of page 1. -/
def atEnd : State := { onS with mem := putNat (putNat onS.mem 0x30008 8 0x5003D) 0x4FFFE 4 0x0D, frameTab := amSet FrameEntry.zero onS.frameTab 5 ⟨1, 1, 0, 0, 0, 0, 0, 2, false⟩ }
theorem witness_StepRunsDecoded_fetch : (resolve atEnd c0 { x := true } true 0xFFFE 2).2.toOption = some [⟨.mem 0x4FFFE 0, 0, 2, 0xFFFE⟩] ∧
    (let s1 := (resolve atEnd c0 { x := true } true 0xFFFE 2).1
     offline s1 0 0x4FFFE (!cached s1 0x4FFFE 0) = false ∧ memPoisoned s1 0x4FFFE 2 = false ∧ (memByte s1 0x4FFFE).getLsbD 0 = true ∧
       (resolve s1 c0 { x := true } true 0x10000 2).2.toOption = some [⟨.mem 0x50000 0, 0, 2, 0x10000⟩]) := by decide
theorem witness_InvariantKept : State.Inv State.reset ∧ State.Inv base := ⟨⟨by decide, by decide⟩, ⟨by decide, by decide⟩⟩
theorem witness_DecodeEncodeAgree : (Instr.fenceRp ⟨7, 63⟩).wellFormed = true ∧ (encodeBytes (.fenceRp ⟨7, 63⟩)).isSome = true ∧
    (Instr.movHalf ⟨31, 63⟩).wellFormed = true ∧ (encodeBytes (.movHalf ⟨31, 63⟩)).isSome = true := by decide

/-! ### Witnesses: accesses beyond the core -/

theorem leads (s : State) (c : Issue) (need : Need) (sync feat : Bool) (n : Nat) (addr : DWord) (w : Way)
    (h : (checkThread s (ctxOf s (memberAsid s c.who)) need feat sync n ⟨0, addr, []⟩).2.toOption = some [⟨w, 0, n, addr.toNat % 2 ^ 48⟩])
    (h3 : { resolved s c need sync feat n addr with tlb := s.tlb } = s) :
    Leads s c need sync feat n addr (resolved s c need sync feat n addr) w := by
  refine ⟨Prod.ext rfl ?_, h3⟩
  revert h
  cases (checkThread s (ctxOf s (memberAsid s c.who)) need feat sync n ⟨0, addr, []⟩).2 <;> simp [Except.toOption]
theorem allLead (s : State) (c : Issue) (need : Need) (sync feat : Bool) (n : Nat) (ls : List Nat) (addr : DWord) (w : Way)
    (h : (checkAll s (ctxOf s (memberAsid s c.who)) need feat sync n (ls.map fun l => ⟨l, addr, []⟩)).2.map (fun r => r.2.toOption) =
      (ls.map fun _ => [⟨w, 0, n, addr.toNat % 2 ^ 48⟩]).map some)
    (h3 : { resolvedAll s c need sync feat n ls (fun _ => addr) with tlb := s.tlb } = s) :
    AllLead s c need sync feat n ls addr (resolvedAll s c need sync feat n ls fun _ => addr) w :=
  ⟨rfl, (allOk h).trans (by rw [List.map_map]; rfl), h3⟩

/-- Virtual page 0 mapped by a PTE to a host window, an export of a peer or a doorbell page; circuits from die 0. -/
def cBeyond : Ctx := { c0 with doors := [(1, some (1, 0, 0))] }
def beyond (s : State) (pte : Nat) (atomc : Bool) (circuits : AMap Circuit) : State := { s with
  mem := putNat s.mem 0x30000 8 pte, ctxs := [cBeyond]
  host := { s.host with windows := [(3, { Window.zero with v := true, size := 1, atomc := atomc })], circuits := circuits } }
def bothUp : AMap Circuit := [(0, ⟨true, 0, 12, 0, 0, 2, none⟩), (1, ⟨true, 0, 13, 0, 0, 2, none⟩)]
def pteDoor : Nat := 0xC0400000010003D
def far (addr : Word) (pte : Nat) (cs : AMap Circuit) : State := beyond (onAt addr [9]) pte true cs
def farX (addr : DWord) (pte : Nat) (cs : AMap Circuit) : State := beyond (onX addr 9) pte true cs
def win : Target := .window 3 0xFFF8
def fabr : Target := .fabric 9 5 0xFFF8

theorem witness_GlobalLoads_beyond : OneLane (far 0xFFF8 pteWindow bothUp) lanes (gAt 0xFFF8 [9]) 1 7 [2, 3] ∧
    accessOk (gAt 0xFFF8 [9]) 3 4 2 ∧
    Leads (far 0xFFF8 pteWindow bothUp) lanes { r := true } true true 8 (pairAt (gAt 0xFFF8 [9]) 7 2)
      (resolved (far 0xFFF8 pteWindow bothUp) lanes { r := true } true true 8 0xFFF8) (wayTo win) ∧
    ToPort (far 0xFFF8 pteWindow bothUp) lanes win ∧
    OneLane (far 0xFFF8 ptePeer []) lanes (gAt 0xFFF8 [9]) 1 7 [2, 3] ∧
    Leads (far 0xFFF8 ptePeer []) lanes { r := true } true true 8 (pairAt (gAt 0xFFF8 [9]) 7 2)
      (resolved (far 0xFFF8 ptePeer []) lanes { r := true } true true 8 0xFFF8) (wayTo fabr) ∧
    ¬ ToPort (far 0xFFF8 ptePeer []) lanes fabr :=
  ⟨oneLane _ _ _ _ rfl rfl, ⟨by decide, by decide⟩, leads _ _ _ _ _ _ 0xFFF8 _ (by decide) rfl, by unfold ToPort; decide,
    oneLane _ _ _ _ rfl rfl, leads _ _ _ _ _ _ 0xFFF8 _ (by decide) rfl, by unfold ToPort; decide⟩
theorem spineFar (addr : DWord) (pte : Nat) (cs : AMap Circuit) (a : RegField) (h : a.toNat < 32) :
    SpineAddr (farX addr pte cs) spine (kAt addr 9) 0 a :=
  ⟨⟨rfl, rfl, rfl⟩, by show spinePred k0.spine 0 = true; decide, ⟨rfl, rfl, rfl⟩, fun x => absurd x (by omega)⟩
theorem witness_GlobalLoads_beyondSpine : SpineAddr (farX 0xFFF8 ptePeer bothUp) spine (kAt 0xFFF8 9) 0 2 ∧
    (sprueGet (kAt 0xFFF8 9) 0).st = .empty ∧
    Leads (addrRead (farX 0xFFF8 ptePeer bothUp) (kAt 0xFFF8 9) 2) spine { r := true } true true 8 (addrOf (kAt 0xFFF8 9) 2)
      (resolved (addrRead (farX 0xFFF8 ptePeer bothUp) (kAt 0xFFF8 9) 2) spine { r := true } true true 8 0xFFF8) (wayTo fabr) ∧
    ToPort (farX 0xFFF8 ptePeer bothUp) spine fabr :=
  ⟨spineFar _ _ _ _ (by decide), by decide, leads _ _ _ _ _ _ 0xFFF8 _ (by decide) rfl, by unfold ToPort; decide⟩
/-- A window with and without a circuit; a peer with and without; the doorbell 1. -/
theorem witness_GlobalStores_beyond : (∀ cs, OneLane (far 0xFFF8 pteWindow cs) lanes (gAt 0xFFF8 [9]) 1 7 [2, 3, 4, 5]) ∧
    accessOk (gAt 0xFFF8 [9]) 3 4 2 ∧ fabricPending (far 0xFFF8 pteWindow bothUp) (memberAsid (far 0xFFF8 pteWindow bothUp) lanes.who) = false ∧
    Leads (far 0xFFF8 pteWindow bothUp) lanes { w := true } true true 8 (pairAt (gAt 0xFFF8 [9]) 7 2)
      (resolved (far 0xFFF8 pteWindow bothUp) lanes { w := true } true true 8 0xFFF8) (.window 3 0xFFF8) ∧
    Leads (far 0xFFF8 pteWindow []) lanes { w := true } true true 8 (pairAt (gAt 0xFFF8 [9]) 7 2)
      (resolved (far 0xFFF8 pteWindow []) lanes { w := true } true true 8 0xFFF8) (.window 3 0xFFF8) ∧
    Leads (far 0xFFF8 ptePeer bothUp) lanes { w := true } true true 8 (pairAt (gAt 0xFFF8 [9]) 7 2)
      (resolved (far 0xFFF8 ptePeer bothUp) lanes { w := true } true true 8 0xFFF8) (.fabric 9 5 0xFFF8) ∧
    Leads (far 0xFFF8 ptePeer []) lanes { w := true } true true 8 (pairAt (gAt 0xFFF8 [9]) 7 2)
      (resolved (far 0xFFF8 ptePeer []) lanes { w := true } true true 8 0xFFF8) (.fabric 9 5 0xFFF8) ∧
    ToPort (far 0xFFF8 ptePeer bothUp) lanes fabr ∧ ¬ ToPort (far 0xFFF8 ptePeer []) lanes fabr :=
  ⟨fun _ => oneLane _ _ _ _ rfl rfl, ⟨by decide, by decide⟩, by decide,
    leads _ _ _ _ _ _ 0xFFF8 _ (by decide) rfl, leads _ _ _ _ _ _ 0xFFF8 _ (by decide) rfl,
    leads _ _ _ _ _ _ 0xFFF8 _ (by decide) rfl, leads _ _ _ _ _ _ 0xFFF8 _ (by decide) rfl,
    by unfold ToPort; decide, by unfold ToPort; decide⟩
theorem witness_GlobalStores_door : OneLane (far 64 pteDoor []) lanes (gAt 64 [9]) 1 7 [2, 3, 4, 5] ∧
    Leads (far 64 pteDoor []) lanes { w := true } true true 8 (pairAt (gAt 64 [9]) 7 2)
      (resolved (far 64 pteDoor []) lanes { w := true } true true 8 64) (.door cBeyond.asid 1 0) ∧ CtxHere (far 64 pteDoor []) cBeyond ∧
    doorOffline (far 64 pteDoor []) (memberDie (far 64 pteDoor []) lanes.who).toNat cBeyond.asid 1 = false ∧
    (far 64 pteDoor []).host.forwards = [] ∧ amGet none cBeyond.doors 1 = some (1, 0, 0) ∧
    (far 64 pteDoor []).teams.find? (fun q => q.kc = 1 ∧ q.core = 0) = some t0 ∧ 0 < t0.bars.length :=
  ⟨oneLane _ _ _ _ rfl rfl, leads _ _ _ _ _ _ 64 _ (by decide) rfl, by unfold CtxHere; decide, by decide, rfl, by decide, by decide, by decide⟩
/-- The barrier expects four arrivals; the doorbell forwarded, not exported, of a saved kernel cluster. -/
theorem witness_Rings : (let s := { far 64 pteDoor [] with teams := [tDue] }
     s.teams.find? (fun q => q.kc = 1 ∧ q.core = 0) = some tDue ∧ 0 < tDue.bars.length ∧ ¬((barOf tDue 0).a + 1 = (barOf tDue 0).e)) ∧
    MayArrive (barOf tDue 0) 0 ∧ amGet none cBeyond.doors 2 = none ∧
    (let s := { far 64 pteDoor [] with host := { (far 64 pteDoor []).host with forwards := [⟨1, 0, 0, 7, 2, true⟩] } }
     s.host.forwards.find? (fun f => f.asid = cBeyond.asid) = some ⟨1, 0, 0, 7, 2, true⟩) ∧
    (kcOf { far 64 pteDoor [] with kcs := [{ k0 with status := .saved 1 }] } 1).status = .saved 1 :=
  ⟨by decide, ⟨by decide, by decide, by decide, by decide⟩, by decide, by decide, by decide⟩
theorem witness_GlobalStores_beyondSpine : SpineAddr (farX 0xFFF8 pteWindow bothUp) spine (kAt 0xFFF8 9) 0 2 ∧
    SpineAddr (farX 0xFFF8 ptePeer bothUp) spine (kAt 0xFFF8 9) 0 2 ∧
    Leads (addrRead (farX 0xFFF8 pteWindow bothUp) (kAt 0xFFF8 9) 2) spine { w := true } true true 8 (addrOf (kAt 0xFFF8 9) 2)
      (resolved (addrRead (farX 0xFFF8 pteWindow bothUp) (kAt 0xFFF8 9) 2) spine { w := true } true true 8 0xFFF8) (.window 3 0xFFF8) ∧
    circuitUp? (farX 0xFFF8 pteWindow bothUp) (memberDie (farX 0xFFF8 pteWindow bothUp) spine.who).toNat 12 = true ∧
    Leads (addrRead (farX 0xFFF8 ptePeer bothUp) (kAt 0xFFF8 9) 2) spine { w := true } true true 8 (addrOf (kAt 0xFFF8 9) 2)
      (resolved (addrRead (farX 0xFFF8 ptePeer bothUp) (kAt 0xFFF8 9) 2) spine { w := true } true true 8 0xFFF8) (.fabric 9 5 0xFFF8) ∧
    ToPort (farX 0xFFF8 ptePeer bothUp) spine fabr :=
  ⟨spineFar _ _ _ _ (by decide), spineFar _ _ _ _ (by decide), leads _ _ _ _ _ _ 0xFFF8 _ (by decide) rfl, by decide,
    leads _ _ _ _ _ _ 0xFFF8 _ (by decide) rfl, by unfold ToPort; decide⟩
def nAt : Need := { r := true, w := true, atomic := true }
/-- A window that takes AtomicOps, with and without a circuit, and one that does not; eight lanes at one address; the spine. -/
theorem witness_Atomics_beyond : OneLane (far 0xFFF8 pteWindow bothUp) lanes (gAt 0xFFF8 [9]) 1 7 [2, 3, 4, 5, 6, 7] ∧
    Leads (far 0xFFF8 pteWindow bothUp) lanes nAt true true 8 (pairAt (gAt 0xFFF8 [9]) 7 2)
      (resolved (far 0xFFF8 pteWindow bothUp) lanes nAt true true 8 0xFFF8) (wayTo win) ∧
    Leads (far 0xFFF8 pteWindow []) lanes nAt true true 8 (pairAt (gAt 0xFFF8 [9]) 7 2)
      (resolved (far 0xFFF8 pteWindow []) lanes nAt true true 8 0xFFF8) (wayTo win) ∧
    (memberFeat (far 0xFFF8 pteWindow bothUp) lanes.who).getLsbD 3 = true ∧
    (amGet Window.zero (far 0xFFF8 pteWindow bothUp).host.windows 3).atomc = true ∧ ToPort (far 0xFFF8 pteWindow bothUp) lanes win ∧
    ¬ ToPort (far 0xFFF8 pteWindow []) lanes win ∧
    Leads (beyond (onAt 0xFFF8 [9]) pteWindow false bothUp) lanes nAt true true 8 (pairAt (gAt 0xFFF8 [9]) 7 2)
      (resolved (beyond (onAt 0xFFF8 [9]) pteWindow false bothUp) lanes nAt true true 8 0xFFF8) (wayTo win) ∧
    (amGet Window.zero (beyond (onAt 0xFFF8 [9]) pteWindow false bothUp).host.windows 3).atomc = false ∧
    vOk (gAt 0xFFF8 [9]).budget true 2 = true ∧ 4 + 4 ≤ (gAt 0xFFF8 [9]).budget :=
  ⟨oneLane _ _ _ _ rfl rfl, leads _ _ _ _ _ _ 0xFFF8 _ (by decide) rfl, leads _ _ _ _ _ _ 0xFFF8 _ (by decide) rfl, by decide, by decide,
    by unfold ToPort; decide, by unfold ToPort; decide, leads _ _ _ _ _ _ 0xFFF8 _ (by decide) rfl, by decide, by decide, by decide⟩
def topWord (_ : Nat) : Word := 0xFFF8
theorem witness_Atomics_beyondLanes : SomeLanes (beyond (onAll topWord t0) ptePeer true bothUp) lanes (gAll topWord) 0 [2, 3, 4, 5, 6, 7] ∧
    activeLanes (gAll topWord) lanes 0 = 0 :: [1, 2, 3, 4, 5, 6, 7] ∧ (∀ i ∈ activeLanes (gAll topWord) lanes 0, pairAt (gAll topWord) i 2 = 0xFFF8) ∧
    AllLead (beyond (onAll topWord t0) ptePeer true bothUp) lanes nAt true true 8 (activeLanes (gAll topWord) lanes 0) 0xFFF8
      (resolvedAll (beyond (onAll topWord t0) ptePeer true bothUp) lanes nAt true true 8 (activeLanes (gAll topWord) lanes 0) fun _ => 0xFFF8) (wayTo fabr) ∧
    ToPort (beyond (onAll topWord t0) ptePeer true bothUp) lanes fabr :=
  ⟨allLanes _ _ _ rfl rfl, gAll_lanes _, by decide, allLead _ _ _ _ _ _ _ _ _ (by decide) rfl, by unfold ToPort; decide⟩
theorem witness_Atomics_beyondSpine : SpineAddr (farX 0xFFF8 pteWindow bothUp) spine (kAt 0xFFF8 9) 0 2 ∧
    Leads (addrRead (farX 0xFFF8 pteWindow bothUp) (kAt 0xFFF8 9) 2) spine nAt true
      true 8 (addrOf (kAt 0xFFF8 9) 2)
      (resolved (addrRead (farX 0xFFF8 pteWindow bothUp) (kAt 0xFFF8 9) 2) spine nAt true true 8 0xFFF8) (wayTo win) ∧
    (amGet Window.zero (farX 0xFFF8 pteWindow bothUp).host.windows 3).atomc = true ∧ ToPort (farX 0xFFF8 pteWindow bothUp) spine win :=
  ⟨spineFar _ _ _ _ (by decide), leads _ _ _ _ _ _ 0xFFF8 _ (by decide) rfl, by decide, by unfold ToPort; decide⟩
/-- A system-scope release waits for a fabric write of the context. -/
theorem witness_GlobalStores_waits : (let s := { onAt 0xFFFC [] with requests := [⟨1, none, [], 0, 0, 0, 3, 1, .fabric 9 5 0, .store [1] false, [], 0⟩] }
    fabricPending s (memberAsid s lanes.who)) = true := by decide

/-! ### Witnesses: the other cases of grid steps, exits and sprue registers -/

/-- Die 1 is to leave a grid that may do with one die; the other spine waits at the boundary that completes. -/
def kWaits : Kc := { k0 with id := 2, spine := { k0.spine with gsteps := 1, wait := some (.boundary 1) } }
def leavingGrid : Grid := { grid0 with dies := [0, 1], leaving := [1] }
def leavingState : State := { twoKcs kWaits with grids := [leavingGrid] }
theorem witness_GridSteps_leaves : OnSpine leavingState spine k0 ∧ gridOf? leavingState k0.grid = some leavingGrid ∧
    k0.spine.gsteps = leavingGrid.boundary ∧ (∀ q ∈ leavingState.kcs, ∀ r ∈ leavingState.kcs, q.id = r.id → q = r) ∧
    (∀ q ∈ leavingState.kcs, q.id ≠ k0.id → q.grid = k0.grid → q.spine.ended = true ∨ leavingGrid.boundary < q.spine.gsteps) ∧
    leavingGrid.mould.dmin < leavingGrid.dies.length ∧ leavingState.kcs.find? (fun x => x.id = kWaits.id) = some kWaits ∧
    kWaits.id ≠ k0.id ∧ kWaits.grid = k0.grid ∧ kWaits.spine.wait = some (.boundary 1) ∧ 1 ≤ leavingGrid.boundary + 1 :=
  ⟨⟨rfl, by decide, by decide⟩, by decide, by decide, by decide, by decide, by decide, by decide, by decide, by decide, by decide, by decide⟩
/-- Lanes 4 to 7 stand elsewhere: every active lane of the issuing entry exits, and the group goes on. -/
def gSplit : Group := { g0 with regs := { g0.regs with frontier := [⟨0, 0, 0x0F, none⟩, ⟨8, 0, 0xF0, none⟩] } }
def lowHalf : Issue := { lanes with mask := 0x0F }
theorem witness_Exits_entry : OnLanes { laneState gSplit k0 t0 with cur := some lowHalf } lowHalf gSplit ∧ gSplit.flights = [] ∧
    lowHalf.mask &&& ~~~maskOf (activeLanes gSplit lowHalf 0) = 0 ∧ (∃ e ∈ gSplit.regs.frontier, e.mask ≠ lowHalf.mask) :=
  ⟨⟨rfl, by decide, by decide, by decide, by decide⟩, by decide, by decide, by decide⟩
theorem witness_Exits_open : ∀ G, gridOf? onL (kcOf onL g0.kc).grid = some G →
    ∃ q ∈ onL.kcs, q.grid = G.id ∧ q.spine.ended = false ∧ q.spine.gsteps ≤ G.boundary := by
  intro G h
  simp only [show gridOf? onL (kcOf onL g0.kc).grid = some grid0 by decide] at h
  cases h
  decide
/-- The last group of a kernel cluster whose spine has ended, the only one of its grid. -/
def kDone : Kc := { k0 with spine := { k0.spine with ended := true } }
theorem witness_Exits_lastGroup : OnLanes (laneState g0 kDone t0) lanes g0 ∧ lanes.mask &&& ~~~maskOf (activeLanes g0 lanes 0) = 0 ∧
    (∀ e ∈ g0.regs.frontier, e.mask = lanes.mask) ∧ (kcOf (laneState g0 kDone t0) g0.kc).spine.ended = true ∧
    (∀ x ∈ (laneState g0 kDone t0).groups, x.kc = g0.kc → x.ended = true ∨ (x.core = g0.core ∧ x.idx = g0.idx)) ∧
    (laneState g0 kDone t0).transfers = [] ∧ gridOf? (laneState g0 kDone t0) (kcOf (laneState g0 kDone t0) g0.kc).grid = some grid0 ∧
    (∀ q ∈ (laneState g0 kDone t0).kcs, q.grid = grid0.id → q.id = g0.kc) ∧ gridSize grid0 ≤ grid0.nextCluster :=
  ⟨⟨rfl, by decide, by decide, by decide, by decide⟩, by decide, by decide, by decide, by decide, rfl, by decide, by decide, by decide⟩

/-- s0 is EMPTY, s3 FULL and s31 FILLING. -/
theorem witness_SprueRows_lanes : OnLanes onL lanes g0 ∧ SprueHere onL g0.kc 0 ∧ SprueHere onL g0.kc 3 ∧ SprueHere onL g0.kc 31 ∧
    vOk g0.budget true 62 = true ∧ poisonedLanes g0 (activeLanes g0 lanes 0) [62, 63] = [] ∧
    (sprueGet (kcOf onL g0.kc) 0).st = .empty ∧ (sprueGet (kcOf onL g0.kc) 3).st = .full 1 ∧ (sprueGet (kcOf onL g0.kc) 31).st = .filling 1 :=
  ⟨lanes_here, ⟨by decide, ⟨k0, by decide⟩⟩, ⟨by decide, ⟨k0, by decide⟩⟩, ⟨by decide, ⟨k0, by decide⟩⟩, by decide, by decide, by decide,
    by decide, by decide⟩
theorem witness_SprueRows_spine : OnSpine onS spine k0 ∧ SprueHere onS k0.id 0 ∧ SprueHere onS k0.id 3 ∧ SprueHere onS k0.id 31 ∧
    spinePred k0.spine 0 = true ∧ k0.spine.poison.contains 30 = false ∧ k0.spine.poison.contains 31 = false ∧
    (sprueGet k0 0).st = .empty ∧ (sprueGet k0 3).st = .full 1 ∧ (sprueGet k0 31).st = .filling 1 ∧ 63 - 32 < k0.cfgSprue ∧ 31 < k0.cfgSprue :=
  ⟨spine_here, ⟨by decide, ⟨k0, by decide⟩⟩, ⟨by decide, ⟨k0, by decide⟩⟩, ⟨by decide, ⟨k0, by decide⟩⟩, by decide, by decide, by decide,
    by decide, by decide, by decide, by decide, by decide⟩
/-- An `add` of x5 and x6 to s3 and to s31. -/
theorem witness_SprueRows_dst : SpineReady k0 [.reg 5 true, .sel 6 true] (.reg 0 true false) ∧ SpineReady k0 [.imm 7] (.reg 0 false false) := by
  refine ⟨?_, ?_⟩ <;> constructor <;> decide

/-! ### Witnesses: the other cases of buffers, tiles, areas, counters, kicks and the watchdog -/

/-- The group has arrived in the region, whose next plane holds a word. -/
def regionArrived : Region := { region1 with arrived := [0], nextPl := [(4, 6)], written := [(1, true)] }
def tArrived : Team := { t1 with regions := [regionArrived] }
theorem witness_BufferAccesses_arrived : SomeLanes (onAll words tArrived) lanes (gAll words) 0 [2, 4] ∧
    (∀ l ∈ activeLanes (gAll words) lanes 0, (bufTarget (kcOf (onAll words tArrived) 1) 0 3 (4 * l)).toOption = some (0, 4 * l) ∧
      bufCheck (onAll words tArrived) 1 0 .bufA (4 * l) 4 false false false 2 (4 * l) = none ∧ bufPoisoned tArrived .bufA (4 * l) 4 = false ∧
      bufCheck (onAll words tArrived) 1 0 .bufA (4 * l) 4 true false false 2 (4 * l) = none) ∧
    regionAt tArrived 4 1 = some regionArrived ∧ (gAll words).idx ∈ regionArrived.arrived ∧
    ((activeLanes (gAll words) lanes 0).filter fun l => collides tArrived (gAll words).idx 4 (fun l => 4 * l) (activeLanes (gAll words) lanes 0) l) = [] :=
  ⟨allLanes _ _ _ rfl rfl, by decide, by decide, by decide, by decide⟩

/-- The tile begins past the last one. -/
def gPast : Group := { g0 with regs := { g0.regs with ct := 4096 } }
theorem witness_MatrixPasses_outside : OnLanes (laneState gPast k0 t0) lanes gPast ∧ TeamHere (laneState gPast k0 t0) gPast t0 ∧
    (memberCaps (laneState gPast k0 t0) lanes.who).getLsbD 3 = true ∧ poisonedLanes gPast (octetLanes [0]) (List.range 64) = [] ∧
    ((octetsOf gPast.width (issueMask gPast lanes)).filter fun x => decide (t0.cSize < gPast.regs.ct.toNat + 1024 * x + 1024)) = [0] :=
  ⟨lanes_with _ _ _ (by decide) (by decide), by unfold TeamHere; decide, by decide, by decide, by decide⟩
/-- Scales at r63: misaligned, beyond the buffer, and locked by a transfer to it. -/
def gScale (a : Word) : Group := { gc with regs := { gc.regs with v := amSet 0 gc.regs.v 63 a } }
def lockedBy (s : State) : State := { s with transfers := [{ x1 with srcIv := some (0, 64), dstIv := some (0, 64), dspace := .bufA }] }
theorem witness_DrainsAndClears_refused : OnLanes (laneState (gScale 3970) k0 t0) lanes (gScale 3970) ∧ (3970 : Nat) % 4 ≠ 0 ∧
    OnLanes (laneState (gScale 4036) k0 t0) lanes (gScale 4036) ∧ (4036 : Nat) % 4 = 0 ∧ t0.aSize < 4036 + 64 ∧
    OnLanes (laneState (gScale 3972) k0 t0) lanes (gScale 3972) ∧ t0.aSize < 3972 + 128 ∧ 3972 + 64 ≤ t0.aSize ∧
    OnLanes (lockedBy (laneState (gScale 60) k0 t1)) lanes (gScale 60) ∧ TeamHere (lockedBy (laneState (gScale 60) k0 t1)) (gScale 60) t1 ∧
    rangeLocked (lockedBy (laneState (gScale 60) k0 t1)) 1 0 .bufA 60 64 false = true ∧ 60 + 64 ≤ t1.aSize ∧
    octetsOf gc.width (issueMask gc lanes) = [0] ∧ gc.regs.ct.toNat + 1024 * 0 + 1024 ≤ t1.cSize :=
  ⟨lanes_with _ _ _ (by decide) (by decide), by decide, lanes_with _ _ _ (by decide) (by decide), by decide, by decide,
    lanes_with _ _ _ (by decide) (by decide), by decide, by decide, ⟨rfl, by decide, by decide, by decide, by decide⟩, by unfold TeamHere; decide,
    by decide, by decide, by decide, by decide⟩
/-- Record areas, of lane 7: misaligned, past the buffer, in a stepped region, locked. -/
theorem witness_DequeInstructions_refused : OnLanes (onAt 4000 []) lanes (gAt 4000 []) ∧ activeLanes (gAt 4000 []) lanes 1 = 7 :: [] ∧
    (4000 : Nat) % 64 ≠ 0 ∧ OnLanes (onAt 4096 []) lanes (gAt 4096 []) ∧ (4096 : Nat) % 64 = 0 ∧ t0.aSize < 4096 + 64 ∧
    inRegion t1 0 64 = true ∧ (lockedBy (laneState (gAt 128 []) k0 { t1 with regions := [] })).teams = [{ t1 with regions := [] }] ∧
    rangeLocked { lockedBy (laneState (gAt 0 []) k0 { t1 with regions := [] }) with groups := [gAt 0 []] } 1 0 .bufA 0 64 true = true ∧
    rangeLocked { lockedBy (laneState (gAt 0 []) k0 { t1 with regions := [] }) with groups := [gAt 0 []] } 1 0 .bufA 0 64 false = true :=
  ⟨gAt_on _ _ _ rfl rfl, gAt_active _ _, by decide, gAt_on _ _ _ rfl rfl, by decide, by decide, by decide, rfl, by decide, by decide⟩
/-- Every lane names counter 4095, which the function has; and 4094, which it does not. -/
def lastCount (_ : Nat) : Word := 0x2_0FFF
def noCount (_ : Nat) : Word := 0x2_0FFE
theorem witness_DependencesAndQueries_lanes : SomeLanes (withQuota (onAll lastCount t0)) lanes (gAll lastCount) 0 [2] ∧
    (∀ l ∈ activeLanes (gAll lastCount) lanes 0, ownsCounter (withQuota (onAll lastCount t0)) (ctxOf (withQuota (onAll lastCount t0)) 1).vf
      ((vGet (gAll lastCount).regs l 2).toNat % 4096) = true) ∧
    SomeLanes (withQuota (onAll noCount t0)) lanes (gAll noCount) 0 [2] ∧
    ((activeLanes (gAll noCount) lanes 0).filter fun l => !ownsCounter (withQuota (onAll noCount t0)) (ctxOf (withQuota (onAll noCount t0)) 1).vf
      ((vGet (gAll noCount).regs l 2).toNat % 4096)) = 0 :: [1, 2, 3, 4, 5, 6, 7] :=
  ⟨allLanes _ _ _ rfl rfl, by decide, allLanes _ _ _ rfl rfl, by decide⟩

/-- The spine waits for s0 and no other member lives; a group that runs keeps the cluster from being blocked. -/
theorem witness_DeadlockWatchdog_found : KcHere stuck kStuck ∧ (stuck.kcs.map fun q => q.id).Nodup ∧ DeadlockFound stuck kStuck ∧
    KcHere onS k0 ∧ ¬ DeadlockFound onS k0 := by
  refine ⟨by unfold KcHere; decide, by decide, ⟨⟨rfl, by decide, fun _ => ⟨rfl, _, rfl, ?_⟩, ?_, .inl rfl⟩, ?_⟩, by unfold KcHere; decide, ?_⟩
  · exact .inl fun n => by rw [show (sprueGet kStuck (0 : BitVec 5).toNat).st = .empty by decide]; exact nofun
  · intro g hg _ he
    have e : g = { g0 with ended := true } := by simpa [stuck] using hg
    subst e
    cases he
  · rintro ⟨n, hn⟩
    cases hn
  · rintro ⟨⟨-, -, h, -⟩, -⟩
    obtain ⟨-, w, hw, -⟩ := h rfl
    exact absurd hw (by rw [show k0.spine.wait = none by decide]; exact nofun)
/-- The group at barrier 1, which nothing outside feeds; one that a doorbell feeds. -/
theorem witness_DeadlockWatchdog_waits : InternalWait onB k0 0 (.phase 1 (barOf t1 1).p) ∧
    FedFromOutside { onB with teams := [{ t1 with bars := { bar 2 0 false with door := some 1 } :: bars1.drop 1 }] } k0 0 0 := by
  refine ⟨⟨by decide, by decide, ?_⟩, .inr (.inl (by decide))⟩
  rintro (h | h | h | ⟨G, hG, h⟩ | ⟨w, hw, -⟩ | ⟨x, hx, -⟩)
  · exact absurd h (by decide)
  · exact absurd h (by decide)
  · exact absurd h (by decide)
  · rw [show gridOf? onB k0.grid = some grid0 by decide] at hG
    cases hG
    exact absurd h (by decide)
  · cases hw
  · cases hx
theorem witness_SaveAndResume_sizes : (toSave.groups.filter fun x => x.kc = kStop.id).length ≤ 1024 ∧
    (∀ x ∈ toSave.groups, x.budget ≤ 64 ∧ x.width ≤ 64) := by decide

/-- A late frame and an imprecise one; frames of a saved kernel cluster and of a channel; a ring with an MSI-X vector. -/
def gWith (tr : Trap) : Group := { g0 with trap := some tr }
def answeredWith (tr : Trap) : State := { laneState (gWith tr) k0 t0 with written := [⟨1, 6, 0x78, frameOf onL lanes.who tr⟩] }
def trLate : Trap := { trg with late := true, cause := 0x14 }
def trKick : Trap := { trg with imprecise := true, cause := 0x05 }
theorem answersGroup (tr : Trap) : AnswerGroup (answeredWith tr) ⟨1, 6⟩ ⟨1, 6, 0x78, frameOf onL lanes.who tr⟩ (gWith tr) tr := by
  refine ⟨by simp [answeredWith, findWritten], rfl, ?_, (by decide : (kcOf onL 1).status = .running), rfl⟩
  show [gWith tr].find? (fun x => x.kc = g0.kc ∧ x.core = g0.core ∧ x.idx = g0.idx) = some (gWith tr)
  have e : (gWith tr).kc = g0.kc ∧ (gWith tr).core = g0.core ∧ (gWith tr).idx = g0.idx := ⟨rfl, rfl, rfl⟩
  simp [e]
theorem witness_TrapAnswers_late : AnswerGroup (answeredWith trLate) ⟨1, 6⟩ ⟨1, 6, 0x78, frameOf onL lanes.who trLate⟩ (gWith trLate) trLate ∧
    trLate.imprecise = false ∧ causeSkips trLate.cause = false ∧ trLate.late = true ∧
    AnswerGroup (answeredWith trKick) ⟨1, 6⟩ ⟨1, 6, 0x78, frameOf onL lanes.who trKick⟩ (gWith trKick) trKick ∧ trKick.imprecise = true :=
  ⟨answersGroup _, by decide, by decide, by decide, answersGroup _, by decide⟩
def answeredSaved : State := { answered with kcs := [{ kTrap with status := .saved 2, slotNo := some 0, place := none }] }
def ladleFrame : Frame := { fr0 with whose := .ladle 9 (.group 1 0 0) }
def answeredLadle : State := { onB with transfers := [{ x1 with stopped := true }], written := [⟨1, 5, 0x78, ladleFrame⟩] }
theorem witness_TrapAnswers_kept : findWritten answeredSaved ⟨1, 5⟩ = some wSpine ∧ wSpine.frame.whose = .member (.spine 1) ∧
    (kcOf answeredSaved 1).status ≠ .running ∧ (kcOf answeredSaved 1).spine.trap.isSome = true ∧
    findWritten answeredLadle ⟨1, 5⟩ = some ⟨1, 5, 0x78, ladleFrame⟩ ∧ ladleFrame.whose = .ladle 9 (.group 1 0 0) ∧
    gridOf? answeredLadle ladleFrame.grid = some grid0 := by decide
/-- The spine ends the grid of a kernel cluster that runs. -/
theorem witness_TrapAnswers_ended : findWritten answered ⟨1, 5⟩ = some wSpine ∧ wSpine.frame.whose = .member (.spine 1) ∧
    (kcOf answered 1).status = .running ∧ gridOf? answered wSpine.frame.grid = some grid0 := by decide

/-- The launch of `startState` is placed on die 0, cluster 0, at the first anchor. -/
def cand0 : Cand := ⟨0, 0, 0, 0⟩
theorem takes0 : Takes startState mouldRead cand0 :=
  ⟨by decide, by decide, fun i hi j hj => by
    have hi : i = 0 := by simp only [mouldRead] at hi; omega
    have hj : j = 0 := by simp only [mouldRead] at hj; omega
    subst hi hj
    constructor <;> decide⟩
theorem firstFit0 (ok : DieNo → Prop) (h : ok 0) : FirstFit startState mouldRead ok cand0 :=
  ⟨by unfold InMesh; decide, h, takes0, fun _ _ _ _ => Nat.zero_le _⟩
theorem witness_PlacementAndWork_formed : ∃ s' used, Formed (startedGrid startState rec0 mouldRead) [0] s' used mouldRead.gmin 0 startState [] :=
  ⟨_, _, cand0, firstFit0 _ ⟨by decide, by decide, by decide⟩, rfl, rfl⟩
/-- The grid has one kernel cluster, and its start set two; there are four dies, and five are wanted. -/
theorem witness_PlacementAndWork_never : NeverPlaced startState rec0 { mouldRead with gmin := 2 } ∧
    NeverPlaced startState rec0 { mouldRead with dmin := 5 } ∧ ¬ NeverPlaced startState rec0 mouldRead := by
  refine ⟨.inl (by decide), .inr (.inl (by decide)), ?_⟩
  rintro (h | h | h | h)
  · exact absurd h (by decide)
  · exact absurd h (by decide)
  · exact absurd h (by decide)
  · obtain ⟨i, hi, j, hj, hc⟩ := h cand0 (by unfold InMesh; decide) (by decide) (by decide)
    have hi : i = 0 := by simp only [mouldRead] at hi; omega
    have hj : j = 0 := by simp only [mouldRead] at hj; omega
    subst hi hj
    exact absurd hc (by decide)
theorem witness_PlacementAndWork_worker : Fewest (released worker) 0 1 t0 ∧ (∀ T ∈ worker.teams, ¬ Worker worker 1 1 T) := by
  refine ⟨⟨[], [], rfl, ⟨by decide, by decide, ⟨_, rfl, by decide, by decide⟩, by decide⟩, nofun, nofun⟩, ?_⟩
  intro T hT h
  obtain ⟨G, hG, -, hq⟩ := h.works
  have e : T = t0 := by
    rw [show worker.teams = [t0] by rfl] at hT
    simpa using hT
  subst e
  rw [show gridOf? worker (kcOf worker t0.kc).grid = some { grid0 with mould := { mould0 with wqv := true, wq := 0 } } by decide] at hG
  cases hG
  cases hq
theorem witness_EnergyMetering_charge : ctxOf? { onS with grids := [gridBudget] } gridBudget.asid = some c0 ∧
    gridOf? { onS with grids := [gridBudget] } gridBudget.id = some gridBudget ∧ (([gridBudget] : List Grid).map fun g => g.id).Nodup ∧
    (∀ k ∈ (kcsOf { onS with grids := [gridBudget] } 0).filter isRunning, k.asid = gridBudget.asid) ∧ onS.dies.length = 4 := by decide

/-- The doorbell's kernel cluster has been saved; the context is forwarded, and was before it was retired. -/
def rungSaved : State := { rung with kcs := [{ k0 with status := .saved 1, slotNo := some 0, place := none }] }
def forwarded (live : Bool) : State := { rung with host := { rung.host with forwards := [⟨1, 0, 0, 7, 2, live⟩] } }
theorem witness_HostAccesses_saved : AtDoor rungSaved 0 64 cDoor 1 ∧ (kcOf rungSaved 1).status = .saved 1 ∧ (kcOf rungSaved 1).place = none ∧
    (∃ x ∈ (forwarded false).host.forwards, x.vf = 0 ∧ x.slot.toNat = 64 / 2 ^ 20 ∧ x.live = false) :=
  ⟨⟨by decide, by unfold CtxHere; decide, by decide⟩, by decide, by decide, by decide⟩
theorem witness_ManagementCommands_unforward : (∃ x ∈ (forwarded true).host.forwards, x.asid = 1 ∧ x.live = true) ∧ (ctxOf? (forwarded true) 1).isSome = true ∧
    ctxOf? { forwarded true with ctxs := [] } 1 = none ∧ ¬(∃ x ∈ (forwarded false).host.forwards, x.asid = 1 ∧ x.live = true) := by decide
/-- An entry with the port of die 3, which has FAILED, and one without. -/
theorem witness_TablesAndCircuits_failed : (let s : State := { base with dies := base.dies.modify 3 fun d => { d with st := .failed } }
    FailedEnd s ⟨true, 12, 3, 0, 0, 1, none⟩ ∧ ¬FailedEnd s ⟨true, 12, 0, 0, 0, 1, none⟩) := by
  refine ⟨⟨3, .inr (by decide), by decide⟩, ?_⟩
  rintro ⟨d, h, hd⟩
  revert d
  decide
/-- A staged image of a die; the wf of a queue table. -/
theorem witness_ResetsAndWithdrawal_staged : (let s : State := { die0 .lost with dies := (die0 .lost).dies.map fun d => { d with staged := [1] } }
    (dieOf s 0).st = .lost ∧ (dieOf s 0).staged ≠ [] ∧ s.dies.length = 4) ∧ amWf QueueEntry.zero oneQueue.tund.queues = true := by decide
/-- A port that hears a worse clock sends; die 0 awaits its handshake. -/
theorem witness_DieRecoveryAndTime_master : (let s : State := { die0 .syncing with fab := { base.fab with ptpBest := [(5, some worse)] } }
    ptpRole s.fab 5 = .master ∧ 5 ∉ s.fab.linksDown ∧ (dieOf s 0).st = .syncing) := by decide

/-! ### Values of the spec's worked examples, in one step on lane 0 (R58, R111, R116, R126 and the tables of R40 to R57) -/

/-- What one instruction leaves in r7 and LSTAT of lane 0, r1, r2, r3 and r7 given. -/
def lane0 (r1 r2 r3 r7 : Word) (i : Instr) : Option (Word × Flags6) :=
  let g : Group := { g0 with regs := { g0.regs with v := [(1, r1), (2, r2), (3, r3), (7, r7)] } }
  match exec i (laneState g k0 t0) with
  | .next t => some (vGet (groupOf t 1 0 0).regs 0 7, amGet 0 (groupOf t 1 0 0).regs.lstat 0)
  | _ => none
theorem test_adds_saturates : lane0 0 0x7FFFFFF0 0x100 0 (.addsS32 ⟨0, false, 7, 2, 3⟩) = some (0x7FFFFFFF, flagSAT) := by decide
theorem test_add_wraps : lane0 0 0x7FFFFFF0 0x100 0 (.add ⟨0, false, 7, 2, 3⟩) = some (0x800000F0, 0) := by decide
theorem test_abs_saturates : lane0 0 0x80000000 0 0 (.absS32 ⟨0, 7, 2⟩) = some (0x7FFFFFFF, flagSAT) := by decide
theorem test_perm : lane0 0 0x44332211 0x88776655 0x0000F470 (.perm ⟨0, 7, 2, 3⟩) = some (0xFF558811, 0) := by decide
theorem test_mul_rounds : lane0 0 0x3F800800 0x3F800800 0 (.mulF32 ⟨0, false, 7, 2, 3⟩) = some (0x3F801000, flagNX) := by decide
theorem test_fma_rounds_once : lane0 0 0x3F800800 0x3F800800 0xBF801000 (.fmaF32 ⟨0, false, 7, 2, 3⟩) = some (0x33800000, 0) := by decide
theorem test_cvt_e4m3 : lane0 0 0xBDCCCCCD 0 0 (.cvtE4m3F32 ⟨0, 7, 2, 0, false⟩) = some (0x9D, flagNX) := by decide
/-- 500 is 0x43FA0000. -/
theorem test_cvt_e4m3_overflow : lane0 0 0x43FA0000 0 0 (.cvtE4m3F32 ⟨0, 7, 2, 0, false⟩) = some (0x7F, flagOF ||| flagNX) ∧
    lane0 0 0x43FA0000 0 0 (.cvtE4m3F32 ⟨0, 7, 2, 1, false⟩) = some (0x7E, flagOF ||| flagNX) := by decide
theorem test_cvt_e5m2 : lane0 0 0xBDCCCCCD 0 0 (.cvtE5m2F32 ⟨0, 7, 2, 0, false⟩) = some (0xAE, flagNX) := by decide
theorem test_cvt_f16 : lane0 0 0xBDCCCCCD 0 0 (.cvtF16F32 ⟨0, 7, 2, 0, false⟩) = some (0xAE66, flagNX) := by decide
/-- 10.0 and 20.0 in L6. -/
theorem test_cvt_l6 : lane0 0 0x41200000 0 0 (.cvtL6F32 ⟨0, 7, 2⟩) = some (0x0D, flagNX) ∧
    lane0 0 0x41A00000 0 0 (.cvtL6F32 ⟨0, 7, 2⟩) = some (0x0F, flagSAT ||| flagNX) := by decide
set_option maxRecDepth 20000 in
/-- 32 products of 1.0 and 0.5 in e4m3. -/
theorem test_pass_e4m3 : (passElem 2 0 (List.replicate 32 (0x38, 0x30))).1 = 0x41800000 := by decide
/-- The two products of the L6 example with C = 0.25. -/
theorem test_pass_l6 : (passElem 5 0x3E800000 [(0x02, 0x0D), (0x1C, 0x24)]).1 = 0x414B4000 := by decide
/-- After a trap the frame waits, the group has stopped and no register changed; a load reads the bytes it is placed with. -/
theorem test_trap_stops : (match exec (.trap ⟨0, 0x2A⟩) onL with
    | .next t => (t.frames.map fun f => (f.trap.cause, f.trap.code), (groupOf t 1 0 0).trap.isSome)
    | _ => ([], false)) = ([(0x16, 0x2A)], true) := by decide
theorem test_load_word : (match exec (.ld ⟨1, false, 5, 2, 2, 0, 0⟩) (onAt 0 []) with
    | .next t => vGet (groupOf t 1 0 0).regs 7 5
    | _ => 0) = 0x0D := by decide
set_option maxRecDepth 20000 in
theorem test_step_runs_placed_word : (match step (State.reset.withFetchWord 32 0xFFFE240B) with
    | .next t => vGet (groupOf t 1 0 0).regs 0 9
    | _ => 0) = 0xFFFFFFFE := by decide

end Sys2Proof.Tests
end

section
/-! The family "Number Formats": group reductions and votes (R141 to R145). -/

namespace Sys2Proof.Proofs.Reductions

open Sys2Proof Sys2Proof.Machine Sys2Proof.Claims

/-- A wait that `LanesWait` describes blocks every entry with the lanes of the issue. -/
theorem lanesWait_blocks {s t : State} {c : Issue} {w : Wait} (h : LanesWait s t c w) {e : Entry}
    (he : e ∈ (memberGroup s c.who).regs.frontier) (hm : e.mask = c.mask) :
    { e with wait := some w } ∈ (memberGroup t c.who).regs.frontier := by
  obtain ⟨-, hregs, -⟩ := h
  rw [hregs]
  exact List.mem_map.mpr ⟨e, he, if_pos hm⟩

/-! ### A FULL register under pre-emption

R145 makes the wait of a reduction for a FULL sprue register a yield point, and under a latched pre-emption request a
group stops at a yield point with its blocked entries abandoned as not issued (R185, R189). -/

/-- A kernel cluster with a pre-emption request latched, whose sprue register 0 is FULL with one read due. -/
def preemptedKc : Kc :=
  { kcNone with id := 1, cfgSprue := 1, status := .stopping 2, sprue := [(0, { SprueReg.init with st := .full 1 })] }

/-- Its group of 8 lanes, all in one entry at pc 0. -/
def reducingGroup : Group := groupInit 1 0 0 0 8 8 0

/-- The issue of that entry. -/
def reducingIssue : Issue := ⟨.group 1 0 0, 0, 0, fullMask 8, 0, 4, false⟩

def preempted : State :=
  { State.reset with kcs := [preemptedKc], groups := [reducingGroup], cur := some reducingIssue }

/-- `radd.s32 s0, v0` -/
def reduceToFull : OpsA1 := ⟨0, 32, 0⟩

theorem preempted_onLanes : OnLanes preempted reducingIssue reducingGroup :=
  ⟨rfl, rfl, by decide, rfl, by decide⟩

/-- The reduction stops the group at the yield point, with its lanes unblocked, to issue again on resumption. -/
theorem reduction_stops_preempted_group :
    (match exec (.raddS32 reduceToFull) preempted with
      | .next t =>
        let g := memberGroup t reducingIssue.who
        some (g.stopped, g.regs.frontier)
      | _ => none) = some (some 65, [⟨0, 0, fullMask 8, none⟩]) := by decide

/-- Refutes O22: the statement has a reduction to a FULL sprue register leave its entry blocked in every state; under a
latched pre-emption request the group stops there instead, its entry not blocked. -/
theorem not_reductionsAndVotes : ¬ Obligations.ReductionsAndVotes := by
  unfold Obligations.ReductionsAndVotes
  rintro ⟨⟨-, hradd⟩, -⟩
  obtain ⟨-, -, hrows⟩ := hradd reduceToFull preempted reducingIssue reducingGroup preempted_onLanes
    (by decide) (by decide) (by decide) (by decide)
  obtain ⟨-, hfull⟩ := hrows (by decide) (by decide)
  obtain ⟨t, hexec, hwait⟩ := hfull 1 (by decide)
  have hstop := reduction_stops_preempted_group
  rw [hexec] at hstop
  obtain ⟨-, hfrontier⟩ := Prod.mk.inj (Option.some.inj hstop)
  have hblocked := lanesWait_blocks hwait (e := ⟨0, 0, fullMask 8, none⟩) (by decide) rfl
  rw [hfrontier] at hblocked
  simp at hblocked

end Sys2Proof.Proofs.Reductions
end

section
/-! Rules of the shared state operations that answers and completions use: writes and flags made once each, lane masks,
the stable sort, dies, teams, and a member that stops. -/

namespace Sys2Proof.Proofs.StateRules

open Sys2Proof Sys2Proof.Machine Sys2Proof.Claims

/-! ### Registers and flags -/

theorem vGet_putWrites_unwritten {r : GroupRegs} {ws : List RegWrite} {lane reg : Nat} (hr : reg < 64)
    (hb : ∀ w ∈ ws, w.reg < 64) (hw : ∀ w ∈ ws, ¬(w.lane = lane ∧ w.reg = reg)) :
    vGet (putWrites r ws) lane reg = vGet r lane reg := by
  induction ws generalizing r with
  | nil => rfl
  | cons w ws ih =>
    obtain ⟨hbw, hb⟩ := List.forall_mem_cons.mp hb
    obtain ⟨hww, hw⟩ := List.forall_mem_cons.mp hw
    refine (ih hb hw).trans ?_
    rw [vGet_vSet _ _ _ _ _ _ hbw hr, if_neg fun h => hww ⟨h.1.symm, h.2.symm⟩]

theorem vGet_putWrites_written {r : GroupRegs} {ws : List RegWrite} (hn : (ws.map fun w => (w.lane, w.reg)).Nodup)
    (hb : ∀ w ∈ ws, w.reg < 64) : ∀ w ∈ ws, vGet (putWrites r ws) w.lane w.reg = w.val := by
  induction ws generalizing r with
  | nil => simp
  | cons x ws ih =>
    obtain ⟨hbx, hb⟩ := List.forall_mem_cons.mp hb
    obtain ⟨hx, hn⟩ := List.nodup_cons.mp hn
    refine List.forall_mem_cons.mpr ⟨?_, ih hn hb⟩
    have hnot : ∀ w ∈ ws, ¬(w.lane = x.lane ∧ w.reg = x.reg) := fun w hw h =>
      hx (List.mem_map.mpr ⟨w, hw, Prod.ext h.1 h.2⟩)
    refine (vGet_putWrites_unwritten hbx hb hnot).trans ?_
    rw [vGet_vSet _ _ _ _ _ _ hbx hbx, if_pos ⟨rfl, rfl⟩]

theorem regsWith_putWrites {r : GroupRegs} {ws : List RegWrite} (hn : (ws.map fun w => (w.lane, w.reg)).Nodup)
    (hb : ∀ w ∈ ws, w.reg < 64) : RegsWith r (putWrites r ws) ws where
  made := vGet_putWrites_written hn hb
  kept _ _ hr hw := vGet_putWrites_unwritten hr hb hw
  rest := putWrites_rest r ws

theorem lstat_putFlags_congr {r r' : GroupRegs} {fs : List (Nat × Flags6)} (h : r.lstat = r'.lstat) :
    (putFlags r fs).lstat = (putFlags r' fs).lstat := by
  induction fs generalizing r r' with
  | nil => exact h
  | cons f fs ih =>
    refine ih ?_
    simp only [laneFlags]
    split
    · exact h
    · rw [h]

theorem lstat_putFlags_unflagged {r : GroupRegs} {fs : List (Nat × Flags6)} {lane : Nat} (h : ∀ x ∈ fs, x.1 ≠ lane) :
    amGet 0 (putFlags r fs).lstat lane = amGet 0 r.lstat lane := by
  induction fs generalizing r with
  | nil => rfl
  | cons f fs ih =>
    obtain ⟨hf, h⟩ := List.forall_mem_cons.mp h
    refine (ih h).trans ?_
    rw [lstat_laneFlags, if_neg fun e => hf e.symm]
    exact BitVec.or_zero

theorem lstat_putFlags_flagged {r : GroupRegs} {fs : List (Nat × Flags6)} (hn : (fs.map fun x => x.1).Nodup) :
    ∀ x ∈ fs, amGet 0 (putFlags r fs).lstat x.1 = amGet 0 r.lstat x.1 ||| x.2 := by
  induction fs generalizing r with
  | nil => simp
  | cons f fs ih =>
    obtain ⟨hf, hn⟩ := List.nodup_cons.mp hn
    refine List.forall_mem_cons.mpr ⟨?_, fun x hx => (ih hn x hx).trans ?_⟩
    · refine (lstat_putFlags_unflagged fun x hx e => hf (List.mem_map.mpr ⟨x, hx, e⟩)).trans ?_
      rw [lstat_laneFlags, if_pos rfl]
    · rw [lstat_laneFlags, if_neg fun e => hf (List.mem_map.mpr ⟨x, hx, e⟩)]
      exact congrArg (· ||| x.2) BitVec.or_zero

/-! ### Lane masks and the stable sort -/

theorem foldl_or_laneBit (ls : List Nat) (m : LaneMask) : ls.foldl (fun m i => m ||| laneBit i) m = m ||| maskOf ls := by
  induction ls generalizing m with
  | nil => simp [maskOf]
  | cons l ls ih =>
    rw [maskOf, List.foldl_cons, List.foldl_cons, ih, ih (0 ||| laneBit l), ← BitVec.or_assoc, ← BitVec.or_assoc]
    exact congrArg (· ||| laneBit l ||| maskOf ls) BitVec.or_zero.symm

theorem maskOf_cons (l : Nat) (ls : List Nat) : maskOf (l :: ls) = laneBit l ||| maskOf ls := by
  rw [maskOf, List.foldl_cons, foldl_or_laneBit]
  exact congrArg (· ||| maskOf ls) BitVec.zero_or

/-- A sort puts an element with the smallest key first. -/
theorem sortBy_head {α : Type} (key : α → Nat) {l : List α} (h : l ≠ []) :
    ∃ x rest, sortBy key l = x :: rest ∧ x ∈ l ∧ ∀ y ∈ l, key x ≤ key y := by
  induction l with
  | nil => exact absurd rfl h
  | cons x xs ih =>
    by_cases hxs : xs = []
    · subst hxs
      exact ⟨x, [], rfl, List.mem_singleton_self x, by simp⟩
    obtain ⟨y, rest, hy, hmem, hmin⟩ := ih hxs
    rw [sortBy, hy, sortBy.insertFirst]
    split
    · next hle =>
      exact ⟨x, _, rfl, List.mem_cons_self, List.forall_mem_cons.mpr ⟨le_rfl, fun z hz => hle.trans (hmin z hz)⟩⟩
    · next hle =>
      exact ⟨y, _, rfl, List.mem_cons_of_mem _ hmem, List.forall_mem_cons.mpr ⟨by omega, hmin⟩⟩

/-! ### Dies, teams, kernel clusters -/

theorem dieIs_updDie {s : State} (h : s.dies.length = 4) (d : DieNo) (f : Die → Die) :
    DieIs s (updDie s d f) d (f (dieOf s d)) := by
  constructor
  · have hd : d.toNat < s.dies.length := by omega
    simp [dieOf, updDie, hd]
  · intro e he
    have hne : d.toNat ≠ e.toNat := fun hde => he (BitVec.eq_of_toNat_eq hde.symm)
    simp [dieOf, updDie, hne]

theorem teamOf_updTeam_same {s : State} {kc core : Nat} {f : Team → Team} (hf : ∀ x, (f x).kc = x.kc ∧ (f x).core = x.core)
    {T : Team} (h : s.teams.find? (fun x => x.kc = kc ∧ x.core = core) = some T) :
    teamOf (updTeam s kc core f) kc core = f T := by
  have hT := List.find?_some h
  simp only [decide_eq_true_eq] at hT
  have hkey : ((fun x : Team => decide (x.kc = kc ∧ x.core = core)) ∘
      fun x => if x.kc = kc ∧ x.core = core then f x else x) = fun x => decide (x.kc = kc ∧ x.core = core) := by
    funext x
    by_cases hx : x.kc = kc ∧ x.core = core <;> simp [Function.comp, hx, hf]
  simp only [teamOf, updTeam, List.find?_map, hkey, h, Option.map_some, Option.getD_some, if_pos hT]

theorem groupOf_here {s : State} {g : Group} (h : GroupHere s g) : groupOf s g.kc g.core g.idx = g := by
  rw [groupOf, show s.groups.find? _ = some g from h, Option.getD_some]

/-- What a group becomes under an update that leaves its identity alone. -/
theorem groupOf_updGroup_here {s S : State} {g : Group} (h : GroupHere s g) (hS : S.groups = s.groups) {f : Group → Group}
    (hf : KeepsKey f) : groupOf (updGroup S g.kc g.core g.idx f) g.kc g.core g.idx = f g :=
  groupOf_updGroup_same hf (by rw [hS]; exact h)

theorem groupHere_updGroup {s S : State} {g : Group} (h : GroupHere s g) (hS : S.groups = s.groups) {f : Group → Group}
    (hf : KeepsKey f) :
    (updGroup S g.kc g.core g.idx f).groups.find? (fun x => x.kc = g.kc ∧ x.core = g.core ∧ x.idx = g.idx) = some (f g) := by
  rw [find_updGroup hf, hS, show s.groups.find? _ = some g from h, Option.map_some, if_pos ⟨rfl, rfl, rfl⟩]

/-! ### An acquire sees the completed swaps of its team, and changes no other thing -/

@[simp] theorem acquireSwaps_groups (s : State) (m : Member) : (acquireSwaps s m).groups = s.groups := by cases m <;> rfl
@[simp] theorem acquireSwaps_requests (s : State) (m : Member) : (acquireSwaps s m).requests = s.requests := by cases m <;> rfl
@[simp] theorem acquireSwaps_out (s : State) (m : Member) : (acquireSwaps s m).out = s.out := by cases m <;> rfl

/-! ### A member stops with a trap (R329, R330) -/

section
variable (s : State) (m : Member) (t : Trap)

@[simp] theorem stopMember_frames : (stopMember s m t).frames = s.frames ++ [frameOf s m t] := by
  cases m <;> simp only [stopMember] <;> split <;> rfl
@[simp] theorem stopMember_requests : (stopMember s m t).requests = s.requests := by
  cases m <;> simp only [stopMember] <;> split <;> rfl
@[simp] theorem stopMember_out : (stopMember s m t).out = s.out := by
  cases m <;> simp only [stopMember] <;> split <;> rfl
@[simp] theorem stopMember_mem : (stopMember s m t).mem = s.mem := by
  cases m <;> simp only [stopMember] <;> split <;> rfl
@[simp] theorem stopMember_host : (stopMember s m t).host = s.host := by
  cases m <;> simp only [stopMember] <;> split <;> rfl

end

/-- Where the cause is no consumption of poisoned data, a group's stop changes groups and frames alone. -/
theorem stopMember_only {s : State} {t : Trap} (ht : t.cause ≠ cDataPoison) (kc core idx : Nat) :
    { stopMember s (.group kc core idx) t with groups := s.groups, frames := s.frames } = s := by
  simp only [stopMember, if_neg ht]; rfl

theorem groupOf_stopMember {s : State} {kc core idx : Nat} {x : Group} (t : Trap)
    (h : s.groups.find? (fun x => x.kc = kc ∧ x.core = core ∧ x.idx = idx) = some x) :
    groupOf (stopMember s (.group kc core idx) t) kc core idx = { x with trap := some t, hold := none, stopped := none } := by
  have hkeep : KeepsKey fun g => { g with trap := some t, hold := none, stopped := none } := fun _ => ⟨rfl, rfl, rfl⟩
  simp only [stopMember]
  split <;> exact groupOf_updGroup_same hkeep h

theorem kcOf_stopMember {s : State} {id : Nat} {k : Kc} (t : Trap) (h : s.kcs.find? (fun x => x.id = id) = some k) :
    kcOf (stopMember s (.spine id) t) id =
      { k with spine := { k.spine with trap := some t, wait := none, asked := none } } := by
  simp only [stopMember]
  split <;> exact kcOf_updSpine_same h

/-- A frame names its member by what the kernel cluster holds. -/
theorem frameOf_of_kcs {s S : State} (h : S.kcs = s.kcs) (m : Member) (t : Trap) : frameOf S m t = frameOf s m t := by
  cases m <;> simp only [frameOf, kcOf_of_kcs h]

end Sys2Proof.Proofs.StateRules
end

section
/-! Completions and answers (R88, R249, R259, R260): what a flight that waits for nothing leaves, what an answer makes of
what an instruction waits for, and how the instruction goes on. -/

namespace Sys2Proof.Proofs.Answers

open Sys2Proof Sys2Proof.Machine Sys2Proof.Claims Sys2Proof.Proofs.StateRules

/-! ### Completion (R88) -/

theorem landAll_one {g : Group} {f : Flight} (hg : g.flights = [f]) (hf : f.ask = none) :
    landAll g = { landFlight g f with flights := [] } := by
  simp [landAll, landFlights, hg, hf, inFlight, flightsLeft]

theorem deliverLate_idle {s : State} {m : Member} (hf : (memberGroup s m).flights = []) : deliverLate s m = s := by
  simp only [deliverLate, hf]

theorem exec_longLatencyComplete {s : State} {g : Group} {f : Flight} (h : GroupHere s g) (hg : g.flights = [f])
    (hf : f.ask = none) :
    exec (.longLatencyComplete (.group g.kc g.core g.idx)) s = .next (updGroup s g.kc g.core g.idx landAll) ∧
      groupOf (updGroup s g.kc g.core g.idx landAll) g.kc g.core g.idx = { landFlight g f with flights := [] } := by
  have hland := (groupOf_updGroup_here h rfl keepsKey_landAll).trans (landAll_one hg hf)
  have hidle : (memberGroup (updGroup s g.kc g.core g.idx landAll) (.group g.kc g.core g.idx)).flights = [] := by
    rw [memberGroup, hland]
  exact ⟨congrArg Host.Outcome.next (deliverLate_idle hidle), hland⟩

/-- The registers that a completed flight without g destinations leaves. -/
theorem flightEffect_v {r : GroupRegs} {f : Flight} (hgw : f.gwrites = []) :
    (flightEffect r f).v = (putWrites r f.writes).v := by
  obtain ⟨hv, -⟩ := regs_of_lstat (putFlags_rest (putWrites r f.writes) f.flags)
  rw [flightEffect, hgw]
  exact hv

theorem flightEffect_lstat {r : GroupRegs} {f : Flight} (hgw : f.gwrites = []) :
    (flightEffect r f).lstat = (putFlags r f.flags).lstat := by
  obtain ⟨-, -, hlstat, -⟩ := regs_of_rest (putWrites_rest r f.writes)
  rw [flightEffect, hgw]
  exact lstat_putFlags_congr hlstat

theorem flightEffect_rest {r : GroupRegs} {f : Flight} (hgw : f.gwrites = []) :
    { flightEffect r f with v := r.v, lstat := r.lstat } = r := by
  have hflags := congrArg (fun x : GroupRegs => { x with v := r.v, lstat := r.lstat })
    (putFlags_rest (putWrites r f.writes) f.flags)
  have hwrites := congrArg (fun x : GroupRegs => { x with lstat := r.lstat }) (putWrites_rest r f.writes)
  rw [flightEffect, hgw]
  exact hflags.trans hwrites

/-- The oldest flight has nothing to deliver while it waits, or when it has met no late cause. -/
theorem deliverLate_quiet {s : State} {m : Member} {f : Flight} (hf : (memberGroup s m).flights = [f])
    (h : ∀ a, f.ask = some a → a.waiting ≠ []) : deliverLate s m = s := by
  simp only [deliverLate, hf]
  cases hask : f.ask with
  | none => rfl
  | some a => simp [h a hask]

/-- The group that a late cause rolls back (R91, R186, R249): as it was before the instruction, but for YCOUNT and what
the completed lanes of an atomic or a PAGE instruction keep. -/
def rolledBack (f : Flight) (a : Asked) (g : Group) : Group :=
  { g with
    regs := putWrites f.ckpt (keptWrites f a), flights := []
    poison := unmark f.ckptPoison (writeMarks (keptWrites f a))
    ycount := f.ckptYcount, crit := f.ckptCrit, deadline := f.ckptDeadline }

theorem keepsKey_rolledBack (f : Flight) (a : Asked) : KeepsKey (rolledBack f a) := fun _ => ⟨rfl, rfl, rfl⟩

theorem deliverLate_traps {s : State} {m : Member} {f : Flight} {a : Asked} (hf : (memberGroup s m).flights = [f])
    (hask : f.ask = some a) (hw : a.waiting = []) (hl : a.late ≠ []) :
    deliverLate s m = stopMember (updMember s m (rolledBack f a)) m (lateTrap f.issue a) := by
  simp only [deliverLate, hf, hask, hw, List.isEmpty_nil, List.isEmpty_eq_false_iff.mpr hl, Bool.not_false, Bool.and_self,
    if_true]
  rfl

/-! ### The end of run-ahead (R351) -/

/-- The group that run-ahead goes back to. -/
def backTo (ra : RunAhead) (g : Group) : Group :=
  { g with regs := ra.shadow, poison := ra.poison, runAhead := none, flights := [] }

theorem keepsKey_backTo (ra : RunAhead) : KeepsKey (backTo ra) := fun _ => ⟨rfl, rfl, rfl⟩

theorem exec_runAhead {s : State} {g : Group} {ra : RunAhead} (h : GroupHere s g) (hra : g.runAhead = some ra) :
    exec (.runAhead (.group g.kc g.core g.idx)) s =
      .next (stopMember (updGroup s g.kc g.core g.idx (backTo ra)) (.group g.kc g.core g.idx) ra.trap) := by
  refine congrArg Host.Outcome.next ?_
  simp only [endRunAhead, memberGroup, groupOf_here h, hra]
  rfl

/-! ### What the lanes of a request get (R63, R246, R257, R361) -/

theorem natToBytes_mod (n v : Nat) : natToBytes n (v % 2 ^ (8 * n)) = natToBytes n v := by
  induction n generalizing v with
  | zero => rfl
  | succ n ih =>
    have hpow : 2 ^ (8 * (n + 1)) = 256 * 2 ^ (8 * n) := by rw [Nat.mul_succ, Nat.pow_add]; ring
    have hbyte : BitVec.ofNat 8 (v % 2 ^ (8 * (n + 1))) = BitVec.ofNat 8 v := by
      apply BitVec.eq_of_toNat_eq
      simp only [BitVec.toNat_ofNat]
      exact Nat.mod_mod_of_dvd v ⟨2 ^ (8 * n), hpow⟩
    rw [natToBytes, natToBytes, hbyte, hpow, Nat.mod_mul_right_div_self, ih]

theorem bytesToNat_lt (bytes : List Byte) : bytesToNat bytes < 2 ^ (8 * bytes.length) := by
  induction bytes with
  | nil => simp [bytesToNat]
  | cons b rest ih =>
    have hb := b.isLt
    rw [bytesToNat, List.length_cons, Nat.mul_succ, Nat.pow_add]
    omega

/-- A number read as a two's complement value of n bits. -/
theorem sextNat_eq_toInt {n : Nat} (hn : 0 < n) (v : Nat) : sextNat n v = (BitVec.ofNat n v).toInt := by
  obtain ⟨k, rfl⟩ : ∃ k, n = k + 1 := ⟨n - 1, by omega⟩
  simp only [sextNat, BitVec.toInt_eq_toNat_cond, BitVec.toNat_ofNat, Nat.add_sub_cancel, Nat.pow_succ]
  by_cases h : v % (2 ^ k * 2) < 2 ^ k
  · rw [if_pos h, if_pos (by omega)]; push_cast; rfl
  · rw [if_neg h, if_neg (by omega)]; push_cast; rfl

/-- The widths of an atomic's operands: 64 bits or 32 (R257). -/
def atomBits (wide : Bool) : Nat := if wide then 64 else 32

theorem fmtW_atomBits (wide : Bool) : fmtW (atomBits wide) = if wide then fmtF64 else fmtF32 := by cases wide <;> rfl

theorem sMinMax_toNat {n : Nat} (hn : 0 < n) (isMax : Bool) {a b : Nat} (ha : a < 2 ^ n) (hb : b < 2 ^ n) :
    sMinMax n isMax a b % 2 ^ n =
      (if (BitVec.ofNat n a).toInt ≤ (BitVec.ofNat n b).toInt then (if isMax then BitVec.ofNat n b else BitVec.ofNat n a)
       else if isMax then BitVec.ofNat n a else BitVec.ofNat n b).toNat := by
  have hmod : ∀ {x}, x < 2 ^ n → (BitVec.ofNat n x).toNat = x := fun hx => (BitVec.toNat_ofNat ..).trans (Nat.mod_eq_of_lt hx)
  simp only [sMinMax, sextNat_eq_toInt hn]
  rcases lt_trichotomy (BitVec.ofNat n a).toInt (BitVec.ofNat n b).toInt with h | h | h
  · cases isMax <;> simp [h, h.le]
  · have hab : a = b := by rw [← hmod ha, ← hmod hb, BitVec.eq_of_toInt_eq h]
    cases isMax <;> simp [hab]
  · cases isMax <;> simp [h.not_gt, h.not_ge]

/-- A combining op of the model is that of R257, within the operand's width. -/
theorem atomComb_mod {op : Nat} (hop : op < 6) (wide : Bool) {old b : Nat} (ho : old < 2 ^ atomBits wide)
    (hb : b < 2 ^ atomBits wide) :
    atomComb op wide old b % 2 ^ atomBits wide =
      (atomOf op (BitVec.ofNat (atomBits wide) old) (BitVec.ofNat (atomBits wide) b)).toNat := by
  have hn : 0 < atomBits wide := by cases wide <;> decide
  have hbits : (if wide = true then 64 else 32) = atomBits wide := rfl
  have hold : (BitVec.ofNat (atomBits wide) old).toNat = old := BitVec.toNat_ofNat .. |>.trans (Nat.mod_eq_of_lt ho)
  have hopd : (BitVec.ofNat (atomBits wide) b).toNat = b := BitVec.toNat_ofNat .. |>.trans (Nat.mod_eq_of_lt hb)
  match op, hop with
  | 0, _ => simp [atomComb, atomOf, addWrap, hbits]
  | 1, _ => simp [atomComb, atomOf, hold, hopd, fmtW_atomBits]
  | 2, _ => simp [atomComb, atomOf, hbits, sMinMax_toNat hn _ ho hb]
  | 3, _ => simp [atomComb, atomOf, hbits, sMinMax_toNat hn _ ho hb]
  | 4, _ => simp [atomComb, atomOf, hold, hopd, Nat.mod_eq_of_lt (Nat.and_lt_two_pow _ hb)]
  | 5, _ => simp [atomComb, atomOf, hold, hopd, Nat.mod_eq_of_lt (Nat.or_lt_two_pow ho hb)]

/-- What each lane of an answered request gets is what the model's answer gives it. -/
theorem answerLanes_of_gets {r : Request} {bytes : List Byte} {got : List (Nat × Nat × List Byte)} (h : Gets r bytes got) :
    answerLanes r bytes = got := by
  obtain ⟨id, who, lanes, off, dst, addr, scope, asid, target, kind, later, plane⟩ := r
  cases kind with
  | atom op wide b new =>
    obtain ⟨hlen, hops, rfl⟩ := h
    have hbits : 8 * (if wide then 8 else 4) = atomBits wide := by cases wide <;> rfl
    have hold : bytesToNat bytes < 2 ^ atomBits wide := by rw [← hbits, ← hlen]; exact bytesToNat_lt bytes
    refine List.map_congr_left fun l hl => ?_
    have hopd := hops l.1 (List.fst_mem_of_mem_zipIdx hl)
    rw [hbits] at hopd ⊢
    by_cases hfirst : l.2 = 0 ∨ 6 ≤ op.toNat
    · simp [hfirst]
    · have hcomb : op.toNat < 6 := by omega
      simp only [Bool.or_eq_true, decide_eq_true_eq, if_neg hfirst]
      rw [← atomComb_mod hcomb wide hold hopd, ← hbits, natToBytes_mod]
  | _ => exact h.symm

theorem isAtomic_eq (k : ReqKind) : isAtomic k = isAtom k := by cases k <;> rfl

theorem answerCause_eq (r : Request) (ans : Answer) : answerCause r ans = failure (isAtomic r.kind) ans := by
  rw [isAtomic_eq]
  cases ans with
  | append c => cases c <;> rfl
  | _ => rfl

/-- An answer with a late cause brings no data. -/
theorem gotData_of_cause {r : Request} {ans : Answer} {b : Byte} (h : answerCause r ans = some b) : gotData ans = false := by
  cases ans with
  | data bytes => cases h
  | _ => rfl

/-! ### What an instruction waits for, after an answer (R249) -/

/-- The state without a request that has been answered. -/
def unasked (s : State) (r : Request) : State := { s with requests := s.requests.filter fun q => q.id ≠ r.id }

theorem unasked_requests {s : State} {r q : Request} (h : q ∈ (unasked s r).requests) : q.id ≠ r.id := by
  simpa using (List.mem_filter.mp h).2

/-- The lanes of a request. -/
def lanesIn (r : Request) : List Nat := r.lanes.map fun l => l.1

/-- The one request has been answered: its lanes have got their bytes. -/
def answered (a : Asked) (r : Request) (bytes : List Byte) : Asked :=
  { a with waiting := [], got := a.got ++ answerLanes r bytes }

/-- Lanes have completed, but those of a load, which completes as a whole. -/
def completed (r : Request) (a : Asked) (ls : List Nat) : Asked :=
  { a with undone := if isLoad r.kind then a.undone else a.undone &&& ~~~maskOf ls }

/-- The one request has been answered well, and its lanes have completed. -/
def succeeded (a : Asked) (r : Request) (bytes : List Byte) : Asked := completed r (answered a r bytes) (lanesIn r)

/-- The one request has failed, with cause b in each of its lanes. -/
def failed (a : Asked) (r : Request) (ans : Answer) (b : Byte) : Asked :=
  { a with
    waiting := [], refused := a.refused ++ refusedBy r ans
    late := (r.lanes.map fun l => (l.1, b, r.addr)), undone := a.undone ||| maskOf (lanesIn r) }

theorem refusedBy_of_ne {r : Request} {ans : Answer} (h : ans ≠ .unsupported) : refusedBy r ans = [] := by
  cases ans with
  | unsupported => exact absurd rfl h
  | _ => rfl

theorem clearAtomc_of_ne {s : State} {r : Request} {ans : Answer} (h : ans ≠ .unsupported) : clearAtomc s r ans = s := by
  rw [clearAtomc, refusedBy_of_ne h, List.foldl_nil]

/-- A refused AtomicOp changes the host's windows and nothing else. -/
theorem clearAtomc_only (s : State) (r : Request) (ans : Answer) :
    clearAtomc s r ans = { s with host := (clearAtomc s r ans).host } := by
  unfold clearAtomc
  generalize refusedBy r ans = ws
  induction ws generalizing s with
  | nil => rfl
  | cons w ws ih => exact ih _

section
variable (s : State) (r : Request) (ans : Answer)

@[simp] theorem clearAtomc_groups : (clearAtomc s r ans).groups = s.groups := by rw [clearAtomc_only]
@[simp] theorem clearAtomc_kcs : (clearAtomc s r ans).kcs = s.kcs := by rw [clearAtomc_only]
@[simp] theorem clearAtomc_frames : (clearAtomc s r ans).frames = s.frames := by rw [clearAtomc_only]
@[simp] theorem clearAtomc_requests : (clearAtomc s r ans).requests = s.requests := by rw [clearAtomc_only]
@[simp] theorem clearAtomc_out : (clearAtomc s r ans).out = s.out := by rw [clearAtomc_only]
@[simp] theorem clearAtomc_mem : (clearAtomc s r ans).mem = s.mem := by rw [clearAtomc_only]

end

section
variable {a : Asked} {r : Request} (hw : a.waiting = [r.id])
include hw

theorem takeAnswer_data (bytes : List Byte) :
    takeAnswer a r (.data bytes) = answered a r bytes := by
  simp [takeAnswer, refusedBy_of_ne, hw, answered]

theorem takeAnswer_failed (hl : a.late = []) {ans : Answer} {b : Byte} (hb : answerCause r ans = some b) :
    takeAnswer a r ans = failed a r ans b := by
  cases ans with
  | data bytes => cases hb
  | _ => simp [takeAnswer, hb, hw, hl, failed, lanesIn]

end

theorem doneLanes_all {s : State} {a : Asked} {r : Request} (hw : a.waiting = []) (hl : a.late = []) :
    doneLanes s a r = lanesIn r := by
  simp [doneLanes, hw, hl, lanesIn]

theorem completed_cons (r : Request) (a : Asked) (l : Nat) (ls : List Nat) :
    completed r (completed r a [l]) ls = completed r a (l :: ls) := by
  have hone : maskOf [l] = laneBit l := (maskOf_cons l []).trans BitVec.or_zero
  by_cases hload : isLoad r.kind <;> simp [completed, hload, hone, maskOf_cons, BitVec.not_or, BitVec.and_assoc]

/-- A lane of an access that holds no part of a store back completes without an effect of its own. -/
theorem completeLane_quiet {m : Member} {r : Request} {s : State} {a : Asked} (hp : a.pend = []) (l : Nat) :
    completeLane m r (s, a) l = (s, completed r a [l]) := by
  have hone : maskOf [l] = laneBit l := (maskOf_cons l []).trans BitVec.or_zero
  simp only [completeLane, hp, completed, hone]
  rfl

theorem completeLanes_quiet {m : Member} {r : Request} {s : State} {a : Asked} (hp : a.pend = []) (ls : List Nat) :
    ls.foldl (completeLane m r) (s, a) = (s, completed r a ls) := by
  induction ls generalizing a with
  | nil => simp [completed, show a.undone &&& ~~~maskOf [] = a.undone from BitVec.and_allOnes]
  | cons l ls ih => rw [List.foldl_cons, completeLane_quiet hp, ih (a := completed r a [l]) hp, completed_cons]

/-! ### The next request of a chain (R259, R260) -/

/-- The request of the next lane of a chain. -/
def followOf (s : State) (r : Request) (l : Nat) (k : ReqKind) (rest : List (Nat × ReqKind)) : Request :=
  { r with id := s.nextId, lanes := [(l, 0)], kind := k, later := rest }

theorem followUp_last {s : State} {a : Asked} {r : Request} (h : r.later = []) : followUp s a r = none := by
  simp only [followUp, h]

theorem followUp_next {s : State} {a : Asked} {r : Request} {l : Nat} {k : ReqKind} {rest : List (Nat × ReqKind)}
    (h : r.later = (l, k) :: rest) (hr : ∀ w off, r.target = .window w off → w ∉ a.refused) :
    followUp s a r = some (followOf s r l k rest) := by
  simp only [followUp, h]
  cases ht : r.target with
  | window w off => simp [hr w off ht, followOf, ht]
  | fabric d e off => simp [followOf, ht]

/-- A window that has refused one of the instruction's requests is sent no further one. -/
theorem followUp_refused {s : State} {a : Asked} {r : Request} {w off : Nat} (ht : r.target = .window w off)
    (hw : w ∈ a.refused) : followUp s a r = none := by
  simp only [followUp, ht]
  split
  · rfl
  · simp [hw]

/-! ### What an answer makes of a member's access -/

section
variable {s : State} {m : Member} {r : Request} {a : Asked} (hw : a.waiting = [r.id]) (hl : a.late = []) (hp : a.pend = [])
include hw hl hp

theorem answerMember_data (bytes : List Byte) :
    answerMember s m r (.data bytes) a =
      sendFollow s (succeeded a r bytes) (followUp s (succeeded a r bytes) r) := by
  have hdone : doneLanes s (answered a r bytes) r = lanesIn r := doneLanes_all rfl hl
  have hnext : followUp s (answered a r bytes) r = followUp s (succeeded a r bytes) r := rfl
  simp only [answerMember, takeAnswer_data hw, answerCause, Option.isNone_none, if_true, hdone, hnext]
  cases followUp s (succeeded a r bytes) r with
  | none => exact completeLanes_quiet (a := answered a r bytes) hp (lanesIn r)
  | some q => exact completeLanes_quiet (a := (sendFollow s (answered a r bytes) (some q)).2) hp (lanesIn r)

omit hp

theorem answerMember_failed {ans : Answer} {b : Byte} (hb : answerCause r ans = some b) :
    answerMember s m r ans a = sendFollow s (failed a r ans b) (followUp s (failed a r ans b) r) := by
  simp only [answerMember, takeAnswer_failed hw hl hb, hb, Option.isNone_some, Bool.false_eq_true, if_false, List.foldl_nil]

end

theorem exec_answer {s t : State} {id : Nat} {ans : Answer} (h : answer s id ans = t) :
    exec (.memoryResponse (.answer id ans)) s = .next t := congrArg Host.Outcome.next h

/-- How a member goes on when an answer has left the state S and its access waiting for b. -/
def goesOn (m : Member) (id : Nat) (ans : Answer) (S : State) (b : Asked) : State :=
  match m with
  | .spine kc =>
    (match (kcOf S kc).spine.asked with
     | some (i, _) => if b.waiting.isEmpty && b.late.isEmpty then finishSpine S kc i b else endSpine S i b
     | none => S)
  | .group .. =>
    let S := if acquires (askedWord S m id) && gotData ans then acquireSwaps S m else S
    deliverLate (updMember S m fun g => setAsked g id b) m

theorem answer_member {s S : State} {r : Request} {m : Member} {a b : Asked} {ans : Answer}
    (hsent : s.requests.find? (fun q => q.id = r.id) = some r) (hwho : r.who = some m)
    (hasked : askedOf (clearAtomc (unasked s r) r ans) m r.id = some a)
    (hb : answerMember (clearAtomc (unasked s r) r ans) m r ans a = (S, b)) :
    answer s r.id ans = goesOn m r.id ans S b := by
  unfold unasked at hasked hb
  simp only [answer, hsent, hwho, hasked, hb]
  rfl

/-! ### An answer to a group (R88, R249) -/

/-- The member of a group. -/
def memberOf (g : Group) : Member := .group g.kc g.core g.idx

section
variable {s : State} {r : Request} {g : Group} {f : Flight} {a : Asked} (h : Awaits s r g f a)
include h

theorem askedOf_awaits {S : State} (hS : S.groups = s.groups) : askedOf S (memberOf g) r.id = some a := by
  simp [askedOf, memberOf, memberGroup, groupOf_of_groups hS, groupOf_here h.here, h.flights, h.ask, h.waiting]

theorem askedWord_awaits {S : State} (hS : S.groups = s.groups) : askedWord S (memberOf g) r.id = f.issue.word := by
  simp [askedWord, memberOf, memberGroup, groupOf_of_groups hS, groupOf_here h.here, h.flights, h.ask, h.waiting]

theorem setAsked_awaits (b : Asked) : setAsked g r.id b = { g with flights := [settleFlight { f with ask := some b }] } := by
  simp [setAsked, h.flights, h.ask, h.waiting]

/-- The group goes on with what its flight holds now; where an acquire has been answered, it acquires. -/
theorem answer_group (ans : Answer) {S : State} {b : Asked}
    (hb : answerMember (clearAtomc (unasked s r) r ans) (memberOf g) r ans a = (S, b)) (hS : S.groups = s.groups) :
    answer s r.id ans =
      deliverLate (updGroup (accessFrom S f.issue (acquires f.issue.word && gotData ans)) g.kc g.core g.idx
        fun g => setAsked g r.id b) (memberOf g) := by
  have hclear : (clearAtomc (unasked s r) r ans).groups = s.groups := clearAtomc_groups _ _ _
  rw [answer_member h.sent h.who (askedOf_awaits h hclear) hb, goesOn, ← memberOf, askedWord_awaits h hS, accessFrom, h.issuer]
  rfl

end

@[simp] theorem accessFrom_groups (s : State) (c : Issue) (acq : Bool) : (accessFrom s c acq).groups = s.groups := by
  cases acq <;> simp [accessFrom]
@[simp] theorem accessFrom_requests (s : State) (c : Issue) (acq : Bool) : (accessFrom s c acq).requests = s.requests := by
  cases acq <;> simp [accessFrom]
@[simp] theorem accessFrom_out (s : State) (c : Issue) (acq : Bool) : (accessFrom s c acq).out = s.out := by
  cases acq <;> simp [accessFrom]

/-- An acquire changes teams alone, whatever has been sent. -/
theorem accessFrom_sent (s : State) (c : Issue) (acq : Bool) : ∃ teams, ∀ requests out nextId,
    accessFrom { s with requests := requests, out := out, nextId := nextId } c acq =
      { s with teams := teams, requests := requests, out := out, nextId := nextId } := by
  cases acq with
  | false => exact ⟨s.teams, fun _ _ _ => rfl⟩
  | true =>
    cases hwho : c.who with
    | spine kc => exact ⟨s.teams, fun _ _ _ => by simp only [accessFrom, hwho]; rfl⟩
    | group kc core idx => exact ⟨(acquireSwaps s c.who).teams, fun _ _ _ => by simp only [accessFrom, hwho]; rfl⟩

/-- The state in which the flight of a group that waited for r holds b. -/
def holding (S : State) (g : Group) (r : Request) (b : Asked) : State :=
  updGroup S g.kc g.core g.idx fun g => setAsked g r.id b

/-- The state in which the group has then been rolled back and has trapped late. -/
def trapped (S : State) (g : Group) (r : Request) (f : Flight) (b : Asked) : State :=
  stopMember (updGroup (holding S g r b) g.kc g.core g.idx (rolledBack f b)) (memberOf g) (lateTrap f.issue b)

section
variable (S : State) (g : Group) (r : Request) (f : Flight) (b : Asked)

theorem trapped_frames : (trapped S g r f b).frames = S.frames ++ [frameOf S (memberOf g) (lateTrap f.issue b)] :=
  stopMember_frames ..
theorem trapped_requests : (trapped S g r f b).requests = S.requests := stopMember_requests ..
theorem trapped_out : (trapped S g r f b).out = S.out := stopMember_out ..
theorem trapped_mem : (trapped S g r f b).mem = S.mem := stopMember_mem ..
theorem trapped_host : (trapped S g r f b).host = S.host := stopMember_host ..

end

theorem keepsKey_setAsked (id : Nat) (b : Asked) : KeepsKey fun g => setAsked g id b := fun _ => ⟨rfl, rfl, rfl⟩

theorem groupOf_holding_other {s S : State} {g : Group} (r : Request) (b : Asked) (hS : S.groups = s.groups) {kc core idx : Nat}
    (hne : Member.group kc core idx ≠ .group g.kc g.core g.idx) :
    groupOf (holding S g r b) kc core idx = groupOf s kc core idx := by
  rw [holding, groupOf_updGroup_other (keepsKey_setAsked _ _) fun e => hne (by rw [e.1, e.2.1, e.2.2]), groupOf_of_groups hS]

section
variable {s S : State} {r : Request} {g : Group} {f : Flight} {a : Asked} (h : Awaits s r g f a)
include h

theorem groupOf_holding (hS : S.groups = s.groups) (b : Asked) :
    groupOf (holding S g r b) g.kc g.core g.idx = { g with flights := [settleFlight { f with ask := some b }] } := by
  rw [holding, groupOf_updGroup_here h.here hS (keepsKey_setAsked _ _), setAsked_awaits h]

theorem groupOf_trapped (hS : S.groups = s.groups) (b : Asked) : groupOf (trapped S g r f b) g.kc g.core g.idx =
    { rolledBack f b (setAsked g r.id b) with trap := some (lateTrap f.issue b), hold := none, stopped := none } := by
  have hheld : GroupHere (holding S g r b) (setAsked g r.id b) := groupHere_updGroup h.here hS (keepsKey_setAsked _ _)
  exact groupOf_stopMember _ (groupHere_updGroup hheld rfl (keepsKey_rolledBack f b))

/-- An answer that meets no late cause, or that another request follows, only changes what the flight holds. -/
theorem answer_group_goes {ans : Answer} {b : Asked} (hb : answerMember (clearAtomc (unasked s r) r ans) (memberOf g) r ans a = (S, b))
    (hS : S.groups = s.groups) (hq : b.late = [] ∨ b.waiting ≠ []) :
    answer s r.id ans = holding (accessFrom S f.issue (acquires f.issue.word && gotData ans)) g r b := by
  rw [answer_group h ans hb hS]
  refine deliverLate_quiet (f := settleFlight { f with ask := some b })
    (congrArg Group.flights (groupOf_holding h (by simp [hS]) b)) fun x hx => ?_
  by_cases hw : b.waiting = []
  · have hl : b.late = [] := hq.resolve_right fun hne => hne hw
    simp [settleFlight, hw, hl] at hx
  · have hbx : b = x := by simpa [settleFlight, hw] using hx
    exact hbx ▸ hw

/-- An answer after which a late cause is met and no request waits rolls the group back. -/
theorem answer_group_traps {ans : Answer} {b : Asked} (hb : answerMember (clearAtomc (unasked s r) r ans) (memberOf g) r ans a = (S, b))
    (hS : S.groups = s.groups) (hans : gotData ans = false) (hw : b.waiting = []) (hl : b.late ≠ []) :
    answer s r.id ans = trapped S g r f b := by
  have hflight : settleFlight { f with ask := some b } = { f with ask := some b } := by simp [settleFlight, hw, hl]
  rw [answer_group h ans hb hS, hans, Bool.and_false]
  have hone := congrArg Group.flights (groupOf_holding h hS b)
  rw [hflight] at hone
  exact deliverLate_traps (f := { f with ask := some b }) hone rfl hw hl

end

/-! ### The next request of a chain, seen from outside -/

theorem reqMsg_followOf (s : State) (r : Request) (l : Nat) (k : ReqKind) (rest : List (Nat × ReqKind)) :
    reqMsg s (followOf s r l k rest) = wireOf s r.target k r.scope := by
  obtain ⟨id, who, lanes, off, dst, addr, scope, asid, target, kind, later, plane⟩ := r
  cases target <;> rfl

theorem sendReq_unasked (s : State) (r q : Request) : sendReq (unasked s r) q false =
    { s with
      requests := (unasked s r).requests ++ [{ q with plane := pickPlane (unasked s r) q.target }]
      out := reqMsg (unasked s r) q :: s.out
      nextId := s.nextId + 1 } := rfl

/-- A chain's next request has left, and the flight waits for it. -/
theorem follows_holding {s : State} {r : Request} {g : Group} {f : Flight} {a : Asked} (h : Awaits s r g f a) (l : Nat)
    (k : ReqKind) (rest : List (Nat × ReqKind)) (acq : Bool) {b : Asked} (hb : b.waiting ≠ []) :
    Follows s (holding (accessFrom (sendReq (unasked s r) (followOf (unasked s r) r l k rest) false) f.issue acq) g r b)
      r l k rest g { f with ask := some b } acq := by
  refine ⟨?_, ?_, ?_, ?_⟩
  · have hflight : settleFlight { f with ask := some b } = { f with ask := some b } := by simp [settleFlight, hb]
    have hS : (sendReq (unasked s r) (followOf (unasked s r) r l k rest) false).groups = s.groups := rfl
    rw [groupOf_holding h ((accessFrom_groups ..).trans hS), hflight]
  · obtain ⟨teams, hteams⟩ := accessFrom_sent s f.issue acq
    have hs := hteams s.requests s.out s.nextId
    refine Eq.trans ?_ hs.symm
    rw [sendReq_unasked, hteams]
    rfl
  · have hout : (sendReq (unasked s r) (followOf (unasked s r) r l k rest) false).out =
        reqMsg (unasked s r) (followOf (unasked s r) r l k rest) :: s.out := rfl
    rw [holding, updGroup_out, accessFrom_out, hout, reqMsg_followOf]
    rfl
  · rw [holding, updGroup_requests, accessFrom_requests]
    exact ⟨_, rfl, rfl⟩

/-- What an atomic's flight holds when one request of its chain has been answered well. -/
theorem succeeded_atomic {r : Request} {a : Asked} {bytes : List Byte} {got : List (Nat × Nat × List Byte)} {n : Nat}
    (hr : isAtomic r.kind = true) (hgets : Gets r bytes got) :
    { succeeded a r bytes with waiting := [n] } =
      { a with waiting := [n], got := a.got ++ got, undone := a.undone &&& ~~~maskOf (r.lanes.map fun l => l.1) } := by
  have hload : isLoad r.kind = false := by
    cases hk : r.kind with
    | atom => rfl
    | _ => simp [hk, isAtomic] at hr
  simp [succeeded, completed, answered, hload, answerLanes_of_gets hgets, lanesIn]

/-- What a chain's flight holds when one request of it has failed, other than by a refused AtomicOp. -/
theorem failed_chain {r : Request} {a : Asked} {ans : Answer} {cause : Byte} {n : Nat} (hans : ans ≠ .unsupported) :
    { failed a r ans cause with waiting := [n] } =
      { a with
        waiting := [n], late := r.lanes.map fun l => (l.1, cause, r.addr)
        undone := a.undone ||| maskOf (r.lanes.map fun l => l.1) } := by
  simp [failed, refusedBy_of_ne hans, lanesIn]

/-- The one answer that an access waited for has come, and its flight waits no more. -/
theorem answers_holding {s : State} {r : Request} {g : Group} {f : Flight} {a : Asked} (h : Awaits s r g f a) {bytes : List Byte}
    {got : List (Nat × Nat × List Byte)} (hgets : Gets r bytes got) :
    Answers s (holding (accessFrom (unasked s r) f.issue (acquires f.issue.word && true)) g r (succeeded a r bytes)) r g f
      { f with ask := none, writes := f.writes ++ loadedWrites { a with got := a.got ++ got } } := by
  obtain ⟨teams, hteams⟩ := accessFrom_sent s f.issue (acquires f.issue.word)
  have hs := hteams s.requests s.out s.nextId
  have hr : accessFrom (unasked s r) f.issue (acquires f.issue.word && true) = { unasked s r with teams := teams } := by
    rw [Bool.and_true]; exact hteams ..
  rw [hr]
  refine ⟨hs.symm, rfl, ?_, fun kc core idx => groupOf_holding_other r _ rfl⟩
  rw [groupOf_holding (S := { unasked s r with teams := teams }) h rfl]
  simp [settleFlight, succeeded, completed, answered, h.clean.1, loadedWrites, gotBytes, answerLanes_of_gets hgets]

/-! ### A late cause (R249) -/

theorem lateFirst_failed {r : Request} (hlanes : r.lanes ≠ []) (a : Asked) (ans : Answer) (b : Byte) :
    ∃ l ∈ r.lanes, lateFirst (failed a r ans b) = some (l.1, b, r.addr) ∧ ∀ q ∈ r.lanes, l.1 ≤ q.1 := by
  have hne : (failed a r ans b).late ≠ [] := by simp [failed, hlanes]
  obtain ⟨x, rest, hsort, hx, hmin⟩ := sortBy_head (fun l => l.1) hne
  obtain ⟨l, hl, rfl⟩ := List.mem_map.mp hx
  refine ⟨l, hl, by rw [lateFirst, hsort]; rfl, fun q hq => ?_⟩
  exact hmin _ (List.mem_map.mpr ⟨q, hq, rfl⟩)

section
variable {r : Request} (hlanes : r.lanes ≠ []) (c : Issue) (a : Asked) (ans : Answer) (b : Byte)
include hlanes

theorem lateRaise_failed : lateRaise (failed a r ans b) =
    { cause := b, late := true, lanes := a.undone ||| maskOf (lanesIn r), addr := r.addr } := by
  obtain ⟨l, -, hfirst, -⟩ := lateFirst_failed hlanes a ans b
  simp only [lateRaise, hfirst]
  rfl

theorem lateTrap_failed :
    (let tr := lateTrap c (failed a r ans b)
     tr.cause = b ∧ tr.late = true ∧ tr.pc = c.pc ∧ tr.addr = BitVec.ofNat 64 r.addr) := by
  simp only [lateTrap, lateRaise_failed hlanes]
  split <;> exact ⟨rfl, rfl, rfl, rfl⟩

theorem lateTrap_failed_lanes (hc : isSpine c.who = false) :
    (let tr := lateTrap c (failed a r ans b)
     tr.lanes = a.undone ||| maskOf (lanesIn r) ∧ ∃ l ∈ r.lanes, tr.lane = BitVec.ofNat 6 l.1 ∧ ∀ q ∈ r.lanes, l.1 ≤ q.1) := by
  obtain ⟨l, hl, hfirst, hmin⟩ := lateFirst_failed hlanes a ans b
  simp only [lateTrap, lateRaise_failed hlanes, hc, hfirst, trapOf]
  exact ⟨rfl, l, hl, rfl, hmin⟩

end

/-- A failing answer that no request follows makes the group trap late. -/
theorem answer_group_fails {s : State} {r : Request} {g : Group} {f : Flight} {a : Asked} (h : Awaits s r g f a) {ans : Answer}
    {cause : Byte} (hcause : answerCause r ans = some cause)
    (hlast : followUp (clearAtomc (unasked s r) r ans) (failed a r ans cause) r = none) :
    answer s r.id ans = trapped (clearAtomc (unasked s r) r ans) g r f (failed a r ans cause) := by
  have hclear : (clearAtomc (unasked s r) r ans).groups = s.groups := clearAtomc_groups _ _ _
  refine answer_group_traps h ?_ hclear (gotData_of_cause hcause) rfl ?_
  · rw [answerMember_failed h.waiting h.clean.1 hcause, hlast]; rfl
  · simp [failed, h.lanes]

/-- So answered, the group has trapped late as R249 has it. -/
theorem trapsLate_of_fails {s : State} {r : Request} {g : Group} {f : Flight} {a : Asked} (h : Awaits s r g f a) {ans : Answer}
    {cause : Byte} (hn : ((keptWrites f a).map fun w => (w.lane, w.reg)).Nodup) (hb : ∀ w ∈ keptWrites f a, w.reg < 64) :
    TrapsLate s (trapped (clearAtomc (unasked s r) r ans) g r f (failed a r ans cause)) r g f a cause := by
  have hgroups : (clearAtomc (unasked s r) r ans).groups = s.groups := clearAtomc_groups _ _ _
  have hkcs : (clearAtomc (unasked s r) r ans).kcs = s.kcs := clearAtomc_kcs _ _ _
  have hframes : (clearAtomc (unasked s r) r ans).frames = s.frames := clearAtomc_frames _ _ _
  obtain ⟨hc, hl, hp, ha⟩ := lateTrap_failed h.lanes f.issue a ans cause
  obtain ⟨hm, hlane⟩ := lateTrap_failed_lanes h.lanes f.issue a ans cause (by rw [h.issuer]; rfl)
  refine ⟨fun q hq => ?_, lateTrap f.issue (failed a r ans cause), ?_⟩
  · rw [trapped_requests] at hq
    exact unasked_requests (clearAtomc_requests (unasked s r) r ans ▸ hq)
  · rw [groupOf_trapped h hgroups]
    refine ⟨rfl, hc, hl, hp, ha, hm, hlane, regsWith_putWrites hn hb, rfl, rfl, rfl, ?_⟩
    rw [trapped_frames, hframes, frameOf_of_kcs hkcs]
    rfl

/-- The refusing window loses ATOMC (R260), and no other changes. -/
theorem windows_clearAtomc {s : State} {r : Request} {w off : Nat} (hr : isAtomic r.kind = true) (ht : r.target = .window w off)
    (n : Nat) : amGet Window.zero (clearAtomc s r .unsupported).host.windows n =
      { amGet Window.zero s.host.windows n with atomc := decide (n ≠ w) && (amGet Window.zero s.host.windows n).atomc } := by
  have href : refusedBy r .unsupported = [w] := by simp [refusedBy, ht, ← isAtomic_eq, hr]
  rw [clearAtomc, href, List.foldl_cons, List.foldl_nil]
  change amGet Window.zero (amModify Window.zero s.host.windows w fun e => { e with atomc := false }) n = _
  rw [amGet_amModify]
  by_cases hn : n = w <;> simp [hn]

/-! ### An answer to a spine (R27, R249) -/

/-- The access of a spine waits for the one request r, which no other follows; no cause has been met. -/
structure SpineAwaits (s : State) (r : Request) (k : Kc) (c : Issue) (a : Asked) : Prop where
  sent : s.requests.find? (fun q => q.id = r.id) = some r
  last : r.later = []
  who : r.who = some (.spine k.id)
  lanes : r.lanes ≠ []
  here : KcHere s k
  asked : k.spine.asked = some (c, a)
  issuer : c.who = .spine k.id
  waiting : a.waiting = [r.id]
  late : a.late = []
  pend : a.pend = []

/-- A spine whose instruction has retired with F done to it. -/
def retiredSpine (c : Issue) (F : Spine → Spine) (sp : Spine) : Spine :=
  { F sp with pc := nextPc c, wait := none, crit := (F sp).crit.map (· + 1) }

theorem kcOf_retireSpine {s : State} {c : Issue} {id : Nat} {k : Kc} (hc : c.who = .spine id)
    (h : s.kcs.find? (fun x => x.id = id) = some k) (F : Spine → Spine) :
    kcOf (retireSpine s c F) id = { k with spine := retiredSpine c F k.spine } := by
  rw [retireSpine, retireSpineTo, kcOf_of_kcs (endIssue_kcs _ c), hc]
  exact kcOf_updSpine_same h

theorem nodup_addrSprue (w : Word) : (addrSprue w).Nodup := by
  unfold addrSprue
  split <;> simp

/-- What the sprue registers of k become when an access with the word w completes (R27). -/
def SprueRead (k : Kc) (w : Word) (q : AMap SprueReg) : Prop :=
  ∀ j, sprueGet { k with sprue := q } j = if j ∈ addrSprue w then consumed (sprueGet k j) else sprueGet k j

theorem consumeAll_addrSprue {s : State} {k : Kc} (h : KcHere s k) (w : Word) : ∃ q, SprueRead k w q ∧
    (consumeAll s k.id (addrSprue w)).kcs.find? (fun x => x.id = k.id) = some { k with sprue := q } := by
  obtain ⟨q, hq⟩ := consumeAll_find h (addrSprue w)
  obtain ⟨hread, -⟩ := sprueBecomes_consumeAll h (addrSprue w) (nodup_addrSprue w)
  refine ⟨q, fun j => ?_, hq⟩
  have hj := hread j
  rwa [kcOf_find hq, kcOf_find h] at hj

/-- A spine's access that ends by retiring, with F done to the spine, reads its sprue address and goes on. -/
theorem finishSpine_retires {s : State} {k : Kc} {c : Issue} {a : Asked} {F : Spine → Spine} (h : KcHere s k)
    (hc : c.who = .spine k.id) (hpush : isPush c.word = false)
    (hend : ∀ S, endSpine S c a = retireSpine S c F) (htrap : (F k.spine).trap = none) :
    ∃ q, SprueRead k c.word q ∧
      kcOf (finishSpine s k.id c a) k.id = { k with sprue := q, spine := retiredSpine c F k.spine } ∧
      (finishSpine s k.id c a).requests = s.requests := by
  obtain ⟨q, hread, hq⟩ := consumeAll_addrSprue h c.word
  have hkc := kcOf_retireSpine hc hq F
  have hfinish : finishSpine s k.id c a = retireSpine (consumeAll s k.id (addrSprue c.word)) c F := by
    simp only [finishSpine, hpush, Bool.false_eq_true, if_false, hend, hkc, retiredSpine, htrap]
    rfl
  refine ⟨q, hread, by rw [hfinish, hkc], ?_⟩
  have hrest := congrArg State.requests (consumeAll_kcs_only s k.id (addrSprue c.word))
  rw [hfinish]
  exact hrest

/-- The spine when its load into x d has completed. -/
def spineLoaded (d : Nat) (v : DWord) (sp : Spine) : Spine := { xSet sp d v with asked := none }

/-- The spine when an access that loads nothing has completed. -/
def spineAcked (sp : Spine) : Spine := { sp with asked := none }

theorem trap_spineLoaded {d : Nat} {v : DWord} {sp : Spine} (h : sp.trap = none) : (spineLoaded d v sp).trap = none :=
  (congrArg Spine.trap (xSet_rest sp d v)).trans h

theorem endSpine_loads {c : Issue} {a : Asked} {d size : Nat} {sext : Bool} (hw : a.waiting = []) (hl : a.late = [])
    (hload : a.load = some (d, size, sext)) (hd : d < 32) (S : State) :
    endSpine S c a = retireSpine S c (spineLoaded d (loadSpine size sext (gotBytes a 0))) := by
  simp only [endSpine, hw, hl, hload, spineLoadInto, if_pos hd, List.isEmpty_nil, if_true]
  rfl

theorem endSpine_acks {c : Issue} {a : Asked} (hw : a.waiting = []) (hl : a.late = []) (hload : a.load = none) (S : State) :
    endSpine S c a = retireSpine S c spineAcked := by
  simp only [endSpine, hw, hl, hload, List.isEmpty_nil, if_true]
  rfl

section
variable {s : State} {r : Request} {k : Kc} {c : Issue} {a : Asked} (h : SpineAwaits s r k c a)
include h

theorem askedOf_spine {S : State} (hS : S.kcs = s.kcs) : askedOf S (.spine k.id) r.id = some a := by
  simp [askedOf, kcOf_of_kcs hS, kcOf_find h.here, h.asked, h.waiting]

theorem answer_spine_data (bytes : List Byte) : answer s r.id (.data bytes) =
    finishSpine (unasked s r) k.id c (succeeded a r bytes) := by
  have hb : answerMember (unasked s r) (.spine k.id) r (.data bytes) a =
      (unasked s r, succeeded a r bytes) := by
    rw [answerMember_data h.waiting h.late h.pend, followUp_last h.last]; rfl
  have hkc : (kcOf (unasked s r) k.id).spine.asked = some (c, a) := by rw [kcOf_find (s := unasked s r) h.here, h.asked]
  rw [answer_member h.sent h.who (askedOf_spine h rfl) hb, goesOn, hkc]
  simp [succeeded, completed, answered, h.late]

/-- An answer to a spine whose access then retires, with F done to the spine. -/
theorem exec_answer_spine_retires {bytes : List Byte} {F : Spine → Spine} (hpush : isPush c.word = false)
    (hend : ∀ S, endSpine S c (succeeded a r bytes) = retireSpine S c F) (htrap : (F k.spine).trap = none) :
    ∃ t q, exec (.memoryResponse (.answer r.id (.data bytes))) s = .next t ∧ SprueRead k c.word q ∧
      kcOf t k.id = { k with sprue := q, spine := retiredSpine c F k.spine } ∧ ∀ q ∈ t.requests, q.id ≠ r.id := by
  obtain ⟨q, hread, hkc, hreq⟩ := finishSpine_retires (s := unasked s r) h.here h.issuer hpush hend htrap
  refine ⟨_, q, exec_answer (answer_spine_data h bytes), hread, hkc, fun x hx => ?_⟩
  rw [hreq] at hx
  exact unasked_requests hx

/-- A failing answer makes the spine trap late. -/
theorem exec_answer_spine_fails {ans : Answer} {cause : Byte} (hcause : answerCause r ans = some cause) :
    ∃ t, exec (.memoryResponse (.answer r.id ans)) s = .next t ∧
      kcOf t k.id = { k with spine := { k.spine with
        trap := some (lateTrap c (failed a r ans cause)), wait := none, asked := none } } ∧
      t.frames = s.frames ++ [frameOf s (.spine k.id) (lateTrap c (failed a r ans cause))] ∧ ∀ q ∈ t.requests, q.id ≠ r.id := by
  have hkcs : (clearAtomc (unasked s r) r ans).kcs = s.kcs := clearAtomc_kcs _ _ _
  have hhere : KcHere (clearAtomc (unasked s r) r ans) k := by rw [KcHere, hkcs]; exact h.here
  have hb : answerMember (clearAtomc (unasked s r) r ans) (.spine k.id) r ans a =
      (clearAtomc (unasked s r) r ans, failed a r ans cause) := by
    rw [answerMember_failed h.waiting h.late hcause, followUp_last h.last]; rfl
  have hanswer : answer s r.id ans =
      endIssue (stopMember (clearAtomc (unasked s r) r ans) (.spine k.id) (lateTrap c (failed a r ans cause))) c := by
    rw [answer_member h.sent h.who (askedOf_spine h hkcs) hb, goesOn, kcOf_find hhere, h.asked]
    simp [failed, h.lanes, endSpine, h.issuer]
  refine ⟨_, exec_answer hanswer, (kcOf_of_kcs (endIssue_kcs _ c) _).trans (kcOf_stopMember _ hhere), ?_, fun q hq => ?_⟩
  · rw [endIssue_frames, stopMember_frames, clearAtomc_frames, frameOf_of_kcs hkcs]
    rfl
  · rw [endIssue_requests, stopMember_requests, clearAtomc_requests] at hq
    exact unasked_requests hq

end

/-! ### Uncorrectable errors (R410, R411) -/

theorem dieIs_counted {s t : State} (h : s.dies.length = 4) (d : DieNo)
    (ht : t.dies = (updDie s d fun x => { x with uncorrected := x.uncorrected + 1 }).dies) :
    DieIs s t d { dieOf s d with uncorrected := (dieOf s d).uncorrected + 1 } := by
  have hdie := dieIs_updDie h d fun x => { x with uncorrected := x.uncorrected + 1 }
  simp only [DieIs, dieOf, ht] at hdie ⊢
  exact hdie

/-- A mark on a group's unit. -/
theorem poison_markGroup {s S : State} {g : Group} (h : GroupHere s g) (hS : S.groups = s.groups) (mark : Nat) :
    mark ∈ (groupOf (markGroup S g.kc g.core g.idx mark) g.kc g.core g.idx).poison := by
  have hkeep : KeepsKey fun g => { g with poison := dedup (g.poison ++ [mark]) } := fun _ => ⟨rfl, rfl, rfl⟩
  rw [markGroup, groupOf_updGroup_here h hS hkeep, mem_dedup]
  simp

theorem poison_markSpine {S : State} {k : Kc} (h : KcHere S k) (reg : Nat) :
    reg ∈ (kcOf (markPoison S (.spineReg k.id reg)) k.id).spine.poison := by
  rw [markPoison, kcOf_updSpine_same h, mem_dedup]
  simp

theorem sprueGet_markSprue {S : State} {k : Kc} (h : KcHere S k) (reg : Nat) :
    sprueGet (kcOf (markPoison S (.sprueReg k.id reg)) k.id) reg = { sprueGet k reg with poison := true } := by
  rw [markPoison, kcOf_setSprue h, sprueGet_amSet, if_pos rfl, kcOf_find h]

theorem poison_markBuffer {S : State} {T : Team} (h : S.teams.find? (fun x => x.kc = T.kc ∧ x.core = T.core) = some T)
    (buf : Fin 5) (part : Nat) : (buf.val, part) ∈ (teamOf (markPoison S (.bufPart T.kc T.core buf part)) T.kc T.core).poison := by
  have hteam := teamOf_updTeam_same (f := fun t => { t with poison := dedup (t.poison ++ [(buf.val, part)]) })
    (fun _ => ⟨rfl, rfl⟩) h
  rw [markPoison, hteam, mem_dedup]
  simp

/-! ### The obligation -/

/-- Settles O44: an answer makes of what an instruction waits for either `succeeded` or `failed`, and from there the
instruction completes, sends the next request of its chain, or traps late. -/
theorem answersAndCompletions : Obligations.AnswersAndCompletions := by
  unfold Obligations.AnswersAndCompletions
  refine ⟨?completes, ?runAhead, ?answered, ?chainGoesOn, ?fails, ?chainFails, ?refused, ?spine, ?errors⟩
  case completes =>
    intro s g f hg hf hask hn hb hgw hfl
    obtain ⟨hexec, hland⟩ := exec_longLatencyComplete hg hf hask
    have hregs := regsWith_putWrites (r := g.regs) hn hb
    have hv : ∀ lane r, vGet (flightEffect g.regs f) lane r = vGet (putWrites g.regs f.writes) lane r := fun lane r => by
      rw [vGet, vGet, flightEffect_v hgw]
    refine ⟨_, hexec, rfl, ?_⟩
    rw [hland]
    refine ⟨rfl, fun w hw => (hv _ _).trans (hregs.made w hw), fun lane r hr hw => (hv _ _).trans (hregs.kept lane r hr hw),
      fun x hx => ?_, fun lane hx => ?_, rfl, flightEffect_rest hgw⟩
    · exact (congrArg (amGet 0 · x.1) (flightEffect_lstat hgw)).trans (lstat_putFlags_flagged hfl x hx)
    · exact (congrArg (amGet 0 · lane) (flightEffect_lstat hgw)).trans (lstat_putFlags_unflagged hx)
  case runAhead =>
    intro s g ra hg hra hcause
    refine ⟨_, exec_runAhead hg hra, ?_, ?_, ?_⟩
    · exact congrArg (fun x : State => { x with groups := s.groups })
        (stopMember_only (s := updGroup s g.kc g.core g.idx (backTo ra)) (by rw [hcause]; decide) g.kc g.core g.idx)
    · rw [stopMember_frames]; rfl
    · exact groupOf_stopMember ra.trap (groupHere_updGroup hg rfl (keepsKey_backTo ra))
  case answered =>
    intro s r g f a bytes got h hlast hgets
    obtain ⟨hlate, hpend⟩ := h.clean
    have hb : answerMember (unasked s r) (memberOf g) r (.data bytes) a = (unasked s r, succeeded a r bytes) := by
      rw [answerMember_data h.waiting hlate hpend, followUp_last hlast]; rfl
    exact ⟨_, exec_answer (answer_group_goes h hb rfl (.inl hlate)), answers_holding h hgets⟩
  case chainGoesOn =>
    intro s r g f a bytes got l k rest h hlater hatom hgets hopen
    obtain ⟨hlate, hpend⟩ := h.clean
    have hb : answerMember (unasked s r) (memberOf g) r (.data bytes) a =
        (sendReq (unasked s r) (followOf (unasked s r) r l k rest) false, { succeeded a r bytes with waiting := [s.nextId] }) := by
      rw [answerMember_data h.waiting hlate hpend, followUp_next (a := succeeded a r bytes) hlater hopen]; rfl
    have hfollows := follows_holding h l k rest (acquires f.issue.word && true)
      (b := { succeeded a r bytes with waiting := [s.nextId] }) (by simp)
    have hanswer := answer_group_goes h hb rfl (.inl hlate)
    rw [show gotData (.data bytes) = true from rfl] at hanswer
    rw [succeeded_atomic hatom hgets, Bool.and_true] at hfollows hanswer
    exact ⟨_, exec_answer hanswer, hfollows⟩
  case fails =>
    intro s r g f a ans cause h hlast hcause hn hb
    rw [← answerCause_eq] at hcause
    exact ⟨_, exec_answer (answer_group_fails h hcause (followUp_last hlast)), trapsLate_of_fails h hn hb⟩
  case chainFails =>
    intro s r g f a ans cause l k rest h hlater hans hcause hopen
    rw [← answerCause_eq] at hcause
    have hopen' : ∀ w off, r.target = .window w off → w ∉ (failed a r ans cause).refused := by
      simpa [failed, refusedBy_of_ne hans] using hopen
    have hb : answerMember (clearAtomc (unasked s r) r ans) (memberOf g) r ans a =
        (sendReq (unasked s r) (followOf (unasked s r) r l k rest) false, { failed a r ans cause with waiting := [s.nextId] }) := by
      rw [clearAtomc_of_ne hans, answerMember_failed h.waiting h.clean.1 hcause, followUp_next hlater hopen']; rfl
    have hfollows := follows_holding h l k rest (acquires f.issue.word && gotData ans)
      (b := { failed a r ans cause with waiting := [s.nextId] }) (by simp)
    have hanswer := answer_group_goes h hb rfl (.inr (by simp))
    rw [gotData_of_cause hcause, Bool.and_false, failed_chain hans] at hfollows hanswer
    exact ⟨_, exec_answer hanswer, hfollows⟩
  case refused =>
    intro s r g f a w off h hatom ht hn hb
    have hcause : answerCause r .unsupported = some 0x11 := by rw [answerCause_eq, hatom]; rfl
    have hrefused : w ∈ (failed a r .unsupported 0x11).refused := by
      simp [failed, refusedBy, ht, ← isAtomic_eq, hatom]
    refine ⟨_, exec_answer (answer_group_fails h hcause (followUp_refused ht hrefused)), trapsLate_of_fails h hn hb, ?_, ?_, ?_⟩
    · rw [trapped_out, clearAtomc_out]; rfl
    · rw [trapped_mem, clearAtomc_mem]; rfl
    · intro n
      rw [trapped_host]
      exact windows_clearAtomc hatom ht n
  case spine =>
    intro s r k c a hsent hlast hwho hlanes hk hasked hc hw hl hp hpush htrap hwait
    have h : SpineAwaits s r k c a := ⟨hsent, hlast, hwho, hlanes, hk, hasked, hc, hw, hl, hp⟩
    refine ⟨?_, ?_, ?_⟩
    · intro d size sext bytes got hload hd hgets
      obtain ⟨t, q, hexec, hread, hkc, hreq⟩ := exec_answer_spine_retires h hpush
        (endSpine_loads (a := succeeded a r bytes) rfl hl hload hd) (trap_spineLoaded htrap)
      have hgot : gotBytes (succeeded a r bytes) 0 = gotBytes { a with got := a.got ++ got } 0 := by
        rw [← answerLanes_of_gets hgets]; rfl
      refine ⟨t, hexec, ?_⟩
      rw [hkc]
      exact ⟨rfl, rfl, (xGet_xSet ..).trans (by rw [if_pos rfl, hgot]), hread, hreq⟩
    · intro bytes hload
      obtain ⟨t, q, hexec, hread, hkc, hreq⟩ := exec_answer_spine_retires h hpush
        (endSpine_acks (a := succeeded a r bytes) rfl hl hload) htrap
      refine ⟨t, hexec, ?_⟩
      rw [hkc]
      exact ⟨rfl, rfl, fun _ => rfl, hread, hreq⟩
    · intro ans cause hcause
      rw [← answerCause_eq] at hcause
      obtain ⟨t, hexec, hkc, hframes, hreq⟩ := exec_answer_spine_fails h hcause
      obtain ⟨htr, hlate, hpc, haddr⟩ := lateTrap_failed hlanes c a ans cause
      exact ⟨t, _, hexec, htr, hlate, hpc, haddr, hkc.trans (by simp [hwait]), hframes, hreq⟩
  case errors =>
    intro s d hdies
    have hdie : ∀ u, exec (.memoryResponse (.uncorrectable d u)) s =
        .next (markPoison (updDie s d fun x => { x with uncorrected := x.uncorrected + 1 }) u) := fun _ => rfl
    refine ⟨⟨_, rfl, rfl, dieIs_updDie hdies d _⟩, fun pa => ?_, fun g lane reg hg => ?_, fun g lane k hg => ?_,
      fun k reg hk => ?_, fun T buf part hT => ?_⟩
    · exact ⟨_, hdie _, dieIs_counted hdies d rfl, by simp [markPoison, mem_dedup], rfl⟩
    · exact ⟨_, hdie _, dieIs_counted hdies d rfl, poison_markGroup hg rfl _, rfl⟩
    · exact ⟨⟨_, hdie _, dieIs_counted hdies d rfl, poison_markGroup hg rfl _, rfl⟩,
        ⟨_, hdie _, dieIs_counted hdies d rfl, poison_markGroup hg rfl _, rfl⟩,
        ⟨_, hdie _, dieIs_counted hdies d rfl, poison_markGroup hg rfl _, rfl⟩⟩
    · exact ⟨⟨_, hdie _, dieIs_counted hdies d rfl, poison_markSpine hk reg, rfl⟩,
        ⟨_, hdie _, dieIs_counted hdies d rfl, sprueGet_markSprue hk reg, rfl⟩⟩
    · exact ⟨_, hdie _, dieIs_counted hdies d rfl, poison_markBuffer hT buf part, rfl⟩

end Sys2Proof.Proofs.Answers
end

section
/-! The family "Arithmetic Instructions": each operation of the model on the numbers of its operands gives what the
spec's tables (R112, R113, R115 to R117, R122) say of its operands' bits. -/

namespace Sys2Proof.Proofs.Arithmetic

open Sys2Proof Sys2Proof.Machine Sys2Proof.Claims Sys2Proof.Proofs.Answers

/-! ### Operands of a given width -/

/-- A result as the model holds it: the number of its bits, and its flags. -/
def asNumber {n : Nat} (r : Result n) : Nat × Flags6 := (r.1.toNat, r.2)

@[simp] theorem asNumber_plain {n : Nat} (v : BitVec n) : asNumber (plain v) = (v.toNat, 0) := rfl

@[simp] theorem of1_toNat {n r : Nat} (f : BitVec n → Result r) (a : BitVec n) : of1 f [a.toNat] = asNumber (f a) := by
  simp [of1, asNumber]

@[simp] theorem of2_toNat {n m r : Nat} (f : BitVec n → BitVec m → Result r) (a : BitVec n) (b : BitVec m) :
    of2 f [a.toNat, b.toNat] = asNumber (f a b) := by
  simp [of2, asNumber]

@[simp] theorem of3_toNat {n m k r : Nat} (f : BitVec n → BitVec m → BitVec k → Result r) (a : BitVec n) (b : BitVec m)
    (d : BitVec k) : of3 f [a.toNat, b.toNat, d.toNat] = asNumber (f a b d) := by
  simp [of3, asNumber]

theorem width_pos (x : Bool) : 0 < width x := by cases x <;> decide

theorem srcBound_reg (f : RegField) (x : Bool) : srcBound (.reg f x) = 2 ^ width x := by cases x <;> rfl
theorem srcBound_sel (b : BitVec 7) (x : Bool) : srcBound (.sel b x) = 2 ^ width x := by cases x <;> rfl

/-- A value that fits a source of n bits is the number of an n-bit word. -/
theorem fits_cons {src : Src} {srcs : List Src} {vals : List Nat} {n : Nat} (h : Fits (src :: srcs) vals)
    (hn : srcBound src = 2 ^ n) : ∃ (a : BitVec n) (rest : List Nat), vals = a.toNat :: rest ∧ Fits srcs rest := by
  obtain ⟨v, rest, hv, hrest, rfl⟩ := List.forall₂_cons_left_iff.mp h
  exact ⟨BitVec.ofNatLT v (hn ▸ hv), rest, by simp, hrest⟩

theorem fits_one {x : Src} {vals : List Nat} {n : Nat} (h : Fits [x] vals) (hx : srcBound x = 2 ^ n) :
    ∃ a : BitVec n, vals = [a.toNat] := by
  obtain ⟨a, rest, rfl, hrest⟩ := fits_cons h hx
  exact ⟨a, by rw [List.forall₂_nil_left_iff.mp hrest]⟩

theorem fits_two {x y : Src} {vals : List Nat} {n : Nat} (h : Fits [x, y] vals) (hx : srcBound x = 2 ^ n)
    (hy : srcBound y = 2 ^ n) : ∃ a b : BitVec n, vals = [a.toNat, b.toNat] := by
  obtain ⟨a, rest, rfl, hrest⟩ := fits_cons h hx
  obtain ⟨b, rfl⟩ := fits_one hrest hy
  exact ⟨a, b, rfl⟩

theorem fits_three {x y z : Src} {vals : List Nat} {n : Nat} (h : Fits [x, y, z] vals) (hx : srcBound x = 2 ^ n)
    (hy : srcBound y = 2 ^ n) (hz : srcBound z = 2 ^ n) : ∃ a b d : BitVec n, vals = [a.toNat, b.toNat, d.toNat] := by
  obtain ⟨a, rest, rfl, hrest⟩ := fits_cons h hx
  obtain ⟨b, d, rfl⟩ := fits_two hrest hy hz
  exact ⟨a, b, d, rfl⟩

/-! ### Operand shapes: an instruction of a shape computes what its operation gives on numbers -/

theorem formL_of {mk : OpsL → Instr} {signed : Bool} {alu : Nat → Nat → Nat → Nat × Flags6}
    {f : (n : Nat) → BitVec n → BitVec n → Result n}
    (hexec : ∀ o s, exec (mk o) s = issueBy s fun c => runReg s c (opL o signed alu))
    (halu : ∀ n, 0 < n → ∀ a b : BitVec n, alu n a.toNat b.toNat = asNumber (f n a b)) : FormL mk signed f := by
  intro o
  refine computes_of (opL o signed alu) (hexec o) rfl rfl rfl rfl rfl rfl rfl fun vals hfit => ?_
  obtain ⟨a, b, rfl⟩ := fits_two hfit (srcBound_reg o.a o.x) (srcBound_sel o.b o.x)
  exact (halu _ (width_pos o.x) a b).trans (of2_toNat ..).symm

theorem formL3_of {mk : OpsL → Instr} {signed : Bool} {alu : Nat → Nat → Nat → Nat → Nat × Flags6}
    {f : (n : Nat) → BitVec n → BitVec n → BitVec n → Result n}
    (hexec : ∀ o s, exec (mk o) s = issueBy s fun c => runReg s c (opL3 o signed alu))
    (halu : ∀ n, 0 < n → ∀ a b d : BitVec n, alu n a.toNat b.toNat d.toNat = asNumber (f n a b d)) :
    FormL3 mk signed f := by
  intro o
  refine computes_of (opL3 o signed alu) (hexec o) rfl rfl rfl rfl rfl rfl rfl fun vals hfit => ?_
  obtain ⟨a, b, d, rfl⟩ := fits_three hfit (srcBound_reg o.a o.x) (srcBound_sel o.b o.x) (srcBound_reg o.d o.x)
  exact (halu _ (width_pos o.x) a b d).trans (of3_toNat ..).symm

theorem formL1_of {mk : OpsL1 → Instr} {signed : Bool} {alu : Nat → Nat → Nat × Flags6} {f : Word → Word → Result 32}
    (hexec : ∀ o s, exec (mk o) s = issueBy s fun c => runReg s c (opL1 o signed false alu))
    (halu : ∀ a b : Word, alu a.toNat b.toNat = asNumber (f a b)) : FormL1 mk signed f := by
  intro o
  refine computes_of (opL1 o signed false alu) (hexec o) rfl rfl rfl rfl rfl rfl rfl fun vals hfit => ?_
  obtain ⟨a, b, rfl⟩ := fits_two hfit (srcBound_reg o.a false) (srcBound_sel o.b false)
  exact (halu a b).trans (of2_toNat f a b).symm

theorem formL13_of {mk : OpsL1 → Instr} {signed : Bool} {alu : Nat → Nat → Nat → Nat × Flags6}
    {f : Word → Word → Word → Result 32}
    (hexec : ∀ o s, exec (mk o) s = issueBy s fun c => runReg s c (opL13 o signed false alu))
    (halu : ∀ a b d : Word, alu a.toNat b.toNat d.toNat = asNumber (f a b d)) : FormL13 mk signed f := by
  intro o
  refine computes_of (opL13 o signed false alu) (hexec o) rfl rfl rfl rfl rfl rfl rfl fun vals hfit => ?_
  obtain ⟨a, b, d, rfl⟩ := fits_three hfit (srcBound_reg o.a false) (srcBound_sel o.b false) (srcBound_reg o.d false)
  exact (halu a b d).trans (of3_toNat f a b d).symm

theorem formA_of {mk : OpsA → Instr} {alu : Nat → Nat → Nat × Flags6} {f : (n : Nat) → BitVec n → Result n}
    (hexec : ∀ o s, exec (mk o) s = issueBy s fun c => runReg s c (opA o alu))
    (halu : ∀ n, 0 < n → ∀ a : BitVec n, alu n a.toNat = asNumber (f n a)) : FormA mk f := by
  intro o
  refine computes_of (opA o alu) (hexec o) rfl rfl rfl rfl rfl rfl rfl fun vals hfit => ?_
  obtain ⟨a, rfl⟩ := fits_one hfit (srcBound_reg o.a o.x)
  exact (halu _ (width_pos o.x) a).trans (of1_toNat ..).symm

theorem formA1_of {mk : OpsA1 → Instr} {signed : Bool} {alu : Nat → Nat × Flags6} {f : Word → Result 32}
    (hexec : ∀ o s, exec (mk o) s = issueBy s fun c => runReg s c (opUnary o.g o.d o.a false false signed 0 alu))
    (halu : ∀ a : Word, alu a.toNat = asNumber (f a)) : FormA1 mk signed f := by
  intro o
  refine computes_of (opUnary o.g o.d o.a false false signed 0 alu) (hexec o) rfl rfl rfl rfl rfl rfl rfl
    fun vals hfit => ?_
  obtain ⟨a, rfl⟩ := fits_one hfit (srcBound_reg o.a false)
  exact (halu a).trans (of1_toNat f a).symm

/-! ### Compares into a predicate (R79, R121) -/

/-- The model's comb codes are those of R79. -/
theorem combine_eq_comb (k : BitVec 3) (c old : Bool) : combine k c old = comb k c old := by
  revert k c old; decide

/-- The third operand of a compare, when there is one, is the old predicate as 0 or 1. -/
theorem fits_oldPred {pd : PredNo} {old : Bool} {vals : List Nat}
    (h : Fits (if old then [.pred pd] else []) vals) : vals.headD 0 < 2 := by
  cases old with
  | false => rw [List.forall₂_nil_left_iff.mp h]; exact Nat.zero_lt_two
  | true =>
    obtain ⟨v, _, hv, _, rfl⟩ := List.forall₂_cons_left_iff.mp h
    exact hv

theorem formP_of {mk : OpsP → Instr} {alu : Nat → Nat → Nat → Bool × Flags6}
    {f : (n : Nat) → BitVec n → BitVec n → Bool × Flags6}
    (hexec : ∀ o s, exec (mk o) s = issueBy s fun c => runReg s c (opP o alu))
    (halu : ∀ n, 0 < n → ∀ a b : BitVec n, alu n a.toNat b.toNat = f n a b) : FormP mk f := by
  intro o
  refine computes_of (opP o alu) (hexec o) rfl rfl rfl rfl rfl rfl rfl fun vals hfit => ?_
  have hops : operands [.reg o.a o.x, .sel o.b o.x] (.pred o.pd (decide (o.comb ≠ 0))) =
      .reg o.a o.x :: .sel o.b o.x :: if decide (o.comb ≠ 0) then [.pred o.pd] else [] := by
    cases decide (o.comb ≠ 0) <;> rfl
  rw [hops] at hfit
  obtain ⟨a, _, rfl, hrest⟩ := fits_cons hfit (srcBound_reg o.a o.x)
  obtain ⟨b, p, rfl, hold⟩ := fits_cons hrest (srcBound_sel o.b o.x)
  have hp := fits_oldPred hold
  have hbit : decide (p.headD 0 ≠ 0) = decide (p.headD 0 = 1) := by rw [decide_eq_decide]; omega
  have hcond : alu (if o.x then 64 else 32) a.toNat b.toNat = f (width o.x) a b := halu _ (width_pos o.x) a b
  simp only [opP, hcond, hbit, combine_eq_comb, BitVec.ofNat_toNat, BitVec.setWidth_eq]

/-- An integer compare whose relation on numbers is f's on words; it sets no flag. -/
theorem formP_icmp_of {mk : OpsP → Instr} {cmp : Nat → Nat → Nat → Bool} {f : {n : Nat} → BitVec n → BitVec n → Bool}
    (hexec : ∀ o s, exec (mk o) s = issueBy s fun c => runReg s c (opP o (icmp cmp)))
    (hcmp : ∀ n, 0 < n → ∀ a b : BitVec n, cmp n a.toNat b.toNat = f a b) : FormP mk (cond f) :=
  formP_of hexec fun n hn a b => congrArg (·, 0) (hcmp n hn a b)

/-! ### Two's complement and clamping (R38) -/

theorem sextNat_toNat {n : Nat} (hn : 0 < n) (a : BitVec n) : sextNat n a.toNat = a.toInt := by
  rw [sextNat_eq_toInt hn, BitVec.ofNat_toNat, BitVec.setWidth_eq]

theorem sext32_toNat (a : Word) : sextNat 32 a.toNat = a.toInt := sextNat_toNat (by decide) a

/-- The clamp of the model is that of R38, with SAT exactly when a bound replaced the value. -/
theorem satSigned_eq_clampTo (n : Nat) (v : Int) : satSigned n v = asNumber (clampTo n v) := by
  simp only [satSigned, clampInt, clampTo]
  split
  · next hlow => simp [asNumber, flagIf, hlow.ne']
  · split
    · next hhigh => simp [asNumber, flagIf, hhigh.ne]
    · simp [asNumber, flagIf]

/-- The signed w bits at bit lo. -/
theorem part_eq_piece {w : Nat} (hw : 0 < w) (lo : Nat) (a : Word) : part w lo a.toNat = piece w lo a := by
  rw [part, sextNat_eq_toInt hw, piece, BitVec.extractLsb', Nat.shiftRight_eq_div_pow]

/-! ### Integer compares (R122) -/

theorem sextNat_lt_eq_slt {n : Nat} (hn : 0 < n) (a b : BitVec n) :
    decide (sextNat n a.toNat < sextNat n b.toNat) = a.slt b := by
  rw [sextNat_toNat hn, sextNat_toNat hn, BitVec.slt_eq_decide]

theorem sextNat_le_eq_sle {n : Nat} (hn : 0 < n) (a b : BitVec n) :
    decide (sextNat n a.toNat ≤ sextNat n b.toNat) = a.sle b := by
  rw [sextNat_toNat hn, sextNat_toNat hn, BitVec.sle_eq_decide]

/-- Settles O7: on the numbers of two words the model's relations are those of the words, signed or unsigned. -/
theorem integerCompares : Obligations.IntegerCompares := by
  unfold Obligations.IntegerCompares
  exact ⟨formP_icmp_of (fun _ _ => rfl) fun _ _ _ _ => decide_eq_decide.mpr BitVec.toNat_inj,
    formP_icmp_of (fun _ _ => rfl) fun _ _ _ _ => decide_eq_decide.mpr BitVec.toNat_inj.not,
    formP_icmp_of (fun _ _ => rfl) fun _ hn => sextNat_lt_eq_slt hn,
    formP_icmp_of (fun _ _ => rfl) fun _ hn => sextNat_le_eq_sle hn,
    formP_icmp_of (fun _ _ => rfl) fun _ hn a b => sextNat_lt_eq_slt hn b a,
    formP_icmp_of (fun _ _ => rfl) fun _ hn a b => sextNat_le_eq_sle hn b a,
    formP_icmp_of (fun _ _ => rfl) fun _ _ a b => (BitVec.ult_eq_decide (x := a) (y := b)).symm,
    formP_icmp_of (fun _ _ => rfl) fun _ _ a b => (BitVec.ule_eq_decide (x := b) (y := a)).symm⟩

/-! ### Products and dot products (R112, R113) -/

theorem aluMulLo_eq {n : Nat} (a b : BitVec n) : aluMulLo n a.toNat b.toNat = asNumber (plain (a * b)) := by
  rw [asNumber_plain, BitVec.toNat_mul, aluMulLo]

theorem aluMad_eq {n : Nat} (a b d : BitVec n) : aluMad n a.toNat b.toNat d.toNat = asNumber (plain (d + a * b)) := by
  rw [asNumber_plain, BitVec.toNat_add, BitVec.toNat_mul, Nat.add_mod_mod, aluMad]

/-- The high word of a 64-bit number, signed. -/
theorem extractHigh_eq_ofInt (p : DWord) : p.extractLsb' 32 32 = BitVec.ofInt 32 (p.toInt / 2 ^ 32) := by
  have hp := p.isLt
  apply BitVec.eq_of_toNat_eq
  rw [BitVec.extractLsb'_toNat, Nat.shiftRight_eq_div_pow, BitVec.toNat_ofInt, BitVec.toInt_eq_toNat_cond]
  split <;> omega

/-- The product of two 32-bit words does not overflow 64 bits, signed. -/
theorem toInt_mul_signExtend (a b : Word) : (a.signExtend 64 * b.signExtend 64).toInt = a.toInt * b.toInt := by
  rw [BitVec.toInt_mul, BitVec.toInt_signExtend_of_le (by decide), BitVec.toInt_signExtend_of_le (by decide)]
  have ha := BitVec.le_toInt a
  have ha' := BitVec.toInt_lt (x := a)
  have hb := BitVec.le_toInt b
  have hb' := BitVec.toInt_lt (x := b)
  have habs : |a.toInt * b.toInt| ≤ 2 ^ 31 * 2 ^ 31 := by
    rw [abs_mul]
    exact mul_le_mul (abs_le.mpr ⟨ha, ha'.le⟩) (abs_le.mpr ⟨hb, hb'.le⟩) (abs_nonneg _) (by decide)
  obtain ⟨hlow, hhigh⟩ := abs_le.mp habs
  exact Int.bmod_eq_of_le (by omega) (by omega)

theorem aluMulhiS_eq (a b : Word) : aluMulhiS a.toNat b.toNat =
    asNumber (plain ((a.signExtend 64 * b.signExtend 64).extractLsb' 32 32)) := by
  rw [asNumber_plain, extractHigh_eq_ofInt, toInt_mul_signExtend, aluMulhiS, sext32_toNat, sext32_toNat]

theorem aluMulhiN_eq (a b : Word) : aluMulhiN a.toNat b.toNat =
    asNumber (plain ((a.setWidth 64 * b.setWidth 64).extractLsb' 32 32)) := by
  have hprod : a.toNat * b.toNat < 2 ^ 32 * 2 ^ 32 := Nat.mul_lt_mul'' a.isLt b.isLt
  have hhigh : a.toNat * b.toNat / 2 ^ 32 = a.toNat * b.toNat % 2 ^ 64 / 2 ^ 32 % 2 ^ 32 := by omega
  rw [asNumber_plain, BitVec.extractLsb'_toNat, BitVec.toNat_mul, BitVec.toNat_setWidth_of_le (by decide),
    BitVec.toNat_setWidth_of_le (by decide), Nat.shiftRight_eq_div_pow, aluMulhiN, hhigh]

theorem aluDot2_eq (a b d : Word) : aluDot2 a.toNat b.toNat d.toNat =
    asNumber (clampTo 32 (d.toInt + piece 16 0 a * piece 16 0 b + piece 16 16 a * piece 16 16 b)) := by
  simp only [aluDot2, satSigned_eq_clampTo, sext32_toNat, part_eq_piece (show 0 < 16 by decide)]

theorem aluDot4_eq (a b d : Word) : aluDot4 a.toNat b.toNat d.toNat =
    asNumber (clampTo 32 (d.toInt + piece 8 0 a * piece 8 0 b + piece 8 8 a * piece 8 8 b +
      piece 8 16 a * piece 8 16 b + piece 8 24 a * piece 8 24 b)) := by
  simp only [aluDot4, satSigned_eq_clampTo, sext32_toNat, part_eq_piece (show 0 < 8 by decide)]

theorem aluAbs_eq (a : Word) : aluAbs a.toNat = asNumber (clampTo 32 |a.toInt|) := by
  rw [aluAbs, satSigned_eq_clampTo, sext32_toNat, Int.natCast_natAbs]

/-- Settles O2: each operation on numbers gives the number of the result of R112 and R113, with its flags. -/
theorem multiplyAndDot : Obligations.MultiplyAndDot := by
  unfold Obligations.MultiplyAndDot
  exact ⟨formL_of (fun _ _ => rfl) fun _ _ => aluMulLo_eq, formL1_of (fun _ _ => rfl) aluMulhiS_eq,
    formL1_of (fun _ _ => rfl) aluMulhiN_eq, formL3_of (fun _ _ => rfl) fun _ _ => aluMad_eq,
    formL13_of (fun _ _ => rfl) aluDot2_eq, formL13_of (fun _ _ => rfl) aluDot4_eq, formA1_of (fun _ _ => rfl) aluAbs_eq⟩

/-! ### Bit counts and reversal (R115) -/

theorem ones_le {n : Nat} (a : BitVec n) : ones a ≤ n := List.countP_le_length.trans_eq List.length_range

theorem aluPopc_eq {n : Nat} (a : BitVec n) : aluPopc n a.toNat = asNumber (plain (BitVec.ofNat n (ones a))) := by
  have hfits : ones a < 2 ^ n := (ones_le a).trans_lt Nat.lt_two_pow_self
  rw [asNumber_plain, BitVec.toNat_ofNat, Nat.mod_eq_of_lt hfits, ones, List.countP_eq_length_filter]
  rfl

/-- The first k indices pass and the next, if there is one, does not. -/
theorem length_takeWhile_range {p : Nat → Bool} {n k : Nat} (hk : k ≤ n) (hpass : ∀ i < k, p i = true)
    (hstop : k < n → p k = false) : ((List.range n).takeWhile p).length = k := by
  obtain ⟨m, rfl⟩ := Nat.exists_eq_add_of_le hk
  rw [List.range_add, List.takeWhile_append_of_pos fun i hi => hpass i (List.mem_range.mp hi)]
  cases m with
  | zero => simp
  | succ m => simp [List.range_succ_eq_map, hstop (by omega)]

/-- Above the leading one all bits are 0. -/
theorem leadingZeros_eq {n : Nat} (a : BitVec n) :
    leadingZeros a = if a.toNat = 0 then n else n - 1 - Nat.log2 a.toNat := by
  split
  · next hzero =>
    refine length_takeWhile_range le_rfl (fun i _ => ?_) fun h => absurd h (lt_irrefl n)
    rw [← BitVec.testBit_toNat, hzero, Nat.zero_testBit, Bool.not_false]
  · next hne =>
    have hlog : Nat.log2 a.toNat < n := (Nat.log2_lt hne).mpr a.isLt
    refine length_takeWhile_range (by omega) (fun i hi => ?_) fun _ => ?_
    · rw [← BitVec.testBit_toNat, Nat.testBit_lt_two_pow, Bool.not_false]
      exact (Nat.log2_lt hne).mp (by omega)
    · rw [← BitVec.testBit_toNat, show n - 1 - (n - 1 - Nat.log2 a.toNat) = Nat.log2 a.toNat by omega,
        Nat.testBit_log2 hne, Bool.not_true]

theorem aluClz_eq {n : Nat} (a : BitVec n) : aluClz n a.toNat = asNumber (plain (BitVec.ofNat n (leadingZeros a))) := by
  have hle : leadingZeros a ≤ n := by rw [leadingZeros_eq]; split <;> omega
  rw [asNumber_plain, BitVec.toNat_ofNat, Nat.mod_eq_of_lt (hle.trans_lt Nat.lt_two_pow_self), leadingZeros_eq, aluClz]

/-- Collecting the low n bits of a number, lowest first, reverses them. -/
theorem foldl_bits_eq_reverse (n a : Nat) :
    (List.range n).foldl (fun acc i => acc * 2 + if a.testBit i then 1 else 0) 0 = (BitVec.ofNat n a).reverse.toNat := by
  induction n with
  | zero => rw [BitVec.eq_nil (BitVec.ofNat 0 a).reverse]; rfl
  | succ n ih =>
    have hmsb : (BitVec.ofNat (n + 1) a).msb = a.testBit n := by
      rw [BitVec.msb_eq_getLsbD_last, BitVec.getLsbD_ofNat, Nat.add_sub_cancel, decide_eq_true n.lt_succ_self, Bool.true_and]
    have hlow : (BitVec.ofNat (n + 1) a).truncate n = BitVec.ofNat n a := BitVec.setWidth_ofNat_of_le (by omega) a
    rw [List.range_succ, List.foldl_append, ih, BitVec.reverse, BitVec.toNat_concat, hmsb, hlow]
    cases htest : a.testBit n <;> simp [htest]

theorem aluBrev_eq {n : Nat} (a : BitVec n) : aluBrev n a.toNat = asNumber (plain a.reverse) := by
  rw [asNumber_plain, aluBrev, foldl_bits_eq_reverse, BitVec.ofNat_toNat, BitVec.setWidth_eq]

/-! ### Rounding shift, saturation, packing, sign extension (R115, R117) -/

theorem aluShrr_eq (a b : Word) : aluShrr 32 a.toNat b.toNat = asNumber (plain (roundShift 32 a (b.toNat % 32))) := by
  rw [asNumber_plain, aluShrr, roundShift, sext32_toNat]
  split <;> rfl

theorem aluSat16_eq (a : Word) : aluSat16 a.toNat =
    asNumber ((clampTo 16 a.toInt).1.signExtend 32, (clampTo 16 a.toInt).2) := by
  rw [aluSat16, sext32_toNat, satSigned_eq_clampTo]
  simp only [asNumber, sextNat_toNat (show 0 < 16 by decide)]
  rfl

theorem toNat_append_eq {n m : Nat} (hi : BitVec n) (lo : BitVec m) : (hi ++ lo).toNat = lo.toNat + 2 ^ m * hi.toNat := by
  rw [BitVec.toNat_append, Nat.shiftLeft_eq, Nat.mul_comm, ← Nat.two_pow_add_eq_or_of_lt lo.isLt, Nat.add_comm]

theorem aluPack16_eq (a b : Word) : aluPack16 a.toNat b.toNat =
    asNumber ((clampTo 16 b.toInt).1 ++ (clampTo 16 a.toInt).1, (clampTo 16 a.toInt).2 ||| (clampTo 16 b.toInt).2) := by
  simp only [aluPack16, sext32_toNat, satSigned_eq_clampTo, asNumber, toNat_append_eq]

/-- Moving bit k to the top and back copies it into every bit above. -/
theorem signExtend_low_eq_shifts {k : Nat} (hk : k < 32) (a : Word) :
    (a.setWidth (k + 1)).signExtend 32 = (a <<< (31 - k)).sshiftRight (31 - k) := by
  apply BitVec.eq_of_getLsbD_eq
  intro i hi
  rw [BitVec.getLsbD_signExtend, BitVec.getLsbD_sshiftRight, BitVec.msb_eq_getLsbD_last, BitVec.msb_eq_getLsbD_last]
  simp only [BitVec.getLsbD_setWidth, BitVec.getLsbD_shiftLeft]
  by_cases hik : i < k + 1
  · simp [hi, hik, show 31 - k + i < 32 by omega, show ¬ 32 ≤ i by omega]
  · simp [hi, hik, show ¬ 31 - k + i < 32 by omega, show ¬ 32 ≤ i by omega, show ¬ 31 < 31 - k by omega,
      show 31 - (31 - k) = k by omega]

theorem aluSxt_eq (a b : Word) : aluSxt a.toNat b.toNat =
    asNumber (plain ((a <<< (31 - b.toNat % 32)).sshiftRight (31 - b.toNat % 32))) := by
  rw [asNumber_plain, ← signExtend_low_eq_shifts (Nat.mod_lt _ (by decide)), aluSxt, sextNat_eq_toInt (Nat.succ_pos _),
    BitVec.signExtend, BitVec.ofNat_toNat]

/-! ### Byte permutation (R116) -/

/-- The byte that control nibble j of d selects from b and a. -/
theorem permByte_eq_permOut (a b d : Word) (j : Nat) :
    permByte (a.toNat + 2 ^ 32 * b.toNat) (d.toNat / 2 ^ (4 * j) % 16) = (permOut a b d j).toNat := by
  have hk : (d.extractLsb' (4 * j) 4).toNat = d.toNat / 2 ^ (4 * j) % 16 := by
    rw [BitVec.extractLsb'_toNat, Nat.shiftRight_eq_div_pow]
  have hfill : (d.extractLsb' (4 * j) 4).getLsbD 3 = decide (d.toNat / 2 ^ (4 * j) % 16 / 8 % 2 = 1) := by
    rw [← BitVec.testBit_toNat, hk, Nat.testBit_eq_decide_div_mod_eq]
  have hbyte : ∀ i, ((b ++ a).extractLsb' (8 * i) 8).toNat = (a.toNat + 2 ^ 32 * b.toNat) / 2 ^ (8 * i) % 256 := fun i => by
    rw [BitVec.extractLsb'_toNat, toNat_append_eq, Nat.shiftRight_eq_div_pow]
  have hmsb : ∀ x : BitVec 8, x.msb = decide (x.toNat / 128 = 1) := fun x => by
    have hx := x.isLt
    rw [BitVec.msb_eq_decide, decide_eq_decide]
    omega
  simp only [permByte, permOut, hfill, hmsb, hbyte, hk, decide_eq_true_eq]
  split
  · split <;> rfl
  · exact (hbyte _).symm

theorem aluPerm_eq (a b d : Word) : aluPerm a.toNat b.toNat d.toNat =
    asNumber (plain (permOut a b d 3 ++ permOut a b d 2 ++ permOut a b d 1 ++ permOut a b d 0)) := by
  refine Prod.ext ?_ rfl
  simp only [aluPerm, asNumber_plain, toNat_append_eq, ← permByte_eq_permOut, Nat.reduceMul, Nat.reducePow, Nat.div_one]
  omega

/-- Settles O4: each operation on numbers gives the number of the result of R115 to R117, with its flags. -/
theorem bitOperationsAndPacking : Obligations.BitOperationsAndPacking := by
  unfold Obligations.BitOperationsAndPacking
  exact ⟨formA_of (fun _ _ => rfl) fun _ _ => aluPopc_eq, formA_of (fun _ _ => rfl) fun _ _ => aluClz_eq,
    formA_of (fun _ _ => rfl) fun _ _ => aluBrev_eq, formL1_of (fun _ _ => rfl) aluShrr_eq,
    formA1_of (fun _ _ => rfl) aluSat16_eq, formL1_of (fun _ _ => rfl) aluPack16_eq,
    formL1_of (fun _ _ => rfl) aluSxt_eq, formL13_of (fun _ _ => rfl) aluPerm_eq⟩

end Sys2Proof.Proofs.Arithmetic
end

section
/-! Rules of the tables of contexts and grids, of save slots, and of the requests that stop kernel clusters for a save
(R189, R336): what a stop changes, and which slots are left. -/

namespace Sys2Proof.Proofs.Stops

open Sys2Proof Sys2Proof.Machine Sys2Proof.Claims Sys2Proof.Proofs.StateRules

/-! ### Tables keyed by an identifier -/

/-- What a lookup finds after the entries under one key have changed without changing their keys. -/
theorem find?_map_key {α β : Type} [DecidableEq β] (key : α → β) {f : α → α} (hf : ∀ x, key (f x) = key x) (a b : β)
    (l : List α) : (l.map fun x => if key x = a then f x else x).find? (fun x => key x = b) =
      if b = a then (l.find? fun x => key x = b).map f else l.find? fun x => key x = b := by
  induction l with
  | nil => simp
  | cons x xs ih =>
    have hkey : key (if key x = a then f x else x) = key x := by split <;> simp [hf]
    by_cases hx : key x = b
    · subst hx
      simp [hkey]
      split <;> rfl
    · simpa [List.find?_cons, hkey, hx] using ih

theorem ctxOf?_updCtx {f : Ctx → Ctx} (hf : ∀ x, (f x).asid = x.asid) (s : State) (a b : Asid) :
    ctxOf? (updCtx s a f) b = if b = a then (ctxOf? s b).map f else ctxOf? s b :=
  find?_map_key Ctx.asid hf a b s.ctxs

theorem gridOf?_updGrid {f : Grid → Grid} (hf : ∀ x, (f x).id = x.id) (s : State) (a b : Word) :
    gridOf? (updGrid s a f) b = if b = a then (gridOf? s b).map f else gridOf? s b :=
  find?_map_key Grid.id hf a b s.grids

theorem gridOf?_id {s : State} {gid : Word} {g : Grid} (h : gridOf? s gid = some g) : g.id = gid := by
  simpa using List.find?_some h

theorem kcOf_mem {s : State} {k : Kc} (h : k ∈ s.kcs) : kcOf s k.id ∈ s.kcs ∧ (kcOf s k.id).id = k.id := by
  have hfound : (s.kcs.find? fun q => q.id = k.id).isSome := List.find?_isSome.mpr ⟨k, h, by simp⟩
  obtain ⟨q, hq⟩ := Option.isSome_iff_exists.mp hfound
  rw [kcOf_find hq]
  exact ⟨List.mem_of_find?_eq_some hq, by simpa using List.find?_some hq⟩

/-! ### Stops change how kernel clusters and groups stand, and nothing that identifies them -/

/-- A kernel cluster but for its status and its save slot, which a stop sets. -/
def unstopped (k : Kc) : Kc := { k with status := .running, slotNo := none }

/-- Of a group, which it is and whether it has ended: no stop changes that. -/
def standing (g : Group) : Nat × Nat × Nat × Bool := (g.kc, g.core, g.idx, g.ended)

/-- From s to t kernel clusters and groups may have been stopped, and memory has not changed. -/
structure StopsOnly (s t : State) : Prop where
  kcs : t.kcs.map unstopped = s.kcs.map unstopped
  groups : t.groups.map standing = s.groups.map standing
  mem : t.mem = s.mem

theorem StopsOnly.refl (s : State) : StopsOnly s s := ⟨rfl, rfl, rfl⟩

theorem StopsOnly.trans {s t u : State} (h : StopsOnly s t) (h' : StopsOnly t u) : StopsOnly s u :=
  ⟨h'.kcs.trans h.kcs, h'.groups.trans h.groups, h'.mem.trans h.mem⟩

theorem StopsOnly.of_fields {s t : State} (hk : t.kcs = s.kcs) (hg : t.groups = s.groups) (hm : t.mem = s.mem) :
    StopsOnly s t := ⟨by rw [hk], by rw [hg], hm⟩

theorem StopsOnly.find {s t : State} (h : StopsOnly s t) (id : Nat) :
    (t.kcs.find? fun k => k.id = id).map unstopped = (s.kcs.find? fun k => k.id = id).map unstopped := by
  have hfind : ∀ u : State, (u.kcs.find? fun k => k.id = id).map unstopped = (u.kcs.map unstopped).find? fun k => k.id = id := by
    intro u
    rw [List.find?_map]
    rfl
  rw [hfind, hfind, h.kcs]

theorem StopsOnly.kcOf {s t : State} (h : StopsOnly s t) (id : Nat) : unstopped (kcOf t id) = unstopped (kcOf s id) := by
  have hget : ∀ u : State, unstopped (Machine.kcOf u id) =
      ((u.kcs.find? fun k => k.id = id).map unstopped).getD (unstopped kcNone) :=
    fun _ => (Option.getD_map unstopped kcNone _).symm
  rw [hget, hget, h.find]

theorem StopsOnly.here {s t : State} (h : StopsOnly s t) {id : Nat} {k : Kc} (hk : s.kcs.find? (fun x => x.id = id) = some k) :
    ∃ q, t.kcs.find? (fun x => x.id = id) = some q ∧ unstopped q = unstopped k := by
  have hfind := h.find id
  rw [hk] at hfind
  exact Option.map_eq_some_iff.mp hfind

/-- What a kernel cluster was before the stops. -/
theorem StopsOnly.was {s t : State} (h : StopsOnly s t) {k : Kc} (hk : k ∈ t.kcs) : ∃ q ∈ s.kcs, unstopped q = unstopped k :=
  List.mem_map.mp (h.kcs ▸ List.mem_map_of_mem hk)

theorem StopsOnly.groupWas {s t : State} (h : StopsOnly s t) {g : Group} (hg : g ∈ t.groups) :
    ∃ x ∈ s.groups, standing x = standing g :=
  List.mem_map.mp (h.groups ▸ List.mem_map_of_mem hg)

theorem StopsOnly.ended {s t : State} (h : StopsOnly s t) (kc core idx : Nat) :
    (groupOf t kc core idx).ended = (groupOf s kc core idx).ended := by
  have hfind : ∀ u : State, (groupOf u kc core idx).ended =
      (((u.groups.map standing).find? fun x => x.1 = kc ∧ x.2.1 = core ∧ x.2.2.1 = idx).getD (standing groupNone)).2.2.2 := by
    intro u
    rw [List.find?_map, Option.getD_map]
    rfl
  rw [hfind, hfind, h.groups]

theorem unstopped_id {q k : Kc} (h : unstopped q = unstopped k) : q.id = k.id := (congrArg Kc.id h :)
theorem unstopped_asid {q k : Kc} (h : unstopped q = unstopped k) : q.asid = k.asid := (congrArg Kc.asid h :)
theorem unstopped_place {q k : Kc} (h : unstopped q = unstopped k) : q.place = k.place := (congrArg Kc.place h :)
theorem unstopped_spine {q k : Kc} (h : unstopped q = unstopped k) : q.spine = k.spine := (congrArg Kc.spine h :)

/-- Kernel clusters under one identifier differ in nothing but how they have been stopped. -/
def AgreeIds (s : State) : Prop := ∀ q ∈ s.kcs, ∀ r ∈ s.kcs, q.id = r.id → unstopped q = unstopped r

theorem AgreeIds.stops {s t : State} (h : AgreeIds s) (ht : StopsOnly s t) : AgreeIds t := by
  intro q hq r hr hid
  obtain ⟨q', hq', hqq⟩ := ht.was hq
  obtain ⟨r', hr', hrr⟩ := ht.was hr
  rw [← hqq, ← hrr]
  exact h q' hq' r' hr' ((unstopped_id hqq).trans (hid.trans (unstopped_id hrr).symm))

/-! ### Save slots -/

/-- The number of free save slots of a context. -/
def slotsLeft (s : State) (a : Asid) : Nat := (freeSlots (ctxOf s a)).length

theorem length_freeSlots_reserve {c : Ctx} {n : Nat} (h : n ∈ freeSlots c) :
    (freeSlots { c with slotsUsed := c.slotsUsed ++ [n] }).length + 1 = (freeSlots c).length := by
  have hnodup : (freeSlots c).Nodup := List.nodup_range.filter _
  have herase : freeSlots { c with slotsUsed := c.slotsUsed ++ [n] } = (freeSlots c).erase n := by
    rw [hnodup.erase_eq_filter, freeSlots, freeSlots, List.filter_filter]
    refine List.filter_congr fun i _ => ?_
    by_cases hi : i = n <;> simp [hi]
  rw [herase, List.length_erase_of_mem h]
  have := List.length_pos_of_mem h
  omega

theorem ctxOf_updCtx {f : Ctx → Ctx} (hf : ∀ x, (f x).asid = x.asid) {s : State} {a : Asid} {c : Ctx}
    (h : ctxOf? s a = some c) (b : Asid) : ctxOf (updCtx s a f) b = if b = a then f c else ctxOf s b := by
  rw [ctxOf, ctxOf?_updCtx hf]
  by_cases hb : b = a
  · subst hb
    rw [if_pos rfl, if_pos rfl, h]
    rfl
  · rw [if_neg hb, if_neg hb]
    rfl

/-- A context with a free slot is in the table. -/
theorem ctx_of_freeSlot {s : State} {a : Asid} {n : Nat} (h : n ∈ freeSlots (ctxOf s a)) : ∃ c, ctxOf? s a = some c := by
  cases hc : ctxOf? s a with
  | some c => exact ⟨c, rfl⟩
  | none =>
    rw [ctxOf, hc] at h
    simp [freeSlots, ctxNone] at h

/-! ### One pre-emption request (R189, R336) -/

section
variable (s : State) (id n : Nat) (code : Byte)

theorem requestStop_kcs : (requestStop s id n code).kcs =
    s.kcs.map fun k => if k.id = id then { k with status := .stopping code, slotNo := some n } else k := rfl

theorem requestStop_stopsOnly : StopsOnly s (requestStop s id n code) where
  kcs := by
    rw [requestStop_kcs, List.map_map]
    refine List.map_congr_left fun k _ => ?_
    simp only [Function.comp]
    split <;> rfl
  groups := by
    change (s.groups.map _).map standing = _
    rw [List.map_map]
    refine List.map_congr_left fun g _ => ?_
    simp only [Function.comp]
    split <;> rfl
  mem := rfl

end

theorem slotsLeft_requestStop {s : State} {id n : Nat} (code : Byte) (h : n ∈ freeSlots (ctxOf s (kcOf s id).asid)) (a : Asid) :
    slotsLeft (requestStop s id n code) a + (if (kcOf s id).asid = a then 1 else 0) = slotsLeft s a := by
  obtain ⟨c, hc⟩ := ctx_of_freeSlot h
  have hctx : ctxOf (requestStop s id n code) a =
      if a = (kcOf s id).asid then { c with slotsUsed := c.slotsUsed ++ [n] } else ctxOf s a :=
    ctxOf_updCtx (f := fun c => { c with slotsUsed := c.slotsUsed ++ [n] }) (fun _ => rfl) hc a
  rw [slotsLeft, hctx]
  by_cases ha : a = (kcOf s id).asid
  · subst ha
    have hgot : ctxOf s (kcOf s id).asid = c := by rw [ctxOf, hc]; rfl
    rw [hgot] at h
    rw [if_pos rfl, if_pos rfl, slotsLeft, hgot]
    exact length_freeSlots_reserve h
  · rw [if_neg ha, if_neg (Ne.symm ha)]
    rfl

/-- A request leaves none of its kernel cluster's entries running, and the others as they are. -/
theorem countP_requestStop {s : State} {id : Nat} {p : Kc → Bool} (hp : ∀ k, p k = true → isRunning k = true)
    (hid : ∀ q ∈ s.kcs, q.id = id → p q = false) (n : Nat) (code : Byte) :
    (requestStop s id n code).kcs.countP p = s.kcs.countP p := by
  rw [requestStop_kcs, List.countP_map]
  refine List.countP_congr fun k hk => ?_
  simp only [Function.comp]
  split
  · next h =>
    have hstopped : p { k with status := .stopping code, slotNo := some n } = false :=
      Bool.eq_false_iff.mpr fun hr => absurd (hp _ hr) (by simp [isRunning])
    rw [hid k hk h, hstopped]
  · rfl

/-! ### A list of kernel clusters is stopped -/

theorem stopAll_stopsOnly (code : Byte) (ks : List Kc) (s : State) : StopsOnly s (stopAll s code ks).1 := by
  induction ks generalizing s with
  | nil => exact .refl s
  | cons k ks ih =>
    rw [stopAll]
    split
    · exact (requestStop_stopsOnly ..).trans (ih _)
    · exact ih s

theorem stopAll_grids (code : Byte) (ks : List Kc) (s : State) : (stopAll s code ks).1.grids = s.grids := by
  induction ks generalizing s with
  | nil => rfl
  | cons k ks ih =>
    rw [stopAll]
    split
    · exact ih _
    · exact ih s

/-- How many kernel clusters of a list are of a context. -/
def ofContext (a : Asid) (ks : List Kc) : Nat := ks.countP fun k => k.asid = a

/-- Where the slots suffice, each kernel cluster takes one of its context. -/
theorem slotsLeft_stopAll (code : Byte) {ks : List Kc} {s : State} (hk : ∀ k ∈ ks, (kcOf s k.id).asid = k.asid)
    (hslots : ∀ a, ofContext a ks ≤ slotsLeft s a) (a : Asid) :
    slotsLeft (stopAll s code ks).1 a + ofContext a ks = slotsLeft s a := by
  induction ks generalizing s with
  | nil => rfl
  | cons k ks ih =>
    obtain ⟨hhere, hrest⟩ := List.forall_mem_cons.mp hk
    have hcount : ∀ b, ofContext b (k :: ks) = ofContext b ks + if k.asid = b then 1 else 0 := fun b => by
      simp [ofContext, List.countP_cons]
    have hfree : freeSlots (ctxOf s k.asid) ≠ [] := fun h0 => by
      have := hslots k.asid
      rw [hcount, if_pos rfl, slotsLeft, h0, List.length_nil] at this
      omega
    obtain ⟨n, ns, hn⟩ := List.exists_cons_of_ne_nil hfree
    have hmem : n ∈ freeSlots (ctxOf s (kcOf s k.id).asid) := by rw [hhere, hn]; exact List.mem_cons_self
    have hone := slotsLeft_requestStop (id := k.id) code hmem
    rw [hhere] at hone
    have hstep : (stopAll s code (k :: ks)).1 = (stopAll (requestStop s k.id n code) code ks).1 := by rw [stopAll, hn]; rfl
    have htail := ih (s := requestStop s k.id n code)
      (fun q hq => (unstopped_asid ((requestStop_stopsOnly s k.id n code).kcOf q.id)).trans (hrest q hq))
      (fun b => by have := hslots b; have := hone b; have := hcount b; omega)
    rw [hstep, hcount]
    have := hone a
    omega

/-- Stops leave running whatever is not of the list. -/
theorem countP_stopAll {p : Kc → Bool} (hp : ∀ k, p k = true → isRunning k = true) (code : Byte) {ks : List Kc} {s : State}
    (hks : ∀ k ∈ ks, ∀ q ∈ s.kcs, q.id = k.id → p q = false) : (stopAll s code ks).1.kcs.countP p = s.kcs.countP p := by
  induction ks generalizing s with
  | nil => rfl
  | cons k ks ih =>
    obtain ⟨hhere, hrest⟩ := List.forall_mem_cons.mp hks
    rw [stopAll]
    split
    · next n _ =>
      refine (ih fun r hr q hq hid => ?_).trans (countP_requestStop hp hhere n code)
      rw [requestStop_kcs] at hq
      obtain ⟨x, hx, rfl⟩ := List.mem_map.mp hq
      split
      · exact Bool.eq_false_iff.mpr fun h => absurd (hp _ h) (by simp [isRunning])
      · next hne => exact hrest r hr x hx (by rwa [if_neg hne] at hid)
    · exact ih hrest

/-- What the check of save slots says (R336). -/
theorem ofContext_le_of_slotsFor {s : State} {ks : List Kc} (h : slotsFor s ks = true) (a : Asid) :
    ofContext a ks ≤ slotsLeft s a := by
  rcases Nat.eq_zero_or_pos (ofContext a ks) with h0 | hpos
  · omega
  · obtain ⟨k, hk, ha⟩ := List.countP_pos_iff.mp hpos
    have hone := List.all_eq_true.mp h k hk
    rw [decide_eq_true_eq] at ha hone
    rwa [ha, ← List.countP_eq_length_filter] at hone

theorem slotsFor_of_ofContext_le {s : State} {ks : List Kc} (h : ∀ a, ofContext a ks ≤ slotsLeft s a) :
    slotsFor s ks = true :=
  List.all_eq_true.mpr fun k _ => decide_eq_true (by
    rw [← List.countP_eq_length_filter]
    exact h k.asid)

end Sys2Proof.Proofs.Stops
end

section
/-! The completion of a grid's boundary (R191, R323): which dies leave, what completes, and the settlement of `gstep`. -/

namespace Sys2Proof.Proofs.Boundaries

open Sys2Proof Sys2Proof.Machine Sys2Proof.Claims Sys2Proof.Proofs.StateRules Sys2Proof.Proofs.Answers Sys2Proof.Proofs.Stops

/-! ### Kernel clusters on the dies that leave -/

/-- Whether a kernel cluster runs for a grid on a die. -/
def runsOn (gid : Word) (d : DieNo) (k : Kc) : Bool :=
  isRunning k && (decide (k.grid = gid) && k.place.any fun p => p.die = d)

/-- Whether a kernel cluster runs for a grid on a die that belongs to the first set of dies and not to the second. -/
def runsOff (gid : Word) (before after : List DieNo) (k : Kc) : Bool :=
  isRunning k && (decide (k.grid = gid) && k.place.any fun p => before.contains p.die && !after.contains p.die)

theorem isRunning_of_runsOn {gid : Word} {d : DieNo} {k : Kc} (h : runsOn gid d k = true) : isRunning k = true :=
  (Bool.and_eq_true_iff.mp h).1

theorem runsOn_place {gid : Word} {d : DieNo} {k : Kc} (h : runsOn gid d k = true) : ∃ p, k.place = some p ∧ p.die = d := by
  simp only [runsOn, Bool.and_eq_true, Option.any_eq_true, decide_eq_true_eq] at h
  exact h.2.2

theorem runsOff_same (gid : Word) (ds : List DieNo) (k : Kc) : runsOff gid ds ds k = false := by
  cases hp : k.place <;> simp [runsOff, hp]

/-- When one more die leaves, what ran on it joins what ran on those that had left. -/
theorem runsOff_remove {gid : Word} {before after : List DieNo} {d : DieNo} (hd : d ∈ after) (hb : d ∈ before) (k : Kc) :
    runsOff gid before (after.filter fun x => x ≠ d) k = (runsOff gid before after k || runsOn gid d k) ∧
      (runsOff gid before after k && runsOn gid d k) = false := by
  cases hp : k.place with
  | none => simp [runsOff, runsOn, hp]
  | some p =>
    by_cases hpd : p.die = d
    · subst hpd
      simp [runsOff, runsOn, hp, hd, hb]
    · simp [runsOff, runsOn, hp, hpd]

/-- The kernel clusters counted by either of two conditions that exclude each other. -/
theorem countP_or_of_disjoint {α : Type} {p q r : α → Bool} (h : ∀ x, r x = (p x || q x) ∧ (p x && q x) = false) (l : List α) :
    l.countP r = l.countP p + l.countP q := by
  induction l with
  | nil => rfl
  | cons x xs ih =>
    obtain ⟨hr, hpq⟩ := h x
    simp only [List.countP_cons, ih, hr]
    cases hp : p x <;> cases hq : q x <;> simp [hp, hq] at hpq ⊢ <;> omega

/-! ### One die leaves (R323) -/

/-- Whether a kernel cluster is placed on a die. -/
def placedOn (d : DieNo) (k : Kc) : Bool := match k.place with | some p => decide (p.die = d) | none => false

/-- The running kernel clusters of a grid on a die. -/
def runningOn (s : State) (gid : Word) (d : DieNo) : List Kc := ((kcsOf s gid).filter (placedOn d)).filter isRunning

theorem runningOn_eq (s : State) (gid : Word) (d : DieNo) : runningOn s gid d = s.kcs.filter (runsOn gid d) := by
  rw [runningOn, kcsOf, List.filter_filter, List.filter_filter]
  refine List.filter_congr fun k _ => ?_
  cases hp : k.place <;> simp [placedOn, runsOn, hp, Bool.and_comm, Bool.and_left_comm, Bool.and_assoc]

theorem mem_runningOn {s : State} {gid : Word} {d : DieNo} {k : Kc} :
    k ∈ runningOn s gid d ↔ k ∈ s.kcs ∧ runsOn gid d k = true := by rw [runningOn_eq, List.mem_filter]

theorem ofContext_filter (a : Asid) (p : Kc → Bool) (l : List Kc) :
    ofContext a (l.filter p) = l.countP fun k => decide (k.asid = a) && p k := by
  rw [ofContext, List.countP_filter]

theorem ofContext_runningOn (a : Asid) (s : State) (gid : Word) (d : DieNo) :
    ofContext a (runningOn s gid d) = s.kcs.countP fun k => decide (k.asid = a) && runsOn gid d k := by
  rw [runningOn_eq, ofContext_filter]

/-- The state in which a die is no longer of a grid's set. -/
def withoutDie (s : State) (gid : Word) (g : Grid) (d : DieNo) : State :=
  updGrid s gid fun x => { x with dies := g.dies.filter fun y => y ≠ d, leaving := x.leaving.filter fun y => y ≠ d }

/-- The state in which a die has left a grid: its kernel clusters there stop, to be saved. -/
def dieLeft (s : State) (gid : Word) (g : Grid) (d : DieNo) : State :=
  (stopAll (withoutDie s gid g d) 6 (runningOn s gid d)).1

/-- A die leaves where the set holds it, DMIN dies stay, and there is a save slot for each of its kernel clusters. -/
def mayLeave (s : State) (gid : Word) (g : Grid) (d : DieNo) : Bool :=
  g.dies.contains d && decide (g.mould.dmin ≤ (g.dies.filter fun x => x ≠ d).length) && slotsFor s (runningOn s gid d)

theorem leaveDie_eq {s : State} {gid : Word} {g : Grid} (h : gridOf? s gid = some g) (d : DieNo) :
    leaveDie s gid d = if mayLeave s gid g d then dieLeft s gid g d else s := by
  simp only [leaveDie, h]
  rfl

theorem dieLeft_stopsOnly (s : State) (gid : Word) (g : Grid) (d : DieNo) : StopsOnly s (dieLeft s gid g d) :=
  (StopsOnly.of_fields (s := s) (t := withoutDie s gid g d) rfl rfl rfl).trans (stopAll_stopsOnly ..)

theorem gridOf?_dieLeft {s : State} {gid : Word} {g : Grid} (h : gridOf? s gid = some g) (d : DieNo) :
    gridOf? (dieLeft s gid g d) gid =
      some { g with dies := g.dies.filter fun y => y ≠ d, leaving := g.leaving.filter fun y => y ≠ d } := by
  rw [gridOf?, dieLeft, stopAll_grids]
  refine (gridOf?_updGrid (f := fun x => { x with
    dies := g.dies.filter fun y => y ≠ d, leaving := x.leaving.filter fun y => y ≠ d }) (fun _ => rfl) s gid gid).trans ?_
  rw [if_pos rfl, h]
  rfl

/-- A kernel cluster that runs on one die is under no identifier that runs on another. -/
theorem runsOn_other {s : State} {gid : Word} {d e : DieNo} (hs : AgreeIds s) (hne : e ≠ d) {k q : Kc}
    (hk : k ∈ runningOn s gid d) (hq : q ∈ s.kcs) (hid : q.id = k.id) : runsOn gid e q = false := by
  obtain ⟨hk, hrun⟩ := mem_runningOn.mp hk
  obtain ⟨p, hp, hpd⟩ := runsOn_place hrun
  refine Bool.eq_false_iff.mpr fun hqe => ?_
  obtain ⟨p', hp', hpe⟩ := runsOn_place hqe
  have hplace := unstopped_place (hs q hq k hk hid)
  rw [hp, hp', Option.some.injEq] at hplace
  exact hne (by rw [← hpe, ← hpd, hplace])

theorem ofContext_runningOn_dieLeft {s : State} {gid : Word} {d e : DieNo} (hs : AgreeIds s) (hne : e ≠ d) (g : Grid)
    (a : Asid) : ofContext a (runningOn (dieLeft s gid g d) gid e) = ofContext a (runningOn s gid e) := by
  rw [ofContext_runningOn, ofContext_runningOn, dieLeft, countP_stopAll]
  · rfl
  · exact fun k hk => isRunning_of_runsOn (Bool.and_eq_true_iff.mp hk).2
  · intro k hk q hq hid
    rw [runsOn_other hs hne hk hq hid, Bool.and_false]

theorem slotsLeft_dieLeft {s : State} {gid : Word} {d : DieNo} (hs : AgreeIds s)
    (hslots : slotsFor s (runningOn s gid d) = true) (g : Grid) (a : Asid) :
    slotsLeft (dieLeft s gid g d) a + ofContext a (runningOn s gid d) = slotsLeft s a := by
  refine slotsLeft_stopAll (s := withoutDie s gid g d) 6 (fun k hk => ?_) (fun b => ofContext_le_of_slotsFor hslots b) a
  obtain ⟨hk, -⟩ := mem_runningOn.mp hk
  obtain ⟨hhere, hid⟩ := kcOf_mem hk
  exact unstopped_asid (hs _ hhere k hk hid)

/-! ### Dies leave one after the other -/

/-- From s, in which grid G has just completed a boundary, to t some dies have left G; D is its set now, and L those of it that
are still to leave. What ran in s on a die that has left holds a save slot in t. -/
structure DiesLeft (s : State) (G : Grid) (t : State) (D L : List DieNo) : Prop where
  grid : gridOf? t G.id = some { G with dies := D, leaving := L }
  stops : StopsOnly s t
  dies : ∀ d ∈ D, d ∈ G.dies
  leaving : ∀ d ∈ L, d ∈ G.leaving
  left : ∀ d ∈ G.leaving, d ∈ L ∨ d ∉ D
  floor : G.mould.dmin ≤ G.dies.length → G.mould.dmin ≤ D.length
  stays : G.dies.length ≤ G.mould.dmin → D = G.dies ∧ L = G.leaving
  running : ∀ d ∈ D, ∀ a, ofContext a (runningOn t G.id d) = ofContext a (runningOn s G.id d)
  slots : ∀ a, slotsLeft t a + ofContext a (s.kcs.filter (runsOff G.id G.dies D)) = slotsLeft s a

theorem DiesLeft.start {s : State} {G : Grid} (h : gridOf? s G.id = some G) : DiesLeft s G s G.dies G.leaving where
  grid := h
  stops := .refl s
  dies _ hd := hd
  leaving _ hd := hd
  left _ hd := .inl hd
  floor h := h
  stays _ := ⟨rfl, rfl⟩
  running _ _ _ := rfl
  slots a := by simp [ofContext, runsOff_same]

theorem DiesLeft.leave {s t : State} {G : Grid} {D L : List DieNo} (hs : AgreeIds s) (h : DiesLeft s G t D L) (d : DieNo) :
    ∃ D' L', DiesLeft s G (leaveDie t G.id d) D' L' := by
  rw [leaveDie_eq h.grid]
  split
  case isFalse => exact ⟨D, L, h⟩
  case isTrue hmay =>
    simp only [mayLeave, Bool.and_eq_true, List.contains_iff_mem, decide_eq_true_eq] at hmay
    obtain ⟨⟨hd, hmin⟩, hslots⟩ := hmay
    have hagree : AgreeIds t := hs.stops h.stops
    refine ⟨D.filter fun x => x ≠ d, L.filter fun x => x ≠ d, gridOf?_dieLeft h.grid d,
      h.stops.trans (dieLeft_stopsOnly ..), ?_, ?_, ?_, fun _ => hmin, ?_, ?_, ?_⟩
    case refine_1 => exact fun e he => h.dies e (List.mem_filter.mp he).1
    case refine_2 => exact fun e he => h.leaving e (List.mem_filter.mp he).1
    case refine_3 =>
      intro e he
      by_cases hed : e = d
      · exact .inr fun hmem => absurd hed (by simpa using (List.mem_filter.mp hmem).2)
      · exact (h.left e he).imp (fun hl => List.mem_filter.mpr ⟨hl, by simpa using hed⟩) fun hn hmem =>
          hn (List.mem_filter.mp hmem).1
    case refine_4 =>
      intro hle
      have hshorter : (D.filter fun x => x ≠ d).length < D.length :=
        List.length_filter_lt_length_iff_exists.mpr ⟨d, hd, by simp⟩
      rw [(h.stays hle).1] at hshorter hmin
      omega
    case refine_5 =>
      intro e he a
      obtain ⟨he, hne⟩ := List.mem_filter.mp he
      exact (ofContext_runningOn_dieLeft hagree (of_decide_eq_true hne) _ a).trans (h.running e he a)
    case refine_6 =>
      intro a
      have hjoin : ofContext a (s.kcs.filter (runsOff G.id G.dies (D.filter fun x => x ≠ d))) =
          ofContext a (s.kcs.filter (runsOff G.id G.dies D)) + ofContext a (runningOn s G.id d) := by
        rw [ofContext_runningOn, ofContext_filter, ofContext_filter]
        refine countP_or_of_disjoint (fun k => ?_) s.kcs
        cases decide (k.asid = a) with
        | false => exact ⟨rfl, rfl⟩
        | true => exact runsOff_remove hd (h.dies d hd) k
      have hleft := slotsLeft_dieLeft hagree hslots { G with dies := D, leaving := L } a
      have hsame := h.running d hd a
      have hbefore := h.slots a
      omega

/-- Any list of dies, of which those leave that may. -/
theorem DiesLeft.leaveAll {s t : State} {G : Grid} {D L : List DieNo} (hs : AgreeIds s) (h : DiesLeft s G t D L)
    (ds : List DieNo) : ∃ D' L', DiesLeft s G (ds.foldl (fun s d => leaveDie s G.id d) t) D' L' := by
  induction ds generalizing t D L with
  | nil => exact ⟨D, L, h⟩
  | cons d ds ih =>
    obtain ⟨D', L', h'⟩ := h.leave hs d
    exact ih h'

/-! ### A boundary completes (R191) -/

/-- Whether a grid's boundary completes: a spine is live, and each that is has arrived. -/
def completes (s : State) (gid : Word) (g : Grid) : Bool :=
  let live := (kcsOf s gid).filter fun k => !k.spine.ended
  !live.isEmpty && live.all fun k => decide (g.boundary < k.spine.gsteps)

/-- A kernel cluster when boundary b of a grid has completed. -/
def goesOn (gid : Word) (b : Nat) (k : Kc) : Kc := if k.grid = gid then { k with spine := passBoundary b k.spine } else k

/-- The state in which a boundary has completed, before any die leaves. -/
def passed (s : State) (gid : Word) (g : Grid) : State :=
  { updGrid s gid fun x => { x with boundary := x.boundary + 1, grow := true } with
    kcs := s.kcs.map (goesOn gid (g.boundary + 1)) }

theorem settleBoundary_none {s : State} {gid : Word} (h : gridOf? s gid = none) : settleBoundary s gid = s := by
  simp only [settleBoundary, h]

theorem settleBoundary_eq {s : State} {gid : Word} {g : Grid} (h : gridOf? s gid = some g) : settleBoundary s gid =
    if completes s gid g then
      (dedup (g.leaving ++ policyDies (passed s gid g) g)).foldl (fun s d => leaveDie s gid d) (passed s gid g)
    else s := by
  simp only [settleBoundary, h]
  rfl

theorem completes_iff {s : State} {gid : Word} {g : Grid} : completes s gid g = true ↔
    (∃ q ∈ s.kcs, q.grid = gid ∧ q.spine.ended = false) ∧
      ∀ q ∈ s.kcs, q.grid = gid → q.spine.ended = false → g.boundary < q.spine.gsteps := by
  have hlive : ∀ k, k ∈ (kcsOf s gid).filter (fun k => !k.spine.ended) ↔ k ∈ s.kcs ∧ k.grid = gid ∧ k.spine.ended = false := by
    simp [kcsOf, and_comm]
  simp only [completes, Bool.and_eq_true, Bool.not_eq_true', List.isEmpty_eq_false_iff_exists_mem, List.all_eq_true, hlive,
    decide_eq_true_eq, and_imp]

/-- A boundary stays open while a live spine has not arrived, or when none is live. -/
theorem settleBoundary_open {s : State} {gid : Word}
    (h : ∀ G, gridOf? s gid = some G →
      (∃ q ∈ s.kcs, q.grid = gid ∧ q.spine.ended = false ∧ q.spine.gsteps ≤ G.boundary) ∨
        ∀ q ∈ s.kcs, q.grid = gid → q.spine.ended = true) : settleBoundary s gid = s := by
  cases hG : gridOf? s gid with
  | none => exact settleBoundary_none hG
  | some G =>
    rw [settleBoundary_eq hG, if_neg]
    rw [completes_iff]
    rintro ⟨⟨q, hq, hgrid, hlive⟩, hall⟩
    rcases h G hG with ⟨r, hr, hgrid', hlive', hle⟩ | hended
    · have := hall r hr hgrid' hlive'
      omega
    · simp [hended q hq hgrid] at hlive

theorem leaveDie_stopsOnly (s : State) (gid : Word) (d : DieNo) : StopsOnly s (leaveDie s gid d) := by
  cases h : gridOf? s gid with
  | none => rw [leaveDie, h]; exact .refl s
  | some g =>
    rw [leaveDie_eq h]
    split
    · exact dieLeft_stopsOnly s gid g d
    · exact .refl s

theorem foldl_leaveDie_stopsOnly (gid : Word) (ds : List DieNo) (s : State) :
    StopsOnly s (ds.foldl (fun s d => leaveDie s gid d) s) := by
  induction ds generalizing s with
  | nil => exact .refl s
  | cons d ds ih => exact (leaveDie_stopsOnly s gid d).trans (ih _)

/-- What the settlement of a boundary can do: nothing, or the boundary completes and kernel clusters may be stopped. -/
theorem settleBoundary_cases (s : State) (gid : Word) : settleBoundary s gid = s ∨
    ∃ g, gridOf? s gid = some g ∧ StopsOnly (passed s gid g) (settleBoundary s gid) := by
  cases h : gridOf? s gid with
  | none => exact .inl (settleBoundary_none h)
  | some g =>
    rw [settleBoundary_eq h]
    split
    · exact .inr ⟨g, rfl, foldl_leaveDie_stopsOnly ..⟩
    · exact .inl rfl

@[simp] theorem passed_groups (s : State) (gid : Word) (g : Grid) : (passed s gid g).groups = s.groups := rfl

theorem gridOf?_passed {s : State} {gid : Word} {g : Grid} (h : gridOf? s gid = some g) :
    gridOf? (passed s gid g) gid = some { g with boundary := g.boundary + 1, grow := true } := by
  refine (gridOf?_updGrid (f := fun x => { x with boundary := x.boundary + 1, grow := true }) (fun _ => rfl) s gid gid).trans ?_
  rw [if_pos rfl, h]
  rfl

/-- A map of kernel clusters that changes spines only. -/
def ChangesSpine (f : Kc → Kc) : Prop := ∀ k, { f k with spine := k.spine } = k

theorem changesSpine_goesOn (gid : Word) (b : Nat) : ChangesSpine (goesOn gid b) := fun k => by
  unfold goesOn
  split <;> rfl

theorem ChangesSpine.comp {f g : Kc → Kc} (hf : ChangesSpine f) (hg : ChangesSpine g) : ChangesSpine (f ∘ g) := fun k =>
  (congrArg (fun x : Kc => { x with spine := k.spine }) (hf (g k))).trans (hg k)

theorem ChangesSpine.id {f : Kc → Kc} (hf : ChangesSpine f) (k : Kc) : (f k).id = k.id := (congrArg Kc.id (hf k) :)

theorem ChangesSpine.grid {f : Kc → Kc} (hf : ChangesSpine f) (k : Kc) : (f k).grid = k.grid := (congrArg Kc.grid (hf k) :)

theorem ChangesSpine.runsOff {f : Kc → Kc} (hf : ChangesSpine f) (gid : Word) (before after : List DieNo) (k : Kc) :
    runsOff gid before after (f k) = runsOff gid before after k :=
  (congrArg (Boundaries.runsOff gid before after) (hf k) :)

theorem ChangesSpine.find {f : Kc → Kc} (hf : ChangesSpine f) (l : List Kc) (id : Nat) :
    (l.map f).find? (fun x => x.id = id) = (l.find? fun x => x.id = id).map f := by
  rw [List.find?_map]
  congr 2
  funext x
  simp only [Function.comp, hf.id]

theorem agreeIds_of_changesSpine {s S : State} {f : Kc → Kc} (hf : ChangesSpine f) (hS : S.kcs = s.kcs.map f)
    (h : ∀ q ∈ s.kcs, ∀ r ∈ s.kcs, q.id = r.id → q = r) : AgreeIds S := by
  intro q hq r hr hid
  obtain ⟨q, hq, rfl⟩ := List.mem_map.mp (hS ▸ hq)
  obtain ⟨r, hr, rfl⟩ := List.mem_map.mp (hS ▸ hr)
  rw [hf.id, hf.id] at hid
  rw [h q (by assumption) r (by assumption) hid]

theorem ofContext_runsOff_map {f : Kc → Kc} (hf : ChangesSpine f) (a : Asid) (gid : Word) (before after : List DieNo)
    (l : List Kc) : ofContext a ((l.map f).filter (runsOff gid before after)) = ofContext a (l.filter (runsOff gid before after)) := by
  rw [ofContext_filter, ofContext_filter, List.countP_map]
  refine List.countP_congr fun k _ => ?_
  have hasid : (f k).asid = k.asid := (congrArg Kc.asid (hf k) :)
  simp only [Function.comp, hasid, hf.runsOff]

/-! ### A group takes a trap (R329) -/

theorem keepsKey_countAtTrap (c : Issue) : KeepsKey fun g => countAtTrap (landAll g) c :=
  KeepsKey.comp (f := fun g => countAtTrap g c) (keepsKey_count c) keepsKey_landAll

/-- A group with nothing in flight stops with the cause that its issue meets. -/
theorem trapTaken_lanes {s : State} {c : Issue} {g : Group} (h : OnLanes s c g) (hflights : g.flights = []) (r : Raise) :
    TrapTaken s (takeTrap s c r) c (trapOf c r) := by
  have hwho := h.who
  have hgroup : groupOf s g.kc g.core g.idx = g := groupOf_here h.here
  have htakes : takeTrap s c r =
      endIssue (stopMember (updGroup s g.kc g.core g.idx fun g => countAtTrap (landAll g) c) c.who (trapOf c r)) c := by
    simp only [takeTrap, hwho, hgroup, h.normal, hasWaiting, hflights]
    rfl
  rw [htakes]
  refine ⟨?_, ?_⟩
  · rw [endIssue_frames, stopMember_frames, frameOf_of_kcs (S := updGroup ..) rfl]
    rfl
  · rw [hwho]
    have hstop := groupOf_stopMember (trapOf c r) (groupHere_updGroup h.here rfl (keepsKey_countAtTrap c))
    exact congrArg Group.trap hstop

/-! ### The meaning of `gstep` on the spine -/

/-- The state in which the issue of a spine's `gstep` has counted. -/
def stepped (s : State) (k : Kc) : State := updSpine s k.id fun sp => { sp with gsteps := sp.gsteps + 1 }

/-- Once counted, a `gstep` goes on or waits, as its boundary has completed or not. -/
def stepOn (s : State) (c : Issue) (kc : Nat) (gid : Word) : State :=
  match gridOf? s gid with
  | none => retireNop s c
  | some g => if (kcOf s kc).spine.gsteps ≤ g.boundary then retireNop s c else blockOn s c (.boundary (kcOf s kc).spine.gsteps)

theorem exec_gstep {s : State} {c : Issue} {k : Kc} (h : OnSpine s c k) : exec .gstep s =
    .next (stepOn (if c.counted then s else settleBoundary (stepped s k) k.grid) c k.id k.grid) := by
  refine (issueBy_some h.cur).trans ?_
  rw [checked_ok (by simp [h.spine]) (poisonedIssue_spine h.spine)]
  simp only [h.id, h.kc]
  rfl

theorem stepOn_through {s : State} {c : Issue} {kc : Nat} {gid : Word} {g : Grid} (hg : gridOf? s gid = some g)
    (hle : (kcOf s kc).spine.gsteps ≤ g.boundary) : stepOn s c kc gid = retireNop s c := by
  simp only [stepOn, hg, if_pos hle]

theorem stepOn_waits {s : State} {c : Issue} {kc : Nat} {gid : Word} {g : Grid} (hg : gridOf? s gid = some g)
    (hlt : g.boundary < (kcOf s kc).spine.gsteps) : stepOn s c kc gid = blockOn s c (.boundary (kcOf s kc).spine.gsteps) := by
  simp only [stepOn, hg, if_neg (Nat.not_le.mpr hlt)]

theorem blockOn_spine {c : Issue} {kc : Nat} (h : c.who = .spine kc) (s : State) (w : Wait) :
    blockOn s c w = endIssue (updSpine s kc fun sp => { sp with wait := some w }) c := by
  rw [blockOn, h]

/-- The first issue of a `gstep` whose boundary stays open. -/
theorem spineWaits_of_open {s : State} {c : Issue} {k : Kc} {G : Grid} (h : OnSpine s c k) (hG : gridOf? s k.grid = some G)
    (hlt : G.boundary < k.spine.gsteps + 1)
    (hopen : ∃ q ∈ s.kcs, q.id ≠ k.id ∧ q.grid = k.grid ∧ q.spine.ended = false ∧ q.spine.gsteps ≤ G.boundary) :
    stepOn (settleBoundary (stepped s k) k.grid) c k.id k.grid =
      blockOn (stepped s k) c (.boundary (k.spine.gsteps + 1)) := by
  have hk : (kcOf (stepped s k) k.id).spine.gsteps = k.spine.gsteps + 1 := by rw [stepped, kcOf_updSpine_same h.here]
  have hstays : settleBoundary (stepped s k) k.grid = stepped s k := by
    refine settleBoundary_open fun G' hG' => .inl ?_
    obtain ⟨q, hq, hid, hgrid, hlive, hle⟩ := hopen
    obtain rfl : G = G' := Option.some.inj (hG.symm.trans hG')
    exact ⟨q, List.mem_map.mpr ⟨q, hq, if_neg hid⟩, hgrid, hlive, hle⟩
  rw [hstays, stepOn_waits (s := stepped s k) hG (hk ▸ hlt), hk]

/-! ### The last live spine arrives -/

/-- The spine of k, when its `gstep` has counted. -/
def countStep (id : Nat) (k : Kc) : Kc := if k.id = id then { k with spine := { k.spine with gsteps := k.spine.gsteps + 1 } } else k

theorem changesSpine_countStep (id : Nat) : ChangesSpine (countStep id) := fun k => by
  unfold countStep
  split <;> rfl

/-- The last live spine of grid G is at its `gstep`: every other one has arrived at the boundary. -/
structure LastArrives (s : State) (c : Issue) (k : Kc) (G : Grid) : Prop where
  issues : OnSpine s c k
  grid : gridOf? s k.grid = some G
  here : k.spine.gsteps = G.boundary
  live : k.spine.ended = false
  unique : ∀ q ∈ s.kcs, ∀ r ∈ s.kcs, q.id = r.id → q = r
  others : ∀ q ∈ s.kcs, q.id ≠ k.id → q.grid = k.grid → q.spine.ended = true ∨ G.boundary < q.spine.gsteps

/-- What a kernel cluster becomes as the boundary completes. -/
def arrived (k : Kc) (G : Grid) : Kc → Kc := goesOn k.grid (G.boundary + 1) ∘ countStep k.id

theorem changesSpine_arrived (k : Kc) (G : Grid) : ChangesSpine (arrived k G) :=
  ChangesSpine.comp (changesSpine_goesOn _ _) (changesSpine_countStep _)

theorem passed_stepped_kcs (s : State) (k : Kc) (G : Grid) :
    (passed (stepped s k) k.grid G).kcs = s.kcs.map (arrived k G) := List.map_map

section
variable {s : State} {c : Issue} {k : Kc} {G : Grid} (h : LastArrives s c k G)
include h

theorem LastArrives.completes : completes (stepped s k) k.grid G = true := by
  have hmem : k ∈ s.kcs := List.mem_of_find?_eq_some h.issues.here
  refine completes_iff.mpr ⟨⟨countStep k.id k, List.mem_map_of_mem hmem, ?_⟩, fun q hq hgrid hlive => ?_⟩
  · rw [countStep, if_pos rfl]
    exact ⟨rfl, h.live⟩
  · obtain ⟨r, hr, rfl⟩ := List.mem_map.mp hq
    by_cases hid : r.id = k.id
    · obtain rfl := h.unique r hr k hmem hid
      simp only [if_pos]
      have := h.here
      omega
    · simp only [if_neg hid] at hgrid hlive ⊢
      exact (h.others r hr hid hgrid).resolve_left (by simp [hlive])

/-- The boundary completes, and dies may leave the grid. -/
theorem LastArrives.settles : ∃ D L, DiesLeft (passed (stepped s k) k.grid G)
    { G with boundary := G.boundary + 1, grow := true } (settleBoundary (stepped s k) k.grid) D L := by
  have hid : G.id = k.grid := gridOf?_id h.grid
  have hgrid : gridOf? (stepped s k) k.grid = some G := h.grid
  rw [settleBoundary_eq hgrid, if_pos h.completes]
  have hpassed := gridOf?_passed hgrid
  have hagree := agreeIds_of_changesSpine (changesSpine_arrived k G) (passed_stepped_kcs s k G) h.unique
  rw [← hid] at hpassed ⊢
  rw [← hid] at hagree
  exact (DiesLeft.start (G := { G with boundary := G.boundary + 1, grow := true }) hpassed).leaveAll hagree _

/-- The spines as the boundary leaves them. -/
theorem LastArrives.here_after {id : Nat} {q : Kc} (hq : s.kcs.find? (fun x => x.id = id) = some q) :
    ∃ r, (settleBoundary (stepped s k) k.grid).kcs.find? (fun x => x.id = id) = some r ∧
      r.spine = (arrived k G q).spine := by
  obtain ⟨D, L, hleft⟩ := h.settles
  have hfind : (passed (stepped s k) k.grid G).kcs.find? (fun x => x.id = id) = some (arrived k G q) := by
    rw [passed_stepped_kcs, (changesSpine_arrived k G).find, hq, Option.map_some]
  obtain ⟨r, hr, hspine⟩ := hleft.stops.here hfind
  exact ⟨r, hr, unstopped_spine hspine⟩

end

theorem passBoundary_gsteps (b : Nat) (sp : Spine) : (passBoundary b sp).gsteps = sp.gsteps := by
  unfold passBoundary
  split
  · split <;> rfl
  · rfl

theorem passBoundary_waiting {b n : Nat} {sp : Spine} (h : sp.wait = some (.boundary n)) (hn : n ≤ b) :
    (passBoundary b sp).wait = none ∧ (passBoundary b sp).pc = sp.pc + 4 := by
  simp only [passBoundary, h, if_pos hn, and_self]

theorem arrived_self_gsteps (k : Kc) (G : Grid) : (arrived k G k).spine.gsteps = k.spine.gsteps + 1 := by
  have hself : countStep k.id k = { k with spine := { k.spine with gsteps := k.spine.gsteps + 1 } } := if_pos rfl
  rw [arrived, Function.comp, hself, goesOn, if_pos (rfl : k.grid = k.grid)]
  exact passBoundary_gsteps _ _

theorem arrived_other {k q : Kc} (hid : q.id ≠ k.id) (hgrid : q.grid = k.grid) (G : Grid) :
    (arrived k G q).spine = passBoundary (G.boundary + 1) q.spine := by
  rw [arrived, Function.comp, countStep, if_neg hid, goesOn, if_pos hgrid]

/-- The dies that leave have a save slot for each kernel cluster that ran there. -/
theorem DiesLeft.slotsFor_leaving {s t : State} {k : Kc} {G : Grid} {D L : List DieNo} (hid : G.id = k.grid)
    (h : DiesLeft (passed (stepped s k) k.grid G) { G with boundary := G.boundary + 1, grow := true } t D L) :
    slotsFor s ((kcsOf s k.grid).filter fun q => isRunning q &&
      (match q.place with | some p => G.dies.contains p.die && !D.contains p.die | none => false)) = true := by
  have hlist : ((kcsOf s k.grid).filter fun q => isRunning q &&
      (match q.place with | some p => G.dies.contains p.die && !D.contains p.die | none => false)) =
        s.kcs.filter (runsOff k.grid G.dies D) := by
    rw [kcsOf, List.filter_filter]
    refine List.filter_congr fun q _ => ?_
    cases hp : q.place <;> simp [runsOff, hp, Bool.and_comm, Bool.and_left_comm, Bool.and_assoc]
  rw [hlist]
  refine slotsFor_of_ofContext_le fun a => ?_
  have hslots := h.slots a
  rw [passed_stepped_kcs, ofContext_runsOff_map (changesSpine_arrived k G)] at hslots
  rw [← hid]
  exact (Nat.le_add_left ..).trans_eq hslots

/-- The last live spine to arrive goes on, and its boundary has completed. -/
theorem stepOn_completes {s : State} {c : Issue} {k : Kc} {G : Grid} (h : LastArrives s c k G) :
    stepOn (settleBoundary (stepped s k) k.grid) c k.id k.grid = retireSpine (settleBoundary (stepped s k) k.grid) c id := by
  obtain ⟨D, L, hleft⟩ := h.settles
  obtain ⟨r, hr, hspine⟩ := h.here_after h.issues.here
  have hgrid := hleft.grid
  rw [gridOf?_id h.grid] at hgrid
  have hle : (kcOf (settleBoundary (stepped s k) k.grid) k.id).spine.gsteps ≤ G.boundary + 1 := by
    rw [kcOf_find hr, hspine, arrived_self_gsteps, h.here]
  rw [stepOn_through hgrid hle, retireNop, h.issues.who]

/-- Settles O17: a `gstep` that has counted waits or goes on by the boundary of its grid; when the last live spine arrives, the
boundary completes, and the dies that leave then do so one by one, each taking the save slots that its kernel clusters need. -/
theorem gridSteps : Obligations.GridSteps := by
  unfold Obligations.GridSteps
  refine ⟨?_, ?_, ?_, ?_, ?_⟩
  case refine_1 =>
    intro s c g h hflights
    refine ⟨_, issueBy_some h.cur, ?_⟩
    have hwrong : ∀ S, Machine.checked s c [(!isSpine c.who, cWrongUnit)] S = trapAll s c cWrongUnit := fun S => by
      simp [Machine.checked, h.notSpine]
    rw [hwrong]
    exact trapTaken_lanes h hflights _
  case refine_2 =>
    intro s c k G h hG hc hle
    obtain ⟨honly, -, hregs⟩ := spine_nop h
    refine ⟨_, exec_gstep h, ?_⟩
    rw [if_pos hc, stepOn_through hG (by rwa [h.kc])]
    exact ⟨honly, hregs⟩
  case refine_3 =>
    intro s c k G h hG hc hlt
    refine ⟨_, exec_gstep h, ?_⟩
    rw [if_pos hc, stepOn_waits hG (by rwa [h.kc]), blockOn_spine h.who, h.kc]
    refine ⟨rfl, ?_⟩
    rw [kcOf_of_kcs (endIssue_kcs _ c), kcOf_updSpine_same h.here]
  case refine_4 =>
    intro s c k G h hG hc hlt hopen
    refine ⟨_, exec_gstep h, ?_⟩
    rw [if_neg (by simp [hc]), spineWaits_of_open h hG hlt hopen, blockOn_spine h.who]
    refine ⟨?_, ?_⟩
    · rfl
    · rw [kcOf_of_kcs (endIssue_kcs _ c), stepped, kcOf_updSpine_same (find_updSpine_same h.here)]
  case refine_5 =>
    intro s c k G h hG hc hhere hlive hunique hothers
    have hlast : LastArrives s c k G := ⟨h, hG, hhere, hlive, hunique, hothers⟩
    obtain ⟨D, L, hleft⟩ := hlast.settles
    obtain ⟨r, hr, hspine⟩ := hlast.here_after h.here
    have hkc := kcOf_retireSpine h.who hr id
    refine ⟨_, exec_gstep h, ?_⟩
    rw [if_neg (by simp [hc]), stepOn_completes hlast]
    refine ⟨⟨D, L, ?_, hleft.dies, hleft.leaving, hleft.left, hleft.floor, hleft.slotsFor_leaving (gridOf?_id hG),
      hleft.stays⟩, hleft.stops.mem, ?_, ?_, ?_, ?_⟩
    · exact gridOf?_id hG ▸ hleft.grid
    · rw [hkc]
      exact (congrArg Spine.gsteps hspine).trans (arrived_self_gsteps k G)
    · rw [hkc]; rfl
    · rw [hkc]; rfl
    · intro q n hq hid hgrid hwait hn
      obtain ⟨x, hx, hxs⟩ := hlast.here_after hq
      have hq' : kcOf (retireSpine (settleBoundary (stepped s k) k.grid) c id) q.id = x := by
        rw [retireSpine, retireSpineTo, kcOf_of_kcs (endIssue_kcs _ c), h.id, kcOf_updSpine_other hid, kcOf_find hx]
      rw [hq', hxs, arrived_other hid hgrid]
      exact passBoundary_waiting hwait hn

end Sys2Proof.Proofs.Boundaries
end

section
/-! What the device's own accesses and the completion of a launch change (R248, R302, R316, R328): members and grids stay,
contexts keep their descriptors, and memory changes at the word that is stored and in the touched-dies mask alone. -/

namespace Sys2Proof.Proofs.Completions

open Sys2Proof Sys2Proof.Machine Sys2Proof.Claims Sys2Proof.Proofs.Stops

/-! ### Changes that keep members, grids and descriptors -/

/-- From s to t members and grids stay as they are, and each context's descriptor lies where it lay. -/
structure KeepsMembers (s t : State) : Prop where
  kcs : t.kcs = s.kcs
  groups : t.groups = s.groups
  grids : t.grids = s.grids
  descs : ∀ a, (ctxOf? t a).map Ctx.desc = (ctxOf? s a).map Ctx.desc

theorem KeepsMembers.of_fields {s t : State} (hk : t.kcs = s.kcs) (hg : t.groups = s.groups) (hgr : t.grids = s.grids)
    (hc : t.ctxs = s.ctxs) : KeepsMembers s t := ⟨hk, hg, hgr, fun a => by rw [ctxOf?, hc, ctxOf?]⟩

theorem KeepsMembers.refl (s : State) : KeepsMembers s s := .of_fields rfl rfl rfl rfl

theorem KeepsMembers.trans {s t u : State} (h : KeepsMembers s t) (h' : KeepsMembers t u) : KeepsMembers s u :=
  ⟨h'.kcs.trans h.kcs, h'.groups.trans h.groups, h'.grids.trans h.grids, fun a => (h'.descs a).trans (h.descs a)⟩

/-- A change of contexts that leaves each where it is. -/
theorem descs_updCtx {f : Ctx → Ctx} (hf : ∀ x, (f x).asid = x.asid ∧ (f x).desc = x.desc) (s : State) (a b : Asid) :
    (ctxOf? (updCtx s a f) b).map Ctx.desc = (ctxOf? s b).map Ctx.desc := by
  rw [ctxOf?_updCtx fun x => (hf x).1]
  split
  · rw [Option.map_map]
    exact congrArg (Option.map · _) (funext fun x => (hf x).2)
  · rfl

theorem keepsMembers_updCtx {f : Ctx → Ctx} (hf : ∀ x, (f x).asid = x.asid ∧ (f x).desc = x.desc) (s : State) (a : Asid) :
    KeepsMembers s (updCtx s a f) := ⟨rfl, rfl, rfl, descs_updCtx hf s a⟩

theorem KeepsMembers.desc {s t : State} (h : KeepsMembers s t) {a : Asid} {c C : Ctx} (ht : ctxOf? t a = some c)
    (hs : ctxOf? s a = some C) : c.desc = C.desc := by
  have := h.descs a
  rw [ht, hs] at this
  exact Option.some.inj this

/-! ### Memory, translation and doorbells -/

theorem noteStore_keepsMembers (s : State) (pa n : Nat) : KeepsMembers s (noteStore s pa n) := by
  unfold noteStore
  dsimp only
  split
  · exact .refl s
  · split
    · exact .refl s
    · exact .of_fields rfl rfl rfl rfl

theorem memWrite_keepsMembers (s : State) (pa : Nat) (bytes : List Byte) : KeepsMembers s (memWrite s pa bytes) := by
  unfold memWrite
  refine KeepsMembers.trans ?_ (noteStore_keepsMembers _ pa bytes.length)
  exact .of_fields rfl rfl rfl rfl

theorem memWriteNat_keepsMembers (s : State) (pa n v : Nat) : KeepsMembers s (memWriteNat s pa n v) := memWrite_keepsMembers ..

theorem memWrite_counts (s : State) (pa : Nat) (bytes : List Byte) : (memWrite s pa bytes).tund.counts = s.tund.counts := by
  unfold memWrite noteStore
  dsimp only
  split
  · rfl
  · split <;> rfl

theorem allocate_keepsMembers {s t : State} {c : Ctx} {va pte : Nat} {cls : BitVec 2} (h : allocate s c va pte cls = .ok t) :
    KeepsMembers s t := by
  simp only [allocate] at h
  split at h
  · cases h
  · split at h
    · cases h
    · injection h with h
      subst h
      refine KeepsMembers.trans (KeepsMembers.trans ?_ (memWriteNat_keepsMembers _ _ _ _)) (memWriteNat_keepsMembers _ _ _ _)
      exact .of_fields rfl rfl rfl rfl

/-- Either branch of a choice keeps what both keep. -/
theorem keepsMembers_ite {α : Type} {s : State} {p : Prop} [Decidable p] {x y : State × α} (hx : KeepsMembers s x.1)
    (hy : KeepsMembers s y.1) : KeepsMembers s (if p then x else y).1 := by
  split
  · exact hx
  · exact hy

theorem translate_keepsMembers (s : State) (c : Ctx) (va : Nat) : KeepsMembers s (Machine.translate s c va).1 := by
  unfold Machine.translate
  generalize walkBoth s c va = w
  dsimp only
  have hfresh : ∀ x : Xlate, KeepsMembers s (if x.aot.isSome then s else
      { s with tlb := ⟨c.asid, c.epoch, va / 65536, x.pa / 65536, x.r, x.w, x.x, x.cls, x.span⟩ ::
        s.tlb.filter fun e => !(e.asid = c.asid && e.page = va / 65536) }) := by
    intro x
    split
    · exact .refl s
    · exact .of_fields rfl rfl rfl rfl
  cases w with
  | error e =>
    split
    · exact .refl s
    · exact keepsMembers_ite (.refl s) (keepsMembers_ite (.refl s) (.refl s))
  | ok x =>
    split
    · exact hfresh x
    · exact keepsMembers_ite (hfresh x) (keepsMembers_ite (.refl s) (hfresh x))

theorem resolvePart_keepsMembers (s : State) (c : Ctx) (need : Need) (feat : Bool) (va n : Nat) :
    KeepsMembers s (resolvePart s c need feat va n).1 := by
  have htr := translate_keepsMembers s c va
  unfold resolvePart
  generalize Machine.translate s c va = r at htr ⊢
  obtain ⟨u, e | x⟩ := r
  · exact htr
  · refine keepsMembers_ite htr ?_
    cases x.aot with
    | some pte =>
      dsimp only
      cases hal : allocate u c va pte x.cls with
      | error code => exact htr
      | ok t =>
        have hboth := htr.trans (allocate_keepsMembers hal)
        dsimp only
        cases walkBoth t c va with
        | error e => exact hboth
        | ok x => exact keepsMembers_ite hboth hboth
    | none =>
      refine keepsMembers_ite htr (keepsMembers_ite htr (keepsMembers_ite htr ?_))
      cases wayOf x.pa x.cls with
      | door a i off => exact keepsMembers_ite htr htr
      | mem pa cls => exact htr
      | window w off => exact htr
      | fabric dev exp off => exact htr

theorem resolve_keepsMembers (s : State) (c : Ctx) (need : Need) (feat : Bool) (va n : Nat) :
    KeepsMembers s (resolve s c need feat va n).1 := by
  have hpart := fun s va n => resolvePart_keepsMembers s c need feat va n
  unfold resolve
  dsimp only
  split
  · have h1 := hpart s va n
    split <;> simp_all
  · have h1 := hpart s va (65536 - va % 65536)
    generalize resolvePart s c need feat va (65536 - va % 65536) = r at h1 ⊢
    have h2 := h1.trans (hpart r.1 ((va + (65536 - va % 65536)) % 2 ^ 48) (n - (65536 - va % 65536)))
    generalize resolvePart r.1 c need feat ((va + (65536 - va % 65536)) % 2 ^ 48) (n - (65536 - va % 65536)) = r' at h2 ⊢
    split <;> exact h2

theorem touch_keepsMembers (s : State) (c : Ctx) (d : DieNo) : KeepsMembers s (touch s c d) := by
  unfold touch
  dsimp only
  split
  · exact .refl s
  · exact .of_fields rfl rfl rfl rfl

theorem ctxWrite_keepsMembers (s : State) (c : Ctx) (pa : Nat) (cls : BitVec 2) (bytes : List Byte) :
    KeepsMembers s (ctxWrite s c pa cls bytes) := by
  unfold ctxWrite
  dsimp only
  split
  · refine KeepsMembers.trans (KeepsMembers.trans (touch_keepsMembers s c (homeDie pa)) ?_) (memWrite_keepsMembers _ pa bytes)
    exact keepsMembers_updCtx (f := fun x => { x with
      dirty := x.dirty ||| dieBit (homeDie pa), lines := dedup (x.lines ++ linesOf pa bytes.length) })
      (fun _ => ⟨rfl, rfl⟩) (touch s c (homeDie pa)) c.asid
  · exact memWrite_keepsMembers ..

theorem ringOnce_keepsMembers (s : State) (a : Asid) (i : Nat) (rel : Bool) : KeepsMembers s (ringOnce s a i rel) := by
  unfold ringOnce
  split
  · split <;> exact .of_fields rfl rfl rfl rfl
  · split
    · exact .refl s
    · split
      · exact .of_fields rfl rfl rfl rfl
      · split
        · exact keepsMembers_updCtx (f := fun c => { c with counted := amModify 0 c.counted i fun n => (n + 1) % 2 ^ 64 })
            (fun _ => ⟨rfl, rfl⟩) s a
        · split <;> exact .of_fields rfl rfl rfl rfl

theorem quietStore_keepsMembers {s t : State} {c : Ctx} {va : Nat} {bytes : List Byte} (h : quietStore s c va bytes = some t) :
    KeepsMembers s t := by
  have hres := resolve_keepsMembers s c { w := true } true va bytes.length
  unfold quietStore at h
  generalize resolve s c { w := true } true va bytes.length = r at h hres
  split at h
  · next u p =>
    split at h
    · split at h
      · cases h
      · injection h with h
        subst h
        exact hres.trans (ctxWrite_keepsMembers ..)
    · injection h with h
      subst h
      exact hres.trans (ringOnce_keepsMembers ..)
    · obtain ⟨tg, -, rfl⟩ := Option.map_eq_some_iff.mp h
      exact hres.trans (.of_fields rfl rfl rfl rfl)
  · cases h

/-! ### Bytes of memory -/

/-- An address outside the word of a descriptor that holds the touched-dies mask (R328). -/
def BesideMask (desc a : Nat) : Prop := a < desc + 0x58 ∨ desc + 0x60 ≤ a

theorem length_natToBytes (n v : Nat) : (natToBytes n v).length = n := by
  induction n generalizing v with
  | zero => rfl
  | succ n ih => rw [natToBytes, List.length_cons, ih]

theorem getD_natToBytes {n i : Nat} (h : i < n) (v : Nat) : (natToBytes n v).getD i 0 = BitVec.ofNat 8 (v / 2 ^ (8 * i)) := by
  induction n generalizing i v with
  | zero => omega
  | succ n ih =>
    cases i with
    | zero => simp [natToBytes]
    | succ i =>
      rw [natToBytes, List.getD_cons_succ, ih (by omega), Nat.div_div_eq_div_mul]
      congr 2
      rw [show 8 * (i + 1) = 8 + 8 * i by omega, pow_add]
      rfl

/-- A number written into the word of the mask leaves every other byte. -/
theorem amGet_putNat_beside {desc a n : Nat} (h : BesideMask desc a) (hn : n ≤ 8) (m : AMap Byte) (v : Nat) :
    amGet 0 (putNat m (desc + 0x58) n v) a = amGet 0 m a := by
  refine amGet_putBytes_outside m _ _ ?_
  rw [length_natToBytes]
  unfold BesideMask at h
  omega

theorem memByte_touch {c : Ctx} {a : Nat} (h : BesideMask c.desc a) (s : State) (d : DieNo) :
    memByte (touch s c d) a = memByte s a := by
  unfold touch
  dsimp only
  split
  · rfl
  · exact amGet_putNat_beside h (by omega) s.mem _

theorem memByte_ctxWrite {c : Ctx} {a : Nat} (h : BesideMask c.desc a) (s : State) (pa : Nat) (cls : BitVec 2)
    (bytes : List Byte) : memByte (ctxWrite s c pa cls bytes) a =
      if pa ≤ a ∧ a < pa + bytes.length then bytes.getD (a - pa) 0 else memByte s a := by
  unfold ctxWrite
  dsimp only
  split
  · rw [memByte_memWrite]
    exact congrArg (ite _ _) (memByte_touch h s _)
  · exact memByte_memWrite ..

theorem ctxWrite_counts (s : State) (c : Ctx) (pa : Nat) (cls : BitVec 2) (bytes : List Byte) :
    (ctxWrite s c pa cls bytes).tund.counts = s.tund.counts := by
  have htouch : (touch s c (homeDie pa)).tund = s.tund := by
    unfold touch
    dsimp only
    split <;> rfl
  unfold ctxWrite
  dsimp only
  split
  · rw [memWrite_counts]
    exact congrArg Tundish.counts htouch
  · exact memWrite_counts ..

/-! ### Dependence counters (R316) -/

theorem setCounter_keepsMembers (s : State) (n : Nat) (v : BitVec 16) : KeepsMembers s (setCounter s n v) := by
  unfold setCounter
  dsimp only
  split <;> exact .of_fields rfl rfl rfl rfl

theorem setCounter_mem (s : State) (n : Nat) (v : BitVec 16) : (setCounter s n v).mem = s.mem := by
  unfold setCounter
  dsimp only
  split <;> rfl

theorem setCounter_counts (s : State) (n : Nat) (v : BitVec 16) :
    (setCounter s n v).tund.counts = amSet 0 s.tund.counts n v := by
  unfold setCounter
  dsimp only
  split <;> rfl

theorem decCounter_keepsMembers (s : State) (n : Nat) : KeepsMembers s (decCounter s n) := by
  unfold decCounter
  dsimp only
  split
  · exact .refl s
  · exact setCounter_keepsMembers ..

theorem decCounter_mem (s : State) (n : Nat) : (decCounter s n).mem = s.mem := by
  unfold decCounter
  dsimp only
  split
  · rfl
  · exact setCounter_mem ..

theorem counterFalls_decCounter (s : State) (n : Nat) : CounterFalls s (decCounter s n) n := by
  intro j
  unfold decCounter
  dsimp only
  split
  · next h0 => rw [if_neg fun h => h.2 (h.1 ▸ h0)]
  · next h0 =>
    rw [setCounter_counts, amGet_amSet]
    by_cases hj : j = n
    · subst hj
      rw [if_pos rfl, if_pos ⟨rfl, h0⟩]
    · rw [if_neg hj, if_neg fun h => hj h.1]

/-! ### The completion of a launch (R302) -/

/-- The state in which the completion word of a launch has been stored, or lost. -/
def wordStored (s : State) (l : Launch) (status cause : Nat) : State :=
  if recField l.bytes 0x18 8 = 0 then s
  else
    match ctxOf? s l.asid with
    | none => addDrops s l.queue 1
    | some c => (quietStore s c (recField l.bytes 0x18 8) (natToBytes 8 (status + 256 * cause))).getD (addDrops s l.queue 1)

/-- The state in which the launch has decremented the counter that it signals. -/
def signalled (s : State) (l : Launch) : State :=
  if bitOf (recHeader l.bytes) 10 then decCounter s (bitsOf (recHeader l.bytes) 39 28) else s

theorem completeLaunch_eq (s : State) (l : Launch) (status cause : Nat) :
    completeLaunch s l status cause = signalled (wordStored s l status cause) l := rfl

theorem wordStored_keepsMembers (s : State) (l : Launch) (status cause : Nat) : KeepsMembers s (wordStored s l status cause) := by
  unfold wordStored
  split
  · exact .refl s
  · split
    · exact .of_fields rfl rfl rfl rfl
    · next c _ =>
      cases hq : quietStore s c (recField l.bytes 0x18 8) (natToBytes 8 (status + 256 * cause)) with
      | none => exact .of_fields rfl rfl rfl rfl
      | some u => exact quietStore_keepsMembers hq

theorem signalled_keepsMembers (s : State) (l : Launch) : KeepsMembers s (signalled s l) := by
  unfold signalled
  split
  · exact decCounter_keepsMembers ..
  · exact .refl s

theorem completeLaunch_keepsMembers (s : State) (l : Launch) (status cause : Nat) :
    KeepsMembers s (completeLaunch s l status cause) :=
  (wordStored_keepsMembers s l status cause).trans (signalled_keepsMembers _ l)

theorem signalled_mem (s : State) (l : Launch) : (signalled s l).mem = s.mem := by
  unfold signalled
  split
  · exact decCounter_mem ..
  · rfl

/-- Where DONE leads to device memory, the word is stored there. -/
theorem wordStored_memory {s u : State} {l : Launch} {C : Ctx} {pa va : Nat} {cls : BitVec 2} (hC : ctxOf? s l.asid = some C)
    (hdone : recField l.bytes 0x18 8 ≠ 0) (hcls : cls ≠ 1)
    (hres : resolve s C { w := true } true (recField l.bytes 0x18 8) 8 = (u, .ok [⟨.mem pa cls, 0, 8, va⟩])) (status cause : Nat) :
    wordStored s l status cause = ctxWrite u C pa cls (natToBytes 8 (status + 256 * cause)) := by
  have hstore : quietStore s C (recField l.bytes 0x18 8) (natToBytes 8 (status + 256 * cause)) =
      some (ctxWrite u C pa cls (natToBytes 8 (status + 256 * cause))) := by
    rw [quietStore, length_natToBytes, hres]
    simp only [decide_eq_false hcls, Bool.false_and, Bool.false_eq_true, if_false]
  rw [wordStored, if_neg hdone]
  simp only [hC, hstore, Option.getD_some]

/-- With SIG the counter SCNT falls, and without it none does. -/
theorem signalled_counts {s S : State} {l : Launch} (h : s.tund.counts = S.tund.counts) :
    if (recHeader l.bytes).getLsbD 10 then CounterFalls S (signalled s l) ((recHeader l.bytes).extractLsb' 28 12).toNat
    else (signalled s l).tund.counts = S.tund.counts := by
  have hfield : bitsOf (recHeader l.bytes) 39 28 = ((recHeader l.bytes).extractLsb' 28 12).toNat := by
    rw [BitVec.extractLsb'_toNat, Nat.shiftRight_eq_div_pow]
    rfl
  unfold signalled bitOf
  rw [hfield]
  split
  · intro j
    rw [← h]
    exact counterFalls_decCounter s _ j
  · exact h

/-! ### The end of a context's last grid (R328) -/

theorem untouchIfIdle_kcs (s : State) (a : Asid) : (untouchIfIdle s a).kcs = s.kcs := by
  unfold untouchIfIdle
  split
  · rfl
  · split <;> rfl

theorem untouchIfIdle_groups (s : State) (a : Asid) : (untouchIfIdle s a).groups = s.groups := by
  unfold untouchIfIdle
  split
  · rfl
  · split <;> rfl

theorem untouchIfIdle_grids (s : State) (a : Asid) : (untouchIfIdle s a).grids = s.grids := by
  unfold untouchIfIdle
  split
  · rfl
  · split <;> rfl

theorem untouchIfIdle_tund (s : State) (a : Asid) : (untouchIfIdle s a).tund = s.tund := by
  unfold untouchIfIdle
  split
  · rfl
  · split <;> rfl

theorem memByte_untouchIfIdle {s : State} {asid : Asid} {desc a : Nat} (hdesc : ∀ c, ctxOf? s asid = some c → c.desc = desc)
    (h : BesideMask desc a) : memByte (untouchIfIdle s asid) a = memByte s a := by
  unfold untouchIfIdle
  split
  · rfl
  · split
    · next c hc =>
      refine amGet_putNat_beside (hdesc c hc ▸ h) (by omega) s.mem 0
    · rfl

theorem completed_completeLaunch {s : State} {l : Launch} {C : Ctx} (hC : ctxOf? s l.asid = some C) (status cause : Nat) :
    Completed s (untouchIfIdle (completeLaunch s l status cause) l.asid) l C status cause := by
  have hdesc : ∀ c, ctxOf? (completeLaunch s l status cause) l.asid = some c → c.desc = C.desc := fun c hc =>
    (completeLaunch_keepsMembers s l status cause).desc hc hC
  have hmem : ∀ a, BesideMask C.desc a → memByte (untouchIfIdle (completeLaunch s l status cause) l.asid) a =
      memByte (wordStored s l status cause) a := fun a ha => by
    rw [memByte_untouchIfIdle hdesc ha, memByte, completeLaunch_eq, signalled_mem]
    rfl
  refine ⟨fun hdone a ha => ?_, fun u pa cls va hdone hcls hres a ha => ?_, fun hstored => ?_⟩
  · rw [hmem a ha, wordStored, if_pos hdone]
  · rw [hmem a ha, wordStored_memory hC hdone hcls hres, memByte_ctxWrite ha, length_natToBytes]
    split
    · next hin => exact getD_natToBytes (by omega) _
    · rfl
  · rw [CounterFalls, untouchIfIdle_tund, completeLaunch_eq]
    refine signalled_counts (s := wordStored s l status cause) ?_
    rcases hstored with hdone | ⟨u, pa, cls, va, hcls, hres, htund⟩
    · rw [wordStored, if_pos hdone]
    · by_cases hdone : recField l.bytes 0x18 8 = 0
      · rw [wordStored, if_pos hdone]
      · rw [wordStored_memory hC hdone hcls hres, ctxWrite_counts, htund]

end Sys2Proof.Proofs.Completions
end

section
/-! How a kernel cluster and a grid leave the device (R183, R302): what the tables hold afterwards, what memory keeps, and
when the end of a thread ends its kernel cluster. -/

namespace Sys2Proof.Proofs.Departures

open Sys2Proof Sys2Proof.Machine Sys2Proof.Claims Sys2Proof.Proofs.StateRules Sys2Proof.Proofs.Stops
  Sys2Proof.Proofs.Boundaries Sys2Proof.Proofs.Completions

/-! ### What a kernel cluster's end writes to memory -/

/-- From s to t only memory changes. -/
def OnlyMem (s t : State) : Prop := { t with mem := s.mem } = s

theorem OnlyMem.trans {s t u : State} (h : OnlyMem s t) (h' : OnlyMem t u) : OnlyMem s u :=
  (congrArg (fun x : State => { x with mem := s.mem }) (show { u with mem := t.mem } = t from h') :).trans h

/-- Whatever of a state does not speak of memory is as before. -/
theorem OnlyMem.same {s t : State} {α : Type} (h : OnlyMem s t) (f : State → α) : f { t with mem := s.mem } = f s := congrArg f h

theorem leftDie_onlyMem (s : State) (k : Kc) : OnlyMem s (leftDie s k) := by
  unfold leftDie
  dsimp only
  split
  · split <;> rfl
  · rfl

/-- A deque of a kernel cluster that ends with it is one record less for its queue's completer (R311). -/
def lose (s : State) (r : DequeRec) : State := match r.queue with | some q => addDrops s q 1 | none => s

theorem foldl_lose_onlyMem (rs : List DequeRec) (s : State) : OnlyMem s (rs.foldl lose s) := by
  induction rs generalizing s with
  | nil => rfl
  | cons r rs ih =>
    have hone : OnlyMem s (lose s r) := by
      unfold lose
      split <;> rfl
    exact hone.trans (ih _)

/-- The state in which the end of a kernel cluster is noted in memory. -/
def noted (s : State) (id : Nat) : State :=
  ((leftDie s (kcOf s id)).deques.filter fun r => r.kc = id).foldl lose (leftDie s (kcOf s id))

theorem noted_onlyMem (s : State) (id : Nat) : OnlyMem s (noted s id) :=
  (leftDie_onlyMem s (kcOf s id)).trans (foldl_lose_onlyMem _ _)

/-! ### A kernel cluster is gone -/

section
variable (s : State) (id : Nat)

theorem dropKc_kcs : (dropKc s id).kcs = s.kcs.filter fun x => x.id ≠ id :=
  (noted_onlyMem s id).same fun x => x.kcs.filter fun q : Kc => q.id ≠ id

theorem dropKc_groups : (dropKc s id).groups = s.groups.filter fun g => g.kc ≠ id :=
  (noted_onlyMem s id).same fun x => x.groups.filter fun g : Group => g.kc ≠ id

theorem dropKc_grids : (dropKc s id).grids = s.grids := (noted_onlyMem s id).same State.grids

theorem dropKc_tund : (dropKc s id).tund = s.tund := (noted_onlyMem s id).same State.tund

theorem dropKc_mem : (dropKc s id).mem = (noted s id).mem := rfl

end

theorem mem_dropKc_kcs {s : State} {id : Nat} {q : Kc} : q ∈ (dropKc s id).kcs ↔ q ∈ s.kcs ∧ q.id ≠ id := by
  rw [dropKc_kcs, List.mem_filter, decide_eq_true_eq]

theorem mem_dropKc_groups {s : State} {id : Nat} {g : Group} : g ∈ (dropKc s id).groups ↔ g ∈ s.groups ∧ g.kc ≠ id := by
  rw [dropKc_groups, List.mem_filter, decide_eq_true_eq]

theorem gridOf?_dropKc (s : State) (id : Nat) (gid : Word) : gridOf? (dropKc s id) gid = gridOf? s gid := by
  rw [gridOf?, dropKc_grids, gridOf?]

/-- Of a kernel cluster with no deque, memory beside its context's touched-dies mask says nothing when it is gone. -/
theorem memByte_dropKc {s : State} {id desc a : Nat} (hdeques : ∀ r ∈ s.deques, r.kc ≠ id)
    (hdesc : ∀ c, ctxOf? s (kcOf s id).asid = some c → c.desc = desc) (ha : BesideMask desc a) :
    memByte (dropKc s id) a = memByte s a := by
  have hnone : (leftDie s (kcOf s id)).deques.filter (fun r => r.kc = id) = [] := by
    rw [show (leftDie s (kcOf s id)).deques = s.deques from (leftDie_onlyMem s (kcOf s id)).same State.deques]
    simpa using hdeques
  have hmem : (dropKc s id).mem = (leftDie s (kcOf s id)).mem := by rw [dropKc_mem, noted, hnone]; rfl
  rw [memByte, hmem]
  unfold leftDie
  dsimp only
  split
  · next p c hp hc =>
    split
    · exact amGet_putNat_beside (hdesc c hc ▸ ha) (by omega) s.mem _
    · rfl
  · rfl

/-! ### A grid is gone -/

section
variable (ks : List Kc) (s : State)

theorem mem_foldl_dropKc {q : Kc} : q ∈ (ks.foldl (fun s k => dropKc s k.id) s).kcs ↔ q ∈ s.kcs ∧ ∀ k ∈ ks, q.id ≠ k.id := by
  induction ks generalizing s with
  | nil => simp
  | cons k ks ih => rw [List.foldl_cons, ih, mem_dropKc_kcs, List.forall_mem_cons, and_assoc]

theorem mem_groups_of_foldl_dropKc {g : Group} (h : g ∈ (ks.foldl (fun s k => dropKc s k.id) s).groups) : g ∈ s.groups := by
  induction ks generalizing s with
  | nil => exact h
  | cons k ks ih => exact (mem_dropKc_groups.mp (ih (dropKc s k.id) h)).1

theorem foldl_dropKc_grids : (ks.foldl (fun s k => dropKc s k.id) s).grids = s.grids := by
  induction ks generalizing s with
  | nil => rfl
  | cons k ks ih => exact (ih (dropKc s k.id)).trans (dropKc_grids s k.id)

end

theorem removeGrid_grids (s : State) (g : Grid) : (removeGrid s g).grids = s.grids.filter fun x => x.id ≠ g.id :=
  congrArg (List.filter fun x : Grid => x.id ≠ g.id) (foldl_dropKc_grids (s.kcs.filter fun k => k.grid = g.id) s)

theorem mem_removeGrid_kcs {s : State} {g : Grid} {q : Kc} (h : q ∈ (removeGrid s g).kcs) : q ∈ s.kcs ∧ q.grid ≠ g.id := by
  obtain ⟨hq, hother⟩ := (mem_foldl_dropKc (s.kcs.filter fun k => k.grid = g.id) s).mp h
  exact ⟨hq, fun hgrid => hother q (List.mem_filter.mpr ⟨hq, decide_eq_true hgrid⟩) rfl⟩

theorem mem_groups_of_removeGrid {s : State} {g : Grid} {x : Group} (h : x ∈ (removeGrid s g).groups) : x ∈ s.groups :=
  mem_groups_of_foldl_dropKc (s.kcs.filter fun k => k.grid = g.id) s h

/-- A grid none of whose kernel clusters is left takes nothing but its entry of the table, and what it was charged. -/
theorem removeGrid_of_empty {s : State} {g : Grid} (h : ∀ q ∈ s.kcs, q.grid ≠ g.id) :
    (removeGrid s g).mem = s.mem ∧ (removeGrid s g).tund = s.tund := by
  have hnone : s.kcs.filter (fun k => k.grid = g.id) = [] := by simpa using h
  unfold removeGrid
  rw [hnone]
  exact ⟨rfl, rfl⟩

/-! ### A grid ends (R302) -/

theorem endGrid_eq {s : State} {gid : Word} {G : Grid} (h : gridOf? s gid = some G) (status cause : Nat) :
    endGrid s gid status cause = untouchIfIdle (completeLaunch (removeGrid s G) G.launch status cause) G.asid := by
  simp only [endGrid, h]
  rfl

section
variable {s : State} {gid : Word} {G : Grid} (h : gridOf? s gid = some G) (status cause : Nat)
include h

theorem endGrid_kcs : (endGrid s gid status cause).kcs = (removeGrid s G).kcs := by
  rw [endGrid_eq h, untouchIfIdle_kcs, (completeLaunch_keepsMembers ..).kcs]

theorem endGrid_groups : (endGrid s gid status cause).groups = (removeGrid s G).groups := by
  rw [endGrid_eq h, untouchIfIdle_groups, (completeLaunch_keepsMembers ..).groups]

theorem endGrid_grids : (endGrid s gid status cause).grids = s.grids.filter fun x => x.id ≠ G.id := by
  rw [endGrid_eq h, untouchIfIdle_grids, (completeLaunch_keepsMembers ..).grids, removeGrid_grids]

theorem gridEnded_endGrid : GridEnded s (endGrid s gid status cause) G status cause where
  gone := by
    rw [gridOf?, endGrid_grids h]
    simp
  clusters q hq := by
    rw [endGrid_kcs h] at hq
    exact (mem_removeGrid_kcs hq).2
  completed C hC hasid := by
    rw [endGrid_eq h, ← hasid]
    exact completed_completeLaunch hC status cause

end

/-! ### A thread has ended: its kernel cluster goes on, or is gone (R183) -/

/-- Everything of a kernel cluster has ended. -/
structure AllEnded (s : State) (id : Nat) : Prop where
  spine : (kcOf s id).spine.ended = true
  groups : ∀ g ∈ s.groups, g.kc = id → g.ended = true
  transfers : ∀ x ∈ s.transfers, x.kc ≠ id

/-- The end of its kernel cluster, for a grid: with the last one the grid ends, else a boundary may complete. -/
def settleGrid (s : State) (gid : Word) : State :=
  match gridOf? s gid with
  | none => s
  | some g => if (kcsOf s gid).isEmpty && gridSize g ≤ g.nextCluster then endGrid s gid 1 0 else settleBoundary s gid

theorem settleKc_eq (s : State) (id : Nat) : settleKc s id =
    if !((kcOf s id).spine.ended && (s.groups.all fun g => g.kc ≠ id || g.ended) && !(s.transfers.any fun t => t.kc = id)) then
      settleBoundary s (kcOf s id).grid
    else settleGrid (dropKc s id) (kcOf s id).grid := rfl

theorem settleKc_of_allEnded {s : State} {id : Nat} (h : AllEnded s id) :
    settleKc s id = settleGrid (dropKc s id) (kcOf s id).grid := by
  rw [settleKc_eq, if_neg]
  simp only [Bool.not_eq_true', Bool.not_eq_false, Bool.and_eq_true, List.all_eq_true, Bool.or_eq_true, decide_eq_true_eq,
    List.any_eq_false]
  exact ⟨⟨h.spine, fun g hg => Decidable.not_or_of_imp (h.groups g hg)⟩, h.transfers⟩

theorem settleKc_of_spine {s : State} {id : Nat} (h : (kcOf s id).spine.ended = false) :
    settleKc s id = settleBoundary s (kcOf s id).grid := by
  rw [settleKc_eq, h]
  rfl

theorem settleKc_of_group {s : State} {id : Nat} {g : Group} (hg : g ∈ s.groups) (hkc : g.kc = id) (hlive : g.ended = false) :
    settleKc s id = settleBoundary s (kcOf s id).grid := by
  have hnot : (s.groups.all fun g => g.kc ≠ id || g.ended) = false := by
    rw [List.all_eq_false]
    exact ⟨g, hg, by simp [hkc, hlive]⟩
  rw [settleKc_eq, hnot, Bool.and_false]
  rfl

/-- With other kernel clusters left, the grid goes on. -/
theorem settleGrid_of_left {s : State} {gid : Word} {q : Kc} (hq : q ∈ s.kcs) (hgrid : q.grid = gid) :
    settleGrid s gid = settleBoundary s gid := by
  unfold settleGrid
  split
  · next hnone => exact (settleBoundary_none hnone).symm
  · rw [if_neg]
    have hmem : q ∈ kcsOf s gid := List.mem_filter.mpr ⟨hq, decide_eq_true hgrid⟩
    simp [List.ne_nil_of_mem hmem]

/-- With the last kernel cluster the grid ends, with STATUS 1 and CAUSE 0. -/
theorem settleGrid_of_last {s : State} {gid : Word} {G : Grid} (hG : gridOf? s gid = some G) (hnone : ∀ q ∈ s.kcs, q.grid ≠ gid)
    (hall : gridSize G ≤ G.nextCluster) : settleGrid s gid = endGrid s gid 1 0 := by
  have hempty : kcsOf s gid = [] := by simpa [kcsOf] using hnone
  simp only [settleGrid, hG, hempty, List.isEmpty_nil, Bool.true_and, decide_eq_true hall, if_true]

/-- The settlement of a boundary adds no kernel cluster and no group. -/
theorem settleBoundary_members (s : State) (gid : Word) :
    (∀ q ∈ (settleBoundary s gid).kcs, ∃ r ∈ s.kcs, r.id = q.id) ∧
      ∀ g ∈ (settleBoundary s gid).groups, ∃ x ∈ s.groups, x.kc = g.kc := by
  rcases settleBoundary_cases s gid with hsame | ⟨G, -, hstops⟩
  · rw [hsame]
    exact ⟨fun q hq => ⟨q, hq, rfl⟩, fun g hg => ⟨g, hg, rfl⟩⟩
  · refine ⟨fun q hq => ?_, fun g hg => ?_⟩
    · obtain ⟨r, hr, hrq⟩ := hstops.was hq
      obtain ⟨x, hx, rfl⟩ := List.mem_map.mp hr
      exact ⟨x, hx, ((changesSpine_goesOn gid (G.boundary + 1)).id x).symm.trans (unstopped_id hrq)⟩
    · obtain ⟨x, hx, hxg⟩ := hstops.groupWas hg
      exact ⟨x, hx, congrArg Prod.fst hxg⟩

/-- Nor does the settlement of a grid. -/
theorem settleGrid_members (s : State) (gid : Word) :
    (∀ q ∈ (settleGrid s gid).kcs, ∃ r ∈ s.kcs, r.id = q.id) ∧ ∀ g ∈ (settleGrid s gid).groups, ∃ x ∈ s.groups, x.kc = g.kc := by
  unfold settleGrid
  split
  · exact ⟨fun q hq => ⟨q, hq, rfl⟩, fun g hg => ⟨g, hg, rfl⟩⟩
  · next G hG =>
    split
    · rw [endGrid_kcs hG, endGrid_groups hG]
      exact ⟨fun q hq => ⟨q, (mem_removeGrid_kcs hq).1, rfl⟩, fun g hg => ⟨g, mem_groups_of_removeGrid hg, rfl⟩⟩
    · exact settleBoundary_members s gid

/-- A kernel cluster that has ended altogether is gone, with its groups. -/
theorem settleKc_gone {s : State} {id : Nat} (h : AllEnded s id) :
    (∀ q ∈ (settleKc s id).kcs, q.id ≠ id) ∧ ∀ g ∈ (settleKc s id).groups, g.kc ≠ id := by
  rw [settleKc_of_allEnded h]
  obtain ⟨hkcs, hgroups⟩ := settleGrid_members (dropKc s id) (kcOf s id).grid
  refine ⟨fun q hq => ?_, fun g hg => ?_⟩
  · obtain ⟨r, hr, hid⟩ := hkcs q hq
    exact hid ▸ (mem_dropKc_kcs.mp hr).2
  · obtain ⟨x, hx, hkc⟩ := hgroups g hg
    exact hkc ▸ (mem_dropKc_groups.mp hx).2

/-- The end of the last kernel cluster of a grid is the grid's. -/
theorem settleKc_endsGrid {s : State} {id : Nat} {G : Grid} (h : AllEnded s id) (hG : gridOf? s (kcOf s id).grid = some G)
    (honly : ∀ q ∈ s.kcs, q.grid = G.id → q.id = id) (hall : gridSize G ≤ G.nextCluster) :
    GridEnded (dropKc s id) (settleKc s id) G 1 0 := by
  have hgrid : gridOf? (dropKc s id) (kcOf s id).grid = some G := (gridOf?_dropKc ..).trans hG
  have hnone : ∀ q ∈ (dropKc s id).kcs, q.grid ≠ (kcOf s id).grid := fun q hq hqg => by
    obtain ⟨hmem, hid⟩ := mem_dropKc_kcs.mp hq
    exact hid (honly q hmem (hqg.trans (gridOf?_id hG).symm))
  rw [settleKc_of_allEnded h, settleGrid_of_last hgrid hnone hall]
  exact gridEnded_endGrid hgrid 1 0

end Sys2Proof.Proofs.Departures
end

section
/-! `exit` (R183): which lanes leave the frontier, and what the end of a group and of a spine is. -/

namespace Sys2Proof.Proofs.Exits

open Sys2Proof Sys2Proof.Machine Sys2Proof.Claims Sys2Proof.Proofs.StateRules Sys2Proof.Proofs.Answers Sys2Proof.Proofs.Stops
  Sys2Proof.Proofs.Boundaries Sys2Proof.Proofs.Completions Sys2Proof.Proofs.Departures

/-! ### Lanes and masks -/

theorem getLsbD_laneBit (i l : Nat) : (laneBit i).getLsbD l = (decide (l < 64) && decide (i = l)) := by
  rw [laneBit, BitVec.getLsbD_ofNat, Nat.testBit_two_pow]

theorem getLsbD_maskOf (ls : List Nat) (l : Nat) : (maskOf ls).getLsbD l = (decide (l < 64) && decide (l ∈ ls)) := by
  induction ls with
  | nil => simp [maskOf]
  | cons i ls ih =>
    rw [maskOf_cons, BitVec.getLsbD_or, getLsbD_laneBit, ih, ← Bool.and_or_distrib_left]
    simp [eq_comm]

/-- The issuing lanes that stay: those in which the guard of `exit` is false. -/
def staying (g : Group) (c : Issue) (gd : PredNo) : LaneMask := c.mask &&& ~~~maskOf (activeLanes g c gd)

theorem getLsbD_staying (g : Group) (c : Issue) (gd : PredNo) (l : Nat) :
    (staying g c gd).getLsbD l = (c.mask.getLsbD l && decide (l ∉ activeLanes g c gd)) := by
  rw [staying, BitVec.getLsbD_and, BitVec.getLsbD_not, getLsbD_maskOf]
  by_cases hl : l < 64
  · simp [hl]
  · simp [BitVec.getLsbD_of_ge c.mask l (by omega)]

/-- The lanes whose marks go are those that exit. -/
theorem leaving_eq (m a : LaneMask) : m &&& ~~~(m &&& ~~~a) = m &&& a := by
  ext i hi
  simp only [BitVec.getElem_and, BitVec.getElem_not]
  cases m[i] <;> simp

/-! ### The meaning of `exit` on lanes -/

/-- A group whose last lanes have left. -/
def finished (g : Group) : Group := { landAll g with ended := true }

/-- The entry in which the lanes that stay go on. -/
def stayEntry (g : Group) (c : Issue) (gd : PredNo) : Entry := ⟨nextPc c, c.prio, staying g c gd, none⟩

/-- The state in which the active lanes have left the group and lanes are left in it. -/
def someExit (s : State) (c : Issue) (g : Group) (gd : PredNo) : State :=
  retireTo (dropMarks s c.who (c.mask &&& maskOf (activeLanes g c gd))) c [stayEntry g c gd] id

section
variable {s : State} {c : Issue} {g : Group} (h : OnLanes s c g) (hflights : g.flights = []) (o : OpsG)
include h hflights

theorem exec_exit_lanes : exec (.exit o) s = .next
    (if staying g c o.g = 0 && g.regs.frontier.all fun e => e.mask = c.mask then
      settleKc (settleStart (updMember (someExit s c g o.g) c.who finished) g.kc g.core) g.kc
    else someExit s c g o.g) := by
  have hwait : hasWaiting g = false := by rw [hasWaiting, hflights]; rfl
  have hgroup := h.group
  refine (issueBy_some h.cur).trans (congrArg _ ?_)
  have hwho := h.who
  generalize hw : c.who = w at hwho hgroup
  subst hwho
  dsimp only
  rw [checked_ok (by simp) h.clean, hgroup]
  simp only [h.normal, hwait, leaving_eq, Bool.and_false, Option.isSome_none, Bool.false_eq_true, if_false, someExit, stayEntry,
    staying, hw]
  rfl

/-- `exit` while lanes are left in the group. -/
theorem exec_exit_some (hleft : c.mask &&& ~~~maskOf (activeLanes g c o.g) ≠ 0 ∨ ∃ e ∈ g.regs.frontier, e.mask ≠ c.mask) :
    exec (.exit o) s = .next (someExit s c g o.g) := by
  rw [exec_exit_lanes h hflights, if_neg]
  rw [Bool.and_eq_true, decide_eq_true_eq, List.all_eq_true]
  rintro ⟨hnone, hall⟩
  rcases hleft with hstay | ⟨e, he, hne⟩
  · exact hstay hnone
  · exact hne (of_decide_eq_true (hall e he))

/-- `exit` of the group's last lanes. -/
theorem exec_exit_last (hnone : c.mask &&& ~~~maskOf (activeLanes g c o.g) = 0) (hall : ∀ e ∈ g.regs.frontier, e.mask = c.mask) :
    exec (.exit o) s = .next (settleKc (lastLaneExits s c g) g.kc) := by
  have hmask : c.mask &&& maskOf (activeLanes g c o.g) = c.mask := by
    rw [← leaving_eq, hnone]
    exact BitVec.and_allOnes
  have hstay : staying g c o.g = 0 := hnone
  have hlast : (staying g c o.g = 0 && g.regs.frontier.all fun e => e.mask = c.mask) = true := by
    rw [Bool.and_eq_true, decide_eq_true_eq, List.all_eq_true]
    exact ⟨hstay, fun e he => decide_eq_true (hall e he)⟩
  rw [exec_exit_lanes h hflights, if_pos hlast, someExit, stayEntry, hstay, hmask]
  rfl

end

/-! ### Lanes leave, and others stay -/

theorem keepsKey_id : KeepsKey id := fun _ => ⟨rfl, rfl, rfl⟩

theorem frontier_retired (g : Group) (c : Issue) (new : List Entry) :
    (retiredGroup g c new id).regs.frontier = (moveEntry g c new).regs.frontier := by
  rw [retired_frontier]
  simp only [moveEntry, countIssue_regs, id]

/-- A lane that is in no entry but the issuing one, and in none that takes its place, is in no entry any more. -/
theorem lane_leaves {g : Group} {c : Issue} {new : List Entry} {l : Nat}
    (hold : ∀ e ∈ g.regs.frontier, e.mask.getLsbD l = true → e.mask = c.mask) (hnew : ∀ e ∈ new, e.mask.getLsbD l = false)
    {e : Entry} (he : e ∈ (moveEntry g c new).regs.frontier) : e.mask.getLsbD l = false := by
  refine Bool.eq_false_iff.mpr fun hl => ?_
  have hheld : Holds (moveEntry g c new).regs.frontier l e.pc e.prio e.wait := ⟨e, he, rfl, rfl, hl, rfl⟩
  obtain ⟨x, hx, -, -, hxl, -⟩ | ⟨x, hx, -, -, hxl, -⟩ := holds_append.mp (holds_merge.mp hheld)
  · obtain ⟨hmem, hne⟩ := List.mem_filter.mp hx
    exact of_decide_eq_true hne (hold x hmem hxl)
  · rw [hnew x (List.mem_filter.mp hx).1] at hxl
    cases hxl

section
variable {s : State} {c : Issue} {g : Group} (h : OnLanes s c g) (gd : PredNo)

include h in
theorem memberGroup_someExit : memberGroup (someExit s c g gd) c.who = retiredGroup g c [stayEntry g c gd] id := by
  rw [someExit, retireTo_eq, memberGroup_of_groups (endIssue_groups _ c)]
  exact OnLanes.upd (s' := dropMarks s c.who _) h rfl (keepsKey_retired c _ keepsKey_id)

include h in
theorem frontier_someExit :
    (memberGroup (someExit s c g gd) c.who).regs.frontier = (moveEntry g c [stayEntry g c gd]).regs.frontier := by
  rw [memberGroup_someExit h, frontier_retired]

include h in
theorem someExit_ended : (memberGroup (someExit s c g gd) c.who).ended = g.ended := by
  rw [memberGroup_someExit h]
  exact (congrArg Group.ended (retired_rest (f := id) h.normal rfl) :)

include h in
/-- A lane in which the guard is false goes on. -/
theorem someExit_stays {l : Nat} (hl : c.mask.getLsbD l = true) (hact : l ∉ activeLanes g c gd) :
    ∃ en ∈ (memberGroup (someExit s c g gd) c.who).regs.frontier,
      en.pc = nextPc c ∧ en.prio = c.prio ∧ en.mask.getLsbD l = true ∧ en.wait = none := by
  rw [frontier_someExit h]
  refine covers_move ⟨stayEntry g c gd, List.mem_singleton_self _, rfl, rfl, ?_, rfl⟩
  rw [stayEntry, getLsbD_staying, hl, decide_eq_true hact]
  rfl

include h in
theorem someExit_leaves {l : Nat} (hact : l ∈ activeLanes g c gd)
    (hold : ∀ e ∈ g.regs.frontier, e.mask.getLsbD l = true → e.mask = c.mask) :
    ∀ e ∈ (memberGroup (someExit s c g gd) c.who).regs.frontier, e.mask.getLsbD l = false := by
  rw [frontier_someExit h]
  refine fun e he => lane_leaves hold (fun x hx => ?_) he
  rw [List.mem_singleton.mp hx, stayEntry, getLsbD_staying, decide_eq_false (not_not_intro hact), Bool.and_false]

include h in
/-- A lane of another entry stands where it stood. -/
theorem someExit_others {l : Nat} (hl : c.mask.getLsbD l = false) (pc : VAddr) (prio : BitVec 6) (w : Option Wait) :
    LaneAt (memberGroup (someExit s c g gd) c.who).regs l pc prio w ↔ LaneAt g.regs l pc prio w := by
  rw [LaneAt, frontier_someExit h]
  refine holds_move hl (fun e he => ?_) pc prio w
  rw [List.mem_singleton.mp he, stayEntry, getLsbD_staying, hl, Bool.false_and]

end

/-! ### A group ends -/

/-- The group that its last lanes have left. -/
def leftGroup (c : Issue) (g : Group) : Group := finished (retiredGroup g c [⟨nextPc c, c.prio, 0, none⟩] id)

theorem keepsKey_finished : KeepsKey finished := keepsKey_landAll

theorem keepsKey_leftGroup (c : Issue) : KeepsKey (leftGroup c) :=
  keepsKey_finished.comp (keepsKey_retired c _ keepsKey_id)

/-- Whatever of a state does not speak of deques stays when a group has started. -/
theorem settleStart_same {α : Type} (f : State → α) (hf : ∀ x ds, f { x with deques := ds } = f x) (s : State) (kc core : Nat) :
    f (settleStart s kc core) = f s := by
  unfold settleStart
  split
  · rfl
  · exact hf ..

section
variable (s : State) (c : Issue) (g : Group)

theorem lastLaneExits_kcs : (lastLaneExits s c g).kcs = s.kcs := by
  rw [lastLaneExits, settleStart_same State.kcs fun _ _ => rfl, updMember_kcs, retireTo_kcs]
  rfl

theorem lastLaneExits_grids : (lastLaneExits s c g).grids = s.grids := by
  rw [lastLaneExits, settleStart_same State.grids fun _ _ => rfl, updMember_grids, retireTo_eq, endIssue_grids, updMember_grids]
  rfl

theorem lastLaneExits_mem : (lastLaneExits s c g).mem = s.mem := by
  rw [lastLaneExits, settleStart_same State.mem fun _ _ => rfl, updMember_mem, retireTo_eq, endIssue_mem, updMember_mem]
  rfl

theorem lastLaneExits_transfers : (lastLaneExits s c g).transfers = s.transfers := by
  rw [lastLaneExits, settleStart_same State.transfers fun _ _ => rfl, updMember_transfers, retireTo_eq, endIssue_transfers,
    updMember_transfers]
  rfl

theorem lastLaneExits_kcOf (id : Nat) : kcOf (lastLaneExits s c g) id = kcOf s id := kcOf_of_kcs (lastLaneExits_kcs s c g) id

theorem lastLaneExits_gridOf? (gid : Word) : gridOf? (lastLaneExits s c g) gid = gridOf? s gid := by
  rw [gridOf?, lastLaneExits_grids, gridOf?]

end

section
variable {s : State} {c : Issue} {g : Group} (h : OnLanes s c g)
include h

theorem lastLaneExits_groups : (lastLaneExits s c g).groups = (updGroup s g.kc g.core g.idx (leftGroup c)).groups := by
  rw [lastLaneExits, settleStart_same State.groups fun _ _ => rfl, retireTo_eq, h.who]
  refine List.map_map.trans (List.map_congr_left fun x _ => ?_)
  have hkey := keepsKey_retired c [⟨nextPc c, c.prio, 0, none⟩] keepsKey_id x
  by_cases hx : x.kc = g.kc ∧ x.core = g.core ∧ x.idx = g.idx
  · simp only [Function.comp, if_pos hx, hkey]
    rfl
  · simp only [Function.comp, if_neg hx]

theorem lastLaneExits_ended : (groupOf (lastLaneExits s c g) g.kc g.core g.idx).ended = true := by
  rw [groupOf_of_groups (lastLaneExits_groups h), groupOf_updGroup_same (keepsKey_leftGroup c) h.here]
  rfl

theorem lastLaneExits_other {kc core idx : Nat} (hne : Member.group kc core idx ≠ c.who) :
    groupOf (lastLaneExits s c g) kc core idx = groupOf s kc core idx := by
  rw [groupOf_of_groups (lastLaneExits_groups h), groupOf_updGroup_other (keepsKey_leftGroup c)]
  rintro ⟨rfl, rfl, rfl⟩
  exact hne h.who.symm

/-- With the last lanes of its last group, a kernel cluster whose spine has ended has ended altogether. -/
theorem allEnded_lastLaneExits (hspine : (kcOf s g.kc).spine.ended = true)
    (hgroups : ∀ x ∈ s.groups, x.kc = g.kc → x.ended = true ∨ (x.core = g.core ∧ x.idx = g.idx))
    (htransfers : ∀ x ∈ s.transfers, x.kc ≠ g.kc) : AllEnded (lastLaneExits s c g) g.kc where
  spine := by rw [lastLaneExits_kcOf, hspine]
  groups x hx hkc := by
    rw [lastLaneExits_groups h] at hx
    obtain ⟨y, hy, rfl⟩ := List.mem_map.mp hx
    split
    · rfl
    · next hne =>
      rw [if_neg hne] at hkc
      exact (hgroups y hy hkc).resolve_right fun hsame => hne ⟨hkc, hsame⟩
  transfers := by rw [lastLaneExits_transfers]; exact htransfers

end

/-! ### A boundary after the end of a thread -/

/-- The settlement of a boundary ends no thread. -/
theorem settleBoundary_ended (s : State) (gid : Word) (kc core idx : Nat) :
    (groupOf (settleBoundary s gid) kc core idx).ended = (groupOf s kc core idx).ended := by
  rcases settleBoundary_cases s gid with hsame | ⟨G, -, hstops⟩
  · rw [hsame]
  · exact (hstops.ended kc core idx).trans (congrArg Group.ended (groupOf_of_groups (passed_groups s gid G) kc core idx))

theorem settleBoundary_mem (s : State) (gid : Word) : (settleBoundary s gid).mem = s.mem := by
  rcases settleBoundary_cases s gid with hsame | ⟨G, -, hstops⟩
  · rw [hsame]
  · exact hstops.mem

theorem goesOn_ended (gid : Word) (b : Nat) (k : Kc) : (Boundaries.goesOn gid b k).spine.ended = k.spine.ended := by
  unfold Boundaries.goesOn
  split
  · unfold passBoundary
    split
    · split <;> rfl
    · rfl
  · rfl

theorem settleBoundary_spineEnded {s : State} {id : Nat} {k : Kc} (h : s.kcs.find? (fun x => x.id = id) = some k) (gid : Word) :
    (kcOf (settleBoundary s gid) id).spine.ended = k.spine.ended := by
  rcases settleBoundary_cases s gid with hsame | ⟨G, -, hstops⟩
  · rw [hsame, kcOf_find h]
  · have hfind : (passed s gid G).kcs.find? (fun x => x.id = id) = some (Boundaries.goesOn gid (G.boundary + 1) k) := by
      rw [passed, (changesSpine_goesOn gid (G.boundary + 1)).find, h, Option.map_some]
    obtain ⟨q, hq, hspine⟩ := hstops.here hfind
    rw [kcOf_find hq, unstopped_spine hspine, goesOn_ended]

/-- A boundary that only others may complete stays open when the spine of kernel cluster id ends. -/
theorem settleBoundary_of_boundaryOpen {s S : State} {gid : Word} {id : Nat} (h : BoundaryOpen s gid id)
    (hgrids : gridOf? S gid = gridOf? s gid) (hothers : ∀ q, q.id ≠ id → (q ∈ S.kcs ↔ q ∈ s.kcs))
    (hended : ∀ q ∈ S.kcs, q.id = id → q.spine.ended = true) : settleBoundary S gid = S := by
  refine settleBoundary_open fun G hG => ?_
  rcases h G (hgrids ▸ hG) with ⟨q, hq, hid, hrest⟩ | hall
  · exact .inl ⟨q, (hothers q hid).mpr hq, hrest⟩
  · refine .inr fun q hq hgrid => ?_
    by_cases hid : q.id = id
    · exact hended q hq hid
    · exact hall q ((hothers q hid).mp hq) hid hgrid

/-! ### A spine ends -/

/-- The spine that `exit` ends. -/
def endedSpine (sp : Spine) : Spine := { sp with ended := true }

/-- A kernel cluster when the spine of number id has ended at issue c. -/
def spineLeft (c : Issue) (id : Nat) (k : Kc) : Kc := if k.id = id then { k with spine := retiredSpine c endedSpine k.spine } else k

theorem changesSpine_spineLeft (c : Issue) (id : Nat) : ChangesSpine (spineLeft c id) := fun k => by
  unfold spineLeft
  split <;> rfl

section
variable {s : State} {c : Issue} {k : Kc} (h : OnSpine s c k)
include h

theorem exec_exit_spine (o : OpsG) : exec (.exit o) s =
    .next (if spinePred k.spine o.g then settleKc (spineExits s c) k.id else retireNop s c) := by
  refine (issueBy_some h.cur).trans (congrArg _ ?_)
  have hwho := h.who
  generalize hw : c.who = w at hwho
  subst hwho
  dsimp only
  rw [h.kc, spineExits, hw]

theorem spineExits_kcs : (spineExits s c).kcs = s.kcs.map (spineLeft c k.id) := by
  rw [spineExits, retireSpine, retireSpineTo, h.id]
  rfl

theorem spineExits_here : (spineExits s c).kcs.find? (fun x => x.id = k.id) = some (spineLeft c k.id k) := by
  rw [spineExits_kcs h, (changesSpine_spineLeft c k.id).find, h.here, Option.map_some]

theorem spineExits_kcOf : kcOf (spineExits s c) k.id = { k with spine := retiredSpine c endedSpine k.spine } := by
  rw [kcOf_find (spineExits_here h), spineLeft, if_pos rfl]

theorem spineExits_other {id : Nat} (hid : id ≠ k.id) : kcOf (spineExits s c) id = kcOf s id := by
  rw [spineExits, retireSpine, retireSpineTo, kcOf_of_kcs (endIssue_kcs _ c), h.id, kcOf_updSpine_other hid]
  rfl

theorem mem_spineExits_other {q : Kc} (hid : q.id ≠ k.id) : q ∈ (spineExits s c).kcs ↔ q ∈ s.kcs := by
  rw [spineExits_kcs h]
  refine ⟨fun hq => ?_, fun hq => List.mem_map.mpr ⟨q, hq, if_neg hid⟩⟩
  obtain ⟨x, hx, rfl⟩ := List.mem_map.mp hq
  rw [(changesSpine_spineLeft c k.id).id] at hid
  rwa [spineLeft, if_neg hid]

theorem mem_spineExits_self {q : Kc} (hq : q ∈ (spineExits s c).kcs) (hid : q.id = k.id) : q.spine.ended = true := by
  rw [spineExits_kcs h] at hq
  obtain ⟨x, hx, rfl⟩ := List.mem_map.mp hq
  rw [(changesSpine_spineLeft c k.id).id] at hid
  rw [spineLeft, if_pos hid]
  rfl

theorem allEnded_spineExits (hgroups : ∀ g ∈ s.groups, g.kc = k.id → g.ended = true) (htransfers : ∀ x ∈ s.transfers, x.kc ≠ k.id) :
    AllEnded (spineExits s c) k.id where
  spine := by rw [spineExits_kcOf h]; rfl
  groups := hgroups
  transfers := htransfers

/-- With groups left, the kernel cluster goes on without its spine. -/
theorem settleKc_spineExits {g : Group} (hg : g ∈ s.groups) (hkc : g.kc = k.id) (hlive : g.ended = false) :
    settleKc (spineExits s c) k.id = settleBoundary (spineExits s c) k.grid := by
  rw [settleKc_of_group (s := spineExits s c) hg hkc hlive, spineExits_kcOf h]

theorem spineExits_open (hopen : BoundaryOpen s k.grid k.id) : settleBoundary (spineExits s c) k.grid = spineExits s c :=
  settleBoundary_of_boundaryOpen hopen rfl (fun _ => mem_spineExits_other h) fun _ => mem_spineExits_self h

/-- With nothing of the kernel cluster left and others of its grid, these go on, with their groups. -/
theorem settleKc_spineExits_left (hall : AllEnded (spineExits s c) k.id) (hother : ∃ q ∈ s.kcs, q.grid = k.grid ∧ q.id ≠ k.id)
    (hopen : BoundaryOpen s k.grid k.id) : settleKc (spineExits s c) k.id = dropKc (spineExits s c) k.id := by
  obtain ⟨q, hq, hgrid, hid⟩ := hother
  have hleft : q ∈ (dropKc (spineExits s c) k.id).kcs := mem_dropKc_kcs.mpr ⟨(mem_spineExits_other h hid).mpr hq, hid⟩
  rw [settleKc_of_allEnded hall, spineExits_kcOf h, settleGrid_of_left hleft hgrid]
  refine settleBoundary_of_boundaryOpen hopen (gridOf?_dropKc ..) (fun x hx => ?_) fun x hx hxid => ?_
  · rw [mem_dropKc_kcs, mem_spineExits_other h hx, and_iff_left hx]
  · exact absurd hxid (mem_dropKc_kcs.mp hx).2

/-- A grid of one kernel cluster alone, which is gone, has none left. -/
theorem dropKc_spineExits_empty {G : Grid} (hG : gridOf? s k.grid = some G) (honly : ∀ q ∈ s.kcs, q.grid = k.grid → q.id = k.id) :
    ∀ q ∈ (dropKc (spineExits s c) k.id).kcs, q.grid ≠ G.id := by
  intro q hq hgrid
  obtain ⟨hmem, hid⟩ := mem_dropKc_kcs.mp hq
  exact hid (honly q ((mem_spineExits_other h hid).mp hmem) (hgrid.trans (gridOf?_id hG)))

/-- What the end of the spine and of its kernel cluster leaves of memory. -/
theorem memByte_dropKc_spineExits (hdeques : ∀ r ∈ s.deques, r.kc ≠ k.id) {C : Ctx} (hC : ctxOf? s k.asid = some C) {a : Nat}
    (ha : BesideMask C.desc a) : memByte (dropKc (spineExits s c) k.id) a = memByte s a := by
  refine memByte_dropKc (s := spineExits s c) hdeques (fun x hx => ?_) ha
  rw [spineExits_kcOf h] at hx
  have hsame := descs_updCtx (f := fun x => { x with marks := x.marks.filter fun m => !(m.2.1 = c.who && (1 : LaneMask).getLsbD m.2.2) })
    (fun _ => ⟨rfl, rfl⟩) s (memberAsid s c.who) k.asid
  rw [show ctxOf? (updCtx s _ _) k.asid = some x from hx, hC] at hsame
  exact Option.some.inj hsame

end

/-! ### The obligation -/

/-- Settles O18: `exit` retires into the entry of the lanes that stay, or ends the group or the spine; the end of a thread is its
kernel cluster's, and this one the grid's, when nothing else of it is left. -/
theorem exits : Obligations.Exits := by
  unfold Obligations.Exits
  refine ⟨?_, ?_, ?_, ?_, ?_, ?_, ?_, ?_⟩
  case refine_1 =>
    intro o s c g h hflights hleft
    refine ⟨_, exec_exit_some h hflights o hleft, onlyGroups_retireTo rfl c _ id, someExit_ended h o.g,
      fun l => someExit_stays h o.g, fun l => someExit_leaves h o.g, fun l => someExit_others h o.g, ?_⟩
    rw [memberGroup_someExit h]
    exact retired_regs g c _ id
  case refine_2 =>
    intro o s c g h hflights hnone hall hspine
    have hgoesOn : settleKc (lastLaneExits s c g) g.kc = settleBoundary (lastLaneExits s c g) (kcOf s g.kc).grid := by
      rw [settleKc_of_spine (by rw [lastLaneExits_kcOf, hspine]), lastLaneExits_kcOf]
    refine ⟨_, exec_exit_last h hflights o hnone hall, ?_⟩
    rw [hgoesOn]
    refine ⟨?_, ?_, fun hopen => ?_⟩
    · rw [h.who]
      exact (settleBoundary_ended ..).trans (lastLaneExits_ended h)
    · rw [settleBoundary_mem, lastLaneExits_mem]
    · have hstays : settleBoundary (lastLaneExits s c g) (kcOf s g.kc).grid = lastLaneExits s c g := by
        refine settleBoundary_open fun G hG => .inl ?_
        rw [lastLaneExits_gridOf?] at hG
        rw [lastLaneExits_kcs, ← gridOf?_id hG]
        exact hopen G hG
      rw [hstays]
      exact ⟨lastLaneExits_kcs s c g, lastLaneExits_grids s c g, fun kc core idx => lastLaneExits_other h⟩
  case refine_3 =>
    intro o s c k h hguard
    obtain ⟨honly, -, hregs⟩ := spine_nop h
    refine ⟨_, exec_exit_spine h o, ?_⟩
    rw [if_neg (by simp [hguard])]
    exact ⟨honly, hregs⟩
  case refine_4 =>
    intro o s c g h hflights hnone hall hspine hgroups htransfers
    have hended := allEnded_lastLaneExits h hspine hgroups htransfers
    obtain ⟨hkcs, hgone⟩ := settleKc_gone hended
    refine ⟨_, exec_exit_last h hflights o hnone hall, hkcs, hgone, fun G hG honly hsize => ?_⟩
    refine settleKc_endsGrid hended ?_ (by rwa [lastLaneExits_kcs]) hsize
    rw [lastLaneExits_kcOf, lastLaneExits_gridOf?, hG]
  case refine_5 =>
    rintro o s c k h hguard ⟨g, hg, hkc, hlive⟩
    refine ⟨_, exec_exit_spine h o, ?_⟩
    rw [if_pos hguard, settleKc_spineExits h hg hkc hlive]
    refine ⟨?_, settleBoundary_mem .., fun hopen => ?_⟩
    · rw [settleBoundary_spineEnded (spineExits_here h)]
      exact mem_spineExits_self h (List.mem_of_find?_eq_some (spineExits_here h)) ((changesSpine_spineLeft c k.id).id k)
    · rw [spineExits_open h hopen]
      exact ⟨onlyKcs_retireSpineTo rfl c _ _, fun id => spineExits_other h⟩
  case refine_6 =>
    intro o s c k h hguard hgroups htransfers hother
    have hended := allEnded_spineExits h hgroups htransfers
    obtain ⟨hkcs, hgone⟩ := settleKc_gone hended
    refine ⟨_, exec_exit_spine h o, ?_⟩
    rw [if_pos hguard]
    refine ⟨hkcs, hgone, fun hopen g hg hkc => ?_⟩
    rw [settleKc_spineExits_left h hended hother hopen]
    exact mem_dropKc_groups.mpr ⟨hg, hkc⟩
  case refine_7 =>
    intro o s c k G h hguard hgroups htransfers honly hG hsize
    refine ⟨_, exec_exit_spine h o, ?_⟩
    rw [if_pos hguard]
    refine settleKc_endsGrid (allEnded_spineExits h hgroups htransfers) ?_ (fun q hq hgrid => ?_) hsize
    · rw [spineExits_kcOf h]
      exact hG
    · by_contra hid
      exact hid (honly q ((mem_spineExits_other h hid).mp hq) (hgrid.trans (gridOf?_id hG)))
  case refine_8 =>
    intro s c k G h hG honly hdeques
    obtain ⟨hmem, htund⟩ := removeGrid_of_empty (dropKc_spineExits_empty h hG honly)
    refine ⟨?_, ?_, fun a C hC ha => ?_⟩
    · rw [htund, dropKc_tund]
      rfl
    · rw [removeGrid_grids, dropKc_grids]
      rfl
    · rw [memByte, hmem]
      exact memByte_dropKc_spineExits h hdeques hC ha

end Sys2Proof.Proofs.Exits
end

section
/-! Global accesses (R244 to R252): the checking pass and what it leaves, reads and writes of device memory, requests and
arrivals beyond it, and how the access of a group and of a spine begins and ends. -/

namespace Sys2Proof.Proofs.Accesses

open Sys2Proof Sys2Proof.Machine Sys2Proof.Claims Sys2Proof.Proofs.StateRules Sys2Proof.Proofs.Answers Sys2Proof.Proofs.Stops
  Sys2Proof.Proofs.Boundaries Sys2Proof.Proofs.Completions

/-! ### The checking pass, whatever groups the state holds (R248) -/

/-- The state with other groups. -/
def withGroups (G : List Machine.Group) (s : State) : State := { s with groups := G }

/-- What a pass gives, in its state with other groups. -/
def regrouped {α : Type} (G : List Machine.Group) (r : State × α) : State × α := (withGroups G r.1, r.2)

/-- Either branch of a choice is what f makes of the branch before. -/
theorem ite_of_map {α β : Type} (f : α → β) {p : Prop} [Decidable p] {x y : α} {x' y' : β} (hx : x' = f x) (hy : y' = f y) :
    (if p then x' else y') = f (if p then x else y) := by
  split
  · exact hx
  · exact hy

section
variable (G : List Machine.Group) (s : State)

theorem walkBoth_withGroups (c : Ctx) (va : Nat) : walkBoth (withGroups G s) c va = walkBoth s c va := rfl

theorem firstFree_withGroups (f hi n : Nat) : firstFree (withGroups G s) f hi n = firstFree s f hi n := by
  induction n generalizing f with
  | zero => rfl
  | succ n ih => simp only [firstFree, ih]; rfl

theorem poolFrame_withGroups (p : BitVec 2) : poolFrame (withGroups G s) p = poolFrame s p := by
  simp only [poolFrame, firstFree_withGroups]
  rfl

theorem noteStore_withGroups (pa n : Nat) : noteStore (withGroups G s) pa n = withGroups G (noteStore s pa n) :=
  ite_of_map (withGroups G) rfl (ite_of_map (withGroups G) rfl rfl)

theorem memWriteNat_withGroups (pa n v : Nat) : memWriteNat (withGroups G s) pa n v = withGroups G (memWriteNat s pa n v) := by
  rw [memWriteNat, memWriteNat, memWrite, memWrite, ← noteStore_withGroups]
  rfl

theorem allocate_withGroups (c : Ctx) (va pte : Nat) (cls : BitVec 2) :
    allocate (withGroups G s) c va pte cls = (allocate s c va pte cls).map (withGroups G) := by
  rw [allocate, allocate, poolFrame_withGroups]
  refine ite_of_map (Except.map (withGroups G)) rfl ?_
  cases poolFrame s c.part with
  | none => rfl
  | some f =>
    refine congrArg Except.ok ?_
    simp only [← memWriteNat_withGroups]
    rfl

theorem translate_withGroups (c : Ctx) (va : Nat) :
    Machine.translate (withGroups G s) c va = regrouped G (Machine.translate s c va) := by
  unfold Machine.translate
  rw [walkBoth_withGroups]
  cases walkBoth s c va with
  | error e =>
    change (match s.tlb.find? _ with | none => _ | some e => _) = regrouped G (match s.tlb.find? _ with | none => _ | some e => _)
    cases s.tlb.find? _ with
    | none => rfl
    | some e => exact ite_of_map (regrouped G) rfl (ite_of_map (regrouped G) rfl rfl)
  | ok x =>
    have hkeep : ∀ e : List TlbEntry, (if x.aot.isSome then withGroups G s else { withGroups G s with tlb := e }) =
        withGroups G (if x.aot.isSome then s else { s with tlb := e }) := fun e => ite_of_map (withGroups G) rfl rfl
    change (match s.tlb.find? _ with | none => _ | some e => _) = regrouped G (match s.tlb.find? _ with | none => _ | some e => _)
    cases s.tlb.find? _ with
    | none => exact congrArg (·, _) (hkeep _)
    | some e =>
      exact ite_of_map (regrouped G) (congrArg (·, _) (hkeep _)) (ite_of_map (regrouped G) rfl (congrArg (·, _) (hkeep _)))

theorem resolvePart_withGroups (c : Ctx) (need : Need) (feat : Bool) (va n : Nat) :
    resolvePart (withGroups G s) c need feat va n = regrouped G (resolvePart s c need feat va n) := by
  unfold resolvePart
  rw [translate_withGroups]
  generalize Machine.translate s c va = r
  obtain ⟨s, e | x⟩ := r
  · rfl
  · refine ite_of_map (regrouped G) rfl ?_
    cases x.aot with
    | some pte =>
      dsimp only [regrouped]
      rw [allocate_withGroups]
      cases allocate s c va pte x.cls with
      | error code => rfl
      | ok t =>
        dsimp only [Except.map]
        rw [walkBoth_withGroups]
        cases walkBoth t c va with
        | error e => rfl
        | ok x => exact ite_of_map (regrouped G) rfl rfl
    | none =>
      refine ite_of_map (regrouped G) rfl (ite_of_map (regrouped G) rfl (ite_of_map (regrouped G) rfl ?_))
      cases wayOf x.pa x.cls with
      | door a i off => exact ite_of_map (regrouped G) rfl rfl
      | mem pa cls => rfl
      | window w off => rfl
      | fabric dev exp off => rfl

theorem resolve_withGroups (c : Ctx) (need : Need) (feat : Bool) (va n : Nat) :
    resolve (withGroups G s) c need feat va n = regrouped G (resolve s c need feat va n) := by
  unfold resolve
  simp only [resolvePart_withGroups]
  refine ite_of_map (regrouped G) ?_ ?_
  · obtain ⟨t, m | w⟩ := resolvePart s c need feat va n <;> rfl
  · obtain ⟨t, r⟩ := resolvePart s c need feat va (65536 - va % 65536)
    dsimp only [regrouped]
    simp only [resolvePart_withGroups]
    obtain ⟨u, r'⟩ := resolvePart t c need feat ((va + (65536 - va % 65536)) % 2 ^ 48) (n - (65536 - va % 65536))
    dsimp only [regrouped]
    split <;> rfl

theorem checkThread_withGroups (c : Ctx) (need : Need) (feat sync : Bool) (n : Nat) (t : Thread) :
    checkThread (withGroups G s) c need feat sync n t = regrouped G (checkThread s c need feat sync n t) := by
  unfold checkThread
  simp only [resolve_withGroups]
  refine ite_of_map (regrouped G) ?_ (ite_of_map (regrouped G) rfl (ite_of_map (regrouped G) rfl rfl))
  obtain ⟨t, m | w⟩ := resolve s c need feat (t.addr.toNat % 2 ^ 48) n
  · rfl
  · exact ite_of_map (regrouped G) rfl rfl

/-- What the checking pass finds does not depend on the groups. -/
theorem checkAll_withGroups (c : Ctx) (need : Need) (feat sync : Bool) (n : Nat) (ts : List Thread) :
    checkAll (withGroups G s) c need feat sync n ts = regrouped G (checkAll s c need feat sync n ts) := by
  induction ts generalizing s with
  | nil => rfl
  | cons t ts ih =>
    simp only [checkAll, checkThread_withGroups, regrouped, ih]

end

/-! ### An access whose checks all pass -/

/-- The threads of lanes, each with its address and data. -/
def threadsOf (lanes : List Nat) (addr : Nat → DWord) (data : Nat → List Byte) : List Thread :=
  lanes.map fun l => ⟨l, addr l, data l⟩

/-- The checks of R248 do not look at the data of a thread. -/
theorem checkAll_data {s s' : State} {c : Ctx} {need : Need} {feat sync : Bool} {n : Nat} {lanes : List Nat} {addr : Nat → DWord}
    {ps : Nat → List Piece} (hs : (checkAll s c need feat sync n (threadsOf lanes addr fun _ => [])).1 = s')
    (hps : (checkAll s c need feat sync n (threadsOf lanes addr fun _ => [])).2.map (fun r => r.2) = lanes.map fun l => .ok (ps l))
    (data : Nat → List Byte) :
    checkAll s c need feat sync n (threadsOf lanes addr data) = (s', lanes.map fun l => (⟨l, addr l, data l⟩, .ok (ps l))) := by
  induction lanes generalizing s with
  | nil => exact Prod.ext hs rfl
  | cons l ls ih =>
    obtain ⟨hhead, htail⟩ := List.cons.inj hps
    have hrest := ih (s := (checkThread s c need feat sync n ⟨l, addr l, []⟩).1) hs htail
    change ((checkAll (checkThread s c need feat sync n ⟨l, addr l, []⟩).1 c need feat sync n (threadsOf ls addr data)).1,
      ((⟨l, addr l, data l⟩ : Thread), (checkThread s c need feat sync n ⟨l, addr l, []⟩).2) ::
        (checkAll (checkThread s c need feat sync n ⟨l, addr l, []⟩).1 c need feat sync n (threadsOf ls addr data)).2) = _
    rw [hrest, show (checkThread s c need feat sync n ⟨l, addr l, []⟩).2 = _ from hhead]
    rfl

/-- Every check of the lanes' accesses passes in s: lane l's is made of the pieces ps l, and the state becomes s'. -/
def Passes (s : State) (c : Issue) (need : Need) (feat sync : Bool) (n : Nat) (lanes : List Nat) (addr : Nat → DWord) (s' : State)
    (ps : Nat → List Piece) : Prop :=
  ∀ data, checkAll s (ctxOf s (memberAsid s c.who)) need feat sync n (threadsOf lanes addr data) =
    (s', lanes.map fun l => (⟨l, addr l, data l⟩, .ok (ps l)))

theorem passes_of_leads {s s' : State} {c : Issue} {need : Need} {feat sync : Bool} {n : Nat} {addr : DWord} {w : Way}
    (h : Leads s c need sync feat n addr s' w) (l : Nat) :
    Passes s c need feat sync n [l] (fun _ => addr) s' fun _ => [⟨w, 0, n, addr.toNat % 2 ^ 48⟩] := by
  have hone := h.checked
  rw [show checkThread s (ctxOf s (memberAsid s c.who)) need feat sync n ⟨0, addr, []⟩ =
    checkThread s (ctxOf s (memberAsid s c.who)) need feat sync n ⟨l, addr, []⟩ from rfl] at hone
  refine fun data => checkAll_data ?_ ?_ data
  · simp only [threadsOf, List.map_cons, List.map_nil, checkAll, hone]
  · simp only [threadsOf, List.map_cons, List.map_nil, checkAll, hone]

theorem leads_of_reaches {s s' : State} {c : Issue} {need : Need} {feat sync : Bool} {n : Nat} {addr : DWord} {pa : Nat}
    {cls : BitVec 2} (h : Reaches s c need sync feat n addr s' pa cls) : Leads s c need sync feat n addr s' (.mem pa cls) :=
  ⟨h.checked, h.quiet⟩

theorem passes_of_allReach {s s' : State} {c : Issue} {need : Need} {feat sync : Bool} {n : Nat} {lanes : List Nat}
    {addr : Nat → DWord} {pa : Nat → Nat} {cls : Nat → BitVec 2} (h : AllReach s c need sync feat n lanes addr s' pa cls) :
    Passes s c need feat sync n lanes addr s' fun l => [⟨.mem (pa l) (cls l), 0, n, (addr l).toNat % 2 ^ 48⟩] :=
  fun data => checkAll_data h.state h.checked data

theorem Passes.withGroups {s s' : State} {c : Issue} {need : Need} {feat sync : Bool} {n : Nat} {lanes : List Nat}
    {addr : Nat → DWord} {ps : Nat → List Piece} (h : Passes s c need feat sync n lanes addr s' ps) (G : List Machine.Group) :
    Passes (withGroups G s) c need feat sync n lanes addr (withGroups G s') ps := fun data =>
  (checkAll_withGroups G s _ need feat sync n _).trans (congrArg (regrouped G) (h data))

theorem missesOf_passed (lanes : List Nat) (t : Nat → Thread) (ps : Nat → List Piece) :
    missesOf (lanes.map fun l => (t l, .ok (ps l))) = [] := by
  simp [missesOf]

theorem passedOf_passed (lanes : List Nat) (t : Nat → Thread) (ps : Nat → List Piece) :
    passedOf (lanes.map fun l => (t l, .ok (ps l))) = lanes.map fun l => (t l, ps l) := by
  simp [passedOf, List.filterMap_map]

/-- An access whose checks pass is performed, and ends. -/
theorem globalAccess_passes {s s' U : State} {c : Issue} {need : Need} {sync : Bool} {n : Nat} {lanes : List Nat}
    {addr : Nat → DWord} {ps : Nat → List Piece} (h : Passes s c need true sync n lanes addr s' ps) (data : Nat → List Byte)
    (scope : BitVec 2) (owner : Bool) (la : Nat) (dst : List Nat) (load : Option (Nat × Nat × Bool)) (acq : Bool) {a : Asked}
    (hp : performAll s' c (ctxOf s (memberAsid s c.who)) ⟨need, scope, load, owner, dst.headD 0, sync⟩
      (lanes.map fun l => (⟨l, addr l, data l⟩, ps l)) ⟨[], [], [], load, maskOf lanes, false, [], []⟩ = (U, a)) :
    globalAccess s c need sync scope owner n la dst load acq (threadsOf lanes addr data) =
      endAccess (acquireIf U c acq a) c la dst a [] := by
  have hlanes : (threadsOf lanes addr data).map (fun t => t.lane) = lanes := by simp [threadsOf, Function.comp_def]
  rw [globalAccess, h data]
  simp only [missesOf_passed, passedOf_passed, List.isEmpty_nil, Bool.not_true, Bool.false_eq_true, if_false, askedInit, hlanes, hp]

/-! ### Performing one thread after the other (R246, R249) -/

section
variable {S : State} {c : Issue} {ctx : Ctx} {o : Perform} {t : Thread} {p : Piece} {rest : List (Thread × List Piece)} {a : Asked}

/-- A thread with one piece that meets no late cause does what the piece does; a store that waits for no answer has then
completed. -/
theorem performAll_cons {U : State} {b : Asked} (hlate : pieceLate S (memberDie S c.who) o.need p = none)
    (hp : performPiece S c ctx o (o.need.w && isFabric p) t a p = (U, b)) :
    performAll S c ctx o ((t, [p]) :: rest) a = performAll U c ctx o rest
      (if o.need.w && isFabric p || !o.need.w then b else { b with undone := b.undone &&& ~~~laneBit t.lane }) := by
  simp [performAll, performPieces, hlate, hp]

/-- One that meets a late cause does nothing. -/
theorem performAll_late {b : Byte} (hlate : pieceLate S (memberDie S c.who) o.need p = some b) :
    performAll S c ctx o ((t, [p]) :: rest) a = performAll S c ctx o rest { a with late := a.late ++ [(t.lane, b, p.va)] } := by
  simp [performAll, hlate]

end

/-! ### Reading device memory -/

/-- From s to t accesses have only read: of contexts the marks end, of replicas the time of their last use changes. -/
structure OnlyRead (s t : State) : Prop where
  rest : { t with ctxs := s.ctxs, replicas := s.replicas } = s
  copies : (t.replicas.map fun r => (r.frame, r.copy)) = s.replicas.map fun r => (r.frame, r.copy)

/-- What does not look at contexts and replicas is as before. -/
theorem OnlyRead.same {s t : State} {α : Type} (h : OnlyRead s t) (f : State → α) :
    f { t with ctxs := s.ctxs, replicas := s.replicas } = f s := congrArg f h.rest

theorem OnlyRead.refl (s : State) : OnlyRead s s := ⟨rfl, rfl⟩

theorem OnlyRead.trans {s t u : State} (h : OnlyRead s t) (h' : OnlyRead t u) : OnlyRead s u where
  rest := (congrArg (fun x : State => { x with ctxs := s.ctxs, replicas := s.replicas }) h'.rest).trans h.rest
  copies := h'.copies.trans h.copies

theorem onlyRead_endMarks (s : State) (a : Asid) (m : Member) (l pa n : Nat) : OnlyRead s (endMarks s a m l pa n) := ⟨rfl, rfl⟩

theorem onlyRead_useReplica (s : State) (d : DieNo) (pa : Nat) : OnlyRead s (useReplica s d pa) where
  rest := rfl
  copies := by
    rw [useReplica, List.map_map]
    refine List.map_congr_left fun r _ => ?_
    simp only [Function.comp_apply]
    split <;> rfl

theorem OnlyRead.memberDie {s t : State} (h : OnlyRead s t) (m : Member) : memberDie t m = memberDie s m :=
  h.same fun x => Machine.memberDie x m

theorem OnlyRead.memRead {s t : State} (h : OnlyRead s t) (pa n : Nat) : memRead t pa n = memRead s pa n :=
  h.same fun x => Machine.memRead x pa n

/-- The first replica that serves a page, by frames and places alone. -/
theorem servedAt_eq (s : State) (d : DieNo) (pa : Nat) (cls : BitVec 2) :
    servedAt s d pa cls = if cls ≠ 1 then pa else
      (((s.replicas.map fun r => (r.frame, r.copy)).find? fun r => r.1 = frameNo pa && homeDie (r.2 * 65536) = d).map
        fun r => r.2 * 65536 + pa % 65536).getD pa := by
  rw [servedAt, List.find?_map]
  refine ite_congr rfl (fun _ => rfl) fun _ => ?_
  change (match s.replicas.find? _ with | some r => r.copy * 65536 + pa % 65536 | none => pa) = _
  rw [show (fun r : Replica => (r.frame = frameNo pa && homeDie (r.copy * 65536) = d : Bool)) =
    ((fun r : Nat × Nat => (r.1 = frameNo pa && homeDie (r.2 * 65536) = d : Bool)) ∘ fun r => (r.frame, r.copy)) from rfl]
  cases s.replicas.find? _ <;> rfl

theorem OnlyRead.servedAt {s t : State} (h : OnlyRead s t) (d : DieNo) (pa : Nat) (cls : BitVec 2) :
    servedAt t d pa cls = servedAt s d pa cls := by
  rw [servedAt_eq, servedAt_eq, h.copies]

/-- A late cause of a read depends on nothing that reads change. -/
theorem OnlyRead.pieceLate {s t : State} (h : OnlyRead s t) (d : DieNo) (need : Need) (pa : Nat) (cls : BitVec 2) (off n va : Nat) :
    pieceLate t d need ⟨.mem pa cls, off, n, va⟩ = pieceLate s d need ⟨.mem pa cls, off, n, va⟩ := by
  have hat : servedPart t d need pa cls = servedPart s d need pa cls := by
    rw [servedPart, servedPart, h.servedAt]
  change (if offline t d (servedPart t d need pa cls) (!cached t (servedPart t d need pa cls) cls) then some cDieOffline
    else homeLate t (frameEntry t (frameNo pa)) need (servedPart t d need pa cls) n cls) = _
  rw [hat]
  exact h.same fun x => if offline x d (servedPart s d need pa cls) (!cached x (servedPart s d need pa cls) cls) then
    some cDieOffline else homeLate x (frameEntry x (frameNo pa)) need (servedPart s d need pa cls) n cls

/-- A piece in memory that is read: the bytes from where the page is served. -/
theorem performPiece_read (S : State) (c : Issue) (ctx : Ctx) {o : Perform} (ho : o.need = { r := true }) (wait : Bool) (t : Thread)
    (a : Asked) (pa : Nat) (cls : BitVec 2) (off n va : Nat) :
    ∃ U, OnlyRead S U ∧ performPiece S c ctx o wait t a ⟨.mem pa cls, off, n, va⟩ =
      (U, { a with got := a.got ++ [(t.lane, off, memRead S (servedAt S (memberDie S c.who) pa cls) n)] }) := by
  have hmarks := onlyRead_endMarks S ctx.asid c.who t.lane pa n
  refine ⟨if servedAt S (memberDie S c.who) pa cls = pa then endMarks S ctx.asid c.who t.lane pa n
    else useReplica (endMarks S ctx.asid c.who t.lane pa n) (memberDie S c.who) pa, ?_, ?_⟩
  · split
    · exact hmarks
    · exact hmarks.trans (onlyRead_useReplica ..)
  · simp only [performPiece, ho]
    rfl

/-- Reads of lanes, each of one piece in memory. -/
theorem performAll_reads {S : State} {c : Issue} (ctx : Ctx) {o : Perform} (ho : o.need = { r := true }) {lanes : List Nat}
    (t : Nat → Thread) (ht : ∀ l, (t l).lane = l) (pa : Nat → Nat) (cls : Nat → BitVec 2) (n : Nat) (va : Nat → Nat)
    (hlate : ∀ l ∈ lanes, pieceLate S (memberDie S c.who) { r := true } ⟨.mem (pa l) (cls l), 0, n, va l⟩ = none) (a : Asked) :
    ∃ U, OnlyRead S U ∧ performAll S c ctx o (lanes.map fun l => (t l, [⟨.mem (pa l) (cls l), 0, n, va l⟩])) a =
      (U, { a with got := a.got ++ lanes.map fun l => (l, 0, memRead S (servedAt S (memberDie S c.who) (pa l) (cls l)) n) }) := by
  induction lanes generalizing S a with
  | nil => exact ⟨S, .refl S, by simp [performAll]⟩
  | cons l ls ih =>
    obtain ⟨hl, hls⟩ := List.forall_mem_cons.mp hlate
    obtain ⟨V, hV, hpiece⟩ := performPiece_read S c ctx ho (o.need.w && isFabric ⟨.mem (pa l) (cls l), 0, n, va l⟩) (t l) a
      (pa l) (cls l) 0 n (va l)
    have hls' : ∀ i ∈ ls, pieceLate V (memberDie V c.who) { r := true } ⟨.mem (pa i) (cls i), 0, n, va i⟩ = none := by
      intro i hi
      rw [hV.memberDie, hV.pieceLate]
      exact hls i hi
    obtain ⟨U, hU, hrest⟩ := ih hls' { a with got := a.got ++ [(l, 0, memRead S (servedAt S (memberDie S c.who) (pa l) (cls l)) n)] }
    refine ⟨U, hV.trans hU, ?_⟩
    rw [List.map_cons, performAll_cons (by rw [ho]; exact hl) hpiece, ht]
    simp only [ho, Bool.not_false, Bool.or_true, if_true]
    rw [hrest]
    simp only [hV.memRead, hV.servedAt, hV.memberDie, List.append_assoc, List.singleton_append, List.map_cons]

/-! ### Writing device memory (R251) -/

/-- From s to t accesses have only written memory: what that leaves in contexts, the tundish and the agenda with it. -/
def OnlyWrote (s t : State) : Prop :=
  { t with ctxs := s.ctxs, mem := s.mem, memPoison := s.memPoison, blockMarks := s.blockMarks, oldText := s.oldText, tund := s.tund
           agenda := s.agenda } = s

/-- What does not look at memory, contexts, the tundish and the agenda is as before. -/
theorem OnlyWrote.same {s t : State} {α : Type} (h : OnlyWrote s t) (f : State → α) :
    f { t with ctxs := s.ctxs, mem := s.mem, memPoison := s.memPoison, blockMarks := s.blockMarks, oldText := s.oldText, tund := s.tund
               agenda := s.agenda } = f s := congrArg f h

theorem OnlyWrote.trans {s t u : State} (h : OnlyWrote s t) (h' : OnlyWrote t u) : OnlyWrote s u := by
  have hu := h'.same fun x : State => { x with
    ctxs := s.ctxs, mem := s.mem, memPoison := s.memPoison, blockMarks := s.blockMarks, oldText := s.oldText, tund := s.tund
    agenda := s.agenda }
  exact hu.trans h

theorem onlyWrote_noteStore (s : State) (pa n : Nat) : OnlyWrote s (noteStore s pa n) := by
  unfold noteStore
  dsimp only
  split
  · rfl
  · split <;> rfl

theorem onlyWrote_memWrite (s : State) (pa : Nat) (bytes : List Byte) : OnlyWrote s (memWrite s pa bytes) :=
  OnlyWrote.trans (t := { s with
    mem := putBytes s.mem pa bytes
    memPoison := clearPoison s.memPoison pa bytes.length
    blockMarks := s.blockMarks.filter fun b => !(decide (pa ≤ b.pa) && decide (b.pa + 4 ≤ pa + bytes.length))
    oldText := s.oldText ++ oldHalves s pa bytes }) rfl (onlyWrote_noteStore ..)

theorem onlyWrote_touch (s : State) (c : Ctx) (d : DieNo) : OnlyWrote s (touch s c d) := by
  unfold touch
  dsimp only
  split <;> rfl

theorem onlyWrote_ctxWrite (s : State) (c : Ctx) (pa : Nat) (cls : BitVec 2) (bytes : List Byte) :
    OnlyWrote s (ctxWrite s c pa cls bytes) := by
  unfold ctxWrite
  dsimp only
  split
  · refine OnlyWrote.trans (onlyWrote_touch s c (homeDie pa)) (OnlyWrote.trans ?_ (onlyWrote_memWrite _ pa bytes))
    rfl
  · exact onlyWrote_memWrite ..

/-- The byte that holds the touched-dies mask of a context (R328). -/
def maskByte (c : Ctx) : Nat := c.desc + 0x58

theorem memByte_touch_ne {c : Ctx} {b : Nat} (h : b ≠ maskByte c) (s : State) (d : DieNo) : memByte (touch s c d) b = memByte s b := by
  unfold touch
  dsimp only
  split
  · rfl
  · refine amGet_putBytes_outside s.mem _ _ ?_
    rw [length_natToBytes]
    unfold maskByte at h
    omega

/-- A byte after a write of a context: the byte written there, else what was there. -/
theorem memByte_ctxWrite_ne {c : Ctx} {pa b : Nat} {bytes : List Byte} (h : b ≠ maskByte c ∨ pa ≤ b ∧ b < pa + bytes.length)
    (s : State) (cls : BitVec 2) : memByte (ctxWrite s c pa cls bytes) b =
      if pa ≤ b ∧ b < pa + bytes.length then bytes.getD (b - pa) 0 else memByte s b := by
  unfold ctxWrite
  dsimp only
  split
  · rw [memByte_memWrite]
    split
    · rfl
    · next hout => exact memByte_touch_ne (h.resolve_right hout) s _
  · exact memByte_memWrite ..

/-- The late cause of a write depends on nothing that writes change. -/
theorem OnlyWrote.pieceLate {s t : State} (h : OnlyWrote s t) (d : DieNo) (pa : Nat) (cls : BitVec 2) (off n va : Nat) :
    pieceLate t d { w := true } ⟨.mem pa cls, off, n, va⟩ = pieceLate s d { w := true } ⟨.mem pa cls, off, n, va⟩ := by
  have hhome : ∀ x : State, homeLate x (frameEntry x (frameNo pa)) { w := true } pa n cls =
      if cls ≠ 1 then none else appendWrite (frameEntry x (frameNo pa)) (pa % 65536) n := by
    intro x
    by_cases hcls : cls = 1
    · simp only [homeLate, hcls]
      cases appendWrite (frameEntry x (frameNo pa)) (pa % 65536) n <;> rfl
    · simp only [homeLate, ne_eq, hcls, not_false_eq_true, decide_true, Bool.true_or, if_true]
      rfl
  have hlate : ∀ x : State, Machine.pieceLate x d { w := true } ⟨.mem pa cls, off, n, va⟩ =
      if offline x d pa (!cached x pa cls) then some cDieOffline
      else if cls ≠ 1 then none else appendWrite (frameEntry x (frameNo pa)) (pa % 65536) n := by
    intro x
    rw [← hhome x]
    rfl
  rw [hlate, hlate]
  exact h.same fun x => if offline x d pa (!cached x pa cls) then some cDieOffline
    else if cls ≠ 1 then none else appendWrite (frameEntry x (frameNo pa)) (pa % 65536) n

theorem stored_of_pend {a : Asked} (ha : a.pend = []) (lane : Nat) (tg : Option Target) (pa n : Nat) : a.stored lane tg pa n = a := by
  cases a
  cases ha
  rfl

/-- A piece in memory that is written, where no part of the access waits. -/
theorem performPiece_write (S : State) (c : Issue) (ctx : Ctx) {o : Perform} (ho : o.need = { w := true }) {t : Thread} {a : Asked}
    (ha : a.pend = []) (pa : Nat) (cls : BitVec 2) {n : Nat} (hn : t.data.length = n) (va : Nat) :
    ∃ U, OnlyWrote S U ∧ performPiece S c ctx o false t a ⟨.mem pa cls, 0, n, va⟩ = (U, a) ∧
      ∀ b, b ≠ maskByte ctx ∨ pa ≤ b ∧ b < pa + n →
        memByte U b = if pa ≤ b ∧ b < pa + n then t.data.getD (b - pa) 0 else memByte S b := by
  subst hn
  have hwrite := onlyWrote_ctxWrite (endMarks S ctx.asid c.who t.lane pa t.data.length) ctx pa cls t.data
  refine ⟨if o.owner then setOwner (ctxWrite (endMarks S ctx.asid c.who t.lane pa t.data.length) ctx pa cls t.data) ctx.asid c.who pa
      t.data.length else ctxWrite (endMarks S ctx.asid c.who t.lane pa t.data.length) ctx pa cls t.data, ?_, ?_, fun b hb => ?_⟩
  · split
    · exact OnlyWrote.trans (t := endMarks S ctx.asid c.who t.lane pa t.data.length) rfl (hwrite.trans rfl)
    · exact OnlyWrote.trans (t := endMarks S ctx.asid c.who t.lane pa t.data.length) rfl hwrite
  · simp [performPiece, ho, stored_of_pend ha]
  · rw [← show memByte (endMarks S ctx.asid c.who t.lane pa t.data.length) b = memByte S b from rfl, ← memByte_ctxWrite_ne hb _ cls]
    split <;> rfl

/-- The last of some lanes whose n bytes at pa hold the byte b. -/
def lastOver (lanes : List Nat) (pa : Nat → Nat) (n b : Nat) : Option Nat :=
  lanes.reverse.find? fun l => decide (pa l ≤ b) && decide (b < pa l + n)

theorem lastOver_cons (l : Nat) (ls : List Nat) (pa : Nat → Nat) (n b : Nat) :
    lastOver (l :: ls) pa n b = (lastOver ls pa n b).or (if pa l ≤ b ∧ b < pa l + n then some l else none) := by
  simp only [lastOver, List.reverse_cons, List.find?_append, List.find?_singleton, Bool.and_eq_true, decide_eq_true_eq]

/-- Writes of lanes in ascending order, each of one piece in memory: of those to one byte the last stays. -/
theorem performAll_writes {S : State} {c : Issue} {ctx : Ctx} {o : Perform} (ho : o.need = { w := true }) {lanes : List Nat}
    (addr : Nat → DWord) (data : Nat → List Byte) (pa : Nat → Nat) (cls : Nat → BitVec 2) {n : Nat} (va : Nat → Nat)
    (hn : ∀ l ∈ lanes, (data l).length = n)
    (hlate : ∀ l ∈ lanes, pieceLate S (memberDie S c.who) { w := true } ⟨.mem (pa l) (cls l), 0, n, va l⟩ = none) {a : Asked}
    (ha : a.pend = []) :
    ∃ U m, OnlyWrote S U ∧
      performAll S c ctx o (lanes.map fun l => (⟨l, addr l, data l⟩, [⟨.mem (pa l) (cls l), 0, n, va l⟩])) a =
        (U, { a with undone := m }) ∧
      ∀ b, b ≠ maskByte ctx → memByte U b = ((lastOver lanes pa n b).map fun l => (data l).getD (b - pa l) 0).getD (memByte S b) := by
  induction lanes generalizing S a with
  | nil => exact ⟨S, a.undone, rfl, rfl, fun _ _ => rfl⟩
  | cons l ls ih =>
    obtain ⟨hl, hls⟩ := List.forall_mem_cons.mp hlate
    obtain ⟨hnl, hnls⟩ := List.forall_mem_cons.mp hn
    obtain ⟨V, hV, hpiece, hbyte⟩ := performPiece_write S c ctx ho (t := ⟨l, addr l, data l⟩) ha (pa l) (cls l) hnl (va l)
    have hls' : ∀ i ∈ ls, pieceLate V (memberDie V c.who) { w := true } ⟨.mem (pa i) (cls i), 0, n, va i⟩ = none := by
      intro i hi
      rw [show memberDie V c.who = memberDie S c.who from hV.same fun x => memberDie x c.who, hV.pieceLate]
      exact hls i hi
    obtain ⟨U, m, hU, hrest, hbytes⟩ := ih hnls hls' (a := { a with undone := a.undone &&& ~~~laneBit l }) ha
    have hwait : (o.need.w && isFabric ⟨.mem (pa l) (cls l), 0, n, va l⟩) = false := Bool.and_false _
    rw [← hwait] at hpiece
    refine ⟨U, m, hV.trans hU, ?_, fun b hb => ?_⟩
    · rw [List.map_cons, performAll_cons (by rw [ho]; exact hl) hpiece, hwait]
      simp only [ho, Bool.not_true, Bool.or_false, Bool.false_eq_true, if_false]
      exact hrest
    · rw [hbytes b hb, hbyte b (.inl hb), lastOver_cons]
      cases lastOver ls pa n b with
      | some i => rfl
      | none => by_cases hin : pa l ≤ b ∧ b < pa l + n <;> simp [hin]

/-! ### Requests beyond the core (R249, R379, R396) and arrivals at doorbells (R208) -/

/-- The late cause of a piece beyond the core: no circuit to its port, unless it is posted. -/
theorem pieceLate_wayTo (s : State) (d : DieNo) (need : Need) (tg : Target) (off n va : Nat) :
    pieceLate s d need ⟨wayTo tg, off, n, va⟩ =
      if postedTo need tg || circuitUp? s d.toNat (portOf tg) then none else some cDieOffline := by
  cases tg <;> rfl

/-- The request of one piece of a load or store. -/
def requestOf (S : State) (c : Issue) (ctx : Ctx) (o : Perform) (t : Thread) (tg : Target) (off n va : Nat) : Request :=
  ⟨S.nextId, some c.who, [(t.lane, 0)], off, o.dst, va, o.scope, ctx.asid, tg,
    if o.need.w then .store ((t.data.drop off).take n) false else .load n, [], 0⟩

/-- A piece that is answered from beyond the core sends its request, and is waited for. -/
theorem performPiece_send (S : State) (c : Issue) (ctx : Ctx) {o : Perform} {tg : Target} (htg : postedTo o.need tg = false) (wait : Bool)
    (t : Thread) (a : Asked) (off n va : Nat) :
    performPiece S c ctx o wait t a ⟨wayTo tg, off, n, va⟩ =
      (sendReq S (requestOf S c ctx o t tg off n va) false, { a with waiting := a.waiting ++ [S.nextId] }) := by
  cases tg <;> simp [performPiece, wayTo, targetOf, htg, requestOf]

/-- A posted write to a host window leaves, or is lost. -/
theorem performPiece_post (S : State) (c : Issue) (ctx : Ctx) {o : Perform} (ho : o.need = { w := true }) (t : Thread) {a : Asked}
    (ha : a.pend = []) (w off n va i : Nat) :
    performPiece S c ctx o false t a ⟨.window w off, i, n, va⟩ =
      (postWindow S (memberDie S c.who) (requestOf S c ctx o t (.window w off) i n va), a) := by
  simp [performPiece, targetOf, ho, postedTo, requestOf, stored_of_pend ha]

/-! ### How an access of a group ends (R88, R247, R249) -/

/-- What a group's retirement leaves of a flight: only where its entry stands, what is left of its window, and the counts to go
back to, have changed. -/
def SameFlight (f f' : Flight) : Prop :=
  { f' with left := f.left, pc := f.pc, prio := f.prio, ckptYcount := f.ckptYcount, ckptCrit := f.ckptCrit } = f

theorem flights_countIssue (g : Group) (c : Issue) {f : Flight} (h : g.flights = [f]) :
    ∃ f', (countIssue g c).flights = [f'] ∧ SameFlight f f' := by
  unfold countIssue
  split
  · exact ⟨f, h, rfl⟩
  · split
    · exact ⟨f, h, rfl⟩
    · exact ⟨countFlight f, by rw [h]; rfl, rfl⟩

theorem flights_moveEntry (g : Group) (c : Issue) (new : List Entry) {f : Flight} (h : g.flights = [f]) :
    ∃ f', (moveEntry g c new).flights = [f'] ∧ SameFlight f f' := by
  rw [moveEntry]
  simp only [h, List.map_cons, List.map_nil]
  refine ⟨_, rfl, ?_⟩
  split
  · split <;> rfl
  · rfl

theorem flights_retiredGroup (g : Group) (c : Issue) (new : List Entry) {F : Group → Group} {f : Flight} (h : (F g).flights = [f]) :
    ∃ f', (retiredGroup g c new F).flights = [f'] ∧ SameFlight f f' := by
  obtain ⟨f1, hcount, h1⟩ := flights_countIssue (F g) c h
  obtain ⟨f2, hmove, h2⟩ := flights_moveEntry (countIssue (F g) c) c new hcount
  have hflights : (retiredGroup g c new F).flights = (moveEntry (countIssue (F g) c) c new).flights := by
    simp only [retiredGroup]
    split <;> rfl
  refine ⟨f2, hflights.trans hmove, ?_⟩
  have hboth := congrArg (fun x : Flight => { x with
    left := f.left, pc := f.pc, prio := f.prio, ckptYcount := f.ckptYcount, ckptCrit := f.ckptCrit }) h2
  exact hboth.trans h1

/-- What a register holds after writes made once each, w saying which. -/
theorem vGet_putWrites_getD {ws : List RegWrite} {w : Nat → Nat → Option Word} (hn : (ws.map fun x => (x.lane, x.reg)).Nodup)
    (hb : ∀ x ∈ ws, x.reg < 64) (hw : ∀ l r v, (⟨l, r, v⟩ : RegWrite) ∈ ws ↔ w l r = some v) (q : GroupRegs) (l : Nat) {r : Nat}
    (hr : r < 64) : vGet (putWrites q ws) l r = (w l r).getD (vGet q l r) := by
  cases hv : w l r with
  | some v => exact vGet_putWrites_written hn hb ⟨l, r, v⟩ ((hw l r v).mpr hv)
  | none =>
    refine vGet_putWrites_unwritten hr hb fun x hx hlr => ?_
    have hwx := (hw x.lane x.reg x.val).mp hx
    rw [hlr.1, hlr.2, hv] at hwx
    cases hwx

section
variable {s U : State} {c : Issue} {g : Group} (h : OnLanes s c g) (hU : U.groups = s.groups)
include h hU

/-- A group that retires with one flight added to none: no register has changed. -/
theorem flies_retireLanes {F : Group → Group} (hkey : KeepsKey F) {f : Flight} (hF : F g = { g with flights := [f] }) :
    LaneRegs s (retireLanes U c F) c (Effect.none c) ∧
      ∃ f', (memberGroup (retireLanes U c F) c.who).flights = [f'] ∧ SameFlight f f' := by
  refine ⟨laneRegs_retireTo h hU _ hkey (by rw [hF]) (Effect.none c) (fun _ _ _ => by rw [hF]; rfl) (fun _ _ => by rw [hF]; rfl)
    (fun _ => by rw [hF]; rfl) (fun _ => by rw [hF]; exact BitVec.or_zero.symm) (by rw [hF]; exact ⟨rfl, rfl, rfl, rfl⟩)
    (fun _ hl => covers_next c hl) (inside_next c _) (by rw [hF]), ?_⟩
  have hgroup : memberGroup (retireLanes U c F) c.who = retiredGroup g c [⟨nextPc c, c.prio, c.mask, none⟩] F := by
    rw [retireLanes, retireTo_eq, memberGroup_of_groups (endIssue_groups _ c)]
    exact h.upd hU (keepsKey_retired c _ hkey)
  rw [hgroup]
  exact flights_retiredGroup g c _ (by rw [hF])

/-- Register writes, each made once, of lanes that retire at once or later (R88). -/
theorem landsOrFlies_retireWrites (hflights : g.flights = []) {ws : List RegWrite} {w : Nat → Nat → Option Word}
    (hn : (ws.map fun x => (x.lane, x.reg)).Nodup) (hb : ∀ x ∈ ws, x.reg < 64)
    (hw : ∀ l r v, (⟨l, r, v⟩ : RegWrite) ∈ ws ↔ w l r = some v) (la : Nat) (dst : List Nat) :
    LandsOrFlies s (retireWrites U c la dst ws []) c la w := by
  have hkey := keepsKey_writes c la dst ws []
  rw [retireWrites_eq]
  refine ⟨fun hla => ?_, fun hla => ?_⟩
  · have hF : writeGroup c la dst ws [] g = { g with regs := putWrites g.regs ws, poison := unmark g.poison (writeMarks ws) } := by
      simp [writeGroup, hla, putFlags]
    obtain ⟨hp, hg, hlstat, hct, hst, hsl, hse, hfr⟩ := regs_of_rest (putWrites_rest g.regs ws)
    refine laneRegs_retireTo h hU _ hkey (by rw [hF]) _ (fun l r hr => ?_) (fun l k => ?_) (fun r => ?_)
      (fun l => ?_) ?_ (fun _ hl => covers_next c hl) (inside_next c _) ?_
    · rw [hF]; exact vGet_putWrites_getD hn hb hw g.regs l hr
    · rw [hF, lanePred, hp]; rfl
    · rw [hF, gGet, hg]; rfl
    · rw [hF, hlstat]; exact BitVec.or_zero.symm
    · rw [hF]; exact ⟨hct, hst, hsl, hse⟩
    · rw [hF, hfr]
  · have hF : writeGroup c la dst ws [] g = { g with flights := [newFlight g c la dst ws [] [] none] } := by
      simp [writeGroup, hla, h.normal, hflights]
    obtain ⟨hregs, f, hf, hsame⟩ := flies_retireLanes h hU hkey hF
    refine ⟨hregs, f, ?_, congrArg Flight.issue hsame, congrArg Flight.ask hsame, congrArg Flight.gwrites hsame,
      congrArg Flight.flags hsame, fun l r v => ?_⟩
    · exact hf ▸ List.mem_singleton_self f
    · rw [← hw]
      exact iff_of_eq (congrArg ((⟨l, r, v⟩ : RegWrite) ∈ ·) (congrArg Flight.writes hsame))

end

/-! ### What a load writes (R245) -/

theorem dataRegs_eq (size d : Nat) : dataRegs size d = (List.range (regCount size)).map (d + ·) := rfl

/-- The value of loaded bytes, as memory holds them. -/
theorem bytesToNat_memRead (s : State) (pa n : Nat) : bytesToNat (memRead s pa n) = memVal s pa n := by
  rw [memRead, getBytes, addrsFrom, List.map_map]
  rfl

/-- A loaded value register by register. -/
theorem loadWrites_eq (lane size d : Nat) (sext : Bool) (bytes : List Byte) : loadWrites lane size d sext bytes =
    (List.range (regCount size)).map fun i => ⟨lane, d + i, loadedWord size sext (bytesToNat bytes) i⟩ := by
  match size with
  | 0 => cases sext <;> simp [loadWrites, regCount, loadedWord, sizeBytes, sextNat_eq_toInt, BitVec.signExtend]
  | 1 => cases sext <;> simp [loadWrites, regCount, loadedWord, sizeBytes, sextNat_eq_toInt, BitVec.signExtend]
  | 2 => rfl
  | 3 => rfl
  | 4 => rfl
  | n + 5 => simp [loadWrites, dataRegs, regCount, loadedWord]

theorem loadSpine_eq (size : Nat) (sext : Bool) (bytes : List Byte) :
    loadSpine size sext bytes = loadedX size sext (bytesToNat bytes) := by
  match size with
  | 0 => cases sext <;> simp [loadSpine, loadedX, sizeBytes, sextNat_eq_toInt, BitVec.signExtend]
  | 1 => cases sext <;> simp [loadSpine, loadedX, sizeBytes, sextNat_eq_toInt, BitVec.signExtend]
  | n + 2 => simp [loadSpine, loadedX]

/-- Data registers that are in order lie among the 64 of a lane. -/
theorem dataOk_bound {budget size : Nat} {d : RegField} (h : dataOk budget size d.toNat = true) : d.toNat + regCount size ≤ 64 := by
  have hd : d.toNat < 64 := d.isLt
  unfold dataOk vOk at h
  unfold regCount
  by_cases h4 : size = 4
  · simp only [h4, if_true, Bool.and_eq_true, decide_eq_true_eq] at h ⊢
    omega
  · by_cases h3 : size = 3
    · subst h3
      simp at h ⊢
      omega
    · simp only [h4, h3, if_false]
      omega

theorem dedup_of_nodup {α : Type} [DecidableEq α] {l : List α} (h : l.Nodup) : dedup l = l := by
  induction l with
  | nil => rfl
  | cons x xs ih =>
    obtain ⟨hx, hxs⟩ := List.nodup_cons.mp h
    rw [dedup, ih hxs, List.filter_eq_self.mpr]
    intro y hy
    simpa using fun hyx : y = x => hx (hyx ▸ hy)

section
variable {lanes : List Nat} (hn : lanes.Nodup) (bytes : Nat → List Byte) {a : Asked} (hgot : a.got = lanes.map fun l => (l, 0, bytes l))
include hn hgot

/-- A lane that was answered once has got that answer. -/
theorem gotBytes_of_lanes {l : Nat} (hl : l ∈ lanes) : gotBytes a l = bytes l := by
  have hone : lanes.filter (fun i => i = l) = [l] := by
    rw [List.filter_eq, List.count_eq_one_of_mem hn hl]
    rfl
  have hfilter : a.got.filter (fun q => q.1 = l) = [(l, 0, bytes l)] := by
    rw [hgot, List.filter_map, show (fun q : Nat × Nat × List Byte => decide (q.1 = l)) ∘ (fun i => (i, 0, bytes i)) =
      fun i => decide (i = l) from rfl, hone]
    rfl
  rw [gotBytes, hfilter]
  simp [sortBy, sortBy.insertFirst]

theorem loadedWrites_of_lanes {d size : Nat} {sext : Bool} (hload : a.load = some (d, size, sext)) : loadedWrites a =
    lanes.flatMap fun l => (List.range (regCount size)).map fun i => ⟨l, d + i, loadedWord size sext (bytesToNat (bytes l)) i⟩ := by
  have hlanes : a.got.map (fun q => q.1) = lanes := by rw [hgot]; simp [Function.comp_def]
  rw [loadedWrites, hload]
  simp only [hlanes, dedup_of_nodup hn]
  rw [List.flatMap_def, List.flatMap_def]
  refine congrArg List.flatten (List.map_congr_left fun l hl => ?_)
  rw [loadWrites_eq, gotBytes_of_lanes hn bytes hgot hl]

end

/-- The writes of a load of lanes: each register once. -/
theorem nodup_loads {lanes : List Nat} (hn : lanes.Nodup) (d k : Nat) (v : Nat → Nat → Word) :
    ((lanes.flatMap fun l => (List.range k).map fun i => (⟨l, d + i, v l i⟩ : RegWrite)).map fun x => (x.lane, x.reg)).Nodup := by
  rw [List.map_flatMap, List.nodup_flatMap]
  refine ⟨fun l _ => ?_, hn.imp fun {l i} hne => ?_⟩
  · rw [List.map_map]
    exact List.nodup_range.map fun i j hij => by simpa using hij
  · simp only [Function.onFun, List.map_map]
    intro x hx hy
    obtain ⟨p, -, rfl⟩ := List.mem_map.mp hx
    obtain ⟨q, -, hq⟩ := List.mem_map.mp hy
    exact hne (Prod.mk.inj hq).1.symm

theorem mem_loads {lanes : List Nat} {d size : Nat} {sext : Bool} {v : Nat → Nat} {l r : Nat} {w : Word} :
    (⟨l, r, w⟩ : RegWrite) ∈ (lanes.flatMap fun l => (List.range (regCount size)).map fun i =>
      (⟨l, d + i, loadedWord size sext (v l) i⟩ : RegWrite)) ↔ lanesV lanes (fun l => loadV l d size sext (v l)) l r = some w := by
  simp only [List.mem_flatMap, List.mem_map, List.mem_range, RegWrite.mk.injEq, lanesV, loadV]
  constructor
  · rintro ⟨i, hi, j, hj, rfl, rfl, rfl⟩
    rw [if_pos hi, if_pos ⟨trivial, by omega, by omega⟩, Nat.add_sub_cancel_left]
  · intro h
    split at h
    · next hl =>
      split at h
      · next hr => exact ⟨l, hl, r - d, by omega, rfl, by omega, Option.some.inj h⟩
      · cases h
    · cases h

theorem LandsOrFlies.of_same {s S t : State} {c : Issue} {la : Nat} {w : Nat → Nat → Option Word} (h : LandsOrFlies S t c la w)
    (hm : memberGroup S c.who = memberGroup s c.who)
    (ho : ∀ kc core idx, Member.group kc core idx ≠ c.who → groupOf S kc core idx = groupOf s kc core idx) :
    LandsOrFlies s t c la w :=
  ⟨fun hla => (h.1 hla).of_same hm ho, fun hla => ⟨(h.2 hla).1.of_same hm ho, (h.2 hla).2⟩⟩

/-- A group that a late cause stops at its issue: its entry is unblocked, to issue again, and the issue counts. -/
def stoppedLate (c : Issue) (g : Group) : Group :=
  { countAtTrap (landAll g) c with
    regs := putWrites (countAtTrap (landAll g) c).regs [], poison := unmark (countAtTrap (landAll g) c).poison [] }

/-- A group whose access a stays in flight. -/
def waitingFor (c : Issue) (la : Nat) (dst : List Nat) (a : Asked) (g : Group) : Group :=
  { g with flights := g.flights ++ [newFlight g c la dst [] [] [] (some a)] }

theorem keepsKey_waitingFor (c : Issue) (la : Nat) (dst : List Nat) (a : Asked) : KeepsKey (waitingFor c la dst a) := fun _ => ⟨rfl, rfl, rfl⟩

section
variable {s U : State} {c : Issue} {g : Group} (h : OnLanes s c g) (hU : U.groups = s.groups) (hflights : g.flights = []) {a : Asked}
include h hU hflights

/-- An access of a group with nothing in flight, and not in run-ahead, retires, stops late, or waits in flight. -/
theorem endAccess_lanes (la : Nat) (dst : List Nat) : endAccess U c la dst a [] =
    if a.waiting.isEmpty then
      if a.late.isEmpty then retireWrites U c la dst (loadedWrites a) []
      else endIssue (stopMember (updMember U c.who (stoppedLate c)) c.who (lateTrap c a)) c
    else retireLanes U c (waitingFor c la dst a) := by
  have hgroup : memberGroup U c.who = g := (memberGroup_of_groups hU _).trans h.group
  simp only [endAccess, h.notSpine, endLanes, hgroup, h.normal, hasWaiting, hflights]
  rfl

/-- An access that has got everything it asked for gives its lanes what they loaded. -/
theorem landsOrFlies_loads {lanes : List Nat} (hn : lanes.Nodup) (bytes : Nat → List Byte) {d : RegField} {budget size : Nat} {sext : Bool}
    (hd : dataOk budget size d.toNat = true) (hw : a.waiting = []) (hl : a.late = [])
    (hgot : a.got = lanes.map fun l => (l, 0, bytes l)) (hload : a.load = some (d.toNat, size, sext)) (la : Nat) (dst : List Nat) :
    LandsOrFlies s (endAccess U c la dst a []) c la (lanesV lanes fun l => loadV l d.toNat size sext (bytesToNat (bytes l))) := by
  rw [endAccess_lanes h hU hflights, hw, hl, loadedWrites_of_lanes hn bytes hgot hload]
  refine landsOrFlies_retireWrites h hU hflights (nodup_loads hn _ _ _) (fun x hx => ?_) (fun _ _ _ => mem_loads) la dst
  have hbound := dataOk_bound hd
  obtain ⟨l, -, hx⟩ := List.mem_flatMap.mp hx
  obtain ⟨i, hi, rfl⟩ := List.mem_map.mp hx
  have := List.mem_range.mp hi
  dsimp only
  omega

/-- A store that waits for nothing writes no register. -/
theorem landsOrFlies_stores (hw : a.waiting = []) (hl : a.late = []) (hload : a.load = none) (la : Nat) (dst : List Nat) :
    LandsOrFlies s (endAccess U c la dst a []) c la fun _ _ => none := by
  rw [endAccess_lanes h hU hflights, hw, hl, show loadedWrites a = [] by rw [loadedWrites, hload]]
  exact landsOrFlies_retireWrites h hU hflights (ws := []) List.nodup_nil (by simp) (by simp) la dst

/-- What an access that ends at its issue leaves alone. -/
theorem endAccess_onlyGroups (hw : a.waiting = []) (hl : a.late = []) (la : Nat) (dst : List Nat) :
    { endAccess U c la dst a [] with groups := U.groups, cur := U.cur, fresh := U.fresh } = U := by
  rw [endAccess_lanes h hU hflights, hw, hl]
  exact onlyGroups_retireTo rfl c _ _

end

/-! ### Accesses of a group that wait, or meet a late cause at once (R249) -/

/-- Other groups G in a state s, with the issuing group g and every group but it as they are in s. -/
structure SameIssuer (s : State) (c : Issue) (g : Group) (G : List Machine.Group) : Prop where
  base : OnLanes s c g
  on : OnLanes (withGroups G s) c g
  others : ∀ kc core idx, Member.group kc core idx ≠ c.who → groupOf (withGroups G s) kc core idx = groupOf s kc core idx

theorem SameIssuer.same {s : State} {c : Issue} {g : Group} {G : List Machine.Group} (h : SameIssuer s c g G) :
    memberGroup (withGroups G s) c.who = memberGroup s c.who := h.on.group.trans h.base.group.symm

theorem SameIssuer.refl {s : State} {c : Issue} {g : Group} (h : OnLanes s c g) : SameIssuer s c g s.groups := ⟨h, h, fun _ _ _ _ => rfl⟩

/-- A change of the issuing group that leaves it as it is. -/
theorem SameIssuer.of_step {s : State} {c : Issue} {g : Group} (h : OnLanes s c g) {f : Group → Group} (hf : KeepsKey f) (hg : f g = g) :
    ∃ G, SameIssuer s c g G ∧ updMember s c.who f = withGroups G s := by
  have heq : updMember s c.who f = withGroups (updMember s c.who f).groups s := by cases c.who <;> rfl
  refine ⟨_, ⟨h, ?_, ?_⟩, heq⟩ <;> rw [← heq]
  · exact h.step rfl rfl hf hg
  · exact h.step_others rfl hf

theorem SameIssuer.tlb {s : State} {c : Issue} {g : Group} {G : List Machine.Group} (h : SameIssuer s c g G) (T : List TlbEntry) :
    SameIssuer { s with tlb := T } c g G :=
  ⟨⟨h.base.cur, h.base.who, h.base.here, h.base.normal, h.base.clean⟩, ⟨h.on.cur, h.on.who, h.on.here, h.on.normal, h.on.clean⟩, h.others⟩

/-- A state in which only the translations held have changed. -/
theorem eq_of_quiet {s s' : State} (h : { s' with tlb := s.tlb } = s) : ∃ T, s' = { s with tlb := T } := ⟨s'.tlb, by rw [← h]⟩

theorem onlyGroups_retireLanes (s : State) (c : Issue) (F : Group → Group) : OnlyGroups s (retireLanes s c F) :=
  onlyGroups_retireTo rfl c _ F

/-- An access that asked for something beyond the core waits for it in flight. -/
theorem lanesAsk_sent {s : State} {c : Issue} {g : Group} {G : List Machine.Group} (h : SameIssuer s c g G) (hflights : g.flights = [])
    (T : List TlbEntry) (r : Request) {a : Asked} (hw : a.waiting ≠ []) (la : Nat) (dst : List Nat) :
    LanesAsk s (endAccess (sendReq (withGroups G { s with tlb := T }) r false) c la dst a []) c s a := by
  obtain ⟨hregs, f, hf, hsame⟩ := flies_retireLanes (U := sendReq (withGroups G { s with tlb := T }) r false) h.on rfl
    (keepsKey_waitingFor c la dst a) (f := newFlight g c la dst [] [] [] (some a)) (by simp [waitingFor, hflights])
  rw [endAccess_lanes (U := sendReq (withGroups G { s with tlb := T }) r false) h.on rfl hflights, List.isEmpty_eq_false_iff.mpr hw]
  refine ⟨hregs.of_same h.same h.others, ?_, f, hf, congrArg Flight.issue hsame, congrArg Flight.writes hsame,
    congrArg Flight.gwrites hsame, congrArg Flight.ask hsame, ?_⟩
  · have honly := onlyGroups_retireLanes (sendReq (withGroups G { s with tlb := T }) r false) c (waitingFor c la dst a)
    exact congrArg (fun x : State => { x with
      groups := s.groups, requests := s.requests, out := s.out, nextId := s.nextId, tlb := s.tlb, cur := s.cur, fresh := s.fresh }) honly
  · rw [h.base.group]
    exact congrArg Flight.ckpt hsame

theorem landAll_of_idle {g : Group} (h : g.flights = []) : landAll g = g := by
  cases g
  cases h
  rfl

theorem keepsKey_stoppedLate (c : Issue) : KeepsKey (stoppedLate c) := fun g => keepsKey_countAtTrap c g

/-- A late cause met at once stops the group, and nothing else changes. -/
theorem lanesStop_endAccess {U : State} {c : Issue} {g : Group} (h : OnLanes U c g) (hflights : g.flights = []) {a : Asked}
    (hw : a.waiting = []) (hl : a.late ≠ []) (hcause : (lateTrap c a).cause ≠ cDataPoison) (la : Nat) (dst : List Nat) :
    LanesStop U (endAccess U c la dst a []) c (lateTrap c a) := by
  have hwho := h.who
  have hend : endAccess U c la dst a [] =
      endIssue (stopMember (updGroup U g.kc g.core g.idx (stoppedLate c)) (.group g.kc g.core g.idx) (lateTrap c a)) c := by
    rw [endAccess_lanes h rfl hflights, hw, List.isEmpty_eq_false_iff.mpr hl, hwho]
    rfl
  have hgroup : groupOf (endAccess U c la dst a []) g.kc g.core g.idx =
      { stoppedLate c g with trap := some (lateTrap c a), hold := none, stopped := none } := by
    rw [hend, groupOf_of_groups (endIssue_groups _ c)]
    exact groupOf_stopMember _ (groupHere_updGroup h.here rfl (keepsKey_stoppedLate c))
  refine ⟨⟨?_, ?_⟩, ?_, ?_, fun kc core idx hne => ?_⟩
  · rw [hend, endIssue_frames, stopMember_frames, hwho]
    exact congrArg (U.frames ++ [·]) (frameOf_of_kcs rfl _ _)
  · rw [hwho]
    exact congrArg Group.trap hgroup
  · rw [hend]
    have honly := congrArg (fun x : State => { x with groups := U.groups, frames := U.frames, cur := U.cur, fresh := U.fresh })
      (stopMember_only (s := updGroup U g.kc g.core g.idx (stoppedLate c)) hcause g.kc g.core g.idx)
    exact honly
  · rw [h.group, hwho]
    refine (congrArg Group.regs hgroup).trans ?_
    change (stoppedLate c g).regs = _
    rw [stoppedLate, landAll_of_idle hflights]
    rfl
  · rw [hwho] at hne
    have hother : ¬(kc = g.kc ∧ core = g.core ∧ idx = g.idx) := fun e => hne (by rw [e.1, e.2.1, e.2.2])
    have hstop : KeepsKey fun g => { g with trap := some (lateTrap c a), hold := none, stopped := none } := fun _ => ⟨rfl, rfl, rfl⟩
    have hboth : (stopMember (updGroup U g.kc g.core g.idx (stoppedLate c)) (.group g.kc g.core g.idx) (lateTrap c a)).groups =
        (updGroup (updGroup U g.kc g.core g.idx (stoppedLate c)) g.kc g.core g.idx
          fun g => { g with trap := some (lateTrap c a), hold := none, stopped := none }).groups := by
      simp only [stopMember, if_neg hcause]
      rfl
    rw [hend, groupOf_of_groups (endIssue_groups _ c), groupOf_of_groups hboth, groupOf_updGroup_other hstop hother,
      groupOf_updGroup_other (keepsKey_stoppedLate c) hother]

/-- The same, seen from the state with the groups as they were. -/
theorem SameIssuer.lanesStop {s t : State} {c : Issue} {g : Group} {G : List Machine.Group} (h : SameIssuer s c g G) {tr : Trap}
    (ht : LanesStop (withGroups G s) t c tr) : LanesStop s t c tr := by
  obtain ⟨⟨hframe, hstopped⟩, honly, hregs, hothers⟩ := ht
  rw [h.same] at hregs
  rw [frameOf_of_kcs (S := withGroups G s) (s := s) rfl] at hframe
  exact ⟨⟨hframe, hstopped⟩, congrArg (withGroups s.groups) honly, hregs, fun kc core idx hne =>
    (hothers kc core idx hne).trans (h.others kc core idx hne)⟩

/-- The trap of a lane whose access meets a late cause alone. -/
theorem lateTrap_one {c : Issue} (hc : isSpine c.who = false) (lanes : List Nat) (l : Nat) (cause : Byte) (va : Nat)
    (load : Option (Nat × Nat × Bool)) :
    lateTrap c ⟨[], [(l, cause, va)], [], load, maskOf lanes, false, [], []⟩ = lateAt c lanes l cause va := by
  simp [lateTrap, lateRaise, lateFirst, sortBy, sortBy.insertFirst, hc, lateAt]

/-! ### What an access on lanes reads, and how it starts (R244, R245, R95) -/

theorem joinWords_eq (lo hi : Word) : joinWords lo hi = hi ++ lo := by
  apply BitVec.eq_of_toNat_eq
  rw [BitVec.toNat_append, joinWords, BitVec.toNat_ofNat, Nat.shiftLeft_eq_mul_pow, Nat.mul_comm hi.toNat, Nat.add_comm,
    ← Nat.two_pow_add_eq_or_of_lt lo.isLt]
  have hlo := lo.isLt
  have hhi := hi.isLt
  omega

theorem readV_of_idle {g : Group} (h : g.flights = []) (s : State) (tag lane reg : Nat) :
    readV s g tag lane reg = vGet g.regs lane reg := by
  rw [readV, h, List.foldl_nil]

theorem laneAddr_pair {g : Group} (h : g.flights = []) (s : State) (lane a : Nat) : laneAddr s g lane a true = pairAt g lane a := by
  rw [laneAddr, if_pos rfl, readV_of_idle h, readV_of_idle h, joinWords_eq]
  rfl

/-- The little-endian bytes of a register. -/
theorem natToBytes_toNat {w : Nat} (x : BitVec w) (n : Nat) :
    natToBytes n x.toNat = (List.range n).map fun i => x.extractLsb' (8 * i) 8 := by
  refine List.ext_getElem (by simp [length_natToBytes]) fun i hi _ => ?_
  rw [length_natToBytes] at hi
  rw [← List.getD_eq_getElem _ 0, getD_natToBytes hi, List.getElem_map, List.getElem_range]
  apply BitVec.eq_of_toNat_eq
  rw [BitVec.extractLsb'_toNat, BitVec.toNat_ofNat, Nat.shiftRight_eq_div_pow]

/-- The bytes that a lane stores (R245). -/
def laneBytes (g : Group) (size d l : Nat) : List Byte :=
  (List.range (2 ^ size)).map fun i => (vGet g.regs l (d + i / 4)).extractLsb' (8 * (i % 4)) 8

theorem laneData_eq {g : Group} (h : g.flights = []) (s : State) {size : Nat} (hsize : size ≤ 4) (d l : Nat) :
    laneData s g l size d = laneBytes g size d l := by
  have hwords : laneData s g l size d = ((dataRegs size d).flatMap fun r =>
      (List.range 4).map fun i => (vGet g.regs l r).extractLsb' (8 * i) 8).take (2 ^ size) := by
    simp only [laneData, readV_of_idle h, natToBytes_toNat, sizeBytes]
  rw [hwords, laneBytes]
  interval_cases size <;> rfl

theorem length_laneBytes (g : Group) (size d l : Nat) : (laneBytes g size d l).length = 2 ^ size := by simp [laneBytes]

/-- The threads of the active lanes of a global access. -/
theorem threads_of_active {g : Group} (h : g.flights = []) (s : State) (act : List Nat) (a : Nat) (data : Nat → List Byte) :
    (act.map fun l => (⟨l, laneAddr s g l a true, data l⟩ : Thread)) = threadsOf act (fun l => pairAt g l a) data := by
  simp only [laneAddr_pair h, threadsOf]

/-- With nothing in flight an effect outside the registers takes place at once. -/
theorem outside_of_idle {s : State} {c : Issue} {g : Group} (h : OnLanes s c g) (hflights : g.flights = []) (k : State → State)
    (dst : List Nat) : outside s c k dst = k s := by
  have hwho := h.who
  have hgroup := h.group
  generalize hw : c.who = w at hwho hgroup
  subst hwho
  simp [outside, hw, hgroup, h.normal, hasWaiting, hflights, flightWrites]

theorem buffer_of_global {o : MemOp} (hspace : ¬(2 ≤ o.space ∧ o.space ≤ 4)) : (decide (2 ≤ o.space) && decide (o.space ≤ 4)) = false := by
  rw [← Bool.decide_and, decide_eq_false hspace]

section
variable {s : State} {c : Issue} {g : Group} {o : MemOp} {regs : List Nat} (h : SomeLanes s c g o.g regs)
  (hok : accessOk g o.size o.d o.a) (hspace : ¬(2 ≤ o.space ∧ o.space ≤ 4))
include h hok hspace

/-- The decoding checks of a global access on lanes pass. -/
theorem runMem_lanes : runMem s c o = memOnLanes s c o := by
  obtain ⟨ha, hd⟩ := hok
  rw [runMem, h.on.notSpine]
  refine (checked_ok ?_ h.on.clean).trans (by simp)
  simp [buffer_of_global hspace, h.on.group, ha, hd, spruesOk]

/-- A store to global memory on lanes, not held back. -/
theorem runMem_lanes_store (hstore : o.store = true) (hsize : o.size ≤ 4)
    (hregs : regs = [o.a.toNat, o.a.toNat + 1] ++ (List.range (regCount o.size)).map (o.d.toNat + ·))
    (hbusy : (systemRelease o && fabricPending s (memberAsid s c.who)) = false) :
    runMem s c o = globalAccess s c { w := true } o.sync o.scope (o.sync && o.scope = 0) (2 ^ o.size) o.la [] none false
      (threadsOf (activeLanes g c o.g) (fun l => pairAt g l o.a.toNat) (laneBytes g o.size o.d.toNat)) := by
  subst hregs
  have hacq : acquirePending s g = false := by simp [acquirePending, h.landed]
  rw [runMem_lanes h hok hspace, memOnLanes, h.on.group]
  simp only [buffer_of_global hspace, hstore, h.on.normal, h.clean, hacq, hbusy, dataRegs_eq, outside_of_idle h.on h.landed,
    threads_of_active h.landed, Bool.false_eq_true, if_false, if_true, Bool.not_false, Bool.not_true, Option.isSome_none,
    Bool.false_and, Bool.true_or, Bool.or_self, List.isEmpty_nil, Bool.and_false, Bool.true_and, sizeBytes]
  simp only [laneData_eq h.landed s hsize]

/-- A load from global memory on lanes, in a state that may hold other groups. -/
theorem runMem_lanes_load (hstore : o.store = false) (hregs : regs = [o.a.toNat, o.a.toNat + 1]) :
    ∃ G, SameIssuer s c g G ∧ runMem s c o = globalAccess (withGroups G s) c { r := true } o.sync o.scope false (2 ^ o.size) o.la
      ((List.range (regCount o.size)).map (o.d.toNat + ·)) (some (o.d.toNat, o.size, o.sext)) o.sync
      (threadsOf (activeLanes g c o.g) (fun l => pairAt g l o.a.toNat) fun _ => []) := by
  subst hregs
  have hacq : acquirePending s g = false := by simp [acquirePending, h.landed]
  have hrel : systemRelease o = false := by simp [systemRelease, hstore]
  rw [runMem_lanes h hok hspace, memOnLanes, h.on.group]
  simp only [buffer_of_global hspace, hstore, h.on.normal, h.clean, hacq, hrel, dataRegs_eq, outside_of_idle h.on h.landed,
    threads_of_active h.landed, Bool.false_eq_true, if_false, Bool.not_false, Bool.not_true, Option.isSome_none, Option.isNone_none,
    Bool.false_and, Bool.false_or, Bool.or_self, List.isEmpty_nil, Bool.and_true, List.append_nil, sizeBytes]
  split
  · exact ⟨s.groups, .refl h.on, rfl⟩
  · obtain ⟨G, hG, heq⟩ := SameIssuer.of_step h.on (keepsKey_spread c o.g [o.a.toNat, o.a.toNat + 1]
      ((List.range (regCount o.size)).map (o.d.toNat + ·)) fun l => [l]) (spreadTaint_none h.on.normal _ _ _ _ _)
    refine ⟨G, hG, ?_⟩
    rw [← heq]
    simp only [afterFlights, h.on.group, h.landed, List.any_nil, Bool.not_false, if_true]

end

/-! ### A spine's access (R27, R244, R245) -/

/-- The kernel clusters K after the spine's address register is read: k has the sprue registers q. -/
structure AddrRead (s : State) (k : Kc) (a : RegField) (K : List Kc) (q : AMap SprueReg) : Prop where
  eq : addrRead s k a = { s with kcs := K }
  here : K.find? (fun x => x.id = k.id) = some { k with sprue := q }
  sprues : SprueBecomes s { s with kcs := K } k.id fun j r => if j + 32 = a.toNat then consumed r else r

theorem mem_spineSprue {a : RegField} {i : Nat} : i ∈ (spineSprue a).toList ↔ i + 32 = a.toNat := by
  unfold spineSprue
  split
  · simp only [Option.toList_some, List.mem_singleton]; omega
  · simp only [Option.toList_none, List.not_mem_nil, false_iff]; omega

theorem nodup_spineSprue (a : RegField) : (spineSprue a).toList.Nodup := by
  unfold spineSprue
  split <;> simp

theorem addrRead_spec {s : State} {c : Issue} {k : Kc} (h : OnSpine s c k) (a : RegField) : ∃ K q, AddrRead s k a K q := by
  obtain ⟨q, hq⟩ := consumeAll_find h.here (spineSprue a).toList
  have hsprues := sprueBecomes_consumeAll h.here _ (nodup_spineSprue a)
  simp only [mem_spineSprue] at hsprues
  have heq : addrRead s k a = { s with kcs := (addrRead s k a).kcs } :=
    congrArg (fun x : State => { x with kcs := (addrRead s k a).kcs }) (consumeAll_kcs_only s k.id (spineSprue a).toList)
  exact ⟨(addrRead s k a).kcs, q, heq, hq, by rw [← heq]; exact hsprues⟩

/-- A read whose instruction traps has not happened, and one that waits happens when it completes (R27). -/
def readOnce (k : Kc) (run : State) : State :=
  if (kcOf run k.id).spine.trap.isSome || (kcOf run k.id).spine.asked.isSome then updKc run k.id fun q => { q with sprue := k.sprue }
  else run

theorem addrOf_eq (k : Kc) (a : RegField) : BitVec.ofNat 64 (spineField k a.toNat true) = addrOf k a := by
  unfold spineField addrOf
  dsimp only
  rw [if_pos rfl]
  split <;> exact BitVec.ofNat_toNat ..

/-- The bytes that a spine stores (R245). -/
def spineBytes (k : Kc) (size d : Nat) : List Byte := (List.range (2 ^ size)).map fun i => (xGet k.spine d).extractLsb' (8 * i) 8

section
variable {s : State} {c : Issue} {k : Kc} {o : MemOp} (h : SpineAddr s c k o.g o.a) (hsize : o.size ≤ 3)
  (hspace : ¬(2 ≤ o.space ∧ o.space ≤ 4))
include h

/-- A sprue register that a spine's address names can be read, and is clean. -/
theorem addr_readable {i : Nat} (hi : i ∈ (spineSprue o.a).toList) :
    i < k.cfgSprue ∧ readable k i = true ∧ (sprueGet k i).poison = false := by
  obtain ⟨-, hasked, -⟩ := h.free
  have hi' := mem_spineSprue.mp hi
  obtain ⟨hcount, hfull, hclean⟩ := h.address (by omega)
  rw [show o.a.toNat - 32 = i by omega] at hcount hfull hclean
  exact ⟨hcount, by simp [readable, hfull, reserved, hasked], hclean⟩

include hsize hspace

/-- The decoding checks of a spine's global access pass. -/
theorem runMem_spine (hd : 32 ≤ o.d.toNat → o.store = false ∧ o.d.toNat - 32 < k.cfgSprue) : runMem s c o = memOnSpine s c o := by
  rw [runMem, h.on.spine]
  refine (checked_ok ?_ (poisonedIssue_spine h.on.spine)).trans (by simp)
  have hstore : (o.store && decide (32 ≤ o.d.toNat)) = false := by
    by_cases h32 : 32 ≤ o.d.toNat
    · rw [(hd h32).1, Bool.false_and]
    · rw [decide_eq_false h32, Bool.and_false]
  have hsprues : spruesOk s c ((spineSprue o.a).toList ++ if o.store then [] else (spineSprue o.d).toList) = true := by
    rw [spruesOk_iff, h.on.id, h.on.kc]
    intro i hi
    rcases List.mem_append.mp hi with hi | hi
    · exact (addr_readable h hi).1
    · cases hst : o.store with
      | true => simp [hst] at hi
      | false =>
        rw [hst, if_neg (by decide), mem_spineSprue] at hi
        have := (hd (by omega)).2
        omega
  have hfour : o.size ≠ 4 := by omega
  simp [buffer_of_global hspace, hstore, hsprues, hfour]

omit hsize hspace in
/-- A global access of the spine whose destination can be written, not held back. -/
theorem memOnSpine_runs (hbusy : (systemRelease o && fabricPending s (memberAsid s c.who)) = false)
    (hd : 32 ≤ o.d.toNat → o.store = false ∧ (sprueGet k (o.d.toNat - 32)).st = .empty) :
    memOnSpine s c o = readOnce k (globalAccess (addrRead s k o.a) c { r := !o.store, w := o.store } o.sync o.scope
      (o.store && o.sync && o.scope = 0) (2 ^ o.size) 0 [o.d.toNat] (if o.store then none else some (o.d.toNat, o.size, o.sext)) false
      (threadsOf [0] (fun _ => addrOf k o.a) fun _ => if o.store then spineBytes k o.size o.d.toNat else [])) := by
  obtain ⟨-, -, hpoison⟩ := h.free
  have hreadable : ((spineSprue o.a).toList.any fun i => !readable k i) = false := by
    rw [List.any_eq_false]
    intro i hi
    simp [(addr_readable h hi).2.1]
  have hclean : ((spineSprue o.a).toList.any fun i => (sprueGet k i).poison) = false := by
    rw [List.any_eq_false]
    intro i hi
    simp [(addr_readable h hi).2.2]
  have hbytes : natToBytes (2 ^ o.size) (xGet k.spine o.d.toNat).toNat = spineBytes k o.size o.d.toNat := natToBytes_toNat ..
  simp only [memOnSpine, h.on.id, h.on.kc, h.guard, hreadable, hclean, hbusy, hpoison, Bool.not_true, Bool.false_eq_true, if_false,
    List.contains_nil, Bool.and_false, Bool.or_self, addrOf_eq, sizeBytes, hbytes]
  by_cases h32 : o.d.toNat < 32
  · simp only [h32, decide_true, Bool.or_true, if_true]
    rfl
  · obtain ⟨hstore, hempty⟩ := hd (by omega)
    simp only [h32, hstore, decide_false, Bool.or_self, Bool.false_eq_true, if_false, ssetReg, hempty]
    rfl

end

/-! ### How an access of a spine ends (R27, R245, R249) -/

theorem sprueBecomes_trans {s t u : State} {kc : Nat} {f f' F : Nat → SprueReg → SprueReg} (h : SprueBecomes s t kc f)
    (h' : SprueBecomes t u kc f') (hF : ∀ j, f' j (f j (sprueGet (kcOf s kc) j)) = F j (sprueGet (kcOf s kc) j)) :
    SprueBecomes s u kc F := by
  obtain ⟨hf, hrest, hothers⟩ := h
  obtain ⟨hf', hrest', hothers'⟩ := h'
  refine ⟨fun j => ?_, ?_, fun id hid => (hothers' id hid).trans (hothers id hid)⟩
  · rw [hf', hf, hF]
  · exact (congrArg (fun x : Kc => { x with sprue := (kcOf s kc).sprue }) hrest').trans hrest

/-- Completing an access changes nothing of a spine that waits for none. -/
theorem spineAcked_idle {sp : Spine} (h : sp.asked = none) : spineAcked sp = sp := by
  cases sp
  cases h
  rfl

/-- The spine of k has retired its access: it has written x, and its sprue registers have become G of what they were; all else in t
is as the access left it in U. -/
structure SpineDone (s U t : State) (c : Issue) (k : Kc) (G : Nat → SprueReg → SprueReg) (x : Nat → Option DWord) : Prop where
  only : { t with kcs := U.kcs, cur := U.cur, fresh := U.fresh } = U
  sprues : SprueBecomes s (updSpine t k.id fun _ => k.spine) k.id G
  regs : SpineRegs s t k.id x (fun _ => none) 0 (nextPc c)

section
variable {s U : State} {c : Issue} {k : Kc} (h : OnSpine s c k) (htrap : k.spine.trap = none) (hasked : k.spine.asked = none)
  {q : AMap SprueReg} (hU : U.kcs.find? (fun x => x.id = k.id) = some { k with sprue := q })
include h hU

/-- An instruction that retires, and neither traps nor waits, keeps its reads (R27). -/
theorem readOnce_retireSpine {F : Spine → Spine} (hF : (F k.spine).trap = none ∧ (F k.spine).asked = none) :
    readOnce k (retireSpine U c F) = retireSpine U c F := by
  obtain ⟨htrap, hasked⟩ := hF
  simp [readOnce, kcOf_retireSpine h.who hU F, retiredSpine, htrap, hasked]

variable {G : Nat → SprueReg → SprueReg} (hG : SprueBecomes s U k.id G)
include htrap hasked hG

theorem spineDone_acked : SpineDone s U (readOnce k (retireSpine U c spineAcked)) c k G fun _ => none := by
  have hidle := spineAcked_idle hasked
  rw [readOnce_retireSpine h hU (by rw [hidle]; exact ⟨htrap, hasked⟩)]
  refine ⟨onlyKcs_retireSpineTo rfl c _ _, sprue_retireSpineTo h hU _ _ hG,
    spineRegs_retireTo h hU hG.2.2 _ _ _ _ _ (fun r => ?_) (fun j => ?_) ?_ ?_⟩
  · rw [hidle, xGet]
    split <;> rfl
  · rw [hidle]; rfl
  · rw [hidle]; exact BitVec.or_zero.symm
  · rw [hidle]

/-- A spine's load into x d. -/
theorem spineDone_loaded {d : Nat} (hd : d < 32) (v : DWord) :
    SpineDone s U (readOnce k (retireSpine U c (spineLoaded d v))) c k G fun r => if r = d ∧ r < 32 then some v else none := by
  have hrest := xSet_rest k.spine d v
  have hloaded : spineLoaded d v k.spine = xSet k.spine d v :=
    spineAcked_idle ((congrArg Spine.asked hrest).trans hasked)
  rw [readOnce_retireSpine h hU ⟨trap_spineLoaded htrap, rfl⟩]
  refine ⟨onlyKcs_retireSpineTo rfl c _ _, sprue_retireSpineTo h hU _ _ hG,
    spineRegs_retireTo h hU hG.2.2 _ _ _ _ _ (fun r => ?_) (fun j => ?_) ?_ ?_⟩
  · rw [hloaded, xGet_xSet]
    by_cases hr : r = d
    · simp [hr, hd]
    · simp [hr]
  · have hp : (xSet k.spine d v).p = k.spine.p := by
      have hp := congrArg Spine.p hrest
      exact hp
    rw [hloaded, spinePred, hp]
    rfl
  · rw [hloaded]
    exact (congrArg Spine.lstat hrest).trans BitVec.or_zero.symm
  · rw [hloaded]
    exact congrArg (fun y : Spine => { y with p := k.spine.p, lstat := k.spine.lstat }) hrest

end

section
variable {s U : State} {c : Issue} {k : Kc} {a : RegField} (h : OnSpine s c k) (htrap : k.spine.trap = none)
  (hasked : k.spine.asked = none) {K : List Kc} {q : AMap SprueReg} (hread : AddrRead s k a K q) (hU : U.kcs = K)
include hread hU

theorem AddrRead.find : U.kcs.find? (fun x => x.id = k.id) = some { k with sprue := q } := hU ▸ hread.here

theorem AddrRead.becomes : SprueBecomes s U k.id fun j r => if j + 32 = a.toNat then consumed r else r := hread.sprues.of_kcs rfl hU

include h htrap hasked

/-- A spine's store that waits for nothing. -/
theorem spineDone_store {r : Asked} (hw : r.waiting = []) (hl : r.late = []) (hload : r.load = none) (la : Nat) (dst : List Nat) :
    SpineDone s U (readOnce k (endAccess U c la dst r [])) c k (fun j r => if j + 32 = a.toNat then consumed r else r) fun _ => none := by
  rw [endAccess, if_pos h.spine, endSpine_acks hw hl hload]
  exact spineDone_acked h htrap hasked (hread.find hU) (hread.becomes hU)

/-- A spine's load that has its bytes. -/
theorem spineDone_load {d size : Nat} {sext : Bool} {bytes : List Byte} {r : Asked} (hw : r.waiting = []) (hl : r.late = [])
    (hload : r.load = some (d, size, sext)) (hgot : r.got = [0].map fun l => (l, 0, bytes))
    (hd : 32 ≤ d → (sprueGet k (d - 32)).st = .empty) (ha : 32 ≤ a.toNat → isFull (sprueGet k (a.toNat - 32)) = true)
    (la : Nat) (dst : List Nat) :
    SpineDone s U (readOnce k (endAccess U c la dst r [])) c k
      (fun j r => if j + 32 = a.toNat then consumed r else if j + 32 = d then written r (loadedX size sext (bytesToNat bytes)) else r)
      fun r => if r = d ∧ r < 32 then some (loadedX size sext (bytesToNat bytes)) else none := by
  have hbecomes := hread.becomes hU
  have hbytes : gotBytes r 0 = bytes := gotBytes_of_lanes (List.nodup_singleton 0) (fun _ => bytes) hgot (List.mem_singleton_self 0)
  rw [endAccess, if_pos h.spine]
  by_cases h32 : d < 32
  · rw [endSpine_loads hw hl hload h32, hbytes, loadSpine_eq]
    refine spineDone_loaded h htrap hasked (hread.find hU) (sprueBecomes_trans hbecomes (SprueBecomes.refl U k.id) fun j => ?_) h32 _
    rw [if_neg (show ¬j + 32 = d by omega)]
  · have hempty := hd (by omega)
    have hne : a.toNat ≠ d := fun e => by
      have hfull := ha (by omega)
      rw [e, isFull, hempty] at hfull
      cases hfull
    have hdst : sprueGet (kcOf U k.id) (d - 32) = sprueGet k (d - 32) := by
      rw [hbecomes.1, h.kc]
      exact if_neg (by omega)
    have hend : endSpine U c r =
        retireSpine (setSprue U k.id (d - 32) (written (sprueGet k (d - 32)) (loadedX size sext (bytesToNat bytes)))) c spineAcked := by
      simp only [endSpine, hw, hl, hload, spineLoadInto, if_neg h32, h.id, hdst, ssetReg, hempty, hbytes, loadSpine_eq, List.isEmpty_nil,
        if_true, Option.getD_some, Option.isSome_some]
      rfl
    have hset := sprueBecomes_set (hread.find hU) (d - 32) (written (sprueGet k (d - 32)) (loadedX size sext (bytesToNat bytes)))
    have hdone := spineDone_acked h htrap hasked (find_setSprue (hread.find hU) (d - 32) _) (sprueBecomes_trans hbecomes hset
      (F := fun j r => if j + 32 = a.toNat then consumed r else if j + 32 = d then written r (loadedX size sext (bytesToNat bytes)) else r)
      fun j => ?_)
    · rw [hend]
      refine ⟨congrArg (fun x : State => { x with kcs := U.kcs }) hdone.only, hdone.sprues, ?_⟩
      convert hdone.regs using 2 with r
      exact if_neg (by omega)
    · by_cases hj : j = d - 32
      · rw [if_pos hj, if_neg (by omega), if_pos (by omega), hj, h.kc]
      · rw [if_neg hj, if_neg (show ¬j + 32 = d by omega)]

end

/-- A spine's access that waits: the spine keeps what it waits for, and its sprue registers as they were. -/
theorem readOnce_waits {s U : State} {c : Issue} {k : Kc} {q : AMap SprueReg} (h : OnSpine s c k)
    (hU : U.kcs.find? (fun x => x.id = k.id) = some { k with sprue := q }) {b : Asked} (hw : b.waiting ≠ []) (la : Nat) (dst : List Nat) :
    readOnce k (endAccess U c la dst b []) =
      updKc (endIssue (updSpine U k.id fun sp => { sp with asked := some (c, b) }) c) k.id fun x => { x with sprue := k.sprue } := by
  have hend : endAccess U c la dst b [] = endIssue (updSpine U k.id fun sp => { sp with asked := some (c, b) }) c := by
    rw [endAccess, if_pos h.spine, endSpine, List.isEmpty_eq_false_iff.mpr hw, h.id]
    rfl
  have hasked : (kcOf (endAccess U c la dst b []) k.id).spine.asked = some (c, b) := by
    rw [hend, kcOf_of_kcs (endIssue_kcs _ c), kcOf_updSpine_same hU]
  rw [readOnce, hasked, Option.isSome_some, Bool.or_true, if_pos rfl, hend]

/-- A spine's access that asked for something beyond the core waits at its instruction, its address unread. -/
theorem spineAsks_sent {s : State} {c : Issue} {k : Kc} {a : RegField} {K : List Kc} {q : AMap SprueReg} (h : OnSpine s c k)
    (hread : AddrRead s k a K q) (T : List TlbEntry) (r : Request) {b : Asked} (hw : b.waiting ≠ []) (la : Nat) (dst : List Nat) :
    SpineAsks s (readOnce k (endAccess (sendReq { s with kcs := K, tlb := T } r false) c la dst b [])) c k b := by
  have hfind := find_updSpine_same (s := sendReq { s with kcs := K, tlb := T } r false) (f := fun sp => { sp with asked := some (c, b) })
    (hread.find rfl)
  rw [readOnce_waits h (hread.find rfl) hw]
  refine ⟨kcOf_updKc_same (f := fun x => { x with sprue := k.sprue }) (fun _ => rfl) hfind, fun id hid => ?_, rfl⟩
  refine (kcOf_updKc_other (f := fun x => { x with sprue := k.sprue }) (fun _ => rfl) hid).trans ?_
  rw [kcOf_of_kcs (endIssue_kcs _ c), kcOf_updSpine_other hid]
  exact hread.sprues.2.2 id hid

/-! ### The request that leaves (R242, R249, R379) -/

/-- A request of one piece that is the whole of a load or store leaves from a state with the requests, the link and the host's
windows of s. -/
theorem sent_request {s S t : State} {c : Issue} {o : Perform} {th : Thread} {tg : Target} {n va : Nat} {kind : ReqKind}
    (hkind : (if o.need.w then ReqKind.store (th.data.take n) false else .load n) = kind)
    (hS : S.out = s.out ∧ S.requests = s.requests ∧ S.nextId = s.nextId ∧ S.host = s.host)
    (ht : t.out = (sendReq S (requestOf S c (ctxOf s (memberAsid s c.who)) o th tg 0 n va) false).out)
    (ht' : t.requests = (sendReq S (requestOf S c (ctxOf s (memberAsid s c.who)) o th tg 0 n va) false).requests) :
    Sent s t c [(th.lane, 0)] va tg kind o.scope [] := by
  obtain ⟨hout, hreqs, hnext, hhost⟩ := hS
  subst hkind
  refine ⟨?_, _, ht'.trans (congrArg (· ++ _) hreqs), ?_⟩
  · rw [ht]
    change reqMsg S _ :: S.out = _
    rw [hout]
    cases tg <;> simp [reqMsg, wireOf, requestOf, hnext, hhost]
  · simp [requestOf, hnext]

/-! ### Arrivals at doorbells (R205, R208, R392, R421) -/

theorem barSettle_key (team : Nat) (T : Team) (slot n : Nat) :
    (barSettle team T slot n).kc = T.kc ∧ (barSettle team T slot n).core = T.core := by
  induction n generalizing T with
  | zero => exact ⟨rfl, rfl⟩
  | succ n ih =>
    rw [barSettle]
    split
    · exact ih (barPhase team T slot)
    · exact ⟨rfl, rfl⟩

theorem barOf_setBar {T : Team} {slot : Nat} (h : slot < T.bars.length) (b : Barrier) : barOf (setBar T slot b) slot = b := by
  simp [barOf, setBar, h]

theorem barSettle_unready {T : Team} {slot : Nat} (h : barReady (barOf T slot) = false) (team n : Nat) : barSettle team T slot n = T := by
  cases n with
  | zero => rfl
  | succ n => rw [barSettle, h, if_neg (by decide)]

/-- An engine's arrival that is not the phase's last only counts. -/
theorem barOf_barChange_arrive {s : State} {kc core slot : Nat} {T : Team}
    (hT : s.teams.find? (fun q => q.kc = kc ∧ q.core = core) = some T) (hslot : slot < T.bars.length) (hmay : MayArrive (barOf T slot) 0)
    (hlast : ¬((barOf T slot).a + 1 = (barOf T slot).e ∧ (barOf T slot).lb = (barOf T slot).eb)) :
    barOf (teamOf (barChange s kc core slot engineArrive) kc core) slot = { barOf T slot with a := (barOf T slot).a + 1 } := by
  obtain ⟨hf, -, hlt, -⟩ := hmay
  have harrive : engineArrive (barOf T slot) = { barOf T slot with a := (barOf T slot).a + 1 } := by
    have hne : (barOf T slot).a ≠ 1023 := by bv_omega
    rw [engineArrive, if_neg (by rw [hf]; decide), inc10, if_neg hne]
  have hready : barReady { barOf T slot with a := (barOf T slot).a + 1 } = false := by
    rw [← Bool.not_eq_true, barReady]
    simp only [Bool.and_eq_true, decide_eq_true_eq]
    rintro ⟨⟨⟨-, hle⟩, hb⟩, -⟩
    exact hlast ⟨by bv_omega, hb⟩
  rw [barChange, teamOf_updTeam_same (f := fun t => barSettle (teamNo (kcOf s kc) core) (setBar t slot (engineArrive (barOf t slot)))
    slot 1024) (fun t => barSettle_key _ (setBar t slot _) slot 1024) hT, harrive, barSettle_unready, barOf_setBar hslot]
  rwa [barOf_setBar hslot]

theorem isSaved_iff (k : Kc) : isSaved k = true ↔ ∃ v, k.status = .saved v := by
  unfold isSaved
  cases k.status <;> simp

theorem dbdrop_dropRing (s : State) (vf : FuncNo) : (funcOf (dropRing s vf) vf).dbdrop = (funcOf s vf).dbdrop + 1 := by
  simp [dropRing, funcOf, updFunc]

/-- A store at a doorbell makes its arrival, whatever translations are held. -/
theorem rings_ringOnce {s : State} {x : Ctx} (h : CtxHere s x) (T : List TlbEntry) (idx : Nat) (rel : Bool) :
    Rings s (ringOnce { s with tlb := T } x.asid idx rel) x idx rel := by
  have hctx : ctxOf? { s with tlb := T } x.asid = some x := h
  refine ⟨fun f hf hlive => ?forwarded, fun hnone => ⟨fun hdoor => ?dropped, fun kc core slot hdoor => ⟨fun hsaved => ?counted,
    fun B hsaved hB hslot hmay hlast => ?arrives⟩⟩, ?memory⟩
  case forwarded =>
    simp only [ringOnce, hf, hlive, if_true]
    exact ⟨rfl, rfl⟩
  case dropped =>
    simp only [ringOnce, hnone, hctx, hdoor]
    exact ⟨dbdrop_dropRing { s with tlb := T } x.vf, rfl⟩
  case counted =>
    have hk : isSaved (kcOf { s with tlb := T } kc) = true := (isSaved_iff _).mpr hsaved
    simp only [ringOnce, hnone, hctx, hdoor, hk, if_true]
    refine ⟨?_, rfl⟩
    rw [ctxOf_updCtx (f := fun c => { c with counted := amModify 0 c.counted idx fun n => (n + 1) % 2 ^ 64 }) (fun _ => rfl) hctx,
      if_pos rfl, amGet_amModify, if_pos rfl]
  case arrives =>
    have hk : isSaved (kcOf { s with tlb := T } kc) = false := by
      rw [← Bool.not_eq_true, isSaved_iff]
      exact fun ⟨v, hv⟩ => hsaved v hv
    have hteam : teamOf { s with tlb := T } kc core = B := by rw [teamOf]; simp only [hB, Option.getD_some]
    have hdrop : arrivalDropped (barOf B slot) = false := by
      obtain ⟨-, -, hlt, -⟩ := hmay
      have hne : (barOf B slot).a ≠ 1023 := by bv_omega
      rw [arrivalDropped, decide_eq_false hne, Bool.and_false]
    simp only [ringOnce, hnone, hctx, hdoor, hk, hteam, hdrop, Bool.false_eq_true, if_false]
    exact barOf_barChange_arrive (s := { s with tlb := T }) hB hslot hmay hlast
  case memory =>
    unfold ringOnce
    split
    · split <;> rfl
    · split
      · rfl
      · split
        · rfl
        · split
          · rfl
          · split <;> rfl

/-! ### Loads and stores beyond the core (R249, R379) -/

/-- What an acquiring access that has completed at its issue leaves of its team. -/
theorem acquireIf_done {a : Asked} (hw : a.waiting = []) (hl : a.late = []) (U : State) (c : Issue) (acq : Bool) :
    acquireIf U c acq a = accessFrom U c acq := by
  simp [acquireIf, accessFrom, hw, hl]

theorem acquireIf_waiting {a : Asked} (hw : a.waiting ≠ []) (U : State) (c : Issue) (acq : Bool) : acquireIf U c acq a = U := by
  simp [acquireIf, hw]

theorem acquireIf_late {a : Asked} (hl : a.late ≠ []) (U : State) (c : Issue) (acq : Bool) : acquireIf U c acq a = U := by
  simp [acquireIf, hl]

/-- A group's access that waits has changed only the group. -/
theorem endAccess_waits {s U : State} {c : Issue} {g : Group} (h : OnLanes s c g) (hU : U.groups = s.groups) (hflights : g.flights = [])
    {a : Asked} (hw : a.waiting ≠ []) (la : Nat) (dst : List Nat) : OnlyGroups U (endAccess U c la dst a []) := by
  rw [endAccess_lanes h hU hflights, List.isEmpty_eq_false_iff.mpr hw]
  exact onlyGroups_retireLanes U c _

/-- A load, or a store that is answered, of one piece beyond the core: its request leaves. -/
theorem performAll_send {S : State} {c : Issue} {o : Perform} {th : Thread} {tg : Target} {n va : Nat} (ctx : Ctx)
    (hanswered : (o.need.w && isFabric ⟨wayTo tg, 0, n, va⟩ || !o.need.w) = true) (hpost : postedTo o.need tg = false)
    (hport : circuitUp? S (memberDie S c.who).toNat (portOf tg) = true) (load : Option (Nat × Nat × Bool)) (undone : LaneMask) :
    performAll S c ctx o [(th, [⟨wayTo tg, 0, n, va⟩])] ⟨[], [], [], load, undone, false, [], []⟩ =
      (sendReq S (requestOf S c ctx o th tg 0 n va) false, askedOne S load undone false) := by
  have hlate : pieceLate S (memberDie S c.who) o.need ⟨wayTo tg, 0, n, va⟩ = none := by
    rw [pieceLate_wayTo, hport, Bool.or_true, if_pos rfl]
  rw [performAll_cons hlate (performPiece_send S c ctx hpost _ th _ 0 n va), hanswered, if_pos rfl]
  rfl

/-- Reading its address changes nothing of a kernel cluster that an access of its spine looks at. -/
theorem AddrRead.member {s : State} {c : Issue} {k : Kc} {a : RegField} {K : List Kc} {q : AMap SprueReg} (h : OnSpine s c k)
    (hread : AddrRead s k a K q) {S : State}
    (hS : S.kcs = K) : memberAsid S c.who = memberAsid s c.who ∧ memberDie S c.who = memberDie s c.who := by
  have hk := kcOf_find (hread.find hS)
  simp only [memberAsid, memberDie, h.id, h.kc, hk, and_self]

section
variable {s s' : State} {c : Issue} {need : Need} {sync : Bool} {n : Nat} {addr : DWord} {tg : Target} {kind : ReqKind} {data : List Byte}
  (hanswered : ∀ va, (need.w && isFabric ⟨wayTo tg, 0, n, va⟩ || !need.w) = true) (hpost : postedTo need tg = false)
  (hkind : (if need.w then ReqKind.store (data.take n) false else .load n) = kind)

include hpost

section
variable {g : Group} {G : List Machine.Group} (hG : SameIssuer s c g G) (hflights : g.flights = [])
  (hl : Leads s c need sync true n addr s' (wayTo tg))
include hG hflights hl

include hanswered hkind in
/-- One lane's access beyond the core sends its request and waits. -/
theorem lanes_send (hport : ToPort s c tg) (scope : BitVec 2) (owner : Bool) (la : Nat) (dst : List Nat) (load : Option (Nat × Nat × Bool))
    (acq : Bool) (l : Nat) :
    (let t := globalAccess (withGroups G s) c need sync scope owner n la dst load acq (threadsOf [l] (fun _ => addr) fun _ => data)
     Sent s t c [(l, 0)] (addr.toNat % 2 ^ 48) tg kind scope [] ∧ LanesAsk s t c s (askedOne s load (maskOf [l]) false)) := by
  obtain ⟨T, rfl⟩ := eq_of_quiet hl.quiet
  have hperf := performAll_send (S := withGroups G { s with tlb := T }) (c := c) (o := ⟨need, scope, load, owner, dst.headD 0, sync⟩)
    (th := ⟨l, addr, data⟩) (ctxOf s (memberAsid s c.who)) (hanswered (addr.toNat % 2 ^ 48)) hpost hport load (maskOf [l])
  have hw : (askedOne (withGroups G { s with tlb := T }) load (maskOf [l]) false).waiting ≠ [] := by simp [askedOne]
  rw [globalAccess_passes ((passes_of_leads hl l).withGroups G) (fun _ => data) scope owner la dst load acq hperf, acquireIf_waiting hw]
  have honly := endAccess_waits (U := sendReq (withGroups G { s with tlb := T }) (requestOf (withGroups G { s with tlb := T }) c
    (ctxOf s (memberAsid s c.who)) ⟨need, scope, load, owner, dst.headD 0, sync⟩ ⟨l, addr, data⟩ tg 0 n (addr.toNat % 2 ^ 48)) false)
    hG.on rfl hflights hw la dst
  have hout := congrArg State.out honly
  have hreqs := congrArg State.requests honly
  exact ⟨sent_request (th := ⟨l, addr, data⟩) hkind ⟨rfl, rfl, rfl, rfl⟩ hout hreqs, lanesAsk_sent hG hflights T _ hw la dst⟩

/-- One lane's access beyond the core for which no circuit is up traps late. -/
theorem lanes_offline (hport : ¬ToPort s c tg) (scope : BitVec 2) (owner : Bool) (la : Nat) (dst : List Nat)
    (load : Option (Nat × Nat × Bool)) (acq : Bool) (l : Nat) :
    LanesStop s' (globalAccess (withGroups G s) c need sync scope owner n la dst load acq (threadsOf [l] (fun _ => addr) fun _ => data)) c
      (lateAt c [l] l 0x14 (addr.toNat % 2 ^ 48)) := by
  obtain ⟨T, rfl⟩ := eq_of_quiet hl.quiet
  have hdown : circuitUp? (withGroups G { s with tlb := T }) (memberDie (withGroups G { s with tlb := T }) c.who).toNat (portOf tg) =
      false := Bool.eq_false_iff.mpr hport
  have hlate : pieceLate (withGroups G { s with tlb := T }) (memberDie (withGroups G { s with tlb := T }) c.who) need
      ⟨wayTo tg, 0, n, addr.toNat % 2 ^ 48⟩ = some 0x14 := by
    rw [pieceLate_wayTo, hpost, hdown]
    rfl
  have hperf := performAll_late (ctx := ctxOf s (memberAsid s c.who)) (o := ⟨need, scope, load, owner, dst.headD 0, sync⟩)
    (t := ⟨l, addr, data⟩) (rest := []) (a := ⟨[], [], [], load, maskOf [l], false, [], []⟩) hlate
  rw [globalAccess_passes ((passes_of_leads hl l).withGroups G) (fun _ => data) scope owner la dst load acq hperf,
    acquireIf_late (by simp)]
  have htrap := lateTrap_one hG.on.notSpine [l] l 0x14 (addr.toNat % 2 ^ 48) load
  have hstop := lanesStop_endAccess (a := ⟨[], [(l, 0x14, addr.toNat % 2 ^ 48)], [], load, maskOf [l], false, [], []⟩)
    (hG.tlb T).on hflights rfl (by simp) (by rw [htrap]; change (0x14 : Byte) ≠ cDataPoison; decide) la dst
  rw [htrap] at hstop
  exact (hG.tlb T).lanesStop hstop

end

include hanswered hkind in
/-- A spine's access beyond the core sends its request and waits. -/
theorem spine_send {k : Kc} {a : RegField} {K : List Kc} {q : AMap SprueReg} (h : OnSpine s c k) (hread : AddrRead s k a K q)
    (hl : Leads { s with kcs := K } c need sync true n addr s' (wayTo tg)) (hport : ToPort s c tg) (scope : BitVec 2)
    (owner : Bool) (la : Nat) (dst : List Nat) (load : Option (Nat × Nat × Bool)) :
    (let t := readOnce k (globalAccess { s with kcs := K } c need sync scope owner n la dst load false
      (threadsOf [0] (fun _ => addr) fun _ => data))
     Sent s t c [(0, 0)] (addr.toNat % 2 ^ 48) tg kind scope [] ∧ SpineAsks s t c k (askedOne s load 1 false)) := by
  obtain ⟨T, rfl⟩ := eq_of_quiet hl.quiet
  obtain ⟨hasid, -⟩ := hread.member h (S := { s with kcs := K }) rfl
  obtain ⟨-, hdie⟩ := hread.member h (S := { s with kcs := K, tlb := T }) rfl
  have hperf := performAll_send (S := { s with kcs := K, tlb := T }) (c := c) (o := ⟨need, scope, load, owner, dst.headD 0, sync⟩)
    (th := ⟨0, addr, data⟩) (ctxOf s (memberAsid s c.who)) (hanswered (addr.toNat % 2 ^ 48)) hpost (by rw [hdie]; exact hport)
    load (maskOf [0])
  have hw : (askedOne { s with kcs := K, tlb := T } load (maskOf [0]) false).waiting ≠ [] := by simp [askedOne]
  have hpass := globalAccess_passes (passes_of_leads hl 0) (fun _ => data) scope owner la dst load false
    (a := askedOne { s with kcs := K, tlb := T } load (maskOf [0]) false) (by rw [hasid]; exact hperf)
  rw [hpass, acquireIf_waiting hw]
  have hwaits := readOnce_waits (U := sendReq { s with kcs := K, tlb := T } (requestOf { s with kcs := K, tlb := T } c
    (ctxOf s (memberAsid s c.who)) ⟨need, scope, load, owner, dst.headD 0, sync⟩ ⟨0, addr, data⟩ tg 0 n (addr.toNat % 2 ^ 48)) false)
    h (hread.find rfl) hw la dst
  have hout := congrArg State.out hwaits
  have hreqs := congrArg State.requests hwaits
  exact ⟨sent_request (S := { s with kcs := K, tlb := T }) (o := ⟨need, scope, load, owner, dst.headD 0, sync⟩) (th := ⟨0, addr, data⟩)
    hkind ⟨rfl, rfl, rfl, rfl⟩ hout hreqs,
    spineAsks_sent h hread T _ hw la dst⟩

end

end Sys2Proof.Proofs.Accesses
end

section
/-! The family "Memory Access Instructions": global loads, of lanes and of the spine (R244 to R247, R249, R252). -/

namespace Sys2Proof.Proofs.GlobalLoads

open Sys2Proof Sys2Proof.Machine Sys2Proof.Claims Sys2Proof.Proofs.StateRules Sys2Proof.Proofs.Answers Sys2Proof.Proofs.Stops
  Sys2Proof.Proofs.Boundaries Sys2Proof.Proofs.Completions Sys2Proof.Proofs.Accesses

/-! ### Global loads (R246, R247, R252) -/

/-- The instruction i runs as the memory operation o. -/
def RunsAs (i : Instr) (o : MemOp) : Prop := ∀ s c, s.cur = some c → exec i s = .next (runMem s c o)

theorem someLanes_of_one {s : State} {c : Issue} {g : Group} {gd : PredNo} {l : Nat} {regs : List Nat} (h : OneLane s c g gd l regs) :
    SomeLanes s c g gd regs := ⟨h.on, h.landed, by rw [h.one]; exact h.clean⟩

/-- An acquire looks at nothing but the team. -/
theorem accessFrom_only {s U : State} (hU : { U with groups := s.groups, tlb := s.tlb, ctxs := s.ctxs, replicas := s.replicas } = s)
    (c : Issue) (acq : Bool) :
    { accessFrom U c acq with
      groups := s.groups, tlb := s.tlb, ctxs := s.ctxs, replicas := s.replicas, cur := s.cur, fresh := s.fresh } = accessFrom s c acq ∧
      (accessFrom U c acq).groups = U.groups ∧ (accessFrom U c acq).replicas = U.replicas := by
  have hsame := congrArg (fun x => accessFrom x c acq) hU
  have hcur := congrArg State.cur hU
  have hfresh := congrArg State.fresh hU
  rw [← hcur, ← hfresh]
  cases acq
  · exact ⟨hsame, rfl, rfl⟩
  · simp only [accessFrom, if_true] at hsame ⊢
    refine ⟨Eq.trans ?_ hsame, ?_⟩
    · cases c.who <;> rfl
    · cases c.who <;> exact ⟨rfl, rfl⟩

/-- A load of lanes that each have their bytes. -/
def askedGot (load : Option (Nat × Nat × Bool)) (lanes : List Nat) (bytes : Nat → List Byte) : Asked :=
  ⟨[], [], lanes.map fun l => (l, 0, bytes l), load, maskOf lanes, false, [], []⟩

/-- Where a read at pa is served in S, and its bytes. -/
def bytesServed (S : State) (c : Issue) (pa : Nat) (cls : BitVec 2) (n : Nat) : List Byte := memRead S (readAt S c pa cls) n

/-- A load from device memory reads, and ends. -/
theorem globalAccess_reads {S S' : State} {c : Issue} {sync : Bool} {n : Nat} {lanes : List Nat} {addr : Nat → DWord} {pa : Nat → Nat}
    {cls : Nat → BitVec 2}
    (hp : Passes S c { r := true } true sync n lanes addr S' fun l => [⟨.mem (pa l) (cls l), 0, n, (addr l).toNat % 2 ^ 48⟩])
    (htimely : ∀ l ∈ lanes, pieceLate S' (memberDie S' c.who) { r := true } ⟨.mem (pa l) (cls l), 0, n, (addr l).toNat % 2 ^ 48⟩ = none)
    (scope : BitVec 2) (owner : Bool) (la : Nat) (dst : List Nat) (load : Option (Nat × Nat × Bool)) (acq : Bool) :
    ∃ U, OnlyRead S' U ∧ globalAccess S c { r := true } sync scope owner n la dst load acq (threadsOf lanes addr fun _ => []) =
      endAccess (accessFrom U c acq) c la dst (askedGot load lanes fun l => bytesServed S' c (pa l) (cls l) n) [] := by
  obtain ⟨U, hU, hperf⟩ := performAll_reads (S := S') (ctxOf S (memberAsid S c.who))
    (o := ⟨{ r := true }, scope, load, owner, dst.headD 0, sync⟩) rfl (fun l => ⟨l, addr l, []⟩) (fun _ => rfl) pa cls n
    (fun l => (addr l).toNat % 2 ^ 48) htimely ⟨[], [], [], load, maskOf lanes, false, [], []⟩
  refine ⟨U, hU, ?_⟩
  rw [globalAccess_passes hp (fun _ => []) scope owner la dst load acq hperf, acquireIf_done rfl rfl]
  rfl

theorem threadsOf_one (l : Nat) (addr : Nat → DWord) (data : Nat → List Byte) :
    threadsOf [l] addr data = threadsOf [l] (fun _ => addr l) fun _ => data l := rfl

section
variable {i : Instr} {o : MemOp} (hruns : RunsAs i o) (hstore : o.store = false) (hspace : ¬(2 ≤ o.space ∧ o.space ≤ 4))
include hruns hstore hspace

/-- Loads of lanes from device memory. -/
theorem lanes_load {s s' : State} {c : Issue} {g : Group} {pa : Nat → Nat} {cls : Nat → BitVec 2}
    (h : SomeLanes s c g o.g [o.a.toNat, o.a.toNat + 1]) (hok : accessOk g o.size o.d o.a)
    (hr : AllReach s c { r := true } o.sync true (2 ^ o.size) (activeLanes g c o.g) (fun l => pairAt g l o.a.toNat) s' pa cls) :
    ∃ t, exec i s = .next t ∧
      { t with groups := s.groups, tlb := s.tlb, ctxs := s.ctxs, replicas := s.replicas, cur := s.cur, fresh := s.fresh } =
        accessFrom s c o.sync ∧
      (t.replicas.map fun r => (r.frame, r.copy)) = (s.replicas.map fun r => (r.frame, r.copy)) ∧
      LandsOrFlies s t c o.la (lanesV (activeLanes g c o.g) fun l =>
        loadV l o.d.toNat o.size o.sext (memVal s (readAt s c (pa l) (cls l)) (2 ^ o.size))) := by
  obtain ⟨G, hG, hrun⟩ := runMem_lanes_load h hok hspace hstore rfl
  obtain ⟨T, rfl⟩ := eq_of_quiet hr.quiet
  obtain ⟨U, hU, hread⟩ := globalAccess_reads ((passes_of_allReach hr).withGroups G) hr.timely o.scope false o.la
    ((List.range (regCount o.size)).map (o.d.toNat + ·)) (some (o.d.toNat, o.size, o.sext)) o.sync
  obtain ⟨-, hd⟩ := hok
  have hUs := hU.same fun x : State => { x with groups := s.groups, tlb := s.tlb }
  obtain ⟨hfrom, hgroups, hreplicas⟩ := accessFrom_only (s := s) (U := U) hUs c o.sync
  have hUG := congrArg State.groups hU.rest
  have hG' : (accessFrom U c o.sync).groups = G := hgroups.trans hUG
  rw [hruns s c h.on.cur, hrun, hread]
  have honly := endAccess_onlyGroups hG.on hG' h.landed (a := askedGot (some (o.d.toNat, o.size, o.sext)) (activeLanes g c o.g) fun l =>
    bytesServed (withGroups G { s with tlb := T }) c (pa l) (cls l) (2 ^ o.size)) rfl rfl o.la
    ((List.range (regCount o.size)).map (o.d.toNat + ·))
  refine ⟨_, rfl, ?_, ?_, ?_⟩
  · have hframe := congrArg (fun x : State => { x with
      groups := s.groups, tlb := s.tlb, ctxs := s.ctxs, replicas := s.replicas, cur := s.cur, fresh := s.fresh }) honly
    exact hframe.trans hfrom
  · have hsame := congrArg State.replicas honly
    exact (congrArg (List.map fun r : Replica => (r.frame, r.copy)) (Eq.trans hsame hreplicas)).trans hU.copies
  · have hlands := landsOrFlies_loads hG.on hG' h.landed (nodup_active g c o.g)
      (fun l => bytesServed (withGroups G { s with tlb := T }) c (pa l) (cls l) (2 ^ o.size)) hd (sext := o.sext) (a := askedGot _ _ _)
      rfl rfl rfl rfl o.la ((List.range (regCount o.size)).map (o.d.toNat + ·))
    simp only [bytesServed, bytesToNat_memRead] at hlands
    exact LandsOrFlies.of_same hlands hG.same hG.others

/-- The spine's load from device memory. -/
theorem spine_load {s s' : State} {c : Issue} {k : Kc} {pa : Nat} {cls : BitVec 2} (h : SpineAddr s c k o.g o.a) (hsize : o.size ≤ 3)
    (hd : 32 ≤ o.d.toNat → o.d.toNat - 32 < k.cfgSprue ∧ (sprueGet k (o.d.toNat - 32)).st = .empty)
    (hr : Reaches (addrRead s k o.a) c { r := true } o.sync true (2 ^ o.size) (addrOf k o.a) s' pa cls) :
    ∃ t, exec i s = .next t ∧
      { t with kcs := s.kcs, tlb := s.tlb, ctxs := s.ctxs, replicas := s.replicas, cur := s.cur, fresh := s.fresh } = s ∧
      (let v := loadedX o.size o.sext (memVal s (readAt s c pa cls) (2 ^ o.size))
       SprueBecomes s (updSpine t k.id fun _ => k.spine) k.id (fun j q =>
         if j + 32 = o.a.toNat then consumed q else if j + 32 = o.d.toNat then written q v else q) ∧
       SpineRegs s t k.id (fun r => if r = o.d.toNat ∧ r < 32 then some v else none) (fun _ => none) 0 (nextPc c)) := by
  have hbusy : systemRelease o = false := by simp [systemRelease, hstore]
  obtain ⟨htrap, hasked, -⟩ := h.free
  obtain ⟨K, q, hread⟩ := addrRead_spec h.on o.a
  rw [hread.eq] at hr
  obtain ⟨T, rfl⟩ := eq_of_quiet hr.quiet
  obtain ⟨U, hU, hrun⟩ := globalAccess_reads (lanes := [0]) (addr := fun _ => addrOf k o.a) (pa := fun _ => pa) (cls := fun _ => cls)
    (passes_of_leads (leads_of_reaches hr) 0) (fun _ _ => hr.timely) o.scope false 0 [o.d.toNat] (some (o.d.toNat, o.size, o.sext)) false
  have hbytes : bytesToNat (bytesServed { s with kcs := K, tlb := T } c pa cls (2 ^ o.size)) =
      memVal s (readAt s c pa cls) (2 ^ o.size) := by
    obtain ⟨-, hdie⟩ := hread.member h.on (S := { s with kcs := K, tlb := T }) rfl
    rw [bytesServed, bytesToNat_memRead, readAt, hdie]
    rfl
  have hUK := congrArg State.kcs hU.rest
  have hdone := spineDone_load h.on htrap hasked hread (U := U) hUK (r := askedGot (some (o.d.toNat, o.size, o.sext)) [0]
    fun _ => bytesServed { s with kcs := K, tlb := T } c pa cls (2 ^ o.size)) rfl rfl rfl rfl
    (fun hd' => (hd hd').2) (fun ha => (h.address ha).2.1) 0 [o.d.toNat]
  rw [hruns s c h.on.cur, runMem_spine h hsize hspace fun hd' => ⟨hstore, (hd hd').1⟩,
    memOnSpine_runs h (by rw [hbusy, Bool.false_and]) fun hd' => ⟨hstore, (hd hd').2⟩, hread.eq]
  simp only [hstore, Bool.not_false, Bool.false_eq_true, if_false, Bool.false_and, hrun]
  rw [hbytes] at hdone
  obtain ⟨honly, hsprues, hregs⟩ := hdone
  refine ⟨_, rfl, ?_, hsprues, hregs⟩
  have hframe := congrArg (fun x : State => { x with
    kcs := s.kcs, tlb := s.tlb, ctxs := s.ctxs, replicas := s.replicas, cur := s.cur, fresh := s.fresh }) honly
  exact hframe.trans (hU.same fun x : State => { x with kcs := s.kcs, tlb := s.tlb, cur := s.cur, fresh := s.fresh })

/-- Loads from device memory, of lanes and of the spine. -/
theorem loads_of_runs : Loads i o.g o.d o.a o.size o.sext o.sync o.la :=
  ⟨fun _ _ _ _ _ _ h hok hr => lanes_load hruns hstore hspace h hok hr,
    fun _ _ _ _ _ _ h hsize hd hr => spine_load hruns hstore hspace h hsize hd hr⟩

/-- Loads from beyond the core, of a lane and of the spine. -/
theorem loadsBeyond_of_runs : LoadsBeyond i o.g o.d o.a o.size o.sext o.sync o.scope := by
  have hanswered : ∀ (tg : Target) (va : Nat), (({ r := true } : Need).w && isFabric ⟨wayTo tg, 0, 2 ^ o.size, va⟩ ||
      !({ r := true } : Need).w) = true := fun _ _ => rfl
  refine ⟨fun s c g l s' tg h hok hl => ?lane, fun s c k s' tg h hsize hd hl hport => ?spine⟩
  case lane =>
    obtain ⟨G, hG, hrun⟩ := runMem_lanes_load (someLanes_of_one h) hok hspace hstore rfl
    rw [h.one, threadsOf_one] at hrun
    refine ⟨fun hport => ⟨_, (hruns s c h.on.cur).trans (congrArg _ hrun), ?_⟩,
      fun hport => ⟨_, (hruns s c h.on.cur).trans (congrArg _ hrun), ?_⟩⟩
    · exact lanes_send (data := []) (hanswered tg) rfl rfl hG h.landed hl hport o.scope false o.la _ _ o.sync l
    · exact lanes_offline (data := []) rfl hG h.landed hl hport o.scope false o.la _ _ o.sync l
  case spine =>
    have hbusy : systemRelease o = false := by simp [systemRelease, hstore]
    obtain ⟨K, q, hread⟩ := addrRead_spec h.on o.a
    rw [hread.eq] at hl
    rw [hruns s c h.on.cur, runMem_spine h hsize hspace fun hd' => ⟨hstore, (hd hd').1⟩,
      memOnSpine_runs h (by rw [hbusy, Bool.false_and]) fun hd' => ⟨hstore, (hd hd').2⟩, hread.eq]
    simp only [hstore, Bool.not_false, Bool.false_eq_true, if_false, Bool.false_and]
    exact ⟨_, rfl, spine_send (data := []) (hanswered tg) rfl rfl h.on hread hl hport o.scope false 0 [o.d.toNat] _⟩

end

theorem runsAs_ld (o : OpsLd) : RunsAs (.ld o) ⟨o.g, false, o.x, o.d, o.a, o.size.toNat, o.space.toNat, false, 0, o.la.toNat⟩ :=
  fun _ _ h => issueBy_some h

theorem runsAs_ldAcq (o : OpsLdo) : RunsAs (.ldAcq o) ⟨o.g, false, false, o.d, o.a, o.size.toNat, 0, true, o.scope, o.la.toNat⟩ :=
  fun _ _ h => issueBy_some h

/-- Settles O25: a load whose checks pass reads each lane's bytes where its page is served, or sends one request and waits; then
the lanes or the spine end as every access does. -/
theorem globalLoads : Obligations.GlobalLoads := by
  unfold Obligations.GlobalLoads
  refine ⟨fun o hspace => ⟨?_, ?_⟩, fun o => ⟨?_, ?_⟩⟩
  · exact loads_of_runs (runsAs_ld o) rfl hspace
  · exact loadsBeyond_of_runs (runsAs_ld o) rfl hspace
  · exact loads_of_runs (runsAs_ldAcq o) rfl (Nat.not_le.mpr zero_lt_two ∘ And.left)
  · exact loadsBeyond_of_runs (runsAs_ldAcq o) rfl (Nat.not_le.mpr zero_lt_two ∘ And.left)

end Sys2Proof.Proofs.GlobalLoads
end

section
/-! The family "Memory Access Instructions": global stores, of lanes and of the spine (R208, R244 to R246, R249, R251 to R253). -/

namespace Sys2Proof.Proofs.GlobalStores

open Sys2Proof Sys2Proof.Machine Sys2Proof.Claims Sys2Proof.Proofs.StateRules Sys2Proof.Proofs.Answers Sys2Proof.Proofs.Stops
  Sys2Proof.Proofs.Boundaries Sys2Proof.Proofs.Completions Sys2Proof.Proofs.Accesses Sys2Proof.Proofs.GlobalLoads

/-! ### Stores to device memory (R246, R251) -/

/-- A store that waits for nothing; undone are the lanes that a late cause would name. -/
def askedStored (undone : LaneMask) : Asked := ⟨[], [], [], none, undone, false, [], []⟩

/-- A store whose checks pass and that no cause stops ends with nothing to wait for. -/
theorem globalAccess_stores {S S' U : State} {c : Issue} {sync : Bool} {n : Nat} {lanes : List Nat} {addr : Nat → DWord}
    {ps : Nat → List Piece} (hp : Passes S c { w := true } true sync n lanes addr S' ps) (data : Nat → List Byte) (scope : BitVec 2)
    (owner : Bool) (la : Nat) (dst : List Nat) {m : LaneMask}
    (hperf : performAll S' c (ctxOf S (memberAsid S c.who)) ⟨{ w := true }, scope, none, owner, dst.headD 0, sync⟩
      (lanes.map fun l => (⟨l, addr l, data l⟩, ps l)) (askedStored (maskOf lanes)) = (U, askedStored m)) :
    globalAccess S c { w := true } sync scope owner n la dst none false (threadsOf lanes addr data) =
      endAccess U c la dst (askedStored m) [] := by
  rw [globalAccess_passes hp data scope owner la dst none false hperf, acquireIf_done rfl rfl]
  rfl

/-- A store of one thread in one piece that is not answered. -/
theorem performAll_one {S U : State} {c : Issue} {ctx : Ctx} {o : Perform} (ho : o.need = { w := true }) {th : Thread} {p : Piece}
    (hfabric : isFabric p = false) (hlate : pieceLate S (memberDie S c.who) { w := true } p = none) {m : LaneMask}
    (hp : performPiece S c ctx o false th (askedStored m) p = (U, askedStored m)) :
    performAll S c ctx o [(th, [p])] (askedStored m) = (U, askedStored (m &&& ~~~laneBit th.lane)) := by
  have hp' : performPiece S c ctx o (o.need.w && isFabric p) th (askedStored m) p = (U, askedStored m) := by
    rw [hfabric, Bool.and_false]
    exact hp
  rw [performAll_cons (by rw [ho]; exact hlate) hp', hfabric, ho]
  rfl

theorem length_spineBytes (k : Kc) (size d : Nat) : (spineBytes k size d).length = 2 ^ size := by simp [spineBytes]

theorem getD_range_map {f : Nat → Byte} {n i : Nat} (h : i < n) : ((List.range n).map f).getD i 0 = f i := by simp [h]

/-- How a store of o is performed; dst is its first destination register. -/
def storing (o : MemOp) (dst : Nat) : Perform := ⟨{ w := true }, o.scope, none, o.sync && o.scope = 0, dst, o.sync⟩

/-- A lane's store of o, and the spine's. -/
def laneThread (g : Group) (o : MemOp) (l : Nat) : Thread := ⟨l, pairAt g l o.a.toNat, laneBytes g o.size o.d.toNat l⟩
def spineThread (k : Kc) (o : MemOp) : Thread := ⟨0, addrOf k o.a, spineBytes k o.size o.d.toNat⟩

section
variable {i : Instr} {o : MemOp} (hruns : RunsAs i o) (hstore : o.store = true) (hspace : ¬(2 ≤ o.space ∧ o.space ≤ 4))
include hruns hstore hspace

/-- Lanes whose stores wait for nothing go on, and leave what the stores left. -/
theorem lanes_stored (hsize : o.size ≤ 4) {s s' U : State} {c : Issue} {g : Group} {ps : Nat → List Piece}
    (h : SomeLanes s c g o.g ([o.a.toNat, o.a.toNat + 1] ++ (List.range (regCount o.size)).map (o.d.toNat + ·)))
    (hok : accessOk g o.size o.d o.a) (hbusy : (systemRelease o && fabricPending s (memberAsid s c.who)) = false)
    (hp : Passes s c { w := true } true o.sync (2 ^ o.size) (activeLanes g c o.g) (fun l => pairAt g l o.a.toNat) s' ps) {m : LaneMask}
    (hperf : performAll s' c (ctxOf s (memberAsid s c.who)) (storing o 0) ((activeLanes g c o.g).map fun l => (laneThread g o l, ps l))
      (askedStored (maskOf (activeLanes g c o.g))) = (U, askedStored m)) (hU : U.groups = s.groups) :
    ∃ t, exec i s = .next t ∧ { t with groups := U.groups, cur := U.cur, fresh := U.fresh } = U ∧
      LandsOrFlies s t c o.la fun _ _ => none := by
  rw [hruns s c h.on.cur, runMem_lanes_store h hok hspace hstore hsize rfl hbusy, globalAccess_stores hp _ o.scope _ o.la [] hperf]
  exact ⟨_, rfl, endAccess_onlyGroups h.on hU h.landed rfl rfl o.la [], landsOrFlies_stores h.on hU h.landed rfl rfl rfl o.la []⟩

/-- Stores of lanes to device memory. -/
theorem lanes_store (hsize : o.size ≤ 4) {s s' : State} {c : Issue} {g : Group} {pa : Nat → Nat} {cls : Nat → BitVec 2}
    (h : SomeLanes s c g o.g ([o.a.toNat, o.a.toNat + 1] ++ (List.range (regCount o.size)).map (o.d.toNat + ·)))
    (hok : accessOk g o.size o.d o.a) (hbusy : (systemRelease o && fabricPending s (memberAsid s c.who)) = false)
    (hr : AllReach s c { w := true } o.sync true (2 ^ o.size) (activeLanes g c o.g) (fun l => pairAt g l o.a.toNat) s' pa cls) :
    ∃ t, exec i s = .next t ∧ OnlyStored s t ∧ t.kcs = s.kcs ∧ LandsOrFlies s t c o.la (fun _ _ => none) ∧
      ∀ b, b ≠ (ctxOf s (memberAsid s c.who)).desc + 0x58 → memByte t b =
        match (activeLanes g c o.g).reverse.find? fun l => decide (pa l ≤ b) && decide (b < pa l + 2 ^ o.size) with
        | some l => (vGet g.regs l (o.d.toNat + (b - pa l) / 4)).extractLsb' (8 * ((b - pa l) % 4)) 8
        | none => memByte s b := by
  obtain ⟨T, rfl⟩ := eq_of_quiet hr.quiet
  obtain ⟨U, m, hU, hperf, hbyte⟩ := performAll_writes (S := { s with tlb := T }) (ctx := ctxOf s (memberAsid s c.who))
    (o := storing o 0) rfl (fun l => pairAt g l o.a.toNat) (laneBytes g o.size o.d.toNat) pa cls
    (fun l => (pairAt g l o.a.toNat).toNat % 2 ^ 48) (fun l _ => length_laneBytes g o.size _ l) hr.timely
    (a := askedStored (maskOf (activeLanes g c o.g))) rfl
  obtain ⟨t, hexec, honly, hlands⟩ := lanes_stored hruns hstore hspace hsize h hok hbusy (passes_of_allReach hr) (m := m) hperf
    (hU.same State.groups)
  have hkcs := congrArg State.kcs honly
  refine ⟨t, hexec, ?_, Eq.trans hkcs (hU.same State.kcs), hlands, fun b hb => ?_⟩
  · have hframe := congrArg (fun x : State => { x with
      groups := s.groups, kcs := s.kcs, tlb := s.tlb, ctxs := s.ctxs, mem := s.mem, memPoison := s.memPoison
      blockMarks := s.blockMarks, oldText := s.oldText, tund := s.tund, agenda := s.agenda, cur := s.cur, fresh := s.fresh }) honly
    exact hframe.trans (hU.same fun x : State => { x with
      groups := s.groups, kcs := s.kcs, tlb := s.tlb, cur := s.cur, fresh := s.fresh })
  · have hmem := congrArg (fun x : State => memByte x b) honly
    refine Eq.trans hmem ((hbyte b hb).trans ?_)
    change ((lastOver (activeLanes g c o.g) pa (2 ^ o.size) b).map _).getD _ = match lastOver (activeLanes g c o.g) pa (2 ^ o.size) b with
      | some l => _
      | none => _
    cases hlast : lastOver (activeLanes g c o.g) pa (2 ^ o.size) b with
    | none => rfl
    | some l =>
      have hin := List.find?_some hlast
      simp only [Bool.and_eq_true, decide_eq_true_eq] at hin
      exact getD_range_map (by omega)

section
variable {s : State} {c : Issue} {k : Kc} (h : SpineAddr s c k o.g o.a) (hsize : o.size ≤ 3) (hd : o.d.toNat < 32)
  (hbusy : (systemRelease o && fabricPending s (memberAsid s c.who)) = false) {K : List Kc} {q : AMap SprueReg}
  (hread : AddrRead s k o.a K q)
include h hsize hd hbusy hread

/-- What the spine runs for a store that is not held back. -/
theorem exec_spine_store :
    exec i s = .next (readOnce k (globalAccess { s with kcs := K } c { w := true } o.sync o.scope (o.sync && o.scope = 0) (2 ^ o.size) 0
      [o.d.toNat] none false (threadsOf [0] (fun _ => addrOf k o.a) fun _ => spineBytes k o.size o.d.toNat))) := by
  rw [hruns s c h.on.cur, runMem_spine h hsize hspace fun hd' => absurd hd' (by omega),
    memOnSpine_runs h hbusy fun hd' => absurd hd' (by omega), hread.eq]
  simp only [hstore, Bool.not_true, if_true, Bool.true_and]

/-- A spine whose store waits for nothing goes on, its address read, and leaves what the store left. -/
theorem spine_stored {s' U : State} {w : Way}
    (hl : Leads { s with kcs := K } c { w := true } o.sync true (2 ^ o.size) (addrOf k o.a) s' w) {m : LaneMask}
    (hperf : performAll s' c (ctxOf s (memberAsid s c.who)) (storing o o.d.toNat)
      [(spineThread k o, [⟨w, 0, 2 ^ o.size, (addrOf k o.a).toNat % 2 ^ 48⟩])] (askedStored (maskOf [0])) = (U, askedStored m))
    (hU : U.kcs = K) :
    ∃ t, exec i s = .next t ∧
      SpineDone s U t c k (fun j q => if j + 32 = o.a.toNat then consumed q else q) fun _ => none := by
  obtain ⟨htrap, hasked, -⟩ := h.free
  obtain ⟨hasid, -⟩ := hread.member h.on (S := { s with kcs := K }) rfl
  rw [exec_spine_store hruns hstore hspace h hsize hd hbusy hread,
    globalAccess_stores (passes_of_leads hl 0) _ o.scope _ 0 [o.d.toNat] (by rw [hasid]; exact hperf)]
  exact ⟨_, rfl, spineDone_store h.on htrap hasked hread hU rfl rfl rfl 0 [o.d.toNat]⟩

end

/-- The spine's store to device memory. -/
theorem spine_store {s s' : State} {c : Issue} {k : Kc} {pa : Nat} {cls : BitVec 2} (h : SpineAddr s c k o.g o.a) (hsize : o.size ≤ 3)
    (hd : o.d.toNat < 32) (hbusy : (systemRelease o && fabricPending s (memberAsid s c.who)) = false)
    (hr : Reaches (addrRead s k o.a) c { w := true } o.sync true (2 ^ o.size) (addrOf k o.a) s' pa cls) :
    ∃ t, exec i s = .next t ∧ OnlyStored s t ∧ t.groups = s.groups ∧
      SprueBecomes s (updSpine t k.id fun _ => k.spine) k.id (fun j q => if j + 32 = o.a.toNat then consumed q else q) ∧
      SpineRegs s t k.id (fun _ => none) (fun _ => none) 0 (nextPc c) ∧
      MemStored s t c pa (2 ^ o.size) fun i => (xGet k.spine o.d.toNat).extractLsb' (8 * i) 8 := by
  obtain ⟨K, q, hread⟩ := addrRead_spec h.on o.a
  rw [hread.eq] at hr
  obtain ⟨T, rfl⟩ := eq_of_quiet hr.quiet
  obtain ⟨U, hU, hpiece, hbyte⟩ := performPiece_write { s with kcs := K, tlb := T } c (ctxOf s (memberAsid s c.who))
    (o := storing o o.d.toNat) rfl (t := spineThread k o) (a := askedStored (maskOf [0])) rfl pa cls
    (length_spineBytes k o.size o.d.toNat) ((addrOf k o.a).toNat % 2 ^ 48)
  have hperf := performAll_one (S := { s with kcs := K, tlb := T }) (c := c) rfl (p := ⟨.mem pa cls, 0, _, _⟩) rfl hr.timely hpiece
  obtain ⟨t, hexec, honly, hsprues, hregs⟩ := spine_stored hruns hstore hspace h hsize hd hbusy hread (leads_of_reaches hr) hperf
    (hU.same State.kcs)
  have hmem := fun b => congrArg (fun x : State => memByte x b) honly
  have hgroups := congrArg State.groups honly
  refine ⟨t, hexec, ?_, Eq.trans hgroups (hU.same State.groups), hsprues, hregs, fun j hj => ?_, fun b hout hb => ?_⟩
  · have hframe := congrArg (fun x : State => { x with
      groups := s.groups, kcs := s.kcs, tlb := s.tlb, ctxs := s.ctxs, mem := s.mem, memPoison := s.memPoison
      blockMarks := s.blockMarks, oldText := s.oldText, tund := s.tund, agenda := s.agenda, cur := s.cur, fresh := s.fresh }) honly
    exact hframe.trans (hU.same fun x : State => { x with
      groups := s.groups, kcs := s.kcs, tlb := s.tlb, cur := s.cur, fresh := s.fresh })
  · refine Eq.trans (hmem _) ((hbyte _ (.inr ⟨by omega, by omega⟩)).trans ?_)
    rw [if_pos ⟨by omega, by omega⟩, Nat.add_sub_cancel_left]
    exact getD_range_map hj
  · refine Eq.trans (hmem _) ((hbyte b (.inl hb)).trans ?_)
    exact if_neg (by omega)

/-- Stores to device memory, of lanes and of the spine; a release is held back while busy says so. -/
theorem stores_of_runs (hsize : o.size ≤ 4) {busy : State → Issue → Bool}
    (hbusy : ∀ s c, (systemRelease o && fabricPending s (memberAsid s c.who)) = busy s c) :
    Stores i o.g o.d o.a o.size o.sync o.la busy :=
  ⟨fun _ _ _ _ _ _ h hok hb hr => lanes_store hruns hstore hspace hsize h hok ((hbusy _ _).trans hb) hr,
    fun _ _ _ _ _ _ h hsize hd hb hr => spine_store hruns hstore hspace h hsize hd ((hbusy _ _).trans hb) hr⟩

end

/-! ### Stores beyond the core (R208, R249, R396) -/

/-- A posted write changes only the link and the number of the next request. -/
theorem postWindow_only (S : State) (d : DieNo) (r : Request) :
    { postWindow S d r with out := S.out, nextId := S.nextId } = S ∧
      (postWindow S d r).out = if circuitUp? S d.toNat 12 then reqMsg S r :: S.out else S.out := by
  unfold postWindow
  split
  · exact ⟨rfl, rfl⟩
  · exact ⟨rfl, rfl⟩

section
variable {S : State} {c : Issue} {ctx : Ctx} {o : Perform} (ho : o.need = { w := true })
include ho

/-- A store to a host window is posted. -/
theorem performAll_post (th : Thread) (w off n va : Nat) (m : LaneMask) :
    performAll S c ctx o [(th, [⟨.window w off, 0, n, va⟩])] (askedStored m) =
      (postWindow S (memberDie S c.who) (requestOf S c ctx o th (.window w off) 0 n va), askedStored (m &&& ~~~laneBit th.lane)) := by
  refine performAll_one ho rfl ?_ (performPiece_post S c ctx ho th rfl w off n va 0)
  exact pieceLate_wayTo S _ _ (.window w off) 0 n va

/-- A store to a doorbell rings it. -/
theorem performAll_ring {asid : Asid} {idx : Nat} (honline : doorOffline S (memberDie S c.who).toNat asid idx = false) (th : Thread)
    (off n va : Nat) (m : LaneMask) :
    performAll S c ctx o [(th, [⟨.door asid idx off, 0, n, va⟩])] (askedStored m) =
      (ringOnce S asid idx o.sync, askedStored (m &&& ~~~laneBit th.lane)) := by
  refine performAll_one ho rfl ?_ rfl
  change (if doorOffline S (memberDie S c.who).toNat asid idx = true then some cDieOffline else none) = none
  rw [honline, if_neg (by decide)]

end

/-- What a posted write of the whole of a store sends. -/
theorem out_postWindow {s S : State} {c : Issue} {o : Perform} {th : Thread} {w off n va : Nat} (ho : o.need = { w := true })
    (hn : th.data.length = n) (hS : S.out = s.out ∧ S.nextId = s.nextId ∧ S.host = s.host)
    (hup : ∀ p, circuitUp? S p 12 = circuitUp? s p 12) (d : DieNo) :
    (postWindow S d (requestOf S c (ctxOf s (memberAsid s c.who)) o th (.window w off) 0 n va)).out =
      if circuitUp? s d.toNat 12 then wireOf s (.window w off) (.store th.data false) o.scope :: s.out else s.out := by
  obtain ⟨hout, hnext, hhost⟩ := hS
  obtain ⟨-, hpost⟩ := postWindow_only S d (requestOf S c (ctxOf s (memberAsid s c.who)) o th (.window w off) 0 n va)
  have htake : th.data.take n = th.data := List.take_of_length_le (Nat.le_of_eq hn)
  rw [hpost, hup, hout]
  simp [reqMsg, wireOf, requestOf, ho, htake, hnext, hhost]

theorem rings_of_onlyGroups {s U t : State} {x : Ctx} {idx : Nat} {rel : Bool}
    (h : { t with groups := U.groups, cur := U.cur, fresh := U.fresh } = U) (hU : Rings s U x idx rel) : Rings s t x idx rel := by
  rw [← h] at hU
  exact hU

theorem ringOnce_groups (s : State) (asid : Asid) (idx : Nat) (rel : Bool) : (ringOnce s asid idx rel).groups = s.groups := by
  unfold ringOnce
  split
  · split <;> rfl
  · split
    · rfl
    · split
      · rfl
      · split
        · rfl
        · split <;> rfl

section
variable {i : Instr} {o : MemOp} (hruns : RunsAs i o) (hstore : o.store = true) (hspace : ¬(2 ≤ o.space ∧ o.space ≤ 4))
include hruns hstore hspace

section
variable {s s' : State} {c : Issue} {g : Group} {l : Nat} (hsize : o.size ≤ 4)
  (h : OneLane s c g o.g l ([o.a.toNat, o.a.toNat + 1] ++ (List.range (regCount o.size)).map (o.d.toNat + ·)))
  (hok : accessOk g o.size o.d o.a) (hbusy : (systemRelease o && fabricPending s (memberAsid s c.who)) = false)
include hsize h hok hbusy

/-- What one lane runs for a store that is not held back. -/
theorem exec_lane_store : exec i s = .next (globalAccess s c { w := true } o.sync o.scope (o.sync && o.scope = 0) (2 ^ o.size) o.la []
    none false (threadsOf [l] (fun _ => pairAt g l o.a.toNat) fun _ => laneBytes g o.size o.d.toNat l)) := by
  rw [hruns s c h.on.cur, runMem_lanes_store (someLanes_of_one h) hok hspace hstore hsize rfl hbusy, h.one, threadsOf_one]

/-- A lane whose store in one piece waits for nothing. -/
theorem lane_stored {U : State} {w : Way} (hl : Leads s c { w := true } o.sync true (2 ^ o.size) (pairAt g l o.a.toNat) s' w)
    {m : LaneMask} (hperf : performAll s' c (ctxOf s (memberAsid s c.who)) (storing o 0)
      [(laneThread g o l, [⟨w, 0, 2 ^ o.size, (pairAt g l o.a.toNat).toNat % 2 ^ 48⟩])] (askedStored (maskOf [l])) = (U, askedStored m))
    (hU : U.groups = s.groups) :
    ∃ t, exec i s = .next t ∧ { t with groups := U.groups, cur := U.cur, fresh := U.fresh } = U ∧
      LandsOrFlies s t c o.la fun _ _ => none := by
  rw [exec_lane_store hruns hstore hspace hsize h hok hbusy, globalAccess_stores (passes_of_leads hl l)
    (fun _ => laneBytes g o.size o.d.toNat l) o.scope _ o.la [] hperf]
  exact ⟨_, rfl, endAccess_onlyGroups h.on hU h.landed rfl rfl o.la [], landsOrFlies_stores h.on hU h.landed rfl rfl rfl o.la []⟩

/-- A lane's store to a host window. -/
theorem lane_posts {wn off : Nat} (hl : Leads s c { w := true } o.sync true (2 ^ o.size) (pairAt g l o.a.toNat) s' (.window wn off)) :
    ∃ t, exec i s = .next t ∧ t.requests = s.requests ∧ t.mem = s.mem ∧ t.teams = s.teams ∧
      LandsOrFlies s t c o.la (fun _ _ => none) ∧
      t.out = if circuitUp? s (memberDie s c.who).toNat 12 then
        wireOf s (.window wn off) (.store (laneBytes g o.size o.d.toNat l) false) o.scope :: s.out else s.out := by
  obtain ⟨T, rfl⟩ := eq_of_quiet hl.quiet
  have hperf := performAll_post (S := { s with tlb := T }) (c := c) (ctx := ctxOf s (memberAsid s c.who)) (o := storing o 0) rfl
    (laneThread g o l) wn off (2 ^ o.size) ((pairAt g l o.a.toNat).toNat % 2 ^ 48) (maskOf [l])
  obtain ⟨hpost, -⟩ := postWindow_only { s with tlb := T } (memberDie s c.who) (requestOf { s with tlb := T } c
    (ctxOf s (memberAsid s c.who)) (storing o 0) (laneThread g o l) (.window wn off) 0 (2 ^ o.size)
    ((pairAt g l o.a.toNat).toNat % 2 ^ 48))
  have hgroups := congrArg State.groups hpost
  obtain ⟨t, hexec, honly, hlands⟩ := lane_stored hruns hstore hspace hsize h hok hbusy hl hperf hgroups
  have hrequests := congrArg State.requests honly
  have hmem := congrArg State.mem honly
  have hteams := congrArg State.teams honly
  have hout := congrArg State.out honly
  have hpostRequests := congrArg State.requests hpost
  have hpostMem := congrArg State.mem hpost
  have hpostTeams := congrArg State.teams hpost
  exact ⟨t, hexec, Eq.trans hrequests hpostRequests, Eq.trans hmem hpostMem, Eq.trans hteams hpostTeams, hlands,
    Eq.trans hout (out_postWindow (o := storing o 0) (th := laneThread g o l) rfl (length_laneBytes g o.size o.d.toNat l) ⟨rfl, rfl, rfl⟩
      (fun _ => rfl) _)⟩

/-- A lane's store to a doorbell. -/
theorem lane_rings {x : Ctx} {idx off : Nat}
    (hl : Leads s c { w := true } o.sync true (2 ^ o.size) (pairAt g l o.a.toNat) s' (.door x.asid idx off)) (hx : CtxHere s x)
    (honline : doorOffline s (memberDie s c.who).toNat x.asid idx = false) :
    ∃ t, exec i s = .next t ∧ Rings s t x idx o.sync ∧ LandsOrFlies s t c o.la fun _ _ => none := by
  obtain ⟨T, rfl⟩ := eq_of_quiet hl.quiet
  have hperf := performAll_ring (S := { s with tlb := T }) (c := c) (ctx := ctxOf s (memberAsid s c.who)) (o := storing o 0) rfl honline
    (laneThread g o l) off (2 ^ o.size) ((pairAt g l o.a.toNat).toNat % 2 ^ 48) (maskOf [l])
  obtain ⟨t, hexec, honly, hlands⟩ := lane_stored hruns hstore hspace hsize h hok hbusy hl hperf (ringOnce_groups ..)
  exact ⟨t, hexec, rings_of_onlyGroups honly (rings_ringOnce hx T idx o.sync), hlands⟩

end

/-- The spine's store to a host window to which a circuit is up. -/
theorem spine_posts {s s' : State} {c : Issue} {k : Kc} {wn off : Nat} (h : SpineAddr s c k o.g o.a) (hsize : o.size ≤ 3)
    (hd : o.d.toNat < 32) (hbusy : (systemRelease o && fabricPending s (memberAsid s c.who)) = false)
    (hl : Leads (addrRead s k o.a) c { w := true } o.sync true (2 ^ o.size) (addrOf k o.a) s' (.window wn off))
    (hup : circuitUp? s (memberDie s c.who).toNat 12 = true) :
    ∃ t, exec i s = .next t ∧ t.requests = s.requests ∧ t.mem = s.mem ∧
      t.out = wireOf s (.window wn off) (.store (spineBytes k o.size o.d.toNat) false) o.scope :: s.out ∧
      SprueBecomes s (updSpine t k.id fun _ => k.spine) k.id (fun j q => if j + 32 = o.a.toNat then consumed q else q) ∧
      SpineRegs s t k.id (fun _ => none) (fun _ => none) 0 (nextPc c) := by
  obtain ⟨K, q, hread⟩ := addrRead_spec h.on o.a
  rw [hread.eq] at hl
  obtain ⟨T, rfl⟩ := eq_of_quiet hl.quiet
  obtain ⟨-, hdie⟩ := hread.member h.on (S := { s with kcs := K, tlb := T }) rfl
  have hperf := performAll_post (S := { s with kcs := K, tlb := T }) (c := c) (ctx := ctxOf s (memberAsid s c.who))
    (o := storing o o.d.toNat) rfl (spineThread k o) wn off (2 ^ o.size) ((addrOf k o.a).toNat % 2 ^ 48) (maskOf [0])
  rw [hdie] at hperf
  obtain ⟨hpost, -⟩ := postWindow_only { s with kcs := K, tlb := T } (memberDie s c.who) (requestOf { s with kcs := K, tlb := T } c
    (ctxOf s (memberAsid s c.who)) (storing o o.d.toNat) (spineThread k o) (.window wn off) 0 (2 ^ o.size)
    ((addrOf k o.a).toNat % 2 ^ 48))
  have hkcs := congrArg State.kcs hpost
  obtain ⟨t, hexec, honly, hsprues, hregs⟩ := spine_stored hruns hstore hspace h hsize hd hbusy hread hl hperf hkcs
  have hrequests := congrArg State.requests honly
  have hmem := congrArg State.mem honly
  have hout := congrArg State.out honly
  have hpostRequests := congrArg State.requests hpost
  have hpostMem := congrArg State.mem hpost
  have hsent := out_postWindow (s := s) (S := { s with kcs := K, tlb := T }) (c := c) (o := storing o o.d.toNat) (th := spineThread k o)
    (w := wn) (off := off) (va := (addrOf k o.a).toNat % 2 ^ 48) rfl (length_spineBytes k o.size o.d.toNat) ⟨rfl, rfl, rfl⟩ (fun _ => rfl)
    (memberDie s c.who)
  rw [hup, if_pos rfl] at hsent
  exact ⟨t, hexec, Eq.trans hrequests hpostRequests, Eq.trans hmem hpostMem, Eq.trans hout hsent, hsprues, hregs⟩

/-- Stores to what is not device memory, of a lane and of the spine; a release is held back while busy says so. -/
theorem storesBeyond_of_runs (hsize : o.size ≤ 4) {busy : State → Issue → Bool}
    (hbusy : ∀ s c, (systemRelease o && fabricPending s (memberAsid s c.who)) = busy s c) :
    StoresBeyond i o.g o.d o.a o.size o.sync o.scope o.la busy := by
  have hpeer : ∀ dev exp off va, (({ w := true } : Need).w && isFabric ⟨wayTo (.fabric dev exp off), 0, 2 ^ o.size, va⟩ ||
      !({ w := true } : Need).w) = true := fun _ _ _ _ => rfl
  refine ⟨fun s c g l s' w h hok hb hl => ?lane, fun s c k s' w h hsize hd hb hl => ?spine⟩
  case lane =>
    rw [← hbusy] at hb
    have hkind : ReqKind.store ((laneBytes g o.size o.d.toNat l).take (2 ^ o.size)) false =
        .store (laneBytes g o.size o.d.toNat l) false := by
      rw [List.take_of_length_le (Nat.le_of_eq (length_laneBytes ..))]
    refine ⟨?window, ?peer, ?door⟩
    case window =>
      rintro wn off rfl
      exact lane_posts hruns hstore hspace hsize h hok hb hl
    case peer =>
      rintro dev exp off rfl
      rw [exec_lane_store hruns hstore hspace hsize h hok hb]
      have hG := SameIssuer.refl h.on
      exact ⟨fun hport => ⟨_, rfl, lanes_send (hpeer dev exp off) rfl hkind hG h.landed hl hport o.scope _ o.la [] none false l⟩,
        fun hport => ⟨_, rfl, lanes_offline rfl hG h.landed hl hport o.scope _ o.la [] none false l⟩⟩
    case door =>
      rintro x idx off rfl hx honline
      exact lane_rings hruns hstore hspace hsize h hok hb hl hx honline
  case spine =>
    rw [← hbusy] at hb
    have hkind : ReqKind.store ((spineBytes k o.size o.d.toNat).take (2 ^ o.size)) false =
        .store (spineBytes k o.size o.d.toNat) false := by
      rw [List.take_of_length_le (Nat.le_of_eq (length_spineBytes ..))]
    refine ⟨?post, ?send⟩
    case post =>
      rintro wn off rfl hup
      exact spine_posts hruns hstore hspace h hsize hd hb hl hup
    case send =>
      rintro dev exp off rfl hport
      obtain ⟨K, q, hread⟩ := addrRead_spec h.on o.a
      rw [hread.eq] at hl
      rw [exec_spine_store hruns hstore hspace h hsize hd hb hread]
      exact ⟨_, rfl, spine_send (hpeer dev exp off) rfl hkind h.on hread hl hport o.scope _ 0 [o.d.toNat] none⟩

end

theorem runsAs_st (o : OpsSt) : RunsAs (.st o) ⟨o.g, true, false, o.d, o.a, o.size.toNat, o.space.toNat, false, 0, o.la.toNat⟩ :=
  fun _ _ h => issueBy_some h

theorem runsAs_stRel (o : OpsLdo) : RunsAs (.stRel o) ⟨o.g, true, false, o.d, o.a, o.size.toNat, 0, true, o.scope, o.la.toNat⟩ :=
  fun _ _ h => issueBy_some h

/-- Settles O26: a store whose checks pass writes lane after lane, so that of the bytes at one address the last lane's stay, or posts
one write, sends one request or makes one arrival; then the lanes or the spine end as every access does. -/
theorem globalStores : Obligations.GlobalStores := by
  unfold Obligations.GlobalStores
  refine ⟨fun o hspace hsize => ⟨?_, ?_⟩, fun o hsize => ⟨?_, ?_⟩⟩
  · exact stores_of_runs (runsAs_st o) rfl hspace hsize fun _ _ => rfl
  · exact storesBeyond_of_runs (runsAs_st o) rfl hspace hsize fun _ _ => rfl
  · exact stores_of_runs (runsAs_stRel o) rfl (Nat.not_le.mpr zero_lt_two ∘ And.left) hsize fun _ _ => rfl
  · exact storesBeyond_of_runs (runsAs_stRel o) rfl (Nat.not_le.mpr zero_lt_two ∘ And.left) hsize fun _ _ => rfl

end Sys2Proof.Proofs.GlobalStores
end

section
/-! The family "Sprue, Barrier and Ladle Instructions": sprue instructions (R25, R262 to R268). -/

namespace Sys2Proof.Proofs.Sprues

open Sys2Proof Sys2Proof.Machine Sys2Proof.Claims Sys2Proof.Proofs.Reductions

/-! ### A write to a FULL register under pre-emption

R25 makes `sset` to a FULL register wait. A blocked group stands at a yield point, and under a latched pre-emption request it
stops there with its entry abandoned as not issued (R185, R189): the state of the refutation of O22 shows it. -/

/-- `sset s0, v0` -/
def setFull : OpsSpr := ⟨0, 0, 0, 0⟩

/-- The write stops the group at the yield point, with its lanes unblocked, to issue again on resumption. -/
theorem sset_stops_preempted_group :
    (match exec (.sset setFull) preempted with
      | .next t =>
        let g := memberGroup t reducingIssue.who
        some (g.stopped, g.regs.frontier)
      | _ => none) = some (some 65, [⟨0, 0, fullMask 8, none⟩]) := by decide

theorem preempted_sprueHere : SprueHere preempted reducingGroup.kc setFull.k := ⟨by decide, preemptedKc, by decide⟩

/-- Refutes O23: the statement has `sset` to a FULL register leave its entry blocked in every state; under a latched
pre-emption request the group stops there instead, its entry not blocked. -/
theorem not_sprueRegisters : ¬ Obligations.SprueRegisters := by
  unfold Obligations.SprueRegisters
  rintro ⟨⟨-, -, hsset, -⟩, -⟩
  obtain ⟨hlanes, -⟩ := hsset setFull preempted reducingIssue
  obtain ⟨t, hexec, hwait⟩ := hlanes reducingGroup preempted_onLanes (by decide) preempted_sprueHere (by decide)
    (fun _ => by decide) ⟨1, by decide⟩
  have hstop := sset_stops_preempted_group
  rw [hexec] at hstop
  obtain ⟨-, hfrontier⟩ := Prod.mk.inj (Option.some.inj hstop)
  have hblocked := lanesWait_blocks hwait (e := ⟨0, 0, fullMask 8, none⟩) (by decide) rfl
  rw [hfrontier] at hblocked
  simp at hblocked

end Sys2Proof.Proofs.Sprues
end

section
/-! Rules of teams and named barriers (R199 to R206): what an update of one team leaves, which barrier a change of one slot
changes, the phases that settling completes, and the swap of a region. -/

namespace Sys2Proof.Proofs.BarrierRules

open Sys2Proof Sys2Proof.Machine Sys2Proof.Claims Sys2Proof.Proofs.StateRules Sys2Proof.Proofs.Stops Sys2Proof.Proofs.Boundaries
  Sys2Proof.Proofs.Accesses

/-! ### One team changes -/

/-- A change of a team that leaves its core alone. -/
def KeepsCore (f : Team → Team) : Prop := ∀ x, (f x).kc = x.kc ∧ (f x).core = x.core

theorem find_updTeam {f : Team → Team} (hf : KeepsCore f) (s : State) (kc core kc' core' : Nat) :
    (updTeam s kc core f).teams.find? (fun t => t.kc = kc' ∧ t.core = core') =
      if kc' = kc ∧ core' = core then (s.teams.find? fun t => t.kc = kc' ∧ t.core = core').map f
      else s.teams.find? fun t => t.kc = kc' ∧ t.core = core' := by
  have h := find?_map_key (fun t : Team => (t.kc, t.core)) (fun x => Prod.ext (hf x).1 (hf x).2) (kc, core) (kc', core') s.teams
  simpa only [Prod.mk.injEq, updTeam] using h

/-- S is s but for one team, which S holds as T'. -/
structure TeamBecomes (s S : State) (kc core : Nat) (T' : Team) : Prop where
  rest : { S with teams := s.teams } = s
  here : S.teams.find? (fun t => t.kc = kc ∧ t.core = core) = some T'
  elsewhere : ∀ kc' core', ¬(kc' = kc ∧ core' = core) →
    S.teams.find? (fun t => t.kc = kc' ∧ t.core = core') = s.teams.find? fun t => t.kc = kc' ∧ t.core = core'

theorem TeamBecomes.refl {s : State} {kc core : Nat} {T : Team} (h : s.teams.find? (fun t => t.kc = kc ∧ t.core = core) = some T) :
    TeamBecomes s s kc core T := ⟨rfl, h, fun _ _ _ => rfl⟩

/-- One more change of the team. -/
theorem TeamBecomes.updTeam {s S : State} {kc core : Nat} {T : Team} (h : TeamBecomes s S kc core T) {f : Team → Team}
    (hf : KeepsCore f) : TeamBecomes s (updTeam S kc core f) kc core (f T) where
  rest := h.rest
  here := by rw [find_updTeam hf, if_pos ⟨rfl, rfl⟩, h.here, Option.map_some]
  elsewhere kc' core' hne := by rw [find_updTeam hf, if_neg hne, h.elsewhere kc' core' hne]

theorem TeamBecomes.others {s S : State} {kc core : Nat} {T : Team} (h : TeamBecomes s S kc core T) (kc' core' : Nat)
    (hne : ¬(kc' = kc ∧ core' = core)) : teamOf S kc' core' = teamOf s kc' core' := by
  rw [teamOf, teamOf, h.elsewhere kc' core' hne]

theorem TeamBecomes.teamOf_eq {s S : State} {kc core : Nat} {T : Team} (h : TeamBecomes s S kc core T) : teamOf S kc core = T := by
  rw [teamOf, h.here, Option.getD_some]

theorem TeamBecomes.groups {s S : State} {kc core : Nat} {T : Team} (h : TeamBecomes s S kc core T) : S.groups = s.groups :=
  (congrArg State.groups h.rest :)

theorem teamOf_of_teams {s t : State} (h : t.teams = s.teams) (kc core : Nat) : teamOf t kc core = teamOf s kc core := by
  rw [teamOf, teamOf, h]

/-! ### A group that retires, or stops -/

/-- A group whose windows have closed for a trap. -/
def atTrap (c : Issue) (g : Group) : Group := countAtTrap (landAll g) c

/-- What a stop makes of a group. -/
def stoppedBy (t : Trap) (g : Group) : Group := { g with trap := some t, hold := none, stopped := none }

theorem keepsKey_stoppedBy (t : Trap) : KeepsKey (stoppedBy t) := fun _ => ⟨rfl, rfl, rfl⟩

theorem groups_stopMember {t : Trap} (ht : t.cause ≠ cDataPoison) (S : State) (kc core idx : Nat) :
    (stopMember S (.group kc core idx) t).groups = (updGroup S kc core idx (stoppedBy t)).groups := by
  simp only [stopMember, if_neg ht]
  rfl

section
variable {s : State} {c : Issue} {g : Group} (h : OnLanes s c g)
include h

theorem retireNop_lanes (S : State) : retireNop S c = retireLanes S c id := by
  rw [retireNop, h.who]

/-- A group that goes on with no register written. -/
theorem laneRegs_retireNop {S : State} (hS : S.groups = s.groups) : LaneRegs s (retireNop S c) c (Effect.none c) := by
  rw [retireNop_lanes h]
  exact laneRegs_retireTo h hS _ (f := id) (fun _ => ⟨rfl, rfl, rfl⟩) rfl (Effect.none c) (fun _ _ _ => rfl) (fun _ _ => rfl)
    (fun _ => rfl) (fun _ => BitVec.or_zero.symm) ⟨rfl, rfl, rfl, rfl⟩ (fun _ hl => covers_next c hl) (inside_next c _) rfl

theorem onlyGroups_retireNop (S : State) : OnlyGroups S (retireNop S c) := by
  rw [retireNop_lanes h]
  exact onlyGroups_retireLanes S c id

/-- A group that goes on when one team has changed. -/
theorem TeamBecomes.retires {S : State} {kc core : Nat} {T' : Team} (hS : TeamBecomes s S kc core T') :
    OnlyTeam s (retireNop S c) kc core ∧ LaneRegs s (retireNop S c) c (Effect.none c) ∧ teamOf (retireNop S c) kc core = T' := by
  have honly := onlyGroups_retireNop h S
  have hteams := teamOf_of_teams (t := retireNop S c) (s := S) (congrArg State.teams honly :)
  refine ⟨⟨?_, fun kc' core' hne => (hteams kc' core').trans (hS.others kc' core' hne)⟩, laneRegs_retireNop h hS.groups,
    (hteams kc core).trans hS.teamOf_eq⟩
  have hrest := congrArg (fun x : State => { x with groups := s.groups, teams := s.teams, cur := s.cur, fresh := s.fresh }) honly
  exact hrest.trans (congrArg (fun x : State => { x with groups := s.groups, cur := s.cur, fresh := s.fresh }) hS.rest)

/-- A group with nothing in flight takes a trap, and nothing else changes. -/
theorem lanesStop_takeTrap (hflights : g.flights = []) (r : Raise) (hcause : r.cause ≠ cDataPoison) :
    LanesStop s (takeTrap s c r) c (trapOf c r) := by
  have hwho := h.who
  have hkeep : KeepsKey (atTrap c) := keepsKey_countAtTrap c
  have htakes : takeTrap s c r = endIssue (stopMember (updGroup s g.kc g.core g.idx (atTrap c))
      (.group g.kc g.core g.idx) (trapOf c r)) c := by
    simp only [takeTrap, hwho, groupOf_here h.here, h.normal, hasWaiting, hflights]
    rfl
  have hgroups : (takeTrap s c r).groups =
      (updGroup (updGroup s g.kc g.core g.idx (atTrap c)) g.kc g.core g.idx (stoppedBy (trapOf c r))).groups := by
    rw [htakes, endIssue_groups]
    exact groups_stopMember hcause _ _ _ _
  refine ⟨trapTaken_lanes h hflights r, ?_, ?_, fun kc core idx hne => ?_⟩
  · have honly := congrArg (fun x : State => { x with groups := s.groups, frames := s.frames, cur := s.cur, fresh := s.fresh })
      (stopMember_only (s := updGroup s g.kc g.core g.idx (atTrap c)) (t := trapOf c r) hcause g.kc g.core g.idx)
    rw [htakes]
    exact honly
  · have hgroup : memberGroup (takeTrap s c r) c.who = stoppedBy (trapOf c r) (atTrap c g) := by
      rw [memberGroup_of_groups hgroups, hwho]
      exact groupOf_updGroup_same (keepsKey_stoppedBy _) (groupHere_updGroup h.here rfl hkeep)
    rw [hgroup, h.group, stoppedBy, atTrap, landAll_of_idle hflights]
    rfl
  · rw [hwho] at hne
    have hother : ¬(kc = g.kc ∧ core = g.core ∧ idx = g.idx) := fun e => hne (by rw [e.1, e.2.1, e.2.2])
    rw [groupOf_of_groups hgroups, groupOf_updGroup_other (keepsKey_stoppedBy _) hother, groupOf_updGroup_other hkeep hother]

end

/-! ### One barrier of a team -/

theorem keepsCore_setBar (slot : Nat) (b : Team → Barrier) : KeepsCore fun t => setBar t slot (b t) := fun _ => ⟨rfl, rfl⟩

theorem keepsCore_barSettle (team slot n : Nat) (f : Team → Barrier) : KeepsCore fun t => barSettle team (setBar t slot (f t)) slot n :=
  fun t => barSettle_key team (setBar t slot (f t)) slot n

theorem barBecomes_refl (T : Team) (slot : Nat) : BarBecomes T T slot (barOf T slot) :=
  ⟨fun j => by split <;> simp_all, rfl⟩

theorem barBecomes_setBar {T : Team} {slot : Nat} (h : slot < T.bars.length) (b : Barrier) : BarBecomes T (setBar T slot b) slot b := by
  refine ⟨fun j => ?_, rfl⟩
  split
  · next hj => rw [hj, barOf_setBar h]
  · next hj => simp only [barOf, setBar, List.getElem?_set_ne (Ne.symm hj)]

theorem barBecomes_trans {T T' T'' : Team} {slot : Nat} {b b' : Barrier} (h : BarBecomes T T' slot b) (h' : BarBecomes T' T'' slot b') :
    BarBecomes T T'' slot b' := by
  obtain ⟨hbars, hrest⟩ := h
  obtain ⟨hbars', hrest'⟩ := h'
  refine ⟨fun j => ?_, ?_⟩
  · rw [hbars' j]
    split
    · rfl
    · next hj => rw [hbars j, if_neg hj]
  · exact (congrArg (fun x : Team => { x with bars := T.bars, regions := T.regions, poison := T.poison }) hrest').trans hrest

theorem barOf_of_becomes {T T' : Team} {slot : Nat} {b : Barrier} (h : BarBecomes T T' slot b) : barOf T' slot = b := by
  rw [h.1, if_pos rfl]

/-- Regions and poison marks are no barriers. -/
theorem barBecomes_of_regions {T T' : Team} {slot : Nat} {b : Barrier} (R : List Region) (P : List (Nat × Nat))
    (h : BarBecomes { T with regions := R, poison := P } T' slot b) : BarBecomes T T' slot b :=
  ⟨h.1, congrArg (fun x : Team => { x with regions := T.regions, poison := T.poison }) h.2⟩

/-! ### Phases (R201, R205) -/

/-- The barrier after one completed phase. -/
def nextPhase (b : Barrier) : Barrier := { b with p := b.p + 1, a := b.a - b.e, eb := 0, lb := 0 }

theorem barBecomes_barPhase {T : Team} {slot : Nat} (h : slot < T.bars.length) (team : Nat) :
    BarBecomes T (barPhase team T slot) slot (nextPhase (barOf T slot)) :=
  barBecomes_of_regions _ _ (barBecomes_setBar h _)

theorem length_barPhase (team : Nat) (T : Team) (slot : Nat) : (barPhase team T slot).bars.length = T.bars.length := by
  simp only [barPhase, setBar, List.length_set]

/-- The barrier after the phases that settle when no byte is outstanding: each takes E arrivals. -/
def settledBar (b : Barrier) : Barrier :=
  { b with p := b.p + BitVec.ofNat 16 (b.a.toNat / b.e.toNat), a := BitVec.ofNat 10 (b.a.toNat % b.e.toNat), eb := 0, lb := 0 }

theorem barReady_iff {b : Barrier} : barReady b = true ↔ b.e ≠ 0 ∧ b.e ≤ b.a ∧ b.lb = b.eb ∧ b.f = false := by
  simp [barReady, and_assoc]

theorem settledBar_below {b : Barrier} (h : b.a < b.e) (heb : b.eb = 0) (hlb : b.lb = 0) : settledBar b = b := by
  have hlt : b.a.toNat < b.e.toNat := h
  obtain ⟨p, e, a, eb, lb, f, h', x, door⟩ := b
  simp only at heb hlb hlt
  subst heb hlb
  simp [settledBar, Nat.div_eq_of_lt hlt, Nat.mod_eq_of_lt hlt]

theorem settledBar_nextPhase {b : Barrier} (he : b.e ≠ 0) (hle : b.e ≤ b.a) : settledBar (nextPhase b) = settledBar b := by
  have hpos : 0 < b.e.toNat := Nat.pos_of_ne_zero fun h => he (BitVec.eq_of_toNat_eq h)
  have hsub : (b.a - b.e).toNat = b.a.toNat - b.e.toNat := BitVec.toNat_sub_of_le hle
  have hdiv : b.a.toNat / b.e.toNat = (b.a.toNat - b.e.toNat) / b.e.toNat + 1 := Nat.div_eq_sub_div hpos hle
  have hmod : (b.a.toNat - b.e.toNat) % b.e.toNat = b.a.toNat % b.e.toNat := (Nat.mod_eq_sub_mod hle).symm
  have hp : b.p + 1 + BitVec.ofNat 16 ((b.a.toNat - b.e.toNat) / b.e.toNat) = b.p + BitVec.ofNat 16 (b.a.toNat / b.e.toNat) := by
    rw [hdiv, BitVec.ofNat_add, BitVec.add_assoc, BitVec.add_comm 1]
    rfl
  simp only [settledBar, nextPhase, hsub, hmod, hp]

/-- Settling completes a phase for every E arrivals, when enough rounds are allowed. -/
theorem barBecomes_barSettle (team : Nat) {T : Team} {slot : Nat} (hslot : slot < T.bars.length) {n : Nat} (he : (barOf T slot).e ≠ 0)
    (hf : (barOf T slot).f = false) (hb : (barOf T slot).lb = (barOf T slot).eb)
    (hn : (barOf T slot).a.toNat < n * (barOf T slot).e.toNat)
    (hphase : (barOf T slot).e ≤ (barOf T slot).a ∨ (barOf T slot).eb = 0) :
    BarBecomes T (barSettle team T slot n) slot (settledBar (barOf T slot)) := by
  induction n generalizing T with
  | zero => omega
  | succ n ih =>
    rw [barSettle]
    split
    · next hready =>
      obtain ⟨-, hle, -, -⟩ := barReady_iff.mp hready
      have hle' : (barOf T slot).e.toNat ≤ (barOf T slot).a.toNat := hle
      have hnext := barBecomes_barPhase hslot team
      have hat := barOf_of_becomes hnext
      have hsub : ((barOf T slot).a - (barOf T slot).e).toNat = (barOf T slot).a.toNat - (barOf T slot).e.toNat :=
        BitVec.toNat_sub_of_le hle
      have hrec := ih (T := barPhase team T slot) (by rw [length_barPhase]; exact hslot) (by rw [hat]; exact he) (by rw [hat]; exact hf)
        (by rw [hat]; rfl) (by rw [hat]; simp only [nextPhase, hsub]; rw [Nat.succ_mul] at hn; omega) (by rw [hat]; exact .inr rfl)
      rw [hat, settledBar_nextPhase he hle] at hrec
      exact barBecomes_trans hnext hrec
    · next hready =>
      have hlt : (barOf T slot).a < (barOf T slot).e := by
        rw [barReady_iff] at hready
        exact BitVec.not_le.mp fun hle => hready ⟨he, hle, hb, hf⟩
      have heb : (barOf T slot).eb = 0 := hphase.resolve_left fun hle => absurd hlt (BitVec.not_lt.mpr hle)
      rw [settledBar_below hlt heb (hb.trans heb)]
      exact barBecomes_refl T slot

/-- A change of a barrier that leaves it short of its phase's completion. -/
theorem barChange_unready {s S : State} {kc core slot : Nat} {T : Team} (h : TeamBecomes s S kc core T) (hslot : slot < T.bars.length)
    {f : Barrier → Barrier} (hready : barReady (f (barOf T slot)) = false) :
    TeamBecomes s (barChange S kc core slot f) kc core (setBar T slot (f (barOf T slot))) := by
  have hset := h.updTeam (keepsCore_barSettle (teamNo (kcOf S kc) core) slot 1024 fun t => f (barOf t slot))
  rwa [barSettle_unready (by rwa [barOf_setBar hslot])] at hset

/-- A change of a barrier after which phases complete. -/
theorem barChange_settles {s S : State} {kc core slot : Nat} {T : Team} (h : TeamBecomes s S kc core T) (hslot : slot < T.bars.length)
    {f : Barrier → Barrier} (hready : barReady (f (barOf T slot)) = true) :
    ∃ T', TeamBecomes s (barChange S kc core slot f) kc core T' ∧ BarBecomes T T' slot (settledBar (f (barOf T slot))) := by
  have hset := h.updTeam (keepsCore_barSettle (teamNo (kcOf S kc) core) slot 1024 fun t => f (barOf t slot))
  obtain ⟨he, hle, hb, hf⟩ := barReady_iff.mp hready
  have hat := barOf_setBar hslot (f (barOf T slot))
  have hpos : 0 < (f (barOf T slot)).e.toNat := Nat.pos_of_ne_zero fun h0 => he (BitVec.eq_of_toNat_eq h0)
  have hrounds : (f (barOf T slot)).a.toNat < 1024 * (f (barOf T slot)).e.toNat := by
    have := (f (barOf T slot)).a.isLt
    omega
  have hsettle := barBecomes_barSettle (teamNo (kcOf S kc) core) (T := setBar T slot (f (barOf T slot))) (slot := slot) (n := 1024)
    (by simpa [setBar] using hslot) (by rwa [hat]) (by rwa [hat]) (by rwa [hat]) (by rwa [hat]) (by rw [hat]; exact .inl hle)
  rw [hat] at hsettle
  exact ⟨_, hset, barBecomes_trans (barBecomes_setBar hslot _) hsettle⟩

/-! ### The swap of a region's planes (R201) -/

theorem amGet_of_above {d : Byte} {m : AMap Byte} {b j : Nat} (h : amAbove b m = true) (hj : j ≤ b) : amGet d m j = d := by
  induction m generalizing b with
  | nil => rfl
  | cons e rest ih =>
    obtain ⟨hb, hrest⟩ := Bool.and_eq_true_iff.mp h
    have hb := of_decide_eq_true hb
    rw [amGet, if_neg (by omega)]
    exact ih hrest (by omega)

/-- Writing all entries of a canonical map: a key that it lists gets its value. -/
theorem amGet_amSetAll {d : Byte} {es : AMap Byte} (h : amWf d es = true) (m : AMap Byte) (j : Nat) :
    amGet d (amSetAll d m es) j = if amGet d es j = d then amGet d m j else amGet d es j := by
  induction es generalizing m with
  | nil => exact (if_pos rfl).symm
  | cons e rest ih =>
    obtain ⟨k, v⟩ := e
    obtain ⟨habove, hall⟩ := Bool.and_eq_true_iff.mp h
    rw [List.all_cons, Bool.and_eq_true] at hall
    have hv : v ≠ d := of_decide_eq_true hall.1
    have hrest : amWf d rest = true := by
      refine Bool.and_eq_true_iff.mpr ⟨?_, hall.2⟩
      cases rest with
      | nil => rfl
      | cons f rest => exact (Bool.and_eq_true_iff.mp habove).2
    rw [amSetAll, ih hrest, amGet_amSet, amGet]
    by_cases hj : j = k
    · rw [if_pos hj, if_pos hj, if_neg hv, amGet_of_above habove (Nat.le_of_eq hj), if_pos rfl]
    · rw [if_neg hj, if_neg hj]

/-- A region in which no store was held, after its swap. -/
theorem swapRegion_of_none_held {r : Region} (h : r.held = []) (team : Nat) : swapRegion team r = { r with
    present := amSetAll 0 (if r.fill then [] else amKeep (fun a => !amGet false r.written (a / 4)) r.present)
      (amKeep (fun a => amGet false r.written (a / 4)) r.nextPl)
    nextPl := r.present, written := [], keys := [], arrived := [], held := [], prev := r.present, behind := dedup r.arrived } := by
  rw [swapRegion, h]
  rfl

/-- A byte of the plane that a swap makes present: the next plane's where it was written, else what fill leaves. -/
theorem amGet_swapRegion {r : Region} (h : r.held = []) (hwf : amWf 0 r.nextPl = true) (team a : Nat) :
    amGet 0 (swapRegion team r).present a = swapByte r a := by
  have hnew := amWf_keep (fun a => amGet false r.written (a / 4)) hwf
  rw [swapRegion_of_none_held h, amGet_amSetAll hnew, amGet_amKeep, swapByte]
  by_cases hw : amGet false r.written (a / 4) = true
  · rw [if_pos hw, if_pos hw]
    split
    · next h0 =>
      rw [h0]
      split
      · rfl
      · rw [amGet_amKeep, hw]
        rfl
    · rfl
  · rw [if_neg hw, if_neg hw, if_pos rfl]
    split
    · rfl
    · rw [amGet_amKeep, if_pos (by simp [hw])]

end Sys2Proof.Proofs.BarrierRules
end

section
/-! The family "Sprue, Barrier and Ladle Instructions": named barriers and stepped regions (R199 to R206, R271 to R278). -/

namespace Sys2Proof.Proofs.Barriers

open Sys2Proof Sys2Proof.Machine Sys2Proof.Claims Sys2Proof.Proofs.StateRules Sys2Proof.Proofs.Stops Sys2Proof.Proofs.Boundaries
  Sys2Proof.Proofs.Accesses Sys2Proof.Proofs.BarrierRules

/-! ### The start of a barrier instruction (R19, R94, R95) -/

section
variable {s : State} {c : Issue} {g : Group} {slot : BitVec 4} {T : Team} (h : AtBarrier s c g slot T)
include h

theorem barChecked_passes {regsOk : Bool} (hregs : regsOk = true) (k : State → State) (dst : List Nat) :
    barChecked s c slot.toNat regsOk k dst = k s := by
  rw [barChecked, checked_ok _ h.on.clean, outside_of_idle h.on h.landed]
  simp [h.on.notSpine, hregs, h.on.kc, h.counted]

theorem teamBecomes_start : TeamBecomes s s g.kc g.core T := .refl h.team

theorem teamOf_start : teamOf s g.kc g.core = T := (teamBecomes_start h).teamOf_eq

theorem memberTeam_start : memberTeam s c.who = T := by
  rw [h.on.who]
  exact teamOf_start h

/-- A cause of all lanes, with nothing else changed. -/
theorem lanesStop_trapAll {cause : Byte} (hcause : cause ≠ cDataPoison) :
    LanesStop s (trapAll s c cause) c (trapOf c { cause := cause, lanes := c.mask }) :=
  lanesStop_takeTrap h.on h.landed { cause := cause, lanes := c.mask } hcause

end

theorem teams_of_lanesStop {s t : State} {c : Issue} {tr : Trap} (h : LanesStop s t c tr) : t.teams = s.teams :=
  (congrArg State.teams h.2.1 :)

theorem cBarrierCount_ne : cBarrierCount ≠ cDataPoison := by decide

/-! ### An arrival that counts (R205, R273, R277) -/

/-- A group that arrives is noted at the slot's regions (R202). -/
def noted (slot idx : Nat) (T : Team) : Team :=
  { T with regions := T.regions.map fun r => if r.slot = slot then { r with arrived := r.arrived ++ [idx] } else r }

/-- A barrier with one more arrival. -/
def oneMore (b : Barrier) : Barrier := { b with a := b.a + 1 }

/-- The next arrival is the last, and no byte is outstanding. -/
def IsLast (b : Barrier) : Prop := b.a + 1 = b.e ∧ b.lb = b.eb

theorem nextPhase_oneMore {b : Barrier} (h : IsLast b) : nextPhase (oneMore b) = { b with p := b.p + 1, a := 0, eb := 0, lb := 0 } := by
  have hzero : b.a + 1 - b.e = 0 := by rw [h.1, BitVec.sub_self]; rfl
  rw [nextPhase, oneMore, hzero]

theorem groupArrive_counted {b : Barrier} {count : Nat} (h : MayArrive b count) :
    groupArrive b count = .counted (oneMore b) := by
  obtain ⟨hf, he, hlt, hcount⟩ := h
  have hmatch : ¬((decide (count ≠ 0) && decide (count ≠ b.e.toNat % 64)) = true) := by
    rcases hcount with h0 | h0 <;> simp [h0]
  have hopen : ¬((decide (b.e = 0) || decide (b.e ≤ b.a)) = true) := by
    simpa using ⟨he, hlt⟩
  rw [groupArrive, if_neg (by simp [hf]), if_neg hmatch, if_neg hopen]
  rfl

/-- The barrier of an arrival that is not the last does not complete its phase, and the last one's does. -/
theorem barReady_arrived {b : Barrier} {count : Nat} (h : MayArrive b count) :
    barReady (oneMore b) = true ↔ IsLast b := by
  obtain ⟨hf, he, hlt, -⟩ := h
  rw [barReady_iff]
  constructor
  · rintro ⟨-, hle, hbytes, -⟩
    have hle : b.e ≤ b.a + 1 := hle
    exact ⟨by bv_omega, hbytes⟩
  · rintro ⟨hlast, hbytes⟩
    exact ⟨he, BitVec.le_of_eq hlast.symm, hbytes, hf⟩

section
variable {s : State} {c : Issue} {g : Group} {slot : BitVec 4} {T : Team} {count : Nat} (h : AtBarrier s c g slot T)
  (hmay : MayArrive (barOf T slot.toNat) count)
include h hmay

/-- The state in which the arrival is noted and counted. -/
theorem runArrive_counts : runArrive s c slot.toNat count = retireNop
    (barChange (updTeam s g.kc g.core (noted slot.toNat g.idx)) g.kc g.core slot.toNat
      fun _ => (oneMore (barOf T slot.toNat))) c := by
  simp only [runArrive, h.on.group, h.on.kc, h.on.core, teamOf_start h, groupArrive_counted hmay]
  rfl

omit hmay in
/-- The team to which the group's arrival is noted. -/
theorem teamBecomes_noted :
    TeamBecomes s (updTeam s g.kc g.core (noted slot.toNat g.idx)) g.kc g.core (noted slot.toNat g.idx T) :=
  (teamBecomes_start h).updTeam fun _ => ⟨rfl, rfl⟩

theorem runArrive_not_last (hlast : ¬IsLast (barOf T slot.toNat)) :
    OnlyTeam s (runArrive s c slot.toNat count) g.kc g.core ∧ LaneRegs s (runArrive s c slot.toNat count) c (Effect.none c) ∧
      BarBecomes T (teamOf (runArrive s c slot.toNat count) g.kc g.core) slot.toNat
        (oneMore (barOf T slot.toNat)) := by
  have hready := Bool.eq_false_iff.mpr fun hr => hlast ((barReady_arrived hmay).mp hr)
  have hbar := barChange_unready (teamBecomes_noted h) (slot := slot.toNat) (f := fun _ => oneMore (barOf T slot.toNat)) h.held hready
  obtain ⟨honly, hregs, hteam⟩ := hbar.retires h.on
  rw [runArrive_counts h hmay, hteam]
  exact ⟨honly, hregs, barBecomes_of_regions _ _ (barBecomes_setBar (T := noted slot.toNat g.idx T) h.held _)⟩

/-- The team after the last arrival: its phase completes, once. -/
theorem barSettle_last (hlast : IsLast (barOf T slot.toNat)) (team : Nat) :
    barSettle team (setBar (noted slot.toNat g.idx T) slot.toNat (oneMore (barOf T slot.toNat)))
      slot.toNat 1024 =
    barPhase team (setBar (noted slot.toNat g.idx T) slot.toNat (oneMore (barOf T slot.toNat)))
      slot.toNat := by
  have hslot : slot.toNat < (noted slot.toNat g.idx T).bars.length := h.held
  have hnext := barBecomes_barPhase (T := setBar (noted slot.toNat g.idx T) slot.toNat
    (oneMore (barOf T slot.toNat))) (by simpa [setBar] using hslot) team
  rw [barOf_setBar hslot] at hnext
  rw [show (1024 : Nat) = 1023 + 1 from rfl, barSettle, barOf_setBar hslot, if_pos ((barReady_arrived hmay).mpr hlast),
    barSettle_unready]
  rw [barOf_of_becomes hnext, ← Bool.not_eq_true, barReady_iff]
  rintro ⟨he, hle, -, -⟩
  refine he (BitVec.eq_of_toNat_eq ?_)
  rw [nextPhase_oneMore hlast] at hle
  exact Nat.le_zero.mp hle

omit h hmay in
/-- A region of the slot after the last arrival has swapped its planes. -/
theorem region_swaps {idx : Nat} {r : Region} (hr : r ∈ T.regions) (hslot : r.slot = slot.toNat) (team : Nat) (b : Barrier) :
    swapRegion team { r with arrived := r.arrived ++ [idx] } ∈
      (barPhase team (setBar (noted slot.toNat idx T) slot.toNat b) slot.toNat).regions := by
  refine List.mem_map.mpr ⟨{ r with arrived := r.arrived ++ [idx] }, ?_, if_pos hslot⟩
  exact List.mem_map.mpr ⟨r, hr, if_pos hslot⟩

theorem runArrive_last (hlast : IsLast (barOf T slot.toNat)) :
    OnlyTeam s (runArrive s c slot.toNat count) g.kc g.core ∧ LaneRegs s (runArrive s c slot.toNat count) c (Effect.none c) ∧
      BarBecomes T (teamOf (runArrive s c slot.toNat count) g.kc g.core) slot.toNat
        { barOf T slot.toNat with p := (barOf T slot.toNat).p + 1, a := 0, eb := 0, lb := 0 } ∧
      ∀ r ∈ T.regions, r.slot = slot.toNat → ∃ team, swapRegion team { r with arrived := r.arrived ++ [g.idx] } ∈
        (teamOf (runArrive s c slot.toNat count) g.kc g.core).regions := by
  have hslot : slot.toNat < (noted slot.toNat g.idx T).bars.length := h.held
  have hset := (teamBecomes_noted h).updTeam (keepsCore_barSettle (teamNo (kcOf s g.kc) g.core) slot.toNat 1024
    fun _ => (oneMore (barOf T slot.toNat)))
  rw [barSettle_last h hmay hlast] at hset
  obtain ⟨honly, hregs, hteam⟩ := hset.retires h.on
  have hbar := barBecomes_trans (barBecomes_setBar hslot (oneMore (barOf T slot.toNat)))
    (barBecomes_barPhase (by simpa [setBar] using hslot) (teamNo (kcOf s g.kc) g.core))
  rw [barOf_setBar hslot, nextPhase_oneMore hlast] at hbar
  have hteam' : teamOf (runArrive s c slot.toNat count) g.kc g.core = _ := (runArrive_counts h hmay) ▸ hteam
  rw [hteam', runArrive_counts h hmay]
  exact ⟨honly, hregs, barBecomes_of_regions _ _ hbar, fun r hr hs => ⟨_, region_swaps hr hs _ _⟩⟩

end

/-- An instruction that makes a group's arrival once its checks pass. -/
theorem arrives_of_runs {i : Instr} {slot : BitVec 4} {count : Nat} {ready : Team → Prop}
    (hruns : ∀ s c g T, AtBarrier s c g slot T → ready T → exec i s = .next (runArrive s c slot.toNat count)) :
    Arrives i slot count ready := by
  intro s c g T h hready hmay
  have hexec := hruns s c g T h hready
  by_cases hlast : IsLast (barOf T slot.toNat)
  · obtain ⟨honly, hregs, hbar, hswaps⟩ := runArrive_last h hmay hlast
    refine ⟨_, hexec, honly, hregs, fun hnot => absurd hlast hnot, fun _ => ⟨hbar, fun r hr hs hheld hwf => ?_⟩⟩
    obtain ⟨team, hmem⟩ := hswaps r hr hs
    have hbytes := amGet_swapRegion (r := { r with arrived := r.arrived ++ [g.idx] }) hheld hwf team
    refine ⟨_, hmem, ?_⟩
    rw [swapRegion_of_none_held (r := { r with arrived := r.arrived ++ [g.idx] }) hheld] at hbytes ⊢
    exact ⟨rfl, rfl, rfl, rfl, hbytes⟩
  · obtain ⟨honly, hregs, hbar⟩ := runArrive_not_last h hmay hlast
    exact ⟨_, hexec, honly, hregs, fun _ => hbar, fun hyes => absurd hyes hlast⟩

theorem exec_arv {o : OpsBarK} {s : State} {c : Issue} {g : Group} {T : Team} (h : AtBarrier s c g o.slot T) :
    exec (.arv o) s = .next (runArrive s c o.slot.toNat o.k6.toNat) := by
  have hexec : exec (.arv o) s = execArv o s := rfl
  rw [hexec, execArv, issueBy_some h.on.cur, barChecked_passes h rfl]

theorem exec_step {o : OpsBarK} {s : State} {c : Issue} {g : Group} {T : Team} (h : AtBarrier s c g o.slot T)
    (hregion : ∃ r ∈ T.regions, r.idx = o.k6.toNat ∧ r.slot = o.slot.toNat) :
    exec (.step o) s = .next (runArrive s c o.slot.toNat 0) := by
  have hexec : exec (.step o) s = execStep o s := rfl
  rw [hexec, execStep, issueBy_some h.on.cur, barChecked_passes h rfl, memberTeam_start h, if_pos]
  simpa using hregion

/-! ### An arrival that is turned away (R205, R206) -/

/-- A group whose waits on a slot have ended with a fault of its barrier. -/
def faulted (slot : Nat) (g : Group) : Group := { g with regs := { g.regs with frontier := g.regs.frontier.map (faultWait slot) } }

theorem faultWait_phase {slot : BitVec 4} {e : Entry} {p : BitVec 16} (h : e.wait = some (.phase slot p)) :
    faultWait slot.toNat e = { e with wait := some (.faulted slot) } := by
  simp only [faultWait, h, if_pos]

theorem find_faultWaiters (S : State) (kc core slot kc' core' idx : Nat) :
    (faultWaiters S kc core slot).groups.find? (fun x => x.kc = kc' ∧ x.core = core' ∧ x.idx = idx) =
      (S.groups.find? fun x => x.kc = kc' ∧ x.core = core' ∧ x.idx = idx).map fun g =>
        if g.kc = kc && g.core = core then faulted slot g else g := by
  have hkey : ((fun x : Group => decide (x.kc = kc' ∧ x.core = core' ∧ x.idx = idx)) ∘ fun g =>
      if g.kc = kc && g.core = core then faulted slot g else g) = fun x => decide (x.kc = kc' ∧ x.core = core' ∧ x.idx = idx) := by
    funext x
    simp only [Function.comp]
    split <;> rfl
  have hmap := List.find?_map (p := fun x : Group => decide (x.kc = kc' ∧ x.core = core' ∧ x.idx = idx))
    (f := fun g => if g.kc = kc && g.core = core then faulted slot g else g) (l := S.groups)
  rw [hkey] at hmap
  exact hmap

/-- The waits of a group of the team are at a slot's fault after it. -/
theorem faulted_mem {S : State} {kc core idx : Nat} {slot : BitVec 4} {e : Entry} {p : BitVec 16}
    (he : e ∈ (groupOf S kc core idx).regs.frontier) (hw : e.wait = some (.phase slot p)) :
    { e with wait := some (.faulted slot) } ∈ (groupOf (faultWaiters S kc core slot.toNat) kc core idx).regs.frontier := by
  rw [groupOf] at he ⊢
  rw [find_faultWaiters]
  cases hfind : S.groups.find? fun x => x.kc = kc ∧ x.core = core ∧ x.idx = idx with
  | none =>
    rw [hfind] at he
    obtain rfl := List.mem_singleton.mp he
    cases hw
  | some q =>
    have hq := List.find?_some hfind
    simp only [decide_eq_true_eq] at hq
    rw [hfind] at he
    rw [Option.map_some, Option.getD_some, if_pos (by simp [hq.1, hq.2.1])]
    exact List.mem_map.mpr ⟨e, he, faultWait_phase hw⟩

theorem onLanes_faultWaiters {S : State} {c : Issue} {g : Group} (h : OnLanes S c g) (slot : Nat) :
    OnLanes (faultWaiters S g.kc g.core slot) c (faulted slot g) := by
  have hhere : (faultWaiters S g.kc g.core slot).groups.find? (fun x => x.kc = g.kc ∧ x.core = g.core ∧ x.idx = g.idx) =
      some (faulted slot g) := by
    rw [find_faultWaiters, h.here, Option.map_some, if_pos (by simp)]
  have hmember : memberGroup (faultWaiters S g.kc g.core slot) c.who = faulted slot g := by
    rw [h.who, memberGroup, groupOf, hhere, Option.getD_some]
  refine ⟨h.cur, h.who, hhere, h.normal, ?_⟩
  have hclean := h.clean
  simp only [poisonedIssue, hmember, h.group] at hclean ⊢
  exact hclean

/-- The state in which a group's arrival has been turned away, and left the barrier b. -/
def turnedAway (s : State) (g : Group) (slot : Nat) (b : Barrier) : State :=
  let S := updTeam s g.kc g.core fun t => setBar t slot b
  if b.f then faultWaiters S g.kc g.core slot else S

theorem turnedAway_rest (s : State) (g : Group) (slot : Nat) (b : Barrier) :
    { turnedAway s g slot b with groups := s.groups, teams := s.teams } = s := by
  rw [turnedAway]
  split <;> rfl

theorem turnedAway_teams (s : State) (g : Group) (slot : Nat) (b : Barrier) :
    (turnedAway s g slot b).teams = (updTeam s g.kc g.core fun t => setBar t slot b).teams := by
  rw [turnedAway]
  split <;> rfl

section
variable {s : State} {c : Issue} {g : Group} {slot : BitVec 4} {T : Team} {count : Nat} (h : AtBarrier s c g slot T)
include h

theorem runArrive_refused {b : Barrier} (hb : groupArrive (barOf T slot.toNat) count = .refused b) :
    runArrive s c slot.toNat count = trapAll (turnedAway s g slot.toNat b) c cBarrierCount := by
  simp only [runArrive, h.on.kc, h.on.core, teamOf_start h, hb]
  rfl

theorem onLanes_turnedAway (b : Barrier) : ∃ g', OnLanes (turnedAway s g slot.toNat b) c g' ∧ g'.flights = [] ∧
    { g'.regs with frontier := g.regs.frontier } = g.regs := by
  have hon : OnLanes (updTeam s g.kc g.core fun t => setBar t slot.toNat b) c g :=
    ⟨h.on.cur, h.on.who, h.on.here, h.on.normal, h.on.clean⟩
  rw [turnedAway]
  split
  · exact ⟨_, onLanes_faultWaiters hon slot.toNat, h.landed, rfl⟩
  · exact ⟨g, hon, h.landed, rfl⟩

/-- What an arrival that is turned away does to its group and team. -/
theorem runArrive_stops {b : Barrier} (hb : groupArrive (barOf T slot.toNat) count = .refused b) :
    TrapTaken s (runArrive s c slot.toNat count) c (trapOf c { cause := 0x0B, lanes := c.mask }) ∧
      { (memberGroup (runArrive s c slot.toNat count) c.who).regs with frontier := g.regs.frontier } = g.regs ∧
      BarBecomes T (teamOf (runArrive s c slot.toNat count) g.kc g.core) slot.toNat b ∧
      ∀ idx, idx ≠ g.idx → groupOf (runArrive s c slot.toNat count) g.kc g.core idx =
        groupOf (turnedAway s g slot.toNat b) g.kc g.core idx := by
  obtain ⟨g', hon, hflights, hsame⟩ := onLanes_turnedAway h b
  have hrest := turnedAway_rest s g slot.toNat b
  have hkcs : (turnedAway s g slot.toNat b).kcs = s.kcs := (congrArg State.kcs hrest :)
  have hframes : (turnedAway s g slot.toNat b).frames = s.frames := (congrArg State.frames hrest :)
  rw [runArrive_refused h hb]
  have hstop := lanesStop_takeTrap hon hflights { cause := cBarrierCount, lanes := c.mask } cBarrierCount_ne
  have hteams : (trapAll (turnedAway s g slot.toNat b) c cBarrierCount).teams = _ :=
    (teams_of_lanesStop hstop).trans (turnedAway_teams s g slot.toNat b)
  obtain ⟨⟨hframe, hstopped⟩, -, hregs, hothers⟩ := hstop
  refine ⟨⟨?_, hstopped⟩, ?_, ?_, fun idx hne => hothers _ _ _ fun e => hne ?_⟩
  · rw [hframes, frameOf_of_kcs hkcs] at hframe
    exact hframe
  · rw [hon.group] at hregs
    refine Eq.trans (congrArg (fun r : GroupRegs => { r with frontier := g.regs.frontier }) hregs) hsame
  · have hteam : teamOf (trapAll (turnedAway s g slot.toNat b) c cBarrierCount) g.kc g.core = setBar T slot.toNat b :=
      (teamOf_of_teams hteams _ _).trans ((teamBecomes_start h).updTeam (keepsCore_setBar slot.toNat fun _ => b)).teamOf_eq
    rw [hteam]
    exact barBecomes_setBar h.held b
  · rw [h.on.who] at e
    exact (Member.group.inj e).2.2

end

theorem groupArrive_mismatch {b : Barrier} {count : Nat} (h : Mismatch b count) :
    groupArrive b count = .refused { b with f := true } := by
  obtain ⟨hf, hcount, hne⟩ := h
  rw [groupArrive, if_neg (by simp [hf]), if_pos (by simp [hcount, hne])]

theorem groupArrive_refused {b : Barrier} {count : Nat} (h : b.f = true ∨ b.e = 0 ∨ b.e ≤ b.a) (hm : ¬Mismatch b count) :
    groupArrive b count = .refused b := by
  rw [groupArrive]
  split
  · rfl
  · next hf =>
    have hf := Bool.not_eq_true _ ▸ hf
    have hcount : ¬((decide (count ≠ 0) && decide (count ≠ b.e.toNat % 64)) = true) := fun hne => hm ⟨hf, by simpa using hne⟩
    have hclosed := h.resolve_left (by simp [hf])
    rw [if_neg hcount, if_pos (by simpa using hclosed)]

/-- An instruction that makes a group's arrival once its checks pass, where the arrival is turned away. -/
theorem arrivalRefused_of_runs {i : Instr} {slot : BitVec 4} {count : Nat} {ready : Team → Prop}
    (hruns : ∀ s c g T, AtBarrier s c g slot T → ready T → exec i s = .next (runArrive s c slot.toNat count)) :
    ArrivalRefused i slot count ready := by
  intro s c g T h hready b hrefused
  refine ⟨_, hruns s c g T h hready, ?_⟩
  by_cases hm : Mismatch b count
  · obtain ⟨htrap, hregs, hbar, hothers⟩ := runArrive_stops h (groupArrive_mismatch hm)
    refine ⟨htrap, hregs, fun hnot => absurd hm hnot, fun _ => ⟨hbar, fun idx p e hne he hw => ?_⟩⟩
    rw [hothers idx hne]
    exact faulted_mem (S := updTeam s g.kc g.core fun t => setBar t slot.toNat { b with f := true }) he hw
  · have hclosed : b.f = true ∨ b.e = 0 ∨ b.e ≤ b.a := by
      rcases hrefused with hf | he | ha | hmis
      · exact .inl hf
      · exact .inr (.inl he)
      · exact .inr (.inr ha)
      · exact absurd hmis hm
    obtain ⟨htrap, hregs, hbar, -⟩ := runArrive_stops h (groupArrive_refused hclosed hm)
    exact ⟨htrap, hregs, fun _ => hbar, fun hyes => absurd hyes hm⟩

/-! ### `barm` (R205, R206, R272) -/

/-- An instruction on a barrier's slot whose register is read in the lowest active lane, l. -/
structure ReadsBarrier (s : State) (c : Issue) (g : Group) (o : OpsBar) (T : Team) (l : Nat) (ls : List Nat) : Prop where
  start : AtBarrier s c g o.slot T
  inBudget : vOk g.budget false o.reg.toNat = true
  active : activeLanes g c o.g = l :: ls
  sound : g.poison.contains (l * 64 + o.reg.toNat) = false

section
variable {s : State} {c : Issue} {g : Group} {o : OpsBar} {T : Team} {l : Nat} {ls : List Nat} (h : ReadsBarrier s c g o T l ls)
include h

theorem lowestValue_active : lowestValue s c o.g o.reg.toNat = some (vGet g.regs l o.reg.toNat, false) := by
  simp only [lowestValue, h.start.on.group, h.active, List.head?_cons, Option.map_some, readV_of_idle h.start.landed, vMark, h.sound]

theorem exec_barm_none (hb : barmOf (barOf T o.slot.toNat) (vGet g.regs l o.reg.toNat).toNat = none) :
    exec (.barm o) s = .next (trapLanes s c cBarrierCount (l :: ls)) := by
  have hexec : exec (.barm o) s = execBarm o s := rfl
  rw [hexec, execBarm, issueBy_some h.start.on.cur, barChecked_passes h.start (by rw [h.start.on.group]; exact h.inBudget)]
  simp only [lowestValue_active h, h.start.on.kc, h.start.on.core, teamOf_start h.start, hb, h.start.on.group, h.active]
  rfl

theorem exec_barm_some {b : Barrier} (hb : barmOf (barOf T o.slot.toNat) (vGet g.regs l o.reg.toNat).toNat = some b) :
    exec (.barm o) s = .next (retireNop (barChange s g.kc g.core o.slot.toNat fun _ => b) c) := by
  have hexec : exec (.barm o) s = execBarm o s := rfl
  rw [hexec, execBarm, issueBy_some h.start.on.cur, barChecked_passes h.start (by rw [h.start.on.group]; exact h.inBudget)]
  simp only [lowestValue_active h, h.start.on.kc, h.start.on.core, teamOf_start h.start, hb]
  rfl

/-- `barm` that leaves the phase open. -/
theorem barm_unready {b : Barrier} (hb : barmOf (barOf T o.slot.toNat) (vGet g.regs l o.reg.toNat).toNat = some b)
    (hready : barReady b = false) : ∃ t, exec (.barm o) s = .next t ∧ OnlyTeam s t g.kc g.core ∧ LaneRegs s t c (Effect.none c) ∧
      BarBecomes T (teamOf t g.kc g.core) o.slot.toNat b := by
  have hbar := barChange_unready (teamBecomes_start h.start) (f := fun _ => b) h.start.held hready
  obtain ⟨honly, hregs, hteam⟩ := hbar.retires h.start.on
  refine ⟨_, exec_barm_some h hb, honly, hregs, ?_⟩
  rw [hteam]
  exact barBecomes_setBar h.start.held b

/-- `barm` after which phases complete. -/
theorem barm_settles {b : Barrier} (hb : barmOf (barOf T o.slot.toNat) (vGet g.regs l o.reg.toNat).toNat = some b)
    (hready : barReady b = true) : ∃ t, exec (.barm o) s = .next t ∧ OnlyTeam s t g.kc g.core ∧ LaneRegs s t c (Effect.none c) ∧
      BarBecomes T (teamOf t g.kc g.core) o.slot.toNat (settledBar b) := by
  obtain ⟨T', hbar, hbecomes⟩ := barChange_settles (teamBecomes_start h.start) (f := fun _ => b) h.start.held hready
  obtain ⟨honly, hregs, hteam⟩ := hbar.retires h.start.on
  refine ⟨_, exec_barm_some h hb, honly, hregs, ?_⟩
  rwa [hteam]

/-- A cause that names the active lanes. -/
theorem lanesStop_trapLanes {cause : Byte} (hcause : cause ≠ cDataPoison) :
    LanesStop s (trapLanes s c cause (l :: ls)) c (trapOf c { cause := cause, lanes := maskOf (l :: ls) }) :=
  lanesStop_takeTrap h.start.on h.start.landed { cause := cause, lanes := maskOf (l :: ls) } hcause

end

theorem toNat_expected {e : Nat} (h : e ≤ 1023) : (BitVec.ofNat 10 e).toNat = e := Nat.mod_eq_of_lt (by omega)

theorem expected_ne_zero {e : Nat} (h : e ≤ 1023) (h0 : e ≠ 0) : BitVec.ofNat 10 e ≠ 0 := fun hz =>
  h0 ((toNat_expected h).symm.trans (congrArg BitVec.toNat hz))

theorem barmOf_open {b : Barrier} {e : Nat} (hf : b.f = false) (he : e ≤ 1023) (hzero : e ≠ 0 ∨ (b.a = 0 ∧ b.eb = 0 ∧ b.lb = 0)) :
    barmOf b e = some { b with e := BitVec.ofNat 10 e } := by
  rw [barmOf, if_neg (by omega), if_neg (by simp [hf]), if_neg]
  rcases hzero with h | ⟨ha, heb, hlb⟩
  · simp [h]
  · simp [ha, heb, hlb]

theorem barmOf_faulted {b : Barrier} {e : Nat} (hf : b.f = true) (he : e ≤ 1023) :
    barmOf b e = some { b with f := false, e := BitVec.ofNat 10 e, a := b.h, h := 0, eb := 0, lb := 0 } := by
  rw [barmOf, if_neg (by omega), if_pos hf]

theorem barmOf_none {b : Barrier} {e : Nat} (h : 1023 < e ∨ (b.f = false ∧ e = 0 ∧ ¬(b.a = 0 ∧ b.eb = 0 ∧ b.lb = 0))) :
    barmOf b e = none := by
  rw [barmOf]
  rcases h with he | ⟨hf, he, hbusy⟩
  · rw [if_pos he]
  · rw [if_neg (by omega), if_neg (by simp [hf]), if_pos]
    simpa [he, or_assoc, imp_iff_not_or] using hbusy

/-- A barrier with E expected arrivals, A made and no byte outstanding completes its phase. -/
theorem barReady_expected {b : Barrier} {e : Nat} (hb : b.e = BitVec.ofNat 10 e) (he : e ≤ 1023) :
    barReady b = true ↔ e ≠ 0 ∧ e ≤ b.a.toNat ∧ b.lb = b.eb ∧ b.f = false := by
  have hle : b.e ≤ b.a ↔ e ≤ b.a.toNat := by
    rw [hb, BitVec.le_def, toNat_expected he]
  have hne : b.e ≠ 0 ↔ e ≠ 0 := by
    rw [hb]
    exact ⟨fun h h0 => h (by rw [h0]; rfl), expected_ne_zero he⟩
  rw [barReady_iff, hle, hne]

theorem settledBar_expected {b : Barrier} {e : Nat} (hb : b.e = BitVec.ofNat 10 e) (he : e ≤ 1023) : settledBar b =
    { b with p := b.p + BitVec.ofNat 16 (b.a.toNat / e), a := BitVec.ofNat 10 (b.a.toNat % e), eb := 0, lb := 0 } := by
  rw [settledBar, hb, toNat_expected he]

section
variable {s : State} {c : Issue} {g : Group} {o : OpsBar} {T : Team} {l : Nat} {ls : List Nat} (h : ReadsBarrier s c g o T l ls)
  {b : Barrier} {e : Nat} (hbar : barOf T o.slot.toNat = b) (hval : (vGet g.regs l o.reg.toNat).toNat = e)
include h hbar hval

/-- E is set on a barrier that stays short of it. -/
theorem barm_expects (hf : b.f = false) (he : e ≤ 1023) (hzero : e ≠ 0 ∨ (b.a = 0 ∧ b.eb = 0 ∧ b.lb = 0))
    (hopen : ¬(e ≠ 0 ∧ e ≤ b.a.toNat ∧ b.lb = b.eb)) :
    ∃ t, exec (.barm o) s = .next t ∧ OnlyTeam s t g.kc g.core ∧ LaneRegs s t c (Effect.none c) ∧
      BarBecomes T (teamOf t g.kc g.core) o.slot.toNat { b with e := BitVec.ofNat 10 e } := by
  refine barm_unready h (by rw [hbar, hval, barmOf_open hf he hzero]) (Bool.eq_false_iff.mpr fun hr => hopen ?_)
  obtain ⟨h0, hle, hb, -⟩ := (barReady_expected (b := { b with e := BitVec.ofNat 10 e }) rfl he).mp hr
  exact ⟨h0, hle, hb⟩

/-- A fault is cleared, and the arrivals held since count. -/
theorem barm_clears (hf : b.f = true) (he : e ≤ 1023) (hopen : e = 0 ∨ b.h.toNat < e) :
    ∃ t, exec (.barm o) s = .next t ∧ OnlyTeam s t g.kc g.core ∧ LaneRegs s t c (Effect.none c) ∧
      BarBecomes T (teamOf t g.kc g.core) o.slot.toNat
        { b with f := false, e := BitVec.ofNat 10 e, a := b.h, h := 0, eb := 0, lb := 0 } := by
  refine barm_unready h (by rw [hbar, hval, barmOf_faulted hf he]) (Bool.eq_false_iff.mpr fun hr => ?_)
  obtain ⟨h0, hle, -⟩ := (barReady_expected
    (b := { b with f := false, e := BitVec.ofNat 10 e, a := b.h, h := 0, eb := 0, lb := 0 }) rfl he).mp hr
  rcases hopen with hz | hlt
  · exact h0 hz
  · exact absurd hle (Nat.not_le.mpr hlt)

/-- E is set on a barrier that has it: phases complete. -/
theorem barm_completes (hf : b.f = false) (he : e ≤ 1023) (h0 : e ≠ 0) (hle : e ≤ b.a.toNat) (hb : b.lb = b.eb) :
    ∃ t, exec (.barm o) s = .next t ∧ OnlyTeam s t g.kc g.core ∧ LaneRegs s t c (Effect.none c) ∧
      BarBecomes T (teamOf t g.kc g.core) o.slot.toNat { b with
        e := BitVec.ofNat 10 e, p := b.p + BitVec.ofNat 16 (b.a.toNat / e), a := BitVec.ofNat 10 (b.a.toNat % e), eb := 0, lb := 0 } := by
  have hready := (barReady_expected (b := { b with e := BitVec.ofNat 10 e }) rfl he).mpr ⟨h0, hle, hb, hf⟩
  have hsettles := barm_settles h (by rw [hbar, hval, barmOf_open hf he (.inl h0)]) hready
  rwa [settledBar_expected rfl he] at hsettles

/-- A fault is cleared, and the arrivals held since complete phases. -/
theorem barm_clears_completing (hf : b.f = true) (he : e ≤ 1023) (h0 : e ≠ 0) (hle : e ≤ b.h.toNat) :
    ∃ t, exec (.barm o) s = .next t ∧ OnlyTeam s t g.kc g.core ∧ LaneRegs s t c (Effect.none c) ∧
      BarBecomes T (teamOf t g.kc g.core) o.slot.toNat { b with
        f := false, h := 0, e := BitVec.ofNat 10 e, p := b.p + BitVec.ofNat 16 (b.h.toNat / e)
        a := BitVec.ofNat 10 (b.h.toNat % e), eb := 0, lb := 0 } := by
  have hready := (barReady_expected
    (b := { b with f := false, e := BitVec.ofNat 10 e, a := b.h, h := 0, eb := 0, lb := 0 }) rfl he).mpr ⟨h0, hle, rfl, rfl⟩
  have hsettles := barm_settles h (by rw [hbar, hval, barmOf_faulted hf he]) hready
  rwa [settledBar_expected rfl he] at hsettles

theorem barm_refused (hno : 1023 < e ∨ (b.f = false ∧ e = 0 ∧ ¬(b.a = 0 ∧ b.eb = 0 ∧ b.lb = 0))) :
    ∃ t, exec (.barm o) s = .next t ∧ t.teams = s.teams ∧
      TrapTaken s t c (trapOf c { cause := 0x0B, lanes := maskOf (l :: ls) }) := by
  have hstop := lanesStop_trapLanes h cBarrierCount_ne
  exact ⟨_, exec_barm_none h (by rw [hbar, hval, barmOf_none hno]), teams_of_lanesStop hstop, hstop.1⟩

end

/-! ### `wait` (R172, R202, R207, R274) -/

/-- The windows of a group with nothing in flight end without a change: the state holds the same groups. -/
theorem atBarrier_landed {s : State} {c : Issue} {g : Group} {slot : BitVec 4} {T : Team} (h : AtBarrier s c g slot T) :
    ∃ G, SameIssuer s c g G ∧ updMember s c.who landAll = withGroups G s ∧ AtBarrier (withGroups G s) c g slot T := by
  obtain ⟨G, hG, heq⟩ := SameIssuer.of_step h.on keepsKey_landAll (landAll_of_idle h.landed)
  exact ⟨G, hG, heq, ⟨hG.on, h.landed, h.counted, h.team, h.held⟩⟩

/-- The group that blocks: its entry waits, and the issue has counted. -/
def blocked (c : Issue) (w : Wait) (g : Group) : Group :=
  { countIssue (landAll g) c with
    regs := { (countIssue (landAll g) c).regs with
      frontier := (countIssue (landAll g) c).regs.frontier.map fun e => if e.mask = c.mask then { e with wait := some w } else e } }

theorem keepsKey_blocked (c : Issue) (w : Wait) : KeepsKey (blocked c w) :=
  KeepsKey.comp (f := fun g => { g with regs := { g.regs with
    frontier := g.regs.frontier.map fun e => if e.mask = c.mask then { e with wait := some w } else e } })
    (fun _ => ⟨rfl, rfl, rfl⟩) (KeepsKey.comp (keepsKey_count c) keepsKey_landAll)

/-- A group that blocks while no pre-emption request is latched. -/
theorem blockOn_lanes {S : State} {c : Issue} {g : Group} (h : OnLanes S c g) (hflights : g.flights = [])
    (hstop : stopping (kcOf S g.kc) = false) (w : Wait) :
    blockOn S c w = endIssue (updMember S c.who (blocked c w)) c := by
  have hwho := h.who
  have hgroup := h.group
  rw [hwho] at hgroup
  simp only [blockOn, hwho, hgroup, h.normal, hasWaiting, hflights, memberKc, hstop]
  rfl

/-- The registers of a group that blocks are as before, but for the entry that issued. -/
theorem regs_blocked {c : Issue} {w : Wait} {g : Group} (hflights : g.flights = []) : (blocked c w g).regs =
    { g.regs with frontier := g.regs.frontier.map fun e => if e.mask = c.mask then { e with wait := some w } else e } := by
  rw [blocked, landAll_of_idle hflights, countIssue_regs]

section
variable {s : State} {c : Issue} {g : Group} {o : OpsBar} {T : Team} {l : Nat} {ls : List Nat} (h : ReadsBarrier s c g o T l ls)
include h

/-- What `wait` does once its windows have ended: the group faults, goes on, or blocks. -/
def waitOnce (S : State) (c : Issue) (g : Group) (o : OpsBar) (T : Team) (l : Nat) (ls : List Nat) : State :=
  let b := barOf T o.slot.toNat
  let p : BitVec 16 := (vGet g.regs l o.reg.toNat).setWidth 16
  if b.f || wokeFaulted g c then trapLanes S c cBarrierCount (l :: ls)
  else if b.p ≠ p then retireNop (acquireSwaps S c.who) c
  else blockOn S c (.phase o.slot p)

theorem exec_wait : ∃ G, SameIssuer s c g G ∧ ReadsBarrier (withGroups G s) c g o T l ls ∧
    exec (.wait o) s = .next (waitOnce (withGroups G s) c g o T l ls) := by
  obtain ⟨G, hG, hland, hstart⟩ := atBarrier_landed h.start
  refine ⟨G, hG, ⟨hstart, h.inBudget, h.active, h.sound⟩, ?_⟩
  have hexec : exec (.wait o) s = execWait o s := rfl
  rw [hexec, execWait, issueBy_some h.start.on.cur, barChecked_passes h.start (by rw [h.start.on.group]; exact h.inBudget)]
  simp only [lowestValue_active h, hland, memberTeam_start hstart, hstart.on.group, h.active]
  rfl

theorem wait_faults (hf : (barOf T o.slot.toNat).f = true ∨ wokeFaulted g c = true) : ∃ t, exec (.wait o) s = .next t ∧
    t.teams = s.teams ∧ TrapTaken s t c (trapOf c { cause := 0x0B, lanes := maskOf (l :: ls) }) := by
  obtain ⟨G, hG, hread, hexec⟩ := exec_wait h
  rw [waitOnce, if_pos (by simpa using hf)] at hexec
  have hstop := hG.lanesStop (lanesStop_trapLanes hread cBarrierCount_ne)
  exact ⟨_, hexec, teams_of_lanesStop hstop, hstop.1⟩

variable (hf : (barOf T o.slot.toNat).f = false) (hw : wokeFaulted g c = false)
include hf hw

theorem wait_passes (hp : (barOf T o.slot.toNat).p ≠ (vGet g.regs l o.reg.toNat).setWidth 16) : ∃ t, exec (.wait o) s = .next t ∧
    OnlyTeam s t g.kc g.core ∧ LaneRegs s t c (Effect.none c) ∧
    teamOf t g.kc g.core = { T with regions := T.regions.map fun r => { r with behind := r.behind.filter fun i => i ≠ g.idx } } := by
  obtain ⟨G, hG, hread, hexec⟩ := exec_wait h
  rw [waitOnce, if_neg (by simp [hf, hw]), if_pos hp] at hexec
  have hacquires : acquireSwaps (withGroups G s) c.who = updTeam (withGroups G s) g.kc g.core fun t =>
      { t with regions := t.regions.map fun r => { r with behind := r.behind.filter fun i => i ≠ g.idx } } := by
    rw [hread.start.on.who]
    rfl
  have hteam := (teamBecomes_start hread.start).updTeam (f := fun t =>
    { t with regions := t.regions.map fun r => { r with behind := r.behind.filter fun i => i ≠ g.idx } }) fun _ => ⟨rfl, rfl⟩
  rw [← hacquires] at hteam
  obtain ⟨⟨honly, hothers⟩, hregs, hbecomes⟩ := hteam.retires hread.start.on
  exact ⟨_, hexec, ⟨congrArg (withGroups s.groups) honly, hothers⟩, hregs.of_same hG.same hG.others, hbecomes⟩

theorem wait_blocks (hp : (barOf T o.slot.toNat).p = (vGet g.regs l o.reg.toNat).setWidth 16)
    (hstop : stopping (kcOf s g.kc) = false) : ∃ t, exec (.wait o) s = .next t ∧ OnlyGroups s t ∧
    (memberGroup t c.who).regs = { g.regs with frontier := g.regs.frontier.map fun e =>
      if e.mask = c.mask then { e with wait := some (.phase o.slot (barOf T o.slot.toNat).p) } else e } := by
  obtain ⟨G, hG, hread, hexec⟩ := exec_wait h
  rw [waitOnce, if_neg (by simp [hf, hw]), if_neg (not_not_intro hp), ← hp, blockOn_lanes hread.start.on hread.start.landed hstop] at hexec
  refine ⟨_, hexec, ?_, ?_⟩
  · rw [h.start.on.who]
    rfl
  · rw [memberGroup_of_groups (endIssue_groups _ c), hread.start.on.upd rfl (keepsKey_blocked c _), regs_blocked h.start.landed]

end

/-- An entry of a frontier in which the issuing entry has come to wait. -/
theorem mem_waiting {c : Issue} {w : Wait} {l : List Entry} {en : Entry} (h : en.mask ≠ c.mask) :
    en ∈ l.map (fun e => if e.mask = c.mask then { e with wait := some w } else e) ↔ en ∈ l := by
  rw [List.mem_map]
  constructor
  · rintro ⟨e, he, rfl⟩
    by_cases hm : e.mask = c.mask
    · rw [if_pos hm] at h
      exact absurd hm h
    · rwa [if_neg hm]
  · exact fun he => ⟨en, he, if_neg h⟩

/-- The entry that issued `wait` waits for the phase; the others stand where they stood. -/
theorem wait_enters {s : State} {c : Issue} {g : Group} {o : OpsBar} {T : Team} {l : Nat} {ls : List Nat}
    (h : ReadsBarrier s c g o T l ls) (hf : (barOf T o.slot.toNat).f = false) (hw : wokeFaulted g c = false)
    (hp : (barOf T o.slot.toNat).p = (vGet g.regs l o.reg.toNat).setWidth 16) (hstop : stopping (kcOf s g.kc) = false) :
    ∃ t, exec (.wait o) s = .next t ∧ OnlyGroups s t ∧ { (memberGroup t c.who).regs with frontier := g.regs.frontier } = g.regs ∧
      (∀ w, ⟨c.pc, c.prio, c.mask, w⟩ ∈ g.regs.frontier →
        ⟨c.pc, c.prio, c.mask, some (.phase o.slot (barOf T o.slot.toNat).p)⟩ ∈ (memberGroup t c.who).regs.frontier) ∧
      ∀ en, en.mask ≠ c.mask → (en ∈ (memberGroup t c.who).regs.frontier ↔ en ∈ g.regs.frontier) := by
  obtain ⟨t, hexec, honly, hregs⟩ := wait_blocks h hf hw hp hstop
  refine ⟨t, hexec, honly, ?_⟩
  rw [hregs]
  exact ⟨rfl, fun w hmem => List.mem_map.mpr ⟨_, hmem, if_pos rfl⟩, fun en hne => mem_waiting hne⟩

/-! ### No active lane -/

section
variable {s : State} {c : Issue} {g : Group} {o : OpsBar} {T : Team} (h : AtBarrier s c g o.slot T)
  (hreg : vOk g.budget false o.reg.toNat = true) (hnone : activeLanes g c o.g = [])
include h hreg hnone

theorem exec_barm_idle : exec (.barm o) s = .next (retireNop s c) := by
  have hexec : exec (.barm o) s = execBarm o s := rfl
  rw [hexec, execBarm, issueBy_some h.on.cur, barChecked_passes h (by rw [h.on.group]; exact hreg)]
  simp only [lowestValue, h.on.group, hnone, List.head?_nil, Option.map_none]

theorem exec_wait_idle : ∃ G, SameIssuer s c g G ∧ exec (.wait o) s = .next (retireNop (withGroups G s) c) := by
  obtain ⟨G, hG, hland, -⟩ := atBarrier_landed h
  refine ⟨G, hG, ?_⟩
  have hexec : exec (.wait o) s = execWait o s := rfl
  rw [hexec, execWait, issueBy_some h.on.cur, barChecked_passes h (by rw [h.on.group]; exact hreg)]
  simp only [lowestValue, h.on.group, hnone, List.head?_nil, Option.map_none, hland]

end

/-! ### `phrd` (R207, R275) -/

theorem phaseWord_eq (b : Barrier) :
    phaseWord b = (0 : BitVec 4) ++ BitVec.ofBool b.x ++ BitVec.ofBool b.f ++ b.a ++ b.p := by
  have ha := b.a.isLt
  have hp := b.p.isLt
  apply BitVec.eq_of_toNat_eq
  rw [phaseWord, BitVec.toNat_append, ← Nat.shiftLeft_add_eq_or_of_lt hp, BitVec.toNat_append, ← Nat.shiftLeft_add_eq_or_of_lt ha,
    Nat.shiftLeft_eq, Nat.shiftLeft_eq, BitVec.toNat_ofNat]
  cases b.x <;> cases b.f <;> simp <;> omega

theorem exec_phrd {s : State} {c : Issue} {g : Group} {o : OpsBar} {T : Team} (h : AtBarrier s c g o.slot T)
    (hreg : vOk g.budget false o.reg.toNat = true) : exec (.phrd o) s = .next (retireWrites (acquireSwaps s c.who) c 0 [o.reg.toNat]
      ((activeLanes g c o.g).map fun l => ⟨l, o.reg.toNat, phaseWord (barOf T o.slot.toNat)⟩) []) := by
  have hexec : exec (.phrd o) s = execPhrd o s := rfl
  rw [hexec, execPhrd, issueBy_some h.on.cur, barChecked_passes h (by rw [h.on.group]; exact hreg), memberTeam_start h, h.on.group]

theorem mem_oneV {d : Nat} {act : List Nat} {v : Nat → Word} {l r : Nat} {w : Word} :
    (⟨l, r, w⟩ : RegWrite) ∈ act.map (fun l => ⟨l, d, v l⟩) ↔ oneV d act v l r = some w := by
  simp only [List.mem_map, RegWrite.mk.injEq, oneV]
  constructor
  · rintro ⟨l', hl, rfl, rfl, rfl⟩
    rw [if_pos ⟨hl, rfl⟩]
  · intro h
    obtain ⟨⟨hl, rfl⟩, hw⟩ := Option.ite_some_none_eq_some.mp h
    exact ⟨l, hl, rfl, rfl, hw⟩

theorem nodup_oneV {act : List Nat} (h : act.Nodup) (d : Nat) (v : Nat → Word) :
    ((act.map fun l => (⟨l, d, v l⟩ : RegWrite)).map fun x => (x.lane, x.reg)).Nodup := by
  rw [List.map_map]
  exact h.map fun a b hab => (Prod.ext_iff.mp hab).1

/-- A register of each active lane is written. -/
theorem laneRegs_oneV {s U : State} {c : Issue} {g : Group} (h : OnLanes s c g) (hU : U.groups = s.groups) (hflights : g.flights = [])
    (gd : PredNo) (d : RegField) (v : Nat → Word) (dst : List Nat) :
    LaneRegs s (retireWrites U c 0 dst ((activeLanes g c gd).map fun l => ⟨l, d.toNat, v l⟩) []) c
      { Effect.none c with v := oneV d.toNat (activeLanes g c gd) v } := by
  have hbound : ∀ x ∈ (activeLanes g c gd).map (fun l => (⟨l, d.toNat, v l⟩ : RegWrite)), x.reg < 64 := by
    intro x hx
    obtain ⟨l, -, rfl⟩ := List.mem_map.mp hx
    exact d.isLt
  exact (landsOrFlies_retireWrites h hU hflights (nodup_oneV (nodup_active g c gd) d.toNat v) hbound (fun _ _ _ => mem_oneV) 0 dst).1 rfl

/-! ### `bexp` (R276, R391) -/

theorem mem_of_amGet {α : Type} {d : α} {m : AMap α} {n : Nat} (h : amGet d m n ≠ d) : n ∈ m.map Prod.fst := by
  induction m with
  | nil => exact absurd rfl h
  | cons e rest ih =>
    rw [amGet] at h
    split at h
    · next hk => exact hk ▸ List.mem_cons_self
    · exact List.mem_cons_of_mem _ (ih h)

/-- Every index from n on that is taken is passed over. -/
theorem freeDoor_none {doors : AMap (Option (Nat × Nat × Nat))} {n : Nat} (h : ∀ j, j < 16384 → amGet none doors j ≠ none) (fuel : Nat) :
    freeDoor doors n fuel = none := by
  induction fuel generalizing n with
  | zero => rfl
  | succ fuel ih =>
    rw [freeDoor]
    split
    · rfl
    · next hn =>
      rw [if_neg (by simpa using h n (by omega)), ih]

/-- The lowest free index is found, given fuel to reach it. -/
theorem freeDoor_some {doors : AMap (Option (Nat × Nat × Nat))} {j n fuel : Nat} (hj : j < 16384) (hfree : amGet none doors j = none)
    (htaken : ∀ i, i < j → amGet none doors i ≠ none) (hn : n ≤ j) (hfuel : j < n + fuel) : freeDoor doors n fuel = some j := by
  induction fuel generalizing n with
  | zero => omega
  | succ fuel ih =>
    rw [freeDoor, if_neg (by omega)]
    by_cases he : n = j
    · rw [he, if_pos (by rw [hfree]; rfl)]
    · rw [if_neg (by simpa using htaken n (by omega)), ih (by omega) (by omega)]

/-- Indices below a free one that are all taken are no more than the map lists. -/
theorem taken_le_length {doors : AMap (Option (Nat × Nat × Nat))} {j : Nat} (h : ∀ i, i < j → amGet none doors i ≠ none) :
    j ≤ doors.length := by
  have hsub : List.range j ⊆ doors.map Prod.fst := fun i hi => mem_of_amGet (h i (List.mem_range.mp hi))
  simpa using (List.nodup_range.subperm hsub).length_le

/-- The address of a doorbell in a register pair of each active lane. -/
theorem laneRegs_pairV {s U : State} {c : Issue} {g : Group} (h : OnLanes s c g) (hU : U.groups = s.groups) (gd : PredNo) {d : Nat}
    (hd : d + 1 < 64) (v : Nat) (dst : List Nat) :
    LaneRegs s (retireWrites U c 0 dst ((activeLanes g c gd).flatMap fun l => regWrites d true l v) []) c
      { Effect.none c with v := pairV d (activeLanes g c gd) fun _ => BitVec.ofNat 64 v } := by
  have hlo : BitVec.ofNat 32 v = (BitVec.ofNat 64 v).extractLsb' 0 32 := by
    apply BitVec.eq_of_toNat_eq
    simp
  have hhi : BitVec.ofNat 32 (v / 2 ^ 32) = (BitVec.ofNat 64 v).extractLsb' 32 32 := by
    apply BitVec.eq_of_toNat_eq
    simp [Nat.shiftRight_eq_div_pow]
    omega
  have hwrites : ∀ l ∈ activeLanes g c gd, ∀ w ∈ regWrites d true l v, w.lane = l ∧ w.reg < 64 := by
    intro l _ w hw
    rcases List.mem_cons.mp hw with rfl | hw
    · exact ⟨rfl, Nat.lt_of_succ_lt hd⟩
    · obtain rfl := List.mem_singleton.mp hw
      exact ⟨rfl, hd⟩
  refine laneRegs_retireWrites (act' := []) h hU (nodup_active g c gd) (fun l => regWrites d true l v) (fun _ => 0) hwrites dst _
    (fun lane r hr => ?_) (fun _ _ => rfl) (fun _ => rfl) (fun _ => rfl) rfl
  rw [vGet_regWrites _ _ _ _ _ _ hr (by simpa using hd), hlo, hhi]
  simp only [pairV, true_and]
  split <;> rfl

/-- What `bexp` gives its lanes. -/
def giveDoor (S : State) (c : Issue) (o : OpsBar) (idx : Nat) : State :=
  retireWrites S c 0 [o.reg.toNat, o.reg.toNat + 1]
    ((activeLanes (memberGroup S c.who) c o.g).flatMap fun l => regWrites o.reg.toNat true l (doorAddr idx)) []

/-- A doorbell taken in the table of a context. -/
def takeDoor (idx kc core slot : Nat) (x : Ctx) : Ctx := { x with doors := amSet none x.doors idx (some (kc, core, slot)) }

/-- A barrier that is exported at a doorbell. -/
def exportedAt (idx : Nat) (b : Barrier) : Barrier := { b with x := true, door := some idx }

/-- The state in which a barrier of a core has been exported at a doorbell. -/
def exported (s : State) (a : Asid) (kc core slot idx : Nat) : State :=
  updTeam (updCtx s a (takeDoor idx kc core slot)) kc core fun t => setBar t slot (exportedAt idx (barOf t slot))

section
variable {s : State} {c : Issue} {g : Group} {o : OpsBar} {T : Team} (h : AtBarrier s c g o.slot T)
  (hreg : vOk g.budget true o.reg.toNat = true)
include h hreg

theorem exec_bexp : exec (.bexp o) s = .next (match (barOf T o.slot.toNat).door with
    | some idx => giveDoor s c o idx
    | none => match freeDoor (ctxOf s (memberAsid s c.who)).doors 0 ((ctxOf s (memberAsid s c.who)).doors.length + 1) with
      | none => trapAll s c cProtection
      | some idx => giveDoor (exported s (memberAsid s c.who) g.kc g.core o.slot.toNat idx) c o idx) := by
  have hexec : exec (.bexp o) s = execBexp o s := rfl
  rw [hexec, execBexp, issueBy_some h.on.cur, barChecked_passes h (by rw [h.on.group]; exact hreg)]
  simp only [h.on.kc, h.on.core, teamOf_start h]
  rfl

theorem laneRegs_giveDoor {S : State} (hS : S.groups = s.groups) (idx : Nat) :
    LaneRegs s (giveDoor S c o idx) c { Effect.none c with
      v := pairV o.reg.toNat (activeLanes g c o.g) fun _ => BitVec.ofNat 64 (0xFFFFFFF00000 + 64 * idx) } := by
  have hd : o.reg.toNat + 1 < 64 := by
    simp only [vOk, if_true, Bool.and_eq_true, decide_eq_true_eq] at hreg
    omega
  rw [giveDoor, memberGroup_of_groups hS, h.on.group]
  exact laneRegs_pairV h.on hS o.g hd (doorAddr idx) _

omit h hreg in
theorem onlyGroups_giveDoor (S : State) (c : Issue) (idx : Nat) : OnlyGroups S (giveDoor S c o idx) := onlyGroups_retireLanes S c _

/-- An exported barrier keeps its doorbell. -/
theorem bexp_exported {idx : Nat} (hdoor : (barOf T o.slot.toNat).door = some idx) : ∃ t, exec (.bexp o) s = .next t ∧ OnlyGroups s t ∧
    LaneRegs s t c { Effect.none c with
      v := pairV o.reg.toNat (activeLanes g c o.g) fun _ => BitVec.ofNat 64 (0xFFFFFFF00000 + 64 * idx) } := by
  have hexec := exec_bexp h hreg
  rw [hdoor] at hexec
  exact ⟨_, hexec, onlyGroups_giveDoor s c idx, laneRegs_giveDoor h hreg rfl idx⟩

/-- A barrier that is not exported takes the lowest free doorbell. -/
theorem bexp_takes {x : Ctx} (hx : ctxOf? s (memberAsid s c.who) = some x) (hdoor : (barOf T o.slot.toNat).door = none) {idx : Nat}
    (hidx : idx < 16384) (hfree : amGet none x.doors idx = none) (htaken : ∀ j, j < idx → amGet none x.doors j ≠ none) :
    ∃ t, exec (.bexp o) s = .next t ∧ barOf (teamOf t g.kc g.core) o.slot.toNat = exportedAt idx (barOf T o.slot.toNat) ∧
      amGet none (ctxOf t (memberAsid s c.who)).doors idx = some (g.kc, g.core, o.slot.toNat) ∧
      LaneRegs s t c { Effect.none c with
        v := pairV o.reg.toNat (activeLanes g c o.g) fun _ => BitVec.ofNat 64 (0xFFFFFFF00000 + 64 * idx) } := by
  have hctx : ctxOf s (memberAsid s c.who) = x := by rw [ctxOf, hx, Option.getD_some]
  have hlength := taken_le_length htaken
  have hexec := exec_bexp h hreg
  rw [hdoor, hctx] at hexec
  simp only [freeDoor_some hidx hfree htaken (Nat.zero_le _) (fuel := x.doors.length + 1) (by omega)] at hexec
  have hteam := (TeamBecomes.refl (s := updCtx s (memberAsid s c.who) (takeDoor idx g.kc g.core o.slot.toNat)) h.team).updTeam
    (keepsCore_setBar o.slot.toNat fun t => exportedAt idx (barOf t o.slot.toNat))
  have honly := onlyGroups_giveDoor (o := o) (exported s (memberAsid s c.who) g.kc g.core o.slot.toNat idx) c idx
  have hteams : (giveDoor (exported s (memberAsid s c.who) g.kc g.core o.slot.toNat idx) c o idx).teams =
      (exported s (memberAsid s c.who) g.kc g.core o.slot.toNat idx).teams := (congrArg State.teams honly :)
  refine ⟨_, hexec, ?_, ?_, laneRegs_giveDoor (S := exported s (memberAsid s c.who) g.kc g.core o.slot.toNat idx) h hreg rfl idx⟩
  · rw [teamOf_of_teams hteams, exported, hteam.teamOf_eq, barOf_setBar h.held]
  · have hsame : ctxOf (giveDoor (exported s (memberAsid s c.who) g.kc g.core o.slot.toNat idx) c o idx) (memberAsid s c.who) =
        ctxOf (updCtx s (memberAsid s c.who) (takeDoor idx g.kc g.core o.slot.toNat)) (memberAsid s c.who) :=
      (congrArg (fun t : State => ctxOf t (memberAsid s c.who)) honly :)
    rw [hsame, ctxOf_updCtx (f := takeDoor idx g.kc g.core o.slot.toNat) (fun _ => rfl) hx, if_pos rfl]
    exact amGet_amSet_same _ _ _ _

/-- No doorbell is free. -/
theorem bexp_refused (hdoor : (barOf T o.slot.toNat).door = none)
    (htaken : ∀ j, j < 16384 → amGet none (ctxOf s (memberAsid s c.who)).doors j ≠ none) :
    ∃ t, exec (.bexp o) s = .next t ∧ t.teams = s.teams ∧ t.ctxs = s.ctxs ∧
      TrapTaken s t c (trapOf c { cause := 0x05, lanes := c.mask }) := by
  have hexec := exec_bexp h hreg
  rw [hdoor] at hexec
  simp only [freeDoor_none htaken] at hexec
  have hstop := lanesStop_trapAll h (cause := cProtection) (by decide)
  exact ⟨_, hexec, teams_of_lanesStop hstop, (congrArg State.ctxs hstop.2.1 :), hstop.1⟩

end

/-! ### `bfree` (R278) -/

/-- A slot marked free in a team. -/
def freed (slot : BitVec 4) (t : Team) : Team := { t with free := t.free ||| (1#16 <<< slot.toNat) }

theorem freed_eq (slot : BitVec 4) (t : Team) : { t with free := t.free ||| BitVec.ofNat 16 (2 ^ slot.toNat) } = freed slot t := by
  have hbit : BitVec.ofNat 16 (2 ^ slot.toNat) = 1#16 <<< slot.toNat := by
    apply BitVec.eq_of_toNat_eq
    rw [BitVec.toNat_shiftLeft, Nat.shiftLeft_eq, BitVec.toNat_ofNat]
    simp
  rw [hbit]
  rfl

theorem exec_bfree {o : OpsBarS} {s : State} {c : Issue} {g : Group} {T : Team} (h : AtBarrier s c g o.slot T) :
    exec (.bfree o) s = .next (retireNop (updTeam s g.kc g.core (freed o.slot)) c) := by
  have hexec : exec (.bfree o) s = execBfree o s := rfl
  rw [hexec, execBfree, issueBy_some h.on.cur, barChecked_passes h rfl, h.on.kc, h.on.core, funext (freed_eq o.slot)]

theorem bfree_frees {o : OpsBarS} {s : State} {c : Issue} {g : Group} {T : Team} (h : AtBarrier s c g o.slot T) :
    ∃ t, exec (.bfree o) s = .next t ∧ OnlyTeam s t g.kc g.core ∧ LaneRegs s t c (Effect.none c) ∧
      teamOf t g.kc g.core = { T with free := T.free ||| (1#16 <<< o.slot.toNat) } :=
  ⟨_, exec_bfree h, ((teamBecomes_start h).updTeam (f := freed o.slot) fun _ => ⟨rfl, rfl⟩).retires h.on⟩

/-! ### The statement -/

/-- Settles O24: an arrival and `barm` change one barrier, and settling takes E arrivals a phase; every other case stops the
group, blocks it, or reads the barrier. -/
theorem barriersAndSteps : Obligations.BarriersAndSteps := by
  unfold Obligations.BarriersAndSteps
  refine ⟨fun o => arrives_of_runs fun _ _ _ _ h _ => exec_arv h, fun o => arrives_of_runs fun _ _ _ _ h hr => exec_step h hr,
    fun o => arrivalRefused_of_runs fun _ _ _ _ h _ => exec_arv h, fun o => arrivalRefused_of_runs fun _ _ _ _ h hr => exec_step h hr,
    fun o s c g T l ls h hreg hact hsound => ?armed, fun o s c g T h hreg hnone => ⟨?barmIdle, ?waitIdle⟩,
    fun o s c g T h hreg => ?phrd, fun o s c g T h hreg => ⟨fun idx hdoor => bexp_exported h hreg hdoor, ?takes, bexp_refused h hreg⟩,
    fun o s c g T h => bfree_frees h⟩
  case armed =>
    have hread : ReadsBarrier s c g o T l ls := ⟨h, hreg, hact, hsound⟩
    exact ⟨barm_expects hread rfl rfl, barm_clears hread rfl rfl, barm_completes hread rfl rfl, barm_clears_completing hread rfl rfl,
      barm_refused hread rfl rfl, wait_faults hread, fun hf hw hp => wait_passes hread hf hw hp, fun hf hw hp hstop =>
        wait_enters hread hf hw hp hstop⟩
  case barmIdle => exact ⟨_, exec_barm_idle h hreg hnone, onlyGroups_retireNop h.on s, laneRegs_retireNop h.on rfl⟩
  case waitIdle =>
    obtain ⟨G, hG, hexec⟩ := exec_wait_idle h hreg hnone
    exact ⟨_, hexec, congrArg (withGroups s.groups) (onlyGroups_retireNop hG.on (withGroups G s)),
      (laneRegs_retireNop hG.on rfl).of_same hG.same hG.others⟩
  case phrd =>
    refine ⟨_, exec_phrd h hreg, onlyGroups_retireLanes _ c _, ?_⟩
    have hregs := laneRegs_oneV h.on (acquireSwaps_groups s c.who) h.landed o.g o.reg (fun _ => phaseWord (barOf T o.slot.toNat))
      [o.reg.toNat]
    rwa [← phaseWord_eq]
  case takes =>
    rintro x hx hdoor hfree
    have hlow := Nat.find_spec hfree
    have htaken : ∀ j, j < Nat.find hfree → amGet none x.doors j ≠ none := fun j hj hf => Nat.find_min hfree hj ⟨by omega, hf⟩
    obtain ⟨t, hexec, hbar, hctx, hregs⟩ := bexp_takes h hreg hx hdoor hlow.1 hlow.2 htaken
    exact ⟨t, _, hexec, hlow.1, hlow.2, htaken, by rw [hbar]; rfl, by rw [hbar]; rfl, hctx, hregs⟩

end Sys2Proof.Proofs.Barriers
end

section
/-! How the elements of a ladle transfer land (R196, R220, R279, R283, R286): the units they land in, the bytes a unit leaves at its
destination, and the source bytes a transfer out of a buffer has read. -/

namespace Sys2Proof.Proofs.Landing

open Sys2Proof Sys2Proof.Machine Sys2Proof.Claims Sys2Proof.Proofs.StateRules Sys2Proof.Proofs.Completions
  Sys2Proof.Proofs.Accesses Sys2Proof.Proofs.BarrierRules

/-! ### Elements that fill their unit (R220) -/

/-- Elements of n bytes that do not meet, in ascending order. -/
def Ascending (n : Nat) (es : List (Nat × Nat)) : Prop := es.Pairwise fun e e' => e.1 + n ≤ e'.1

/-- No more elements lie between two addresses than there is room for. -/
theorem ascending_room {n lo hi : Nat} {es : List (Nat × Nat)} (h : Ascending n es) (hlo : ∀ e ∈ es, lo ≤ e.1)
    (hhi : ∀ e ∈ es, e.1 + n ≤ hi) (hle : lo ≤ hi) : lo + es.length * n ≤ hi := by
  induction es generalizing lo with
  | nil => simpa using hle
  | cons e es ih =>
    obtain ⟨hnext, hrest⟩ := List.pairwise_cons.mp h
    obtain ⟨hlo, -⟩ := List.forall_mem_cons.mp hlo
    obtain ⟨hhi, hhis⟩ := List.forall_mem_cons.mp hhi
    have := ih hrest hnext hhis hhi
    rw [List.length_cons, Nat.succ_mul]
    omega

/-- As many elements as there is room for cover every byte. -/
theorem ascending_covers {n lo : Nat} {es : List (Nat × Nat)} (h : Ascending n es) (hlo : ∀ e ∈ es, lo ≤ e.1)
    (hhi : ∀ e ∈ es, e.1 + n ≤ lo + es.length * n) {j : Nat} (hj : lo ≤ j) (hj' : j < lo + es.length * n) :
    ∃ e ∈ es, e.1 ≤ j ∧ j < e.1 + n := by
  induction es generalizing lo with
  | nil => simp at hj'; omega
  | cons e es ih =>
    obtain ⟨hnext, hrest⟩ := List.pairwise_cons.mp h
    obtain ⟨hlo, -⟩ := List.forall_mem_cons.mp hlo
    obtain ⟨hhi, hhis⟩ := List.forall_mem_cons.mp hhi
    have hroom := ascending_room hrest hnext hhis hhi
    rw [List.length_cons, Nat.succ_mul] at hroom hhis hj'
    by_cases hin : j < e.1 + n
    · exact ⟨e, List.mem_cons_self, by omega, hin⟩
    · obtain ⟨e', he', hcov⟩ := ih hrest hnext (fun e' he' => by have := hhis e' he'; omega) (by omega) (by omega)
      exact ⟨e', List.mem_cons_of_mem _ he', hcov⟩

theorem ascending_dedup {n : Nat} (hn : 0 < n) {es : List (Nat × Nat)} (h : Ascending n es) :
    (dedup (es.map fun e => e.1)).length = es.length := by
  have hnodup : (es.map fun e => e.1).Nodup := List.pairwise_map.mpr (h.imp fun hlt heq => by omega)
  rw [dedup_of_nodup hnodup, List.length_map]

/-- The elements of a unit lie in its span and fill it. -/
structure Fills (x : Transfer) (unit : List (Nat × Nat)) : Prop where
  inside : ∀ e ∈ unit, (unitSpan x unit).1 ≤ e.1 ∧ e.1 + x.esize ≤ (unitSpan x unit).1 + (unitSpan x unit).2
  covers : ∀ j, (unitSpan x unit).1 ≤ j → j < (unitSpan x unit).1 + (unitSpan x unit).2 → ∃ e ∈ unit, e.1 ≤ j ∧ j < e.1 + x.esize

/-- An element alone fills its span. -/
theorem fills_single {x : Transfer} {e : Nat × Nat} (h : Aligned x [e]) : Fills x [e] := by
  have hspan : unitSpan x [e] = (e.1, x.esize) := by
    obtain ⟨halign, -⟩ := h e (List.mem_singleton_self e)
    rw [unitSpan]
    split
    · next h16 =>
      have h16 : x.esize = 16 := by simpa [dedup] using h16
      exact Prod.ext (by omega) h16.symm
    · rfl
  constructor
  · rw [hspan]
    intro e' he'
    obtain rfl := List.mem_singleton.mp he'
    exact ⟨le_rfl, le_rfl⟩
  · rw [hspan]
    exact fun j h1 h2 => ⟨e, List.mem_singleton_self e, h1, h2⟩

/-- Elements of one 16-byte part, as many as it holds, fill it. -/
theorem fills_part {x : Transfer} (hsize : 0 < x.esize) {e : Nat × Nat} {es : List (Nat × Nat)} (h : Aligned x (e :: es))
    (hasc : Ascending x.esize (e :: es)) (hpart : ∀ e' ∈ e :: es, e'.1 / 16 = e.1 / 16) (hall : (e :: es).length * x.esize = 16) :
    Fills x (e :: es) := by
  have hspan : unitSpan x (e :: es) = (e.1 / 16 * 16, 16) := by
    rw [unitSpan, ascending_dedup hsize hasc, if_pos hall]
  have hlo : ∀ e' ∈ e :: es, e.1 / 16 * 16 ≤ e'.1 := fun e' he' => by have := hpart e' he'; omega
  have hhi : ∀ e' ∈ e :: es, e'.1 + x.esize ≤ e.1 / 16 * 16 + (e :: es).length * x.esize := fun e' he' => by
    have := hpart e' he'
    have := (h e' he').1
    omega
  constructor
  · rw [hspan]
    exact fun e' he' => ⟨hlo e' he', by have := hhi e' he'; omega⟩
  · rw [hspan]
    exact fun j h1 h2 => ascending_covers hasc hlo hhi h1 (by omega)

/-- The units at the head of a list. -/
def headUnit (x : Transfer) (todo : List (Nat × Nat)) : List (Nat × Nat) := todo.take (unitLen x todo)

theorem unitLen_le (x : Transfer) (e : Nat × Nat) (es : List (Nat × Nat)) : unitLen x (e :: es) ≤ es.length + 1 := by
  rw [unitLen]
  split
  · exact (List.takeWhile_prefix _).length_le
  · omega

theorem unitLen_pos (x : Transfer) (e : Nat × Nat) (es : List (Nat × Nat)) : 0 < unitLen x (e :: es) := by
  rw [unitLen]
  split
  · rw [List.takeWhile_cons, if_pos (by simp), List.length_cons]
    exact Nat.succ_pos _
  · exact Nat.one_pos

/-- The unit at the head of a list fills its span. -/
theorem fills_headUnit {x : Transfer} (hsize : 0 < x.esize) {e : Nat × Nat} {es : List (Nat × Nat)}
    (h : Aligned x (headUnit x (e :: es))) (hasc : Ascending x.esize (headUnit x (e :: es))) : Fills x (headUnit x (e :: es)) := by
  rw [headUnit, unitLen] at h hasc ⊢
  split at h
  · next hall =>
    have htake : (e :: es).take ((e :: es).takeWhile fun y => y.1 / 16 = e.1 / 16).length =
        (e :: es).takeWhile fun y => y.1 / 16 = e.1 / 16 := (List.prefix_iff_eq_take.mp (List.takeWhile_prefix _)).symm
    have hpart : ∀ e' ∈ (e :: es).takeWhile fun y => y.1 / 16 = e.1 / 16, e'.1 / 16 = e.1 / 16 := fun e' he' => by
      simpa using List.mem_takeWhile_imp he'
    simp only [Bool.and_eq_true, decide_eq_true_eq] at hall
    rw [if_pos (by simpa using hall), htake] at hasc ⊢
    rw [htake] at h
    rw [ascending_dedup hsize hasc] at hall
    rw [List.takeWhile_cons, if_pos (by simp)] at h hasc hpart hall ⊢
    exact fills_part hsize h hasc hpart hall.2
  · next hone =>
    rw [if_neg hone]
    exact fills_single h

/-! ### The bytes of a unit's destination (R285, R286) -/

/-- What an element adds has the element's size. -/
structure SizedFor (x : Transfer) : Prop where
  f32 : x.red = .addF32 → x.esize = 4
  bf16 : x.red = .addBf16 → x.esize = 2

theorem redCombine_eq (op : RedOp) (old new : List Byte) : redCombine op old new = reduced' op old new := by
  cases op <;> rfl

theorem length_reduced {x : Transfer} (h : SizedFor x) (old : List Byte) {new : List Byte} (hnew : new.length = x.esize) :
    (reduced' x.red old new).length = x.esize := by
  cases hred : x.red with
  | copy => exact hnew
  | addF32 => rw [h.f32 hred]; exact length_natToBytes _ _
  | addBf16 => rw [h.bf16 hred]; exact length_natToBytes _ _

/-- Bytes with others put in at an offset. -/
def splice (b : List Byte) (k : Nat) (new : List Byte) : List Byte := b.take k ++ new ++ b.drop (k + new.length)

theorem length_splice {b new : List Byte} {k : Nat} (h : k + new.length ≤ b.length) : (splice b k new).length = b.length := by
  simp [splice]
  omega

theorem getD_splice {b new : List Byte} {k : Nat} (h : k + new.length ≤ b.length) (j : Nat) :
    (splice b k new).getD j 0 = if k ≤ j ∧ j < k + new.length then new.getD (j - k) 0 else b.getD j 0 := by
  have htake : (b.take k).length = k := by simp; omega
  rw [splice]
  by_cases hlt : j < k
  · rw [if_neg (by omega), List.append_assoc, List.getD_append _ _ _ _ (by omega)]
    simp only [List.getD_eq_getElem?_getD, List.getElem?_take, if_pos hlt]
  · by_cases hin : j < k + new.length
    · rw [if_pos ⟨by omega, hin⟩, List.getD_append _ _ _ _ (by rw [List.length_append]; omega), List.getD_append_right _ _ _ _ (by omega),
        htake]
    · rw [if_neg (by omega), List.getD_append_right _ _ _ _ (by rw [List.length_append]; omega), List.length_append, htake]
      simp only [List.getD_eq_getElem?_getD, List.getElem?_drop]
      congr 2
      omega

/-- n bytes of a list from an offset. -/
def bytesAt (b : List Byte) (k n : Nat) : List Byte := (List.range n).map fun i => b.getD (k + i) 0

theorem bytesAt_eq {b : List Byte} {k n : Nat} (h : k + n ≤ b.length) : (b.drop k).take n = bytesAt b k n := by
  refine List.ext_getElem (by simp [bytesAt]; omega) fun i h1 h2 => ?_
  simp only [bytesAt, List.length_map, List.length_range] at h2
  simp only [List.getElem_take, List.getElem_drop, bytesAt, List.getElem_map, List.getElem_range]
  rw [List.getD_eq_getElem _ _ (show k + i < b.length by omega)]

theorem bytesAt_congr {b b' : List Byte} {k n : Nat} (h : ∀ i, i < n → b.getD (k + i) 0 = b'.getD (k + i) 0) :
    bytesAt b k n = bytesAt b' k n :=
  List.map_congr_left fun i hi => h i (List.mem_range.mp hi)

theorem bytesAt_splice {b new : List Byte} {k : Nat} (h : k + new.length ≤ b.length) : bytesAt (splice b k new) k new.length = new := by
  refine List.ext_getElem (by simp [bytesAt]) fun i h1 h2 => ?_
  simp only [bytesAt, List.getElem_map, List.getElem_range]
  rw [getD_splice h, if_pos ⟨by omega, by omega⟩, Nat.add_sub_cancel_left, List.getD_eq_getElem _ _ h2]

/-- An element of a unit with its source bytes. -/
abbrev Elem := Nat × List Byte × Bool

theorem combineUnit_cons {x : Transfer} (hs : SizedFor x) {a : Nat} {old : List Byte} {e : Elem} {es : List Elem}
    (hlen : e.2.1.length = x.esize) (hin : e.1 - a + x.esize ≤ old.length) :
    combineUnit x a old (e :: es) =
      combineUnit x a (splice old (e.1 - a) (reduced' x.red (bytesAt old (e.1 - a) x.esize) e.2.1)) es := by
  have hstep : old.take (e.1 - a) ++ redCombine x.red ((old.drop (e.1 - a)).take x.esize) e.2.1 ++ old.drop (e.1 - a + x.esize) =
      splice old (e.1 - a) (reduced' x.red (bytesAt old (e.1 - a) x.esize) e.2.1) := by
    rw [redCombine_eq, bytesAt_eq hin, splice, length_reduced hs _ hlen]
  exact congrArg (fun b => combineUnit x a b es) hstep

/-- Elements in order that do not meet, within old bytes at a. -/
structure Placed (x : Transfer) (a : Nat) (old : List Byte) (es : List Elem) : Prop where
  sized : ∀ e ∈ es, e.2.1.length = x.esize
  inside : ∀ e ∈ es, a ≤ e.1 ∧ e.1 - a + x.esize ≤ old.length
  apart : es.Pairwise fun e e' => e.1 + x.esize ≤ e'.1

section
variable {x : Transfer} (hs : SizedFor x) {a : Nat}
include hs

theorem length_combineUnit {old : List Byte} {es : List Elem} (h : Placed x a old es) : (combineUnit x a old es).length = old.length := by
  induction es generalizing old with
  | nil => rfl
  | cons e es ih =>
    obtain ⟨hsized, hsizeds⟩ := List.forall_mem_cons.mp h.sized
    obtain ⟨hin, hins⟩ := List.forall_mem_cons.mp h.inside
    have hlength := length_splice (b := old) (k := e.1 - a) (new := reduced' x.red (bytesAt old (e.1 - a) x.esize) e.2.1)
      (by rw [length_reduced hs _ hsized]; exact hin.2)
    rw [combineUnit_cons hs hsized hin.2, ih ⟨hsizeds, by rwa [hlength], (List.pairwise_cons.mp h.apart).2⟩, hlength]

/-- A byte of no element is as it was, and each element is what it makes of its old bytes. -/
theorem combineUnit_spec {old : List Byte} {es : List Elem} (h : Placed x a old es) :
    (∀ j, (∀ e ∈ es, j < e.1 - a ∨ e.1 - a + x.esize ≤ j) → (combineUnit x a old es).getD j 0 = old.getD j 0) ∧
    ∀ e ∈ es, bytesAt (combineUnit x a old es) (e.1 - a) x.esize = reduced' x.red (bytesAt old (e.1 - a) x.esize) e.2.1 := by
  induction es generalizing old with
  | nil => exact ⟨fun _ _ => rfl, fun _ he => absurd he List.not_mem_nil⟩
  | cons e es ih =>
    obtain ⟨hsized, hsizeds⟩ := List.forall_mem_cons.mp h.sized
    obtain ⟨hin, hins⟩ := List.forall_mem_cons.mp h.inside
    obtain ⟨happart, haparts⟩ := List.pairwise_cons.mp h.apart
    have hnew := length_reduced hs (bytesAt old (e.1 - a) x.esize) hsized
    have hfits : e.1 - a + (reduced' x.red (bytesAt old (e.1 - a) x.esize) e.2.1).length ≤ old.length := by rw [hnew]; exact hin.2
    have hlength := length_splice hfits
    obtain ⟨hkept, hmade⟩ := ih (old := splice old (e.1 - a) (reduced' x.red (bytesAt old (e.1 - a) x.esize) e.2.1))
      ⟨hsizeds, by rwa [hlength], haparts⟩
    rw [combineUnit_cons hs hsized hin.2]
    refine ⟨fun j hj => ?_, List.forall_mem_cons.mpr ⟨?_, fun e' he' => ?_⟩⟩
    · obtain ⟨hje, hjes⟩ := List.forall_mem_cons.mp hj
      rw [hkept j hjes, getD_splice hfits, if_neg (by rw [hnew]; omega)]
    · refine (bytesAt_congr fun i hi => hkept _ fun e' he' => ?_).trans ?_
      · have := happart e' he'
        have := (hins e' he').1
        omega
      · have hat := bytesAt_splice hfits
        rwa [hnew] at hat
    · rw [hmade e' he']
      refine congrArg (fun b => reduced' x.red b e'.2.1) (bytesAt_congr fun i hi => ?_)
      have := happart e' he'
      have := (hins e' he').1
      rw [getD_splice hfits, if_neg (by rw [hnew]; omega)]

end

/-! ### Source bytes out of a buffer (R220) -/

/-- A transfer x that has read only bytes that stand in its source buffer, in T. -/
def HasRead (x : Transfer) (T : Team) (t : Transfer) : Prop :=
  t = { x with fetched := t.fetched } ∧ ∀ f ∈ t.fetched, f.2.1 = bufByte T x.sspace f.1

/-- The source buffer of a transfer is as it is in T. -/
def SourceIs (S : State) (x : Transfer) (T : Team) : Prop := ∀ a, bufByte (teamOf S x.kc x.core) x.sspace a = bufByte T x.sspace a

theorem hasRead_nothing {x : Transfer} (h : x.fetched = []) (T : Team) : HasRead x T x := by
  rw [HasRead, h]
  refine ⟨?_, fun f hf => absurd hf List.not_mem_nil⟩
  rw [← h]

theorem getElem?_bufRead (T : Team) (sp : Space) (a n i : Nat) : (bufRead T sp a n)[i]? = if i < n then some (bufByte T sp (a + i)) else none := by
  rw [bufRead, addrsFrom, List.map_map, List.getElem?_map]
  by_cases hi : i < n
  · rw [if_pos hi, List.getElem?_range hi]
    rfl
  · rw [if_neg hi, List.getElem?_eq_none (by simpa using hi)]
    rfl

theorem length_bufRead (T : Team) (sp : Space) (a n : Nat) : (bufRead T sp a n).length = n := by simp [bufRead, addrsFrom]

theorem bufRead_congr {T T' : Team} {sp : Space} (h : ∀ a, bufByte T sp a = bufByte T' sp a) (a n : Nat) :
    bufRead T sp a n = bufRead T' sp a n := congrArg (fun f => (addrsFrom a n).map f) (funext h)

/-- A part of what is read. -/
theorem bufRead_part (T : Team) (sp : Space) {u n a m : Nat} (hlo : u ≤ a) (hhi : a + m ≤ u + n) :
    ((bufRead T sp u n).drop (a - u)).take m = bufRead T sp a m := by
  refine List.ext_getElem? fun i => ?_
  rw [List.getElem?_take, List.getElem?_drop, getElem?_bufRead, getElem?_bufRead]
  by_cases hi : i < m
  · rw [if_pos hi, if_pos hi, if_pos (by omega), show u + (a - u + i) = a + i by omega]
  · rw [if_neg hi, if_neg hi]

/-- Values looked up one after the other, each found to be what a function says. -/
theorem mapM_values {α β γ : Type} {f : α → Option β} {v : β → γ} {g : α → γ} (h : ∀ a b, f a = some b → v b = g a) {l : List α}
    {bs : List β} (hl : l.mapM f = some bs) : bs.map v = l.map g := by
  induction l generalizing bs with
  | nil =>
    obtain rfl : [] = bs := by simpa using hl
    rfl
  | cons a l ih =>
    rw [List.mapM_cons] at hl
    simp only [Option.bind_eq_bind, Option.bind_eq_some_iff, Option.pure_def, Option.some.injEq] at hl
    obtain ⟨b, hb, bs', hbs, rfl⟩ := hl
    rw [List.map_cons, List.map_cons, h a b hb, ih hbs]

section
variable {S : State} {x t : Transfer} {T : Team} (ht : HasRead x T t) (hS : SourceIs S x T) (hsp : x.sspace ≠ .global)
include ht

theorem fetchedBytes_source {a n : Nat} {r : List Byte × Bool} (h : fetchedBytes t a n = some r) : r.1 = bufRead T x.sspace a n := by
  obtain ⟨bs, hbs, rfl⟩ := Option.map_eq_some_iff.mp h
  refine mapM_values (fun i b hb => ?_) hbs
  obtain ⟨f, hf, rfl⟩ := Option.map_eq_some_iff.mp hb
  have hi := List.find?_some hf
  rw [ht.2 f (List.mem_of_find?_eq_some hf), of_decide_eq_true hi]

include hS hsp

/-- The source bytes of an element that lies in one 16-byte part. -/
theorem fetchElem_source {a : Nat} (ha : a % 16 + x.esize ≤ 16) : ∃ t' p, fetchElem S t a = (S, t', .ok (bufRead T x.sspace a x.esize, p)) ∧
    HasRead x T t' := by
  have hx := ht.1
  have hsize : t.esize = x.esize := (congrArg Transfer.esize hx :)
  rw [fetchElem, hsize]
  split
  · next r hr => exact ⟨t, r.2, by rw [← fetchedBytes_source ht hr], ht⟩
  · have hunit : (sourceUnit t a).1 ≤ a ∧ a + x.esize ≤ (sourceUnit t a).1 + (sourceUnit t a).2 := by
      rw [sourceUnit, hsize]
      split
      · simp only; omega
      · exact ⟨le_rfl, le_rfl⟩
    have hspace : t.sspace = x.sspace := (congrArg Transfer.sspace hx :)
    have hkc : t.kc = x.kc := (congrArg Transfer.kc hx :)
    have hcore : t.core = x.core := (congrArg Transfer.core hx :)
    have hread : readSource S t (sourceUnit t a) = (S, .ok (bufRead T x.sspace (sourceUnit t a).1 (sourceUnit t a).2,
        bufPoisoned (teamOf S x.kc x.core) x.sspace (sourceUnit t a).1 (sourceUnit t a).2)) := by
      rw [readSource, hspace, if_neg hsp, hkc, hcore, ← bufRead_congr hS]
    simp only [hread]
    refine ⟨_, _, by rw [bufRead_part T x.sspace hunit.1 hunit.2], by rw [hx], ?_⟩
    intro f hf
    rcases List.mem_append.mp hf with hf | hf
    · exact ht.2 f hf
    · obtain ⟨⟨b, i⟩, hb, rfl⟩ := List.mem_map.mp hf
      have hi := List.mem_zipIdx_iff_getElem?.mp hb
      rw [getElem?_bufRead] at hi
      exact (Option.ite_some_none_eq_some.mp hi).2.symm

/-- The source bytes of the elements of a unit. -/
theorem fetchUnit_source {unit : List (Nat × Nat)} (ha : ∀ e ∈ unit, e.2 % 16 + x.esize ≤ 16) : ∃ t' es,
    fetchUnit S t unit = (S, t', .ok es) ∧ HasRead x T t' ∧
      es.map (fun e => (e.1, e.2.1)) = unit.map fun e => (e.1, bufRead T x.sspace e.2 x.esize) := by
  induction unit generalizing t with
  | nil => exact ⟨t, [], rfl, ht, rfl⟩
  | cons e unit ih =>
    obtain ⟨hae, haes⟩ := List.forall_mem_cons.mp ha
    obtain ⟨t1, p, helem, ht1⟩ := fetchElem_source ht hS hsp hae
    obtain ⟨t2, es, hunit, ht2, hes⟩ := ih ht1 haes
    refine ⟨t2, (e.1, bufRead T x.sspace e.2 x.esize, p) :: es, ?_, ht2, ?_⟩
    · simp only [fetchUnit, helem, hunit]
    · rw [List.map_cons, List.map_cons, hes]

end

/-! ### A unit lands in a buffer (R196, R411) -/

/-- What landing elements of a transfer leave of the team whose buffer they land in. -/
structure Lands (x : Transfer) (first : List (Nat × Nat)) (T D D' : Team) : Prop where
  landed : Claims.Landed x first T D D'
  rest : { D' with w := D.w, a := D.a, c := D.c, poison := D.poison } = D

theorem lands_nothing (x : Transfer) (T D : Team) : Lands x [] T D D :=
  ⟨⟨fun _ he => absurd he List.not_mem_nil, fun _ _ => rfl, fun _ => rfl, fun _ => rfl, fun _ => rfl⟩, rfl⟩

/-- Elements that land after others, above them. -/
theorem lands_append {x : Transfer} {l l' : List (Nat × Nat)} {T D D' D'' : Team} (h : Lands x l T D D') (h' : Lands x l' T D' D'')
    (hasc : Ascending x.esize (l ++ l')) : Lands x (l ++ l') T D D'' := by
  obtain ⟨⟨hmade, hkept, hw, ha, hc⟩, hrest⟩ := h
  obtain ⟨⟨hmade', hkept', hw', ha', hc'⟩, hrest'⟩ := h'
  obtain ⟨-, -, hcross⟩ := List.pairwise_append.mp hasc
  refine ⟨⟨fun e he => ?_, fun b hb => ?_, fun h => (hw' h).trans (hw h), fun h => (ha' h).trans (ha h), fun h => (hc' h).trans (hc h)⟩,
    (congrArg (fun q : Team => { q with w := D.w, a := D.a, c := D.c, poison := D.poison }) hrest').trans hrest⟩
  · rcases List.mem_append.mp he with he | he
    · rw [← hmade e he]
      refine List.map_congr_left fun i hi => hkept' _ fun e' he' => ?_
      have := hcross e he e' he'
      have := List.mem_range.mp hi
      omega
    · rw [hmade' e he]
      refine congrArg (fun b => reduced' x.red b _) (List.map_congr_left fun i hi => hkept _ fun e' he' => ?_)
      have := hcross e' he' e he
      omega
  · rw [hkept' b fun e he => hb e (List.mem_append_right _ he), hkept b fun e he => hb e (List.mem_append_left _ he)]

theorem bufPut_rest (D : Team) (sp : Space) (a : Nat) (bs : List Byte) :
    { bufPut D sp a bs with w := D.w, a := D.a, c := D.c, poison := D.poison } = D := by cases sp <;> rfl

theorem plainByte_bufPut {x : Transfer} (hsp : x.dspace ≠ .global) (D : Team) (a : Nat) (bs : List Byte) (j : Nat) :
    plainByte x (bufPut D x.dspace a bs) j = if a ≤ j ∧ j < a + bs.length then bs.getD (j - a) 0 else plainByte x D j := by
  simp only [plainByte]
  cases hx : x.dspace with
  | global => exact absurd hx hsp
  | bufW => exact amGet_putBytes D.w a bs j
  | bufA => exact amGet_putBytes D.a a bs j
  | bufC => exact amGet_putBytes D.c a bs j

theorem bufPut_others (D : Team) (sp : Space) (a : Nat) (bs : List Byte) : (sp ≠ .bufW → (bufPut D sp a bs).w = D.w) ∧
    (sp ≠ .bufA → (bufPut D sp a bs).a = D.a) ∧ (sp ≠ .bufC → (bufPut D sp a bs).c = D.c) := by
  cases sp <;> simp [bufPut]

/-- Outside the regions a buffer's bytes are plain. -/
theorem bufByte_plain {x : Transfer} (hsp : x.dspace ≠ .global) {D : Team} {a n i : Nat} (hi : i < n)
    (h : x.dspace = .bufA → inRegion D a n = false) : bufByte D x.dspace (a + i) = plainByte x D (a + i) := by
  simp only [plainByte, bufByte]
  cases hx : x.dspace with
  | global => exact absurd hx hsp
  | bufW => rfl
  | bufC => rfl
  | bufA =>
    have hout := h hx
    have hnone : regionAt D (a + i) 1 = none := by
      rw [inRegion, regionAt, Option.isSome_eq_false_iff, Option.isNone_iff_eq_none, List.find?_eq_none] at hout
      rw [regionAt, List.find?_eq_none]
      intro r hr hmeet
      refine hout r hr ?_
      simp only [rangesMeet, Bool.and_eq_true, decide_eq_true_eq] at hmeet ⊢
      omega
    simp only [hnone]

/-- What a unit of n bytes at a leaves of the team whose buffer it lands in. -/
def unitPut (x : Transfer) (a n : Nat) (es : List Elem) (D : Team) : Team :=
  let bad := (es.any fun e => e.2.2) || (x.red ≠ .copy && bufPoisoned D x.dspace a n)
  let put := bufPut D x.dspace a (combineUnit x a (bufRead D x.dspace a n) es)
  if bad then { put with poison := dedup (put.poison ++ (partsOf a n).map fun q => (bufNo x.dspace, q)) } else put

/-- The marks of a put do not bear on its bytes. -/
theorem lands_unitPut {x : Transfer} {a n : Nat} {es : List Elem} {T D : Team} {unit : List (Nat × Nat)}
    (h : Lands x unit T D (bufPut D x.dspace a (combineUnit x a (bufRead D x.dspace a n) es))) :
    Lands x unit T D (unitPut x a n es D) := by
  rw [unitPut]
  split
  · exact ⟨h.landed, h.rest⟩
  · exact h

/-- The elements of a unit with their source bytes, placed in its span. -/
theorem placed_unit {x : Transfer} {T : Team} {unit : List (Nat × Nat)} {es : List Elem} (hfills : Fills x unit)
    (hasc : Ascending x.esize unit) (hes : es.map (fun e => (e.1, e.2.1)) = unit.map fun e => (e.1, bufRead T x.sspace e.2 x.esize))
    {old : List Byte} (hold : old.length = (unitSpan x unit).2) : Placed x (unitSpan x unit).1 old es := by
  have hmem : ∀ e ∈ es, ∃ u ∈ unit, e.1 = u.1 ∧ e.2.1 = bufRead T x.sspace u.2 x.esize := fun e he => by
    have hin : (e.1, e.2.1) ∈ es.map fun e => (e.1, e.2.1) := List.mem_map.mpr ⟨e, he, rfl⟩
    rw [hes] at hin
    obtain ⟨u, hu, heq⟩ := List.mem_map.mp hin
    exact ⟨u, hu, (Prod.ext_iff.mp heq).1.symm, (Prod.ext_iff.mp heq).2.symm⟩
  have hfirst : es.map (fun e => e.1) = unit.map fun e => e.1 := by
    have hmaps := congrArg (List.map Prod.fst) hes
    rw [List.map_map, List.map_map] at hmaps
    exact hmaps
  refine ⟨fun e he => ?_, fun e he => ?_, ?_⟩
  · obtain ⟨u, -, -, hbytes⟩ := hmem e he
    rw [hbytes, length_bufRead]
  · obtain ⟨u, hu, haddr, -⟩ := hmem e he
    obtain ⟨hlo, hhi⟩ := hfills.inside u hu
    rw [haddr, hold]
    exact ⟨hlo, by omega⟩
  · have hpair : (unit.map fun e => e.1).Pairwise fun p q => p + x.esize ≤ q := List.pairwise_map.mpr hasc
    rw [← hfirst] at hpair
    exact List.pairwise_map.mp hpair

section
variable {x : Transfer} (hs : SizedFor x) {T D : Team} {unit : List (Nat × Nat)} {es : List Elem} (hfills : Fills x unit)
  (hasc : Ascending x.esize unit) (hes : es.map (fun e => (e.1, e.2.1)) = unit.map fun e => (e.1, bufRead T x.sspace e.2 x.esize))
include hs hfills hasc hes

/-- The bytes that a unit leaves at an element, and how they came about. -/
theorem combineUnit_elem {old : List Byte} (hold : old.length = (unitSpan x unit).2) {e : Nat × Nat} (he : e ∈ unit) :
    bytesAt (combineUnit x (unitSpan x unit).1 old es) (e.1 - (unitSpan x unit).1) x.esize =
      reduced' x.red (bytesAt old (e.1 - (unitSpan x unit).1) x.esize) (bufRead T x.sspace e.2 x.esize) := by
  have hin : (e.1, bufRead T x.sspace e.2 x.esize) ∈ unit.map fun e => (e.1, bufRead T x.sspace e.2 x.esize) := List.mem_map.mpr ⟨e, he, rfl⟩
  rw [← hes] at hin
  obtain ⟨e', he', heq⟩ := List.mem_map.mp hin
  obtain ⟨haddr, hbytes⟩ := Prod.ext_iff.mp heq
  have hmade := (combineUnit_spec hs (placed_unit hfills hasc hes hold)).2 e' he'
  simp only at haddr hbytes
  rwa [haddr, hbytes] at hmade

/-- A unit lands. -/
theorem unitPut_lands (hsp : x.dspace ≠ .global) (hregion : ∀ e ∈ unit, x.dspace = .bufA → inRegion D e.1 x.esize = false) :
    Lands x unit T D (unitPut x (unitSpan x unit).1 (unitSpan x unit).2 es D) := by
  have hold := length_bufRead D x.dspace (unitSpan x unit).1 (unitSpan x unit).2
  have hlength := (length_combineUnit hs (placed_unit hfills hasc hes hold)).trans hold
  obtain ⟨hw, ha, hc⟩ := bufPut_others D x.dspace (unitSpan x unit).1
    (combineUnit x (unitSpan x unit).1 (bufRead D x.dspace (unitSpan x unit).1 (unitSpan x unit).2) es)
  refine lands_unitPut ⟨⟨fun e he => ?_, fun b hb => ?_, hw, ha, hc⟩, bufPut_rest _ _ _ _⟩
  · obtain ⟨hlo, hhi⟩ := hfills.inside e he
    have hmade := combineUnit_elem hs hfills hasc hes hold he
    refine Eq.trans (List.map_congr_left fun i hi => ?_) (hmade.trans ?_)
    · have hi := List.mem_range.mp hi
      rw [plainByte_bufPut hsp, hlength, if_pos (by omega), show e.1 + i - (unitSpan x unit).1 = e.1 - (unitSpan x unit).1 + i by omega]
    · refine congrArg (fun b => reduced' x.red b _) (List.map_congr_left fun i hi => ?_)
      have hi := List.mem_range.mp hi
      rw [List.getD_eq_getElem?_getD, getElem?_bufRead, if_pos (by omega), Option.getD_some,
        show (unitSpan x unit).1 + (e.1 - (unitSpan x unit).1 + i) = e.1 + i by omega, bufByte_plain hsp hi (hregion e he)]
  · rw [plainByte_bufPut hsp, hlength, if_neg]
    rintro ⟨hlo, hhi⟩
    obtain ⟨e, he, hcov⟩ := hfills.covers b hlo hhi
    have := hb e he
    omega

end

theorem keepsCore_unitPut (x : Transfer) (a n : Nat) (es : List Elem) : KeepsCore (unitPut x a n es) := by
  intro D
  have hput : (bufPut D x.dspace a (combineUnit x a (bufRead D x.dspace a n) es)).kc = D.kc ∧
      (bufPut D x.dspace a (combineUnit x a (bufRead D x.dspace a n) es)).core = D.core := by cases x.dspace <;> exact ⟨rfl, rfl⟩
  rw [unitPut]
  split <;> exact hput

/-- A bulk transfer between buffers, to the team of a core that it does not read from. -/
structure BetweenBuffers (x : Transfer) (core : Nat) : Prop where
  bulk : x.chan ≠ none
  size : 0 < x.esize
  sized : SizedFor x
  source : x.sspace ≠ .global
  dest : x.dspace ≠ .global
  apart : x.sspace ≠ x.dspace ∨ x.core ≠ core

theorem chan_isSome {x : Transfer} (h : x.chan ≠ none) : x.chan.isSome = true := Option.isSome_iff_ne_none.mpr h

section
variable {x : Transfer} {core : Nat} (h : BetweenBuffers x core) {s S : State} {t : Transfer} {T D : Team}
  (hD : TeamBecomes s S x.kc core D) (hS : SourceIs S x T)
include h hD hS

/-- The source buffer of a transfer is not where its elements land. -/
theorem sourceIs_lands {unit : List (Nat × Nat)} {f : Team → Team} (hf : KeepsCore f) (hlands : Lands x unit T D (f D)) :
    SourceIs (updTeam S x.kc core f) x T := by
  intro a
  rw [← hS a]
  have hbecomes := hD.updTeam hf
  by_cases hcore : x.core = core
  · have hsp := h.apart.resolve_right (not_not_intro hcore)
    obtain ⟨⟨-, -, hw, ha, hc⟩, hrest⟩ := hlands
    have hregions : (f D).regions = D.regions := (congrArg Team.regions hrest :)
    rw [hcore, hbecomes.teamOf_eq, hD.teamOf_eq]
    cases hx : x.sspace with
    | global => exact absurd hx h.source
    | bufW => simp only [bufByte, hw (by rw [← hx]; exact hsp.symm)]
    | bufA => simp only [bufByte, regionAt, hregions, ha (by rw [← hx]; exact hsp.symm)]
    | bufC => simp only [bufByte, hc (by rw [← hx]; exact hsp.symm)]
  · have hne : ¬(x.kc = x.kc ∧ x.core = core) := fun hboth => hcore hboth.2
    rw [hbecomes.others _ _ hne, hD.others _ _ hne]

variable (ht : HasRead x T t)
include ht

/-- One unit of a transfer between buffers lands whole. -/
theorem landUnit_lands {unit : List (Nat × Nat)} (hfills : Fills x unit) (halign : Aligned x unit) (hasc : Ascending x.esize unit)
    (hregion : ∀ e ∈ unit, x.dspace = .bufA → inRegion D e.1 x.esize = false) : ∃ S' t' D', landUnit S t core unit = (S', t', none) ∧
      TeamBecomes s S' x.kc core D' ∧ SourceIs S' x T ∧ HasRead x T t' ∧ Lands x unit T D D' := by
  obtain ⟨t', es, hfetch, ht', hes⟩ := fetchUnit_source ht hS h.source fun e he => (halign e he).2
  have hlands := unitPut_lands h.sized hfills hasc hes h.dest hregion
  have hkeep := keepsCore_unitPut x (unitSpan x unit).1 (unitSpan x unit).2 es
  refine ⟨_, t', _, ?_, hD.updTeam hkeep, sourceIs_lands h hD hS hkeep hlands, ht', hlands⟩
  have hspan : unitSpan t unit = unitSpan x unit := by rw [ht.1]; rfl
  have hdest : t'.dspace = x.dspace := by rw [ht'.1]
  have hkc : t'.kc = x.kc := by rw [ht'.1]
  have hred : t'.red = x.red := by rw [ht'.1]
  have hcombine : ∀ b, combineUnit t' (unitSpan x unit).1 b es = combineUnit x (unitSpan x unit).1 b es := fun b => by rw [ht'.1]; rfl
  have hside : bufSide t' x.dspace (unitSpan x unit).1 = (x.dspace, (unitSpan x unit).1) := by
    have hchan : t'.chan = x.chan := by rw [ht'.1]
    rw [bufSide, hchan, if_neg (by simp [h.bulk])]
  simp only [landUnit, hfetch, hspan, hdest, if_neg h.dest, hside, hkc, hred, hcombine]
  rfl

end

/-! ### The units of a leg land one after the other (R283) -/

theorem unitsLen_cons (x : Transfer) (n : Nat) (e : Nat × Nat) (es : List (Nat × Nat)) : unitsLen x (n + 1) (e :: es) =
    unitLen x (e :: es) + unitsLen x n ((e :: es).drop (unitLen x (e :: es))) := by
  rw [unitsLen, Nat.min_eq_left (unitLen_le x e es)]

theorem take_unitsLen (x : Transfer) (n : Nat) (e : Nat × Nat) (es : List (Nat × Nat)) :
    (e :: es).take (unitsLen x (n + 1) (e :: es)) = headUnit x (e :: es) ++
      ((e :: es).drop (unitLen x (e :: es))).take (unitsLen x n ((e :: es).drop (unitLen x (e :: es)))) := by
  rw [unitsLen_cons, List.take_add, headUnit]

theorem headUnit_cons (x : Transfer) (e : Nat × Nat) (es : List (Nat × Nat)) :
    headUnit x (e :: es) = e :: es.take (unitLen x (e :: es) - 1) := by
  obtain ⟨k, hk⟩ := Nat.exists_eq_add_of_lt (unitLen_pos x e es)
  rw [Nat.zero_add] at hk
  rw [headUnit, hk, List.take_succ_cons, Nat.add_sub_cancel]

/-- A unit that lands, and then the rest. -/
theorem landUnits_cons {x t t' : Transfer} {T : Team} (ht : HasRead x T t) (ht' : HasRead x T t') (hbulk : x.chan ≠ none) {S S' : State}
    {core n : Nat} {e : Nat × Nat} {es : List (Nat × Nat)} (hland : landUnit S t core (headUnit x (e :: es)) = (S', t', none)) :
    landUnits S t core (n + 1) (e :: es) = { landUnits S' t' core n ((e :: es).drop (unitLen x (e :: es))) with
      count := (landUnits S' t' core n ((e :: es).drop (unitLen x (e :: es)))).count + (headUnit x (e :: es)).length } := by
  have hlen : unitLen t (e :: es) = unitLen x (e :: es) := by rw [ht.1]; rfl
  have htake : (e :: es).take (unitLen x (e :: es)) = e :: es.take (unitLen x (e :: es) - 1) := headUnit_cons x e es
  have hchan : t'.chan = x.chan := by rw [ht'.1]
  have hmark : ∀ left va, endCopyMark S' t' left va = S' := fun left va => by
    rw [endCopyMark, hchan, if_pos (chan_isSome hbulk)]
  rw [headUnit_cons] at hland ⊢
  simp only [landUnits, hlen, htake, hland, hmark]

/-- The next units of a leg land, and their source is as it was. -/
theorem landUnits_lands {x : Transfer} {core : Nat} (h : BetweenBuffers x core) {s S : State} {t : Transfer} {T D : Team} {n : Nat}
    {todo : List (Nat × Nat)} (hD : TeamBecomes s S x.kc core D) (hS : SourceIs S x T) (ht : HasRead x T t)
    (halign : Aligned x (todo.take (unitsLen x n todo))) (hasc : Ascending x.esize (todo.take (unitsLen x n todo)))
    (hregion : ∀ e ∈ todo.take (unitsLen x n todo), x.dspace = .bufA → inRegion D e.1 x.esize = false) :
    ∃ D', TeamBecomes s (landUnits S t core n todo).s x.kc core D' ∧ HasRead x T (landUnits S t core n todo).t ∧
      (landUnits S t core n todo).left = todo.drop (unitsLen x n todo) ∧
      (landUnits S t core n todo).count = (todo.take (unitsLen x n todo)).length ∧ (landUnits S t core n todo).miss = none ∧
      Lands x (todo.take (unitsLen x n todo)) T D D' := by
  induction n generalizing S t D todo with
  | zero => exact ⟨D, hD, ht, rfl, rfl, rfl, lands_nothing x T D⟩
  | succ n ih =>
    cases todo with
    | nil =>
      have hnil : landUnits S t core (n + 1) [] = { s := S, t := t, left := [] } := by simp only [landUnits, List.take_nil]
      rw [hnil]
      exact ⟨D, hD, ht, rfl, rfl, rfl, lands_nothing x T D⟩
    | cons e es =>
      rw [take_unitsLen] at halign hasc hregion ⊢
      obtain ⟨hasc1, hasc2, -⟩ := List.pairwise_append.mp hasc
      have halign1 : Aligned x (headUnit x (e :: es)) := fun u hu => halign u (List.mem_append_left _ hu)
      obtain ⟨S1, t1, D1, hland, hD1, hS1, ht1, hlands1⟩ := landUnit_lands h hD hS ht (fills_headUnit h.size halign1 hasc1) halign1 hasc1
        fun u hu => hregion u (List.mem_append_left _ hu)
      have hregions : D1.regions = D.regions := (congrArg Team.regions hlands1.rest :)
      obtain ⟨D', hD', ht', hleft, hcount, hmiss, hlands⟩ := ih hD1 hS1 ht1 (fun u hu => halign u (List.mem_append_right _ hu)) hasc2
        fun u hu hA => by
          rw [inRegion, regionAt, hregions]
          exact hregion u (List.mem_append_right _ hu) hA
      rw [landUnits_cons ht ht1 h.bulk hland]
      refine ⟨D', hD', ht', ?_, ?_, hmiss, lands_append hlands1 hlands hasc⟩
      · rw [unitsLen_cons, ← List.drop_drop]
        exact hleft
      · rw [List.length_append, ← hcount]
        exact Nat.add_comm _ _

/-- Some element lands where any is left and any byte may. -/
theorem unitsLen_pos {x : Transfer} {n : Nat} (hn : 0 < n) {todo : List (Nat × Nat)} (h : todo ≠ []) :
    todo.take (unitsLen x ((n + 15) / 16) todo) ≠ [] := by
  obtain ⟨k, hk⟩ := Nat.exists_eq_add_of_lt (show 0 < (n + 15) / 16 by omega)
  rw [Nat.zero_add] at hk
  cases todo with
  | nil => exact absurd rfl h
  | cons e es =>
    rw [hk, take_unitsLen, headUnit_cons]
    exact List.cons_ne_nil _ _

end Sys2Proof.Proofs.Landing
end

section
/-! The family "Sprue, Barrier and Ladle Instructions": bulk kicks made when their wait ends (R212, R279, R287). -/

namespace Sys2Proof.Proofs.HeldKicks

open Sys2Proof Sys2Proof.Machine Sys2Proof.Claims Sys2Proof.Proofs.StateRules Sys2Proof.Proofs.Stops Sys2Proof.Proofs.Boundaries
  Sys2Proof.Proofs.Departures Sys2Proof.Proofs.Accesses Sys2Proof.Proofs.BarrierRules Sys2Proof.Proofs.Barriers Sys2Proof.Proofs.Landing

/-! ### An instruction that writes no register retires, whenever it does (R88, R169) -/

/-- A group that the state holds, out of run-ahead and with nothing in flight, has issued c, at some time. -/
structure Idle (s : State) (c : Issue) (g : Group) : Prop where
  who : c.who = .group g.kc g.core g.idx
  here : s.groups.find? (fun x => x.kc = g.kc ∧ x.core = g.core ∧ x.idx = g.idx) = some g
  normal : g.runAhead = none
  landed : g.flights = []

section
variable {s U : State} {c : Issue} {g : Group} (h : Idle s c g)
include h

theorem memberGroup_of_idle : memberGroup s c.who = g := by
  rw [h.who]
  exact groupOf_here h.here

theorem outside_of_landed (k : State → State) : outside s c k = k s := by
  have hgroup := memberGroup_of_idle h
  have hwho := h.who
  generalize hw : c.who = w at hwho hgroup
  subst hwho
  simp [outside, hw, hgroup, h.normal, hasWaiting, h.landed, flightWrites]

variable (hU : U.groups = s.groups) {f : Group → Group} (hk : KeepsKey f)
include hU hk

theorem memberGroup_retireLanes : memberGroup (retireLanes U c f) c.who = retiredGroup g c [⟨nextPc c, c.prio, c.mask, none⟩] f := by
  rw [retireLanes, retireTo_eq, memberGroup_of_groups (endIssue_groups _ c), h.who]
  exact groupOf_updGroup_same (keepsKey_retired c _ hk) (by rw [hU]; exact h.here)

/-- No register of a group changes by its retirement when none was written. -/
theorem laneRegs_retireLanes (hf : { f g with flights := g.flights, poison := g.poison } = g) :
    LaneRegs s (retireLanes U c f) c (Effect.none c) := by
  have hgroup := memberGroup_retireLanes h hU hk
  have hregs : (f g).regs = g.regs := (congrArg Group.regs hf :)
  have hkept := retired_regs g c [⟨nextPc c, c.prio, c.mask, none⟩] f
  rw [hregs] at hkept
  refine ⟨fun lane r _ => ?_, fun lane k => ?_, fun r => ?_, fun lane => ?_, ?_, fun lane hl => ?_, fun lane hl pc prio w => ?_, ?_,
    fun kc core idx hne => ?_⟩
  · rw [hgroup, memberGroup_of_idle h]
    exact (congrArg (fun q : GroupRegs => vGet q lane r) hkept :)
  · rw [hgroup, memberGroup_of_idle h]
    exact (congrArg (fun q : GroupRegs => lanePred q lane k) hkept :)
  · rw [hgroup, memberGroup_of_idle h]
    exact (congrArg (fun q : GroupRegs => gGet q r) hkept :)
  · rw [hgroup, memberGroup_of_idle h]
    exact (congrArg (fun q : GroupRegs => amGet 0 q.lstat lane) hkept :).trans BitVec.or_zero.symm
  · rw [hgroup, memberGroup_of_idle h]
    exact ⟨(congrArg GroupRegs.ct hkept :), (congrArg GroupRegs.snapTime hkept :), (congrArg GroupRegs.snapLclk hkept :),
      (congrArg GroupRegs.snapEctx hkept :)⟩
  · rw [hgroup, LaneAt, retired_frontier]
    exact covers_move (covers_next c hl)
  · rw [hgroup, memberGroup_of_idle h, LaneAt, retired_frontier]
    refine (holds_move hl (fun en hen => inside_next c _ en hen lane hl) pc prio w).trans ?_
    rw [countIssue_regs, hregs]
    rfl
  · rw [hgroup, memberGroup_of_idle h]
    exact retired_rest h.normal (congrArg (fun x : Group => { x with regs := g.regs }) hf :)
  · rw [retireLanes, retireTo_eq, groupOf_of_groups (endIssue_groups _ c), ← groupOf_of_groups hU]
    rw [h.who] at hne ⊢
    exact groupOf_updGroup_other (keepsKey_retired c _ hk) (by rintro ⟨rfl, rfl, rfl⟩; exact hne rfl)

end

/-- An instruction without results lands at once, or flies with nothing to write. -/
theorem landsOrFlies_retireNone {s U : State} {c : Issue} {g : Group} (h : Idle s c g) (hU : U.groups = s.groups) (la : Nat) :
    LandsOrFlies s (retireWrites U c la [] [] []) c la fun _ _ => none := by
  have hk := keepsKey_writes c la [] [] []
  have hlands := laneRegs_retireLanes h hU hk (by rw [writeGroup]; split <;> rfl)
  refine ⟨fun _ => hlands, fun hla => ⟨hlands, ?_⟩⟩
  have hflies : (writeGroup c la [] [] [] g).flights = [newFlight g c la [] [] [] [] none] := by
    simp [writeGroup, hla, h.normal, h.landed]
  obtain ⟨f, hf, hsame⟩ := flights_retiredGroup g c [⟨nextPc c, c.prio, c.mask, none⟩] hflies
  refine ⟨f, ?_, congrArg Flight.issue hsame, congrArg Flight.ask hsame, congrArg Flight.gwrites hsame, congrArg Flight.flags hsame,
    fun l r v => ?_⟩
  · have hone : (memberGroup (retireWrites U c la [] [] []) c.who).flights = [f] :=
      (congrArg Group.flights (memberGroup_retireLanes h hU hk)).trans hf
    rw [hone]
    exact List.mem_singleton_self f
  · have hnone : f.writes = [] := congrArg Flight.writes hsame
    simp [hnone]

/-! ### The rows of R284 that a kick passes -/

section
variable {s : State} {c : Issue} {g : Group} {fn : Nat} {o : OpsBulk} {T : Team} {l : Nat} {ls : List Nat} {sized : Bool}
  (h : KickReady s c g fn o T l ls sized)
include h

theorem idle_of_kickReady : Idle s c g := ⟨h.who, h.here, h.normal, h.landed⟩

theorem teamOf_of_kickReady : teamOf s g.kc g.core = T := by
  have hteam : s.teams.find? (fun t => t.kc = g.kc ∧ t.core = g.core) = some T := h.team
  rw [teamOf, hteam, Option.getD_some]

end

/-- The block that a kick's lowest lane names. -/
def kickBlock (g : Group) (o : OpsBulk) (T : Team) (l : Nat) : Block := parseBlock (bufRead T .bufA (vGet g.regs l o.a.toNat).toNat 64)

/-- The cores of a kick. -/
def kickCores (g : Group) (fn : Nat) (o : OpsBulk) (T : Team) (l : Nat) : List Nat := blockCores g.core fn (kickBlock g o T l)

/-- The transfer of a kick, not yet numbered. -/
def kickTransfer (s : State) (c : Issue) (g : Group) (fn : Nat) (o : OpsBulk) (T : Team) (l : Nat) (ls : List Nat) : Transfer :=
  bulkTransfer s c fn o.slot.toNat (maskOf (l :: ls)) (vGet g.regs l o.a.toNat).toNat (kickBlock g o T l) (kickCores g fn o T l)

theorem kickCause_allowed {s : State} {kc slot n : Nat} {cores : List Nat} (h : ∀ i ∈ cores, (barOf (teamOf s kc i) slot).e ≠ 0 ∧
    (barOf (teamOf s kc i) slot).f = false ∧ (barOf (teamOf s kc i) slot).eb.toNat + n < 2 ^ 32) : kickCause s kc slot n cores = none := by
  have hcount : (cores.any fun i => (barOf (teamOf s kc i) slot).e = 0 || (barOf (teamOf s kc i) slot).f) = false := by
    rw [List.any_eq_false]
    intro i hi
    obtain ⟨hunarmed, hclear, -⟩ := h i hi
    simpa [hclear] using hunarmed
  have hfits : (cores.any fun i => decide (2 ^ 32 ≤ (barOf (teamOf s kc i) slot).eb.toNat + n)) = false := by
    rw [List.any_eq_false]
    intro i hi
    have := (h i hi).2.2
    simp only [decide_eq_true_eq]
    omega
  simp only [kickCause, hcount, hfits, Bool.false_eq_true, if_false]

theorem lockEntries_le_two (x : Transfer) : lockEntries x ≤ 2 := by
  rw [lockEntries]
  split <;> split <;> omega

/-- The free-mask bits of the slot are cleared at the cores of a multicast. -/
def clearFree (kc fn slot : Nat) (cores : List Nat) (s : State) : State :=
  if fn = 1 then cores.foldl (fun s i => updTeam s kc i fun t => { t with free := t.free &&& ~~~BitVec.ofNat 16 (2 ^ slot) }) s else s

/-- A kick that every row allows and that waits for nothing is made. -/
theorem runBulk_ready {s : State} {c : Issue} {g : Group} {fn : BitVec 2} {o : OpsBulk} {T : Team} {l : Nat} {ls : List Nat}
    (h : KickReady s c g fn.toNat o T l ls true) : runBulk s c fn o =
      retireWrites (setSlotChannel (startKick (clearFree g.kc fn.toNat o.slot.toNat (kickCores g fn.toNat o T l) s)
        (kickTransfer s c g fn.toNat o T l ls) (kickBlock g o T l).count (kickCores g fn.toNat o T l)) c o.slot.toNat
        (kickBlock g o T l).chan) c o.la.toNat [] [] [] := by
  obtain ⟨haligned, hsize, hregion, hlocked, hclean⟩ := h.area
  obtain ⟨hdenied, hmisaligned, hsized, hcores, hbars⟩ := h.allowed
  have hblock : parseBlock (bufRead T .bufA (vGet g.regs l o.a.toNat).toNat 64) = kickBlock g o T l := rfl
  have hnames : blockCores g.core fn.toNat (kickBlock g o T l) = kickCores g fn.toNat o T l := rfl
  rw [hblock] at hdenied hmisaligned hsized hcores hbars
  rw [hnames] at hcores hbars
  have hidle := idle_of_kickReady h
  have hteam : memberTeam s c.who = T := by rw [h.who]; exact teamOf_of_kickReady h
  have hkc : memberKc c.who = g.kc := by rw [h.who]; rfl
  have hcore : memberCore c.who = g.core := by rw [h.who]; rfl
  have hsome : (kickCores g fn.toNat o T l).isEmpty = false := List.isEmpty_eq_false_iff.mpr hcores
  have hcause : kickCause s g.kc o.slot.toNat (kickBlock g o T l).count (kickCores g fn.toNat o T l) = none :=
    kickCause_allowed fun i hi => ⟨(hbars i hi).1, (hbars i hi).2.1, (hbars i hi).2.2.1⟩
  have hroom (x : Transfer) : decide (32 < locksUsed s g.kc g.core + lockEntries x) = false := by
    have := h.room rfl
    have := lockEntries_le_two x
    exact decide_eq_false (by omega)
  have hfree : (decide (fn.toNat = 1) && (kickCores g fn.toNat o T l).any fun i => !(teamOf s g.kc i).free.getLsbD o.slot.toNat) = false := by
    rw [Bool.and_eq_false_iff, List.any_eq_false]
    refine (Decidable.em (fn.toNat = 1)).symm.imp decide_eq_false fun hmcast i hi => ?_
    simp [(hbars i hi).2.2.2 hmcast]
  rw [runBulk, outside_of_landed hidle]
  simp only [memberGroup_of_idle hidle, h.acts, h.clean, hteam, hkc, hcore, readV_of_idle h.landed, haligned, not_lt.mpr hsize, hregion,
    hlocked, hclean, hblock, hdenied, hmisaligned, hnames, hsome, hcause, hroom, hfree, ne_eq, not_true_eq_false, decide_false,
    Bool.or_self, Bool.and_false, Bool.false_eq_true, if_false]
  rfl

/-! ### Teams change one by one -/

/-- From s to S only teams change, each by what F makes of it. -/
structure EachTeam (s S : State) (F : Nat → Nat → Team → Team) : Prop where
  rest : { S with teams := s.teams } = s
  found : ∀ kc core, S.teams.find? (fun t => t.kc = kc ∧ t.core = core) =
    (s.teams.find? fun t => t.kc = kc ∧ t.core = core).map (F kc core)

theorem EachTeam.trans {s S U : State} {F G : Nat → Nat → Team → Team} (h : EachTeam s S F) (h' : EachTeam S U G) :
    EachTeam s U fun kc core => G kc core ∘ F kc core where
  rest := (congrArg (fun x : State => { x with teams := s.teams }) h'.rest :).trans h.rest
  found kc core := by rw [h'.found, h.found, Option.map_map]

/-- f at one core of a list, and nothing elsewhere. -/
def atCores (kc : Nat) (cores : List Nat) (f : Nat → Team → Team) (kc' core' : Nat) : Team → Team :=
  if kc' = kc ∧ core' ∈ cores then f core' else id

theorem eachTeam_nowhere (s : State) (kc : Nat) (f : Nat → Team → Team) : EachTeam s s (atCores kc [] f) :=
  ⟨rfl, fun kc' core' => by simp [atCores]⟩

theorem eachTeam_updTeam (s : State) (kc core : Nat) {f : Nat → Team → Team} (hf : KeepsCore (f core)) :
    EachTeam s (updTeam s kc core (f core)) (atCores kc [core] f) := by
  refine ⟨rfl, fun kc' core' => ?_⟩
  rw [find_updTeam hf, atCores]
  simp only [List.mem_singleton]
  split
  · next hat => rw [hat.2]
  · rw [Option.map_id_fun, id]

/-- Teams of several cores change in turn. -/
theorem eachTeam_foldl {cores : List Nat} (hn : cores.Nodup) (kc : Nat) {f : Nat → Team → Team} (hf : ∀ i, KeepsCore (f i)) (s : State) :
    EachTeam s (cores.foldl (fun s i => updTeam s kc i (f i)) s) (atCores kc cores f) := by
  induction cores generalizing s with
  | nil => exact eachTeam_nowhere s kc f
  | cons i is ih =>
    obtain ⟨hnot, hn⟩ := List.nodup_cons.mp hn
    have hboth := (eachTeam_updTeam s kc i (hf i)).trans (ih hn (updTeam s kc i (f i)))
    refine ⟨hboth.rest, fun kc' core' => (hboth.found kc' core').trans (congrArg (Option.map · _) ?_)⟩
    simp only [atCores, List.mem_cons]
    by_cases hat : core' = i
    · subst hat
      simp [hnot]
    · simp [hat]

/-- A change of a team that a kick may make. -/
def KickTeam (f : Team → Team) : Prop := ∀ T,
  { f T with bars := T.bars, free := T.free, chans := T.chans, regions := T.regions, poison := T.poison } = T

theorem KickTeam.comp {f f' : Team → Team} (h : KickTeam f) (h' : KickTeam f') : KickTeam (f' ∘ f) := fun T =>
  (congrArg (fun x : Team =>
    { x with bars := T.bars, free := T.free, chans := T.chans, regions := T.regions, poison := T.poison }) (h' (f T))).trans (h T)

theorem kickTeam_atCores (kc : Nat) (cores : List Nat) {f : Nat → Team → Team} (h : ∀ i, KickTeam (f i)) (kc' core' : Nat) :
    KickTeam (atCores kc cores f kc' core') := by
  rw [atCores]
  split
  · exact h core'
  · exact fun _ => rfl

theorem KickTeam.keepsCore {f : Team → Team} (h : KickTeam f) : KeepsCore f := fun T =>
  ⟨(congrArg Team.kc (h T) :), (congrArg Team.core (h T) :)⟩

theorem EachTeam.teamOf_eq {s S : State} {F : Nat → Nat → Team → Team} (h : EachTeam s S F) {kc core : Nat} {T : Team}
    (hT : s.teams.find? (fun t => t.kc = kc ∧ t.core = core) = some T) : teamOf S kc core = F kc core T := by
  rw [teamOf, h.found, hT]
  rfl

theorem EachTeam.teamOf_same {s S : State} {F : Nat → Nat → Team → Team} (h : EachTeam s S F) {kc core : Nat} (hF : F kc core = id) :
    teamOf S kc core = teamOf s kc core := by
  rw [teamOf, h.found, hF, Option.map_id_fun]
  rfl

/-- A core without a team has none later. -/
theorem EachTeam.teamOf_kick {s S : State} {F : Nat → Nat → Team → Team} (h : EachTeam s S F) {kc core : Nat} (hF : KickTeam (F kc core)) :
    { teamOf S kc core with
      bars := (teamOf s kc core).bars, free := (teamOf s kc core).free, chans := (teamOf s kc core).chans
      regions := (teamOf s kc core).regions, poison := (teamOf s kc core).poison } = teamOf s kc core := by
  rw [teamOf, teamOf, h.found]
  cases s.teams.find? fun t => t.kc = kc ∧ t.core = core with
  | none => rfl
  | some T => exact hF T

/-! ### What a kick makes of a team (R279, R287, R290) -/

/-- A slot's bit of the free mask is cleared. -/
def withoutFree (slot : Nat) (T : Team) : Team := { T with free := T.free &&& ~~~BitVec.ofNat 16 (2 ^ slot) }

/-- A slot's channel is set. -/
def withChannel (slot chan : Nat) (T : Team) : Team := { T with chans := amSet none T.chans slot (some chan) }

/-- EB of a barrier rises by n, and its completion condition is evaluated. -/
def withBytes (team slot n : Nat) (T : Team) : Team :=
  barSettle team (setBar T slot { barOf T slot with eb := (barOf T slot).eb + BitVec.ofNat 32 n }) slot 1024

theorem barSettle_frame (team : Nat) (T : Team) (slot n : Nat) :
    { barSettle team T slot n with bars := T.bars, regions := T.regions, poison := T.poison } = T := by
  induction n generalizing T with
  | zero => rfl
  | succ n ih =>
    rw [barSettle]
    split
    · exact (congrArg (fun x : Team => { x with bars := T.bars, regions := T.regions, poison := T.poison }) (ih (barPhase team T slot)) :)
    · rfl

theorem kickTeam_withoutFree (slot : Nat) : KickTeam (withoutFree slot) := fun _ => rfl

theorem kickTeam_withChannel (slot chan : Nat) : KickTeam (withChannel slot chan) := fun _ => rfl

theorem kickTeam_withBytes (team slot n : Nat) : KickTeam (withBytes team slot n) := fun T =>
  (congrArg (fun x : Team =>
    { x with bars := T.bars, free := T.free, chans := T.chans, regions := T.regions, poison := T.poison })
    (barSettle_frame team (setBar T slot { barOf T slot with eb := (barOf T slot).eb + BitVec.ofNat 32 n }) slot 1024) :)

theorem barReady_awaits {b : Barrier} (h : b.a < b.e) : barReady b = false := by
  rw [← Bool.not_eq_true, barReady_iff]
  rintro ⟨-, hle, -⟩
  exact absurd h (BitVec.not_lt.mpr hle)

/-- A barrier that awaits more completes no phase when EB rises. -/
theorem withBytes_awaits {T : Team} {slot : Nat} (hslot : slot < T.bars.length) (h : (barOf T slot).a < (barOf T slot).e) (team n : Nat) :
    withBytes team slot n T = setBar T slot { barOf T slot with eb := (barOf T slot).eb + BitVec.ofNat 32 n } := by
  refine barSettle_unready (barReady_awaits ?_) team 1024
  rw [barOf_setBar hslot]
  exact h

theorem withoutFree_cleared {slot : Nat} (hslot : slot < 16) (T : Team) : (withoutFree slot T).free.getLsbD slot = false := by
  simp only [withoutFree, BitVec.getLsbD_and, BitVec.getLsbD_not, BitVec.getLsbD_ofNat, hslot, Nat.testBit_two_pow_self, decide_true,
    Bool.and_self, Bool.not_true, Bool.and_false]

/-- A free mask as a kick leaves it: of a multicast the slot's bit is cleared. -/
def freeStep (fn slot : Nat) : Team → Team := if fn = 1 then withoutFree slot else id

theorem kickTeam_freeStep (fn slot : Nat) : KickTeam (freeStep fn slot) := by
  rw [freeStep]
  split
  · exact kickTeam_withoutFree slot
  · exact fun _ => rfl

theorem bars_freeStep (fn slot : Nat) (T : Team) : (freeStep fn slot T).bars = T.bars := by
  rw [freeStep]
  split <;> rfl

theorem eachTeam_clearFree {cores : List Nat} (hn : cores.Nodup) (kc fn slot : Nat) (s : State) :
    EachTeam s (clearFree kc fn slot cores s) (atCores kc cores fun _ => freeStep fn slot) := by
  rw [clearFree, freeStep]
  split
  · exact eachTeam_foldl hn kc (fun _ => (kickTeam_withoutFree slot).keepsCore) s
  · refine ⟨rfl, fun kc' core' => ?_⟩
    rw [atCores, ite_self, Option.map_id_fun, id]

theorem barChange_withBytes (s : State) (kc core slot n : Nat) :
    barChange s kc core slot (fun b => { b with eb := b.eb + BitVec.ofNat 32 n }) =
      updTeam s kc core (withBytes (teamNo (kcOf s kc) core) slot n) := rfl

/-- EB rises at each core in turn. -/
theorem foldl_barChange (kc slot n : Nat) (cores : List Nat) {K : Kc} {s : State} (hK : kcOf s kc = K) :
    cores.foldl (fun s i => barChange s kc i slot fun b => { b with eb := b.eb + BitVec.ofNat 32 n }) s =
      cores.foldl (fun s i => updTeam s kc i (withBytes (teamNo K i) slot n)) s := by
  induction cores generalizing s with
  | nil => rw [List.foldl_nil, List.foldl_nil]
  | cons i is ih =>
    have hkcs : (updTeam s kc i (withBytes (teamNo K i) slot n)).kcs = s.kcs := rfl
    rw [List.foldl_cons, List.foldl_cons, barChange_withBytes, hK, ih ((kcOf_of_kcs hkcs kc).trans hK)]

/-- The kick of a transfer of n bytes: the teams, as each of them is afterwards. -/
def kickedTeams (K : Kc) (g : Group) (fn slot n chan : Nat) (cores : List Nat) (kc core : Nat) : Team → Team :=
  atCores g.kc [g.core] (fun _ => withChannel slot chan) kc core ∘ atCores g.kc cores (fun i => withBytes (teamNo K i) slot n) kc core ∘
    atCores g.kc cores (fun _ => freeStep fn slot) kc core

section
variable (K : Kc) (g : Group) (fn slot n chan : Nat) (cores : List Nat)

theorem kickTeam_kickedTeams (kc core : Nat) : KickTeam (kickedTeams K g fn slot n chan cores kc core) :=
  ((kickTeam_atCores g.kc cores (fun _ => kickTeam_freeStep fn slot) kc core).comp
    (kickTeam_atCores g.kc cores (fun i => kickTeam_withBytes (teamNo K i) slot n) kc core)).comp
    (kickTeam_atCores g.kc [g.core] (fun _ => kickTeam_withChannel slot chan) kc core)

theorem kickedTeams_elsewhere {core : Nat} (hown : core ≠ g.core) (hnot : core ∉ cores) :
    kickedTeams K g fn slot n chan cores g.kc core = id := by
  simp [kickedTeams, atCores, hown, hnot]

theorem kickedTeams_channel (T : Team) : amGet none (kickedTeams K g fn slot n chan cores g.kc g.core T).chans slot = some chan := by
  simp [kickedTeams, atCores, withChannel]

/-- The barrier and the free mask of a core of the kick whose barrier awaits more. -/
theorem kickedTeams_awaits {i : Nat} (hi : i ∈ cores) {T : Team} (hslot : slot < T.bars.length)
    (h : (barOf T slot).a < (barOf T slot).e) :
    (barOf (kickedTeams K g fn slot n chan cores g.kc i T) slot).eb = (barOf T slot).eb + BitVec.ofNat 32 n ∧
      (kickedTeams K g fn slot n chan cores g.kc i T).free = (freeStep fn slot T).free := by
  have hbars := bars_freeStep fn slot T
  have hbar : barOf (freeStep fn slot T) slot = barOf T slot := by rw [barOf, barOf, hbars]
  have hslot' : slot < (freeStep fn slot T).bars.length := by rwa [hbars]
  have hbytes := withBytes_awaits hslot' (by rwa [hbar]) (teamNo K i) n
  have hkicked : kickedTeams K g fn slot n chan cores g.kc i T =
      atCores g.kc [g.core] (fun _ => withChannel slot chan) g.kc i (withBytes (teamNo K i) slot n (freeStep fn slot T)) := by
    simp [kickedTeams, atCores, hi]
  have hchannel (D : Team) : barOf (atCores g.kc [g.core] (fun _ => withChannel slot chan) g.kc i D) slot = barOf D slot ∧
      (atCores g.kc [g.core] (fun _ => withChannel slot chan) g.kc i D).free = D.free := by
    rw [atCores]
    split <;> exact ⟨rfl, rfl⟩
  rw [hkicked, (hchannel _).1, (hchannel _).2, hbytes, barOf_setBar hslot', hbar]
  exact ⟨rfl, rfl⟩

end

/-- One transfer more, under the next number. -/
def addTransfer (x : Transfer) (s : State) : State :=
  { s with transfers := s.transfers ++ [{ x with id := s.nextId }], nextId := s.nextId + 1 }

/-- EB rises, and the transfer is there. -/
theorem startKick_bytes {s : State} {K : Kc} {x : Transfer} (hK : kcOf s x.kc = K) {n : Nat} (hpos : 0 < n) (cores : List Nat) :
    startKick s x n cores =
      addTransfer x (cores.foldl (fun s i => updTeam s x.kc i (withBytes (teamNo K i) x.slot n)) s) := by
  simp only [startKick, if_neg hpos.ne', foldl_barChange x.kc x.slot n cores hK]
  rfl

/-- What a kick changes beside its group: teams, and one transfer more. -/
theorem startKick_teams {s : State} {c : Issue} {g : Group} (hwho : c.who = .group g.kc g.core g.idx) {x : Transfer} {slot : Nat}
    (hx : x.kc = g.kc ∧ x.slot = slot) {n : Nat} (hpos : 0 < n) {cores : List Nat} (hn : cores.Nodup) (fn chan : Nat) :
    ∃ S, setSlotChannel (startKick (clearFree g.kc fn slot cores s) x n cores) c slot chan = addTransfer x S ∧
      EachTeam s S (kickedTeams (kcOf s g.kc) g fn slot n chan cores) := by
  obtain ⟨hkc, rfl⟩ := hx
  have hclear := eachTeam_clearFree hn g.kc fn x.slot s
  have hkcs : (clearFree g.kc fn x.slot cores s).kcs = s.kcs := (congrArg State.kcs hclear.rest :)
  have hbytes := hclear.trans (eachTeam_foldl hn g.kc (fun i => (kickTeam_withBytes (teamNo (kcOf s g.kc) i) x.slot n).keepsCore) _)
  refine ⟨_, ?_, hbytes.trans
    (eachTeam_updTeam _ g.kc g.core (f := fun _ => withChannel x.slot chan) (kickTeam_withChannel x.slot chan).keepsCore)⟩
  rw [setSlotChannel, hwho, startKick_bytes (K := kcOf s g.kc) (by rw [hkc]; exact kcOf_of_kcs hkcs g.kc) hpos, hkc]
  rfl

/-! ### The transfer of a bulk kick (R281 to R283, R287, R288) -/

theorem mem_insertFirst {α : Type} (key : α → Nat) (x y : α) (l : List α) : y ∈ sortBy.insertFirst key x l ↔ y = x ∨ y ∈ l := by
  induction l with
  | nil => rw [sortBy.insertFirst, List.mem_singleton, or_iff_left (List.not_mem_nil)]
  | cons z zs ih =>
    rw [sortBy.insertFirst]
    split
    · exact List.mem_cons
    · rw [List.mem_cons, ih, List.mem_cons, or_left_comm]

theorem mem_sortBy {α : Type} (key : α → Nat) (y : α) (l : List α) : y ∈ sortBy key l ↔ y ∈ l := by
  induction l with
  | nil => rfl
  | cons x xs ih => rw [sortBy, mem_insertFirst, ih, List.mem_cons]

section
variable (s : State) (c : Issue) (g : Group) (fn : Nat) (o : OpsBulk) (T : Team) (l : Nat) (ls : List Nat)

theorem kickTransfer_started : (kickTransfer s c g fn o T l ls).started = true ↔ ∀ y ∈ s.transfers,
    ¬(y.chan = some (kickBlock g o T l).chan ∧
      hwCore (kcOf s y.kc) y.core = hwCore (kcOf s (memberKc c.who)) (memberCore c.who)) := by
  rw [kickTransfer]
  generalize kickBlock g o T l = b
  simp [bulkTransfer, channelBusy]

theorem kickTransfer_cores : (kickTransfer s c g fn o T l ls).legs.map (fun q => q.core) = kickCores g fn o T l := by
  rw [kickTransfer]
  generalize kickCores g fn o T l = cores, kickBlock g o T l = b
  simp [bulkTransfer, Function.comp_def]

theorem kickTransfer_legs {q : Leg} (hq : q ∈ (kickTransfer s c g fn o T l ls).legs) : q.arrived = false ∧
    ∀ e, e ∈ q.todo ↔ ∃ f ∈ (kickBlock g o T l).offsets,
      e = (sideAddr (kickBlock g o T l).dspace (kickBlock g o T l).dst f.1, sideAddr (kickBlock g o T l).sspace (kickBlock g o T l).src f.2) := by
  obtain ⟨i, -, rfl⟩ := List.mem_map.mp hq
  refine ⟨rfl, fun e => (mem_sortBy _ e _).trans (List.mem_map.trans ?_)⟩
  simp only [eq_comm]

end

theorem nodup_blockCores (core fn : Nat) (b : Block) : (blockCores core fn b).Nodup := by
  rw [blockCores]
  split
  · exact List.nodup_range.filter _
  · split <;> exact List.nodup_singleton _

/-! ### A kick is made -/

section
variable {s : State} {c : Issue} {g : Group} {fn : BitVec 2} {o : OpsBulk} {T : Team} {l : Nat} {ls : List Nat}
  (h : KickReady s c g fn.toNat o T l ls true)
include h

/-- The state in which the kick's group retires. -/
theorem runBulk_kicks : ∃ S, runBulk s c fn o =
      retireWrites (addTransfer (kickTransfer s c g fn.toNat o T l ls) S) c o.la.toNat [] [] [] ∧
    EachTeam s S (kickedTeams (kcOf s g.kc) g fn.toNat o.slot.toNat (kickBlock g o T l).count (kickBlock g o T l).chan
      (kickCores g fn.toNat o T l)) := by
  obtain ⟨-, -, hsized, -⟩ := h.allowed
  have hpos : 0 < (kickBlock g o T l).count := by simpa [kickBlock] using hsized
  have hkc : (kickTransfer s c g fn.toNat o T l ls).kc = g.kc := by rw [kickTransfer, bulkTransfer, h.who]; rfl
  obtain ⟨S, hS, heach⟩ := startKick_teams (s := s) h.who ⟨hkc, rfl⟩ hpos (nodup_blockCores g.core fn.toNat (kickBlock g o T l))
    fn.toNat (kickBlock g o T l).chan
  refine ⟨S, ?_, heach⟩
  rw [runBulk_ready h, ← hS]
  rfl

theorem landsOrFlies_runBulk : LandsOrFlies s (runBulk s c fn o) c o.la.toNat fun _ _ => none := by
  obtain ⟨S, hrun, heach⟩ := runBulk_kicks h
  rw [hrun]
  exact landsOrFlies_retireNone (idle_of_kickReady h) (U := addTransfer (kickTransfer s c g fn.toNat o T l ls) S)
    (congrArg State.groups heach.rest :) o.la.toNat

theorem kicked_runBulk : Kicked s (runBulk s c fn o) g fn.toNat o T l ls := by
  obtain ⟨S, hrun, heach⟩ := runBulk_kicks h
  have honly : OnlyGroups (addTransfer (kickTransfer s c g fn.toNat o T l ls) S) (runBulk s c fn o) := hrun ▸ onlyGroups_retireLanes _ c _
  have hteams (kc core : Nat) : teamOf (runBulk s c fn o) kc core = teamOf S kc core :=
    teamOf_of_teams (congrArg State.teams honly :) kc core
  have hids : S.transfers = s.transfers ∧ S.nextId = s.nextId :=
    ⟨(congrArg State.transfers heach.rest :), (congrArg State.nextId heach.rest :)⟩
  have htransfers : (runBulk s c fn o).transfers = S.transfers ++ [{ kickTransfer s c g fn.toNat o T l ls with id := S.nextId }] :=
    (congrArg State.transfers honly :)
  have hnext : (runBulk s c fn o).nextId = S.nextId + 1 := (congrArg State.nextId honly :)
  rw [hids.1, hids.2] at htransfers
  rw [hids.2] at hnext
  have hkc : memberKc c.who = g.kc := by rw [h.who]; rfl
  have hcore : memberCore c.who = g.core := by rw [h.who]; rfl
  have hgroup := memberGroup_of_idle (idle_of_kickReady h)
  refine ⟨⟨?_, fun kc core => ?_⟩, ?_, fun core hown hnot => ?_, _, htransfers, rfl, hnext, hkc, hcore, congrArg Group.idx hgroup,
    congrArg (fun kc => (kcOf s kc).asid) hkc, rfl, rfl, rfl, rfl, rfl, rfl, rfl, rfl, rfl, rfl, rfl, ?_,
    kickTransfer_cores s c g fn.toNat o T l ls, fun q hq => kickTransfer_legs s c g fn.toNat o T l ls hq,
    fun i hi D hD hslot hawaits => ?_⟩
  · exact (congrArg (fun y : State => { y with
      groups := s.groups, teams := s.teams, transfers := s.transfers, nextId := s.nextId, tlb := s.tlb, cur := s.cur
      fresh := s.fresh }) honly :).trans (congrArg (fun y : State => { y with
      groups := s.groups, transfers := s.transfers, nextId := s.nextId, tlb := s.tlb, cur := s.cur
      fresh := s.fresh }) heach.rest :)
  · rw [hteams]
    exact heach.teamOf_kick (kickTeam_kickedTeams _ g _ _ _ _ _ kc core)
  · rw [hteams, heach.teamOf_eq h.team]
    exact kickedTeams_channel _ g _ _ _ _ _ T
  · rw [hteams]
    exact heach.teamOf_same (kickedTeams_elsewhere _ g _ _ _ _ _ hown hnot)
  · rw [← hkc, ← hcore]
    exact kickTransfer_started s c g fn.toNat o T l ls
  · obtain ⟨hbytes, hfree⟩ := kickedTeams_awaits (kcOf s g.kc) g fn.toNat o.slot.toNat (kickBlock g o T l).count (kickBlock g o T l).chan
      (kickCores g fn.toNat o T l) hi hslot hawaits
    rw [hteams, heach.teamOf_eq hD]
    refine ⟨hbytes, fun hmcast => ?_⟩
    rw [hfree, freeStep, if_pos hmcast]
    exact withoutFree_cleared o.slot.isLt D

end

/-! ### A held kick is tried again (R212, R287) -/

/-- A group that holds no kick. -/
def unheld (g : Group) : Group := { g with hold := none }

theorem keepsKey_unheld : KeepsKey unheld := fun _ => ⟨rfl, rfl, rfl⟩

/-- No register instruction makes a hold, or ends one. -/
theorem hold_of_landsOrFlies {s t : State} {c : Issue} {la : Nat} {w : Nat → Nat → Option Word} (h : LandsOrFlies s t c la w) :
    (memberGroup t c.who).hold = (memberGroup s c.who).hold := by
  by_cases hla : la = 0
  · exact (congrArg Group.hold (h.1 hla).rest :)
  · exact (congrArg Group.hold (h.2 hla).1.rest :)

/-- What a kick does is the same seen from the state with the hold. -/
theorem kicked_of_unheld {s t : State} {g : Group} {fn : Nat} {o : OpsBulk} {T : Team} {l : Nat} {ls : List Nat}
    (h : Kicked (updGroup s g.kc g.core g.idx unheld) t (unheld g) fn o T l ls) : Kicked s t g fn o T l ls := by
  obtain ⟨⟨hframe, hteams⟩, hkick⟩ := h
  exact ⟨⟨congrArg (fun x : State => { x with groups := s.groups }) hframe, hteams⟩, hkick⟩

section
variable {s : State} {c : Issue} {g : Group} {fn : BitVec 2} {o : OpsBulk} {T : Team} {l : Nat} {ls : List Nat}
  (h : KickReady s c g fn.toNat o T l ls true)
include h

theorem updMember_unheld : updMember s c.who unheld = updGroup s g.kc g.core g.idx unheld := by rw [h.who]; rfl

/-- A kick that is ready is so without its hold. -/
theorem kickReady_unheld : KickReady (updGroup s g.kc g.core g.idx unheld) c (unheld g) fn.toNat o T l ls true :=
  ⟨h.who, groupHere_updGroup h.here rfl keepsKey_unheld, h.normal, h.landed, h.team, h.legal, h.acts, h.clean, h.area, h.allowed, h.room⟩

/-- A held kick that is ready is made when it is tried again. -/
theorem kick_made : (memberGroup (runBulk (updMember s c.who unheld) c fn o) c.who).hold = none ∧
    Kicked s (runBulk (updMember s c.who unheld) c fn o) g fn.toNat o T l ls ∧
    LandsOrFlies (updMember s c.who unheld) (runBulk (updMember s c.who unheld) c fn o) c o.la.toNat fun _ _ => none := by
  rw [updMember_unheld h]
  have hready := kickReady_unheld h
  have hlands := landsOrFlies_runBulk hready
  refine ⟨?_, kicked_of_unheld (kicked_runBulk hready), hlands⟩
  rw [hold_of_landsOrFlies hlands, memberGroup_of_idle (idle_of_kickReady hready)]
  rfl

theorem lockWaitEnd_kicks (hhold : g.hold = some (.locks c fn o)) :
    ∃ t, exec (.ladleLockWaitEnd c.who) s = .next t ∧ (memberGroup t c.who).hold = none ∧ Kicked s t g fn.toNat o T l ls ∧
      LandsOrFlies (updMember s c.who fun x => { x with hold := none }) t c o.la.toNat (fun _ _ => none) := by
  have hexec : exec (.ladleLockWaitEnd c.who) s = execLadleLockWaitEnd c.who s := rfl
  have hgroup := memberGroup_of_idle (idle_of_kickReady h)
  rw [hexec, execLadleLockWaitEnd, retryHold, hgroup, hhold]
  exact ⟨_, rfl, kick_made h⟩

end

theorem lmcsHoldEnd_kicks {s : State} {c : Issue} {g : Group} {o : OpsBulk} {T : Team} {l : Nat} {ls : List Nat}
    (h : KickReady s c g 1 o T l ls true) (hhold : g.hold = some (.mcast c o)) :
    ∃ t, exec (.lmcsHoldEnd c.who) s = .next t ∧ (memberGroup t c.who).hold = none ∧ Kicked s t g 1 o T l ls ∧
      LandsOrFlies (updMember s c.who fun x => { x with hold := none }) t c o.la.toNat (fun _ _ => none) := by
  have hexec : exec (.lmcsHoldEnd c.who) s = execLmcsHoldEnd c.who s := rfl
  have hgroup := memberGroup_of_idle (idle_of_kickReady h)
  rw [hexec, execLmcsHoldEnd, retryHold, hgroup, hhold]
  exact ⟨_, rfl, kick_made (fn := 1) h⟩

end Sys2Proof.Proofs.HeldKicks
end

section
/-! The family "Sprue, Barrier and Ladle Instructions": the progress of ladle transfers (R279, R283, R285 to R291, R352). -/

namespace Sys2Proof.Proofs.Ladle

open Sys2Proof Sys2Proof.Machine Sys2Proof.Claims Sys2Proof.Proofs.StateRules Sys2Proof.Proofs.Stops Sys2Proof.Proofs.Boundaries
  Sys2Proof.Proofs.Departures Sys2Proof.Proofs.Accesses Sys2Proof.Proofs.BarrierRules Sys2Proof.Proofs.Barriers Sys2Proof.Proofs.Landing
  Sys2Proof.Proofs.HeldKicks

/-! ### Transfers leave, and their kernel cluster goes on (R183, R288, R290) -/

theorem goesOn_of_same {s S : State} {kc : Nat} (h : GoesOn s kc) (hkcs : S.kcs = s.kcs) (hgrids : S.grids = s.grids) :
    GoesOn S kc := by
  obtain ⟨k, hk, hlive, hopen⟩ := h
  refine ⟨k, by rw [hkcs]; exact hk, hlive, fun G hG => hopen G ?_⟩
  rwa [gridOf?, hgrids] at hG

/-- Nothing ends where the spine is live and has not reached the next boundary. -/
theorem settleKc_of_goesOn {s : State} {kc : Nat} (h : GoesOn s kc) : settleKc s kc = s := by
  obtain ⟨k, hk, hlive, hopen⟩ := h
  have hkc : kcOf s kc = k := kcOf_find hk
  rw [settleKc_of_spine (by rw [hkc]; exact hlive), hkc]
  exact settleBoundary_open fun G hG => .inl ⟨k, List.mem_of_find?_eq_some hk, rfl, hlive, hopen G hG⟩

/-- The transfers without one of them. -/
def without (s : State) (id : Nat) : State := { s with transfers := s.transfers.filter fun q => q.id ≠ id }

theorem dropTransfer_none {s S : State} {x : Transfer} (h : GoesOn s x.kc) (hkcs : S.kcs = s.kcs) (hgrids : S.grids = s.grids) :
    dropTransfer S x none = without S x.id :=
  settleKc_of_goesOn (s := without S x.id) (goesOn_of_same h hkcs hgrids)

theorem dropTransfer_some {s S : State} {x : Transfer} (h : GoesOn s x.kc) (hkcs : S.kcs = s.kcs) (hgrids : S.grids = s.grids)
    {ch : Nat} (hch : x.chan = some ch) (p : Nat) : dropTransfer S x (some p) = leavePtr (without S x.id) x ch p := by
  simp only [dropTransfer, hch]
  exact settleKc_of_goesOn (s := leavePtr (without S x.id) x ch p) (goesOn_of_same h hkcs hgrids)

theorem findTransfer_here {s : State} {x : Transfer} (h : s.transfers.find? (fun t => t.id = x.id) = some x) :
    findTransfer s x.id = some x := h

/-! ### The channel takes up its oldest transfer (R288) -/

theorem channelStart_starts {s : State} {x : Transfer} (h : s.transfers.find? (fun t => t.id = x.id) = some x)
    (holdest : (s.transfers.find? fun q => q.chan = x.chan ∧ hwCore (kcOf s q.kc) q.core = hwCore (kcOf s x.kc) x.core) = some x) :
    ∃ t, exec (.ladleChannelStart x.id) s = .next t ∧
      t = { s with transfers := s.transfers.map fun q => if q.id = x.id then { q with started := true } else q } := by
  have hexec : exec (.ladleChannelStart x.id) s = execLadleChannelStart x.id s := rfl
  simp only [Bool.decide_and] at holdest
  refine ⟨_, ?_, rfl⟩
  rw [hexec, execLadleChannelStart, findTransfer_here h]
  simp only [holdest, Option.map_some, decide_true, if_true]
  rfl

/-! ### A page fault stops the transfer (R352) -/

section
variable {s : State} {x : Transfer} {m : Miss} (h : Meets s x m)
include h

theorem pageFault_frames (hcause : m.cause = 0x04) (hfirst : x.retried = false) : ∃ t fr, exec (.ladlePageFault x.id) s = .next t ∧
    t.frames = s.frames ++ [fr] ∧ fr.asid = x.asid ∧
    fr.whose = .ladle x.id (.group x.kc x.core x.group) ∧ fr.trap.cause = 0x04 ∧ fr.trap.lanes = x.lanes ∧
    (∀ e, comingEntry s (groupOf s x.kc x.core x.group) = some e → fr.trap.pc = e.pc ∧ fr.trap.prio = e.prio) ∧
    fr.trap.addr = BitVec.ofNat 64 x.block ∧ fr.trap.imprecise = true ∧ fr.trap.pages.map (fun p => p.page) = [m.addr / 65536] ∧
    { t with frames := s.frames, transfers := s.transfers, cur := s.cur } = s ∧
    t.transfers = s.transfers.map fun q => if q.id = x.id then { q with stopped := true } else q := by
  obtain ⟨hhere, ⟨hstarted, hstopped⟩, hmiss⟩ := h
  have hexec : exec (.ladlePageFault x.id) s = execLadlePageFault x.id s := rfl
  have hcause : m.cause = cPageFault := hcause
  rw [hexec, execLadlePageFault, findTransfer_here hhere]
  simp only [hstarted, hstopped, hmiss, hcause, hfirst, Bool.not_true, Bool.or_self, Bool.false_eq_true, if_false, ne_eq,
    not_true_eq_false, decide_false]
  refine ⟨_, _, rfl, rfl, rfl, rfl, rfl, rfl, fun e he => ?_, rfl, rfl, rfl, rfl, rfl⟩
  simp only [he, Option.map_some, Option.getD_some, and_self]

end

/-! ### A barrier that awaits more (R205, R279) -/

theorem ladleArrive_awaits {b : Barrier} (hf : b.f = false) (h : b.a < b.e) : ladleArrive b = oneMore b := by
  have hne : b.a ≠ 1023 := by bv_omega
  rw [ladleArrive, if_neg (by simp [hf]), inc10, if_neg hne]
  rfl

theorem arrivedAt_last {b : Barrier} (h : IsLast b) :
    arrivedAt b b.eb b.lb = { b with p := b.p + 1, a := 0, eb := 0, lb := 0 } := if_pos h

theorem arrivedAt_more {b : Barrier} (h : ¬IsLast b) : arrivedAt b b.eb b.lb = oneMore b := if_neg h

/-- The last arrival completes one phase. -/
theorem settledBar_oneMore {b : Barrier} (hlt : b.a < b.e) (h : IsLast b) : settledBar (oneMore b) = nextPhase (oneMore b) := by
  have he : (oneMore b).e ≠ 0 := fun h0 => by
    have hlt : b.a.toNat < b.e.toNat := hlt
    rw [show b.e = 0 from h0] at hlt
    exact absurd hlt (Nat.not_lt_zero _)
  have hle : (oneMore b).e ≤ (oneMore b).a := BitVec.le_of_eq h.1.symm
  have hbelow : (nextPhase (oneMore b)).a < (nextPhase (oneMore b)).e := by
    rw [nextPhase_oneMore h]
    exact Nat.pos_of_ne_zero fun h0 => he (BitVec.eq_of_toNat_eq h0)
  rw [← settledBar_nextPhase he hle, settledBar_below hbelow rfl rfl]

section
variable {s S : State} {kc core slot : Nat} {D : Team} (hD : TeamBecomes s S kc core D) (h : AwaitsMore D slot)
include hD h

/-- A change of the bytes of a barrier that awaits more completes no phase. -/
theorem barChange_bytes {f : Barrier → Barrier} (hf : (f (barOf D slot)).a = (barOf D slot).a ∧ (f (barOf D slot)).e = (barOf D slot).e) :
    TeamBecomes s (barChange S kc core slot f) kc core (setBar D slot (f (barOf D slot))) :=
  barChange_unready hD h.1 (barReady_awaits (by rw [hf.1, hf.2]; exact h.2.2))

/-- The arrival of a transfer at a barrier that awaits it. -/
theorem barChange_arrival : ∃ D', TeamBecomes s (barChange S kc core slot ladleArrive) kc core D' ∧
    BarBecomes D D' slot (arrivedAt (barOf D slot) (barOf D slot).eb (barOf D slot).lb) ∧
    (¬IsLast (barOf D slot) → D'.regions = D.regions) := by
  obtain ⟨hslot, hf, hlt⟩ := h
  have harrive := ladleArrive_awaits hf hlt
  have hmay : MayArrive (barOf D slot) 0 := ⟨hf, fun h0 => by
    have hlt : (barOf D slot).a.toNat < (barOf D slot).e.toNat := hlt
    rw [h0] at hlt
    exact absurd hlt (Nat.not_lt_zero _), hlt, .inl rfl⟩
  by_cases hlast : IsLast (barOf D slot)
  · obtain ⟨D', hbecomes, hbar⟩ := barChange_settles hD hslot (f := ladleArrive) (by rw [harrive]; exact (barReady_arrived hmay).mpr hlast)
    rw [harrive, settledBar_oneMore hlt hlast, nextPhase_oneMore hlast] at hbar
    refine ⟨D', hbecomes, ?_, fun hnot => absurd hlast hnot⟩
    rwa [arrivedAt_last hlast]
  · have hready := Bool.eq_false_iff.mpr fun hr => hlast ((barReady_arrived hmay).mp hr)
    have hbecomes := barChange_unready hD hslot (f := ladleArrive) (by rw [harrive]; exact hready)
    rw [harrive] at hbecomes
    refine ⟨_, hbecomes, ?_, fun _ => rfl⟩
    rw [arrivedAt_more hlast]
    exact barBecomes_setBar hslot _

end

theorem awaitsMore_setBar {D : Team} {slot : Nat} (h : AwaitsMore D slot) {b : Barrier} (hf : b.f = false) (ha : b.a = (barOf D slot).a)
    (he : b.e = (barOf D slot).e) : AwaitsMore (setBar D slot b) slot := by
  obtain ⟨hslot, -, hlt⟩ := h
  refine ⟨by simpa [setBar] using hslot, ?_, ?_⟩
  · rwa [barOf_setBar hslot]
  · rwa [barOf_setBar hslot, ha, he]

/-! ### A denied access ends the transfer (R291) -/

/-- EB without n bytes, unless the barrier is faulted. -/
def lessBytes (n : Nat) (b : Barrier) : Barrier := if b.f then b else { b with eb := b.eb - BitVec.ofNat 32 n }

theorem lessBytes_of_clear {b : Barrier} (h : b.f = false) (n : Nat) : lessBytes n b = { b with eb := b.eb - BitVec.ofNat 32 n } := by
  rw [lessBytes, if_neg (by simp [h])]

/-- The bytes of a leg that will not land leave EB, and its arrival is made. -/
def endLeg (x : Transfer) (s : State) (l : Leg) : State :=
  if l.arrived then s else
    barChange (barChange s x.kc l.core x.slot (lessBytes (l.todo.length * x.esize))) x.kc l.core x.slot ladleArrive

/-- The cause waits for the next issue of a group that has not ended. -/
def metByLadle (tr : Trap) (g : Group) : Group := if g.ended then g else { g with ladle := g.ladle ++ [tr] }

theorem keepsKey_metByLadle (tr : Trap) : KeepsKey (metByLadle tr) := by
  intro g
  rw [metByLadle]
  split <;> exact ⟨rfl, rfl, rfl⟩

theorem endTransfer_eq (s : State) (x : Transfer) (m : Miss) : endTransfer s x m =
    dropTransfer (updGroup (x.legs.foldl (endLeg x) s) x.kc x.core x.group (metByLadle (ladleTrap x.lanes x.block m))) x none := rfl

theorem endLeg_rest (x : Transfer) (s : State) (l : Leg) : { endLeg x s l with teams := s.teams } = s := by
  rw [endLeg]
  split <;> rfl

theorem endLegs_rest (x : Transfer) (ls : List Leg) (s : State) : { ls.foldl (endLeg x) s with teams := s.teams } = s := by
  induction ls generalizing s with
  | nil => rfl
  | cons l ls ih => exact (congrArg (fun t : State => { t with teams := s.teams }) (ih (endLeg x s l))).trans (endLeg_rest x s l)

/-- A leg still open ends at a barrier that awaits more. -/
theorem endLeg_bar {s : State} {x : Transfer} {leg : Leg} {D : Team} (hopen : leg.arrived = false)
    (hD : s.teams.find? (fun q => q.kc = x.kc ∧ q.core = leg.core) = some D) (h : AwaitsMore D x.slot) :
    barOf (teamOf (endLeg x s leg) x.kc leg.core) x.slot = arrivedAt (barOf D x.slot)
      ((barOf D x.slot).eb - BitVec.ofNat 32 (leg.todo.length * x.esize)) (barOf D x.slot).lb := by
  have hclear := lessBytes_of_clear h.2.1 (leg.todo.length * x.esize)
  have hbytes := barChange_bytes (TeamBecomes.refl hD) h (f := lessBytes (leg.todo.length * x.esize)) (by rw [hclear]; exact ⟨rfl, rfl⟩)
  rw [hclear] at hbytes
  obtain ⟨D', hbecomes, hbar, -⟩ := barChange_arrival hbytes (awaitsMore_setBar h h.2.1 rfl rfl)
  rw [barOf_setBar h.1] at hbar
  rw [endLeg, if_neg (by simp [hopen]), hbecomes.teamOf_eq, barOf_of_becomes hbar]
  rfl

section
variable {s : State} {x : Transfer} {m : Miss} (h : Meets s x m)
include h

theorem exec_accessDenied (hend : m.cause ≠ 0x04 ∨ x.retried = true) :
    exec (.ladleAccessDenied x.id) s = .next (endTransfer s x m) := by
  obtain ⟨hhere, ⟨hstarted, hstopped⟩, hmiss⟩ := h
  have hexec : exec (.ladleAccessDenied x.id) s = execLadleAccessDenied x.id s := rfl
  have hend : m.cause ≠ cPageFault ∨ x.retried = true := hend
  rw [hexec, execLadleAccessDenied, findTransfer_here hhere]
  simp only [hstarted, hstopped, hmiss, Bool.not_true, Bool.or_self, Bool.false_eq_true, if_false]
  rw [if_pos (by simpa using hend)]

theorem accessDenied_ends (hend : m.cause ≠ 0x04 ∨ x.retried = true) (hgoes : GoesOn s x.kc) :
    exec (.ladleAccessDenied x.id) s = .next (without (updGroup (x.legs.foldl (endLeg x) s) x.kc x.core x.group
      (metByLadle (ladleTrap x.lanes x.block m))) x.id) := by
  have hrest := endLegs_rest x x.legs s
  have hkcs : (x.legs.foldl (endLeg x) s).kcs = s.kcs := (congrArg State.kcs hrest :)
  have hgrids : (x.legs.foldl (endLeg x) s).grids = s.grids := (congrArg State.grids hrest :)
  rw [exec_accessDenied h hend, endTransfer_eq]
  exact congrArg Host.Outcome.next (dropTransfer_none (s := s) hgoes hkcs hgrids)

theorem accessDenied_denies (hend : m.cause ≠ 0x04 ∨ x.retried = true) (hgoes : GoesOn s x.kc) :
    ∃ t, exec (.ladleAccessDenied x.id) s = .next t ∧
      { t with teams := s.teams, groups := s.groups, transfers := s.transfers, cur := s.cur, fresh := s.fresh } = s ∧
      t.transfers = s.transfers.filter (fun q => q.id ≠ x.id) ∧
      (∀ leg D, x.legs = [leg] → leg.arrived = false → s.teams.find? (fun q => q.kc = x.kc ∧ q.core = leg.core) = some D →
        AwaitsMore D x.slot → barOf (teamOf t x.kc leg.core) x.slot = arrivedAt (barOf D x.slot)
          ((barOf D x.slot).eb - BitVec.ofNat 32 (leg.todo.length * x.esize)) (barOf D x.slot).lb) ∧
      ∀ g, s.groups.find? (fun y => y.kc = x.kc ∧ y.core = x.core ∧ y.idx = x.group) = some g →
        (g.ended = true → groupOf t x.kc x.core x.group = g) ∧
        (g.ended = false → ∃ tr, groupOf t x.kc x.core x.group = { g with ladle := g.ladle ++ [tr] } ∧ tr.cause = m.cause ∧
          tr.lanes = x.lanes ∧ tr.imprecise = true ∧ tr.late = false ∧ tr.addr = BitVec.ofNat 64 x.block) := by
  have hrest := endLegs_rest x x.legs s
  have hgroups : (x.legs.foldl (endLeg x) s).groups = s.groups := (congrArg State.groups hrest :)
  have htransfers : (x.legs.foldl (endLeg x) s).transfers = s.transfers := (congrArg State.transfers hrest :)
  refine ⟨_, accessDenied_ends h hend hgoes, ?_, ?_, fun leg D hlegs hopen hD hawaits => ?_, fun g hg => ?_⟩
  · exact (congrArg (fun t : State => { t with groups := s.groups, transfers := s.transfers, cur := s.cur, fresh := s.fresh }) hrest :)
  · exact congrArg (List.filter fun q => q.id ≠ x.id) htransfers
  · rw [hlegs]
    exact endLeg_bar hopen hD hawaits
  · have hgroup : groupOf (updGroup (x.legs.foldl (endLeg x) s) x.kc x.core x.group (metByLadle (ladleTrap x.lanes x.block m)))
        x.kc x.core x.group = metByLadle (ladleTrap x.lanes x.block m) g :=
      groupOf_updGroup_same (keepsKey_metByLadle _) (by rw [hgroups]; exact hg)
    refine ⟨fun hended => hgroup.trans ?_, fun hlive =>
      ⟨ladleTrap x.lanes x.block m, hgroup.trans ?_, rfl, rfl, rfl, rfl, rfl⟩⟩
    · rw [metByLadle, if_pos hended]
    · rw [metByLadle, if_neg (by simp [hlive])]

end

/-! ### Landed bytes count, and the last of a leg make its arrival (R205, R279) -/

/-- LB with n bytes more, unless the barrier is faulted. -/
def moreBytes (n : Nat) (b : Barrier) : Barrier := if b.f then b else { b with lb := b.lb + BitVec.ofNat 32 n }

theorem moreBytes_of_clear {b : Barrier} (h : b.f = false) (n : Nat) : moreBytes n b = { b with lb := b.lb + BitVec.ofNat 32 n } := by
  rw [moreBytes, if_neg (by simp [h])]

theorem legLanded_eq (s : State) (x : Transfer) (core n : Nat) (done : Bool) : legLanded s x core n done =
    if done then barChange (barChange s x.kc core x.slot (moreBytes n)) x.kc core x.slot ladleArrive
    else barChange s x.kc core x.slot (moreBytes n) := rfl

/-- The barrier of a leg of which n bytes have landed. -/
def landedBar (b : Barrier) (n : Nat) (done : Bool) : Barrier :=
  if done then arrivedAt b b.eb (b.lb + BitVec.ofNat 32 n) else { b with lb := b.lb + BitVec.ofNat 32 n }

theorem legLanded_bar {s S : State} {x : Transfer} {core : Nat} {D : Team} (hD : TeamBecomes s S x.kc core D) (h : AwaitsMore D x.slot)
    (n : Nat) (done : Bool) : ∃ D', TeamBecomes s (legLanded S x core n done) x.kc core D' ∧
      BarBecomes D D' x.slot (landedBar (barOf D x.slot) n done) ∧
      (¬(done = true ∧ (barOf D x.slot).a + 1 = (barOf D x.slot).e ∧ (barOf D x.slot).lb + BitVec.ofNat 32 n = (barOf D x.slot).eb) →
        D'.regions = D.regions) := by
  have hclear := moreBytes_of_clear h.2.1 n
  have hbytes := barChange_bytes hD h (f := moreBytes n) (by rw [hclear]; exact ⟨rfl, rfl⟩)
  have hset := barBecomes_setBar h.1 (moreBytes n (barOf D x.slot))
  rw [hclear] at hbytes hset
  rw [legLanded_eq]
  cases done with
  | false => exact ⟨_, hbytes, hset, fun _ => rfl⟩
  | true =>
    obtain ⟨D', hbecomes, hbar, hregions⟩ := barChange_arrival hbytes (awaitsMore_setBar h h.2.1 rfl rfl)
    rw [barOf_setBar h.1] at hbar hregions
    exact ⟨D', hbecomes, barBecomes_trans hset hbar, fun hnot => hregions fun hlast => hnot ⟨rfl, hlast⟩⟩

/-! ### A transfer that leaves its channel (R288, R290) -/

theorem find_teams_map {F : Team → Team} (hF : KeepsCore F) (l : List Team) (kc core : Nat) :
    (l.map F).find? (fun t => t.kc = kc ∧ t.core = core) = (l.find? fun t => t.kc = kc ∧ t.core = core).map F := by
  rw [List.find?_map]
  refine congrArg (fun p => (l.find? p).map F) (funext fun t => ?_)
  simp only [Function.comp, (hF t).1, (hF t).2]

/-- A team of the transfer's core, in whose channel it leaves a pointer. -/
def leftPtr (s : State) (x : Transfer) (ch p : Nat) (t : Team) : Team :=
  if sameCore s t.kc t.core x.kc x.core then { t with lastPtr := amSet 0 t.lastPtr ch p } else t

theorem find_leavePtr (S : State) (x : Transfer) (ch p kc core : Nat) :
    (leavePtr S x ch p).teams.find? (fun t => t.kc = kc ∧ t.core = core) =
      (S.teams.find? fun t => t.kc = kc ∧ t.core = core).map (leftPtr S x ch p) :=
  find_teams_map (F := leftPtr S x ch p) (fun t => by rw [leftPtr]; split <;> exact ⟨rfl, rfl⟩) S.teams kc core

/-- A team without regard to the pointers of its channels. -/
def sansPtr (t : Team) : Team := { t with lastPtr := [] }

theorem sansPtr_leavePtr (S : State) (x : Transfer) (ch p kc core : Nat) :
    sansPtr (teamOf (leavePtr S x ch p) kc core) = sansPtr (teamOf S kc core) := by
  rw [teamOf, teamOf, find_leavePtr]
  cases S.teams.find? fun t => t.kc = kc ∧ t.core = core with
  | none => rfl
  | some t =>
    rw [Option.map_some, Option.getD_some, Option.getD_some, leftPtr]
    split <;> rfl

theorem lastPtr_leavePtr {S : State} {x : Transfer} {T : Team} (h : S.teams.find? (fun t => t.kc = x.kc ∧ t.core = x.core) = some T)
    (ch p : Nat) : amGet 0 (teamOf (leavePtr S x ch p) x.kc x.core).lastPtr ch = p := by
  have hT := List.find?_some h
  simp only [decide_eq_true_eq] at hT
  rw [teamOf, find_leavePtr, h, Option.map_some, Option.getD_some, leftPtr, hT.1, hT.2, if_pos (by simp [sameCore])]
  exact amGet_amSet_same _ _ _ _

theorem endOf_eq (x : Transfer) (landed : List (Nat × Nat)) (p : Nat) :
    endOf x landed p = landed.foldl (fun p e => max p (e.1 + x.esize)) p := by
  rw [endOf]
  congr 1
  funext p e
  split <;> omega

/-! ### Bytes of a leg land (R279, R283, R285 to R287) -/

/-- The leg that lands next is one of those that are open. -/
theorem landingLeg_open {s : State} {x : Transfer} (h : ∃ leg ∈ x.legs, leg.arrived = false) :
    ∃ i leg, landingLeg s x = some (i, leg) ∧ x.legs[i]? = some leg ∧ leg.arrived = false := by
  have hopen : 0 < ((x.legs.zipIdx.filter fun l => !l.1.arrived).map fun l => (l.2, l.1)).length := by
    obtain ⟨leg, hleg, hopen⟩ := h
    obtain ⟨i, hi⟩ := List.getElem?_of_mem hleg
    have hmem : (leg, i) ∈ x.legs.zipIdx.filter fun l => !l.1.arrived :=
      List.mem_filter.mpr ⟨List.mem_zipIdx_iff_getElem?.mpr hi, by simp [hopen]⟩
    rw [List.length_map]
    exact List.length_pos_of_mem hmem
  obtain ⟨⟨i, leg⟩, hget⟩ : ∃ p, landingLeg s x = some p := ⟨_, List.getElem?_eq_getElem (Nat.mod_lt _ hopen)⟩
  refine ⟨i, leg, hget, ?_⟩
  rw [landingLeg] at hget
  obtain ⟨⟨leg', i'⟩, hmem, heq⟩ := List.mem_map.mp (List.mem_of_getElem? hget)
  obtain ⟨rfl, rfl⟩ := Prod.ext_iff.mp heq
  obtain ⟨hmem, hopen⟩ := List.mem_filter.mp hmem
  exact ⟨List.mem_zipIdx_iff_getElem?.mp hmem, by simpa using hopen⟩

/-- The legs once n bytes of one have landed. -/
def legsAfter (x : Transfer) (n : Nat) (i : Nat) (leg : Leg) : List Leg :=
  x.legs.set i { leg with todo := landsAfter x n leg, arrived := (landsAfter x n leg).isEmpty }

/-- The transfer once n bytes of a leg have landed, and bytes of its source have been read. -/
def transferAfter (x : Transfer) (n : Nat) (i : Nat) (leg : Leg) (fs : List (Nat × Byte × Bool)) : Transfer :=
  { x with legs := legsAfter x n i leg, retried := false, fetched := fs }

/-- How many bytes of a leg land next. -/
def bytesNow (x : Transfer) (n : Nat) (leg : Leg) : Nat := (landsNow x n leg).length * x.esize

/-- The barrier of a leg has counted what landed, and with the last of the leg its arrival. -/
def legCounted (S : State) (x : Transfer) (n : Nat) (leg : Leg) : State :=
  legLanded S x leg.core (bytesNow x n leg) (landsAfter x n leg).isEmpty

/-- What follows when units of a leg have landed: its barrier, and the transfer goes on or is over. -/
def afterLanding (S : State) (x : Transfer) (n : Nat) (i : Nat) (leg : Leg) (fs : List (Nat × Byte × Bool)) : State :=
  if (legsAfter x n i leg).all fun l => l.arrived then
    bump (dropTransfer (legCounted S x n leg) x (some (if x.dspace = .global then endOf x leg.todo 0 % 2 ^ 32
      else endOf x leg.todo 0 + if x.legs.length = 1 then leg.core * 2 ^ 21 else 0)))
  else bump (updTransfer (legCounted S x n leg) x.id fun _ => transferAfter x n i leg fs)

/-- Bytes land: the units do, and then what follows. -/
theorem exec_bytesLand {s S : State} {x t : Transfer} {T : Team} {n i : Nat} {leg : Leg} (h : Runs s x T) (hn : 0 < n)
    (hleg : landingLeg s x = some (i, leg)) (ht : HasRead x T t) (hsome : landsNow x n leg ≠ [])
    (hlands : landUnits s x leg.core ((n + 15) / 16) leg.todo = ⟨S, t, landsAfter x n leg, (landsNow x n leg).length, none⟩) :
    exec (.ladleBytesLand x.id n) s = .next (afterLanding S x n i leg t.fetched) := by
  obtain ⟨hhere, ⟨hstarted, hstopped, -, -⟩, -, -⟩ := h
  have hexec : exec (.ladleBytesLand x.id n) s = execLadleBytesLand x.id n s := rfl
  have hcount : decide ((landsNow x n leg).length = 0) = false := by simpa using hsome
  have hafter : { t with legs := legsAfter x n i leg, retried := x.retried && decide ((landsNow x n leg).length = 0) } =
      transferAfter x n i leg t.fetched := by
    rw [hcount, Bool.and_false, ht.1]
    rfl
  rw [hexec, execLadleBytesLand, findTransfer_here hhere]
  simp only [hstarted, hstopped, Bool.not_true, Bool.or_self, Bool.false_eq_true, if_false, if_neg hn.ne', hleg, hlands]
  rw [afterLanding, ← hafter]
  rfl

/-- What the barrier and the channel leave of landed bytes. -/
theorem landed_congr {x : Transfer} {first : List (Nat × Nat)} {T D D' D'' : Team} (h : Claims.Landed x first T D D')
    (hw : D''.w = D'.w) (ha : D''.a = D'.a) (hc : D''.c = D'.c) : Claims.Landed x first T D D'' := by
  obtain ⟨hmade, hkept, hsame⟩ := h
  have hplain : plainByte x D'' = plainByte x D' := by
    funext b
    rw [plainByte, plainByte, hw, ha, hc]
  rw [Claims.Landed, hplain, hw, ha, hc]
  exact ⟨hmade, hkept, hsame⟩

theorem landed_eq {r : Machine.Landed} {left : List (Nat × Nat)} {count : Nat} (hl : r.left = left) (hc : r.count = count)
    (hm : r.miss = none) : r = ⟨r.s, r.t, left, count, none⟩ := by
  rw [← hl, ← hc, ← hm]

/-- Bytes of a leg have landed in its team D, which is D1 with them, and D2 once its barrier has counted them. -/
structure Counted (s S : State) (x : Transfer) (n : Nat) (T : Team) (leg : Leg) (D D1 D2 : Team) : Prop where
  lands : Lands x (landsNow x n leg) T D D1
  here : TeamBecomes s (legCounted S x n leg) x.kc leg.core D2
  bar : BarBecomes D1 D2 x.slot (landedBar (barOf D x.slot) (bytesNow x n leg) (landsAfter x n leg).isEmpty)
  regions : ¬((landsAfter x n leg).isEmpty = true ∧ (barOf D x.slot).a + 1 = (barOf D x.slot).e ∧
    (barOf D x.slot).lb + BitVec.ofNat 32 (bytesNow x n leg) = (barOf D x.slot).eb) → D2.regions = D.regions

/-- The next bytes of an open leg that is ready land and count. -/
theorem counted_of_ready {s : State} {x : Transfer} {n : Nat} {T D : Team} {leg : Leg} (h : Runs s x T) (hdest : x.dspace ≠ .global)
    (hready : LegReady s x n T leg D) : ∃ t S D1 D2,
      landUnits s x leg.core ((n + 15) / 16) leg.todo = ⟨S, t, landsAfter x n leg, (landsNow x n leg).length, none⟩ ∧
      HasRead x T t ∧ Counted s S x n T leg D D1 D2 := by
  obtain ⟨-, ⟨-, -, hbulk, hfetched⟩, ⟨hsource, hsize, hf32, hbf16⟩, hteam⟩ := h
  obtain ⟨-, haligned, ⟨hapart, hasc⟩, hD, hclean, hslot⟩ := hready
  have hS : SourceIs s x T := fun a => by rw [teamOf, hteam, Option.getD_some]
  obtain ⟨D1, hD1, ht, hleft, hcount, hmiss, hlands⟩ := landUnits_lands ⟨hbulk, hsize, ⟨hf32, hbf16⟩, hsource, hdest, hapart⟩
    (TeamBecomes.refl hD) hS (hasRead_nothing hfetched T) haligned hasc fun e he => (hclean e he).2
  have hbars : D1.bars = D.bars := (congrArg Team.bars hlands.rest :)
  have hregions : D1.regions = D.regions := (congrArg Team.regions hlands.rest :)
  have hbar : barOf D1 x.slot = barOf D x.slot := by rw [barOf, barOf, hbars]
  have hawaits : AwaitsMore D1 x.slot := by rw [AwaitsMore, hbar, hbars]; exact hslot
  obtain ⟨D2, hD2, hbecomes, hsame⟩ := legLanded_bar hD1 hawaits (bytesNow x n leg) (landsAfter x n leg).isEmpty
  rw [hbar] at hbecomes hsame
  exact ⟨_, _, D1, D2, landed_eq hleft hcount hmiss, ht, hlands, hD2, hbecomes, fun hnot => (hsame hnot).trans hregions⟩

theorem of_sansPtr {t t' : Team} (h : sansPtr t = sansPtr t') : { t with lastPtr := t'.lastPtr } = t' :=
  congrArg (fun q : Team => { q with lastPtr := t'.lastPtr }) h

section
variable {s S t : State} {x : Transfer} {n : Nat} {T D D1 D2 : Team} {leg : Leg} (h : Counted s S x n T leg D D1 D2)
include h

/-- Landing and counting change no pointer of a channel. -/
theorem lastPtr_counted (hD : s.teams.find? (fun q => q.kc = x.kc ∧ q.core = leg.core) = some D) (kc core : Nat) :
    (teamOf (legCounted S x n leg) kc core).lastPtr = (teamOf s kc core).lastPtr := by
  by_cases hsame : kc = x.kc ∧ core = leg.core
  · have h1 : D1.lastPtr = D.lastPtr := (congrArg Team.lastPtr h.lands.rest :)
    have h2 : D2.lastPtr = D1.lastPtr := (congrArg Team.lastPtr h.bar.2 :)
    rw [hsame.1, hsame.2, h.here.teamOf_eq, (TeamBecomes.refl hD).teamOf_eq, h2, h1]
  · rw [h.here.others kc core hsame]

/-- The core of the source has a team still. -/
theorem source_counted (hT : s.teams.find? (fun q => q.kc = x.kc ∧ q.core = x.core) = some T) :
    ∃ T', (legCounted S x n leg).teams.find? (fun q => q.kc = x.kc ∧ q.core = x.core) = some T' := by
  by_cases hsame : x.kc = x.kc ∧ x.core = leg.core
  · rw [hsame.2]
    exact ⟨D2, h.here.here⟩
  · exact ⟨T, (h.here.elsewhere _ _ hsame).trans hT⟩

variable (hptr : ∀ kc core, sansPtr (teamOf t kc core) = sansPtr (teamOf (legCounted S x n leg) kc core))
include hptr

theorem team_landed : sansPtr (teamOf t x.kc leg.core) = sansPtr D2 := by rw [hptr, h.here.teamOf_eq]

/-- The teams of other cores keep all but the pointers of their channels. -/
theorem others_landed (kc core : Nat) (hne : ¬(kc = x.kc ∧ core = leg.core)) :
    { teamOf t kc core with lastPtr := (teamOf s kc core).lastPtr } = teamOf s kc core :=
  of_sansPtr (by rw [hptr, h.here.others kc core hne])

theorem bytes_landed : Claims.Landed x (landsNow x n leg) T D (teamOf t x.kc leg.core) := by
  have hteam := team_landed h hptr
  have hw : (teamOf t x.kc leg.core).w = D2.w := (congrArg Team.w hteam :)
  have ha : (teamOf t x.kc leg.core).a = D2.a := (congrArg Team.a hteam :)
  have hc : (teamOf t x.kc leg.core).c = D2.c := (congrArg Team.c hteam :)
  have hw' : D2.w = D1.w := (congrArg Team.w h.bar.2 :)
  have ha' : D2.a = D1.a := (congrArg Team.a h.bar.2 :)
  have hc' : D2.c = D1.c := (congrArg Team.c h.bar.2 :)
  exact landed_congr h.lands.landed (hw.trans hw') (ha.trans ha') (hc.trans hc')

theorem bar_landed : barOf (teamOf t x.kc leg.core) x.slot = if landsAfter x n leg = [] then
    arrivedAt (barOf D x.slot) (barOf D x.slot).eb ((barOf D x.slot).lb + BitVec.ofNat 32 (bytesNow x n leg))
    else { barOf D x.slot with lb := (barOf D x.slot).lb + BitVec.ofNat 32 (bytesNow x n leg) } := by
  have hbars : (teamOf t x.kc leg.core).bars = D2.bars := (congrArg Team.bars (team_landed h hptr) :)
  have hsame : barOf (teamOf t x.kc leg.core) x.slot = barOf D2 x.slot := by rw [barOf, barOf, hbars]
  rw [hsame, barOf_of_becomes h.bar, landedBar]
  cases landsAfter x n leg <;> rfl

/-- Regions swap only as the barrier's phase completes. -/
theorem regions_landed (hnot : ¬(landsAfter x n leg = [] ∧ (barOf D x.slot).a + 1 = (barOf D x.slot).e ∧
    (barOf D x.slot).lb + BitVec.ofNat 32 (bytesNow x n leg) = (barOf D x.slot).eb)) :
    (teamOf t x.kc leg.core).regions = D.regions := by
  have hsame : (teamOf t x.kc leg.core).regions = D2.regions := (congrArg Team.regions (team_landed h hptr) :)
  exact hsame.trans (h.regions fun hboth => hnot ⟨List.isEmpty_iff.mp hboth.1, hboth.2⟩)

end

section
variable {s S : State} {x : Transfer} {n i : Nat} {T D D1 D2 : Team} {leg : Leg} (h : Counted s S x n T leg D D1 D2)
include h

/-- With its last leg a transfer leaves its channel, and its write pointer stays. -/
theorem legLands_last (hruns : Runs s x T) (hdest : x.dspace ≠ .global)
    (hdone : ((legsAfter x n i leg).all fun l => l.arrived) = true) (fs : List (Nat × Byte × Bool)) :
    LegLands s (afterLanding S x n i leg fs) x n T leg i D := by
  rintro ⟨-, -, -, hgoes⟩
  have hrest := h.here.rest
  have htransfers : (legCounted S x n leg).transfers = s.transfers := (congrArg State.transfers hrest :)
  have hkcs : (legCounted S x n leg).kcs = s.kcs := (congrArg State.kcs hrest :)
  have hgrids : (legCounted S x n leg).grids = s.grids := (congrArg State.grids hrest :)
  obtain ⟨-, ⟨-, -, hbulk, -⟩, -, hsource⟩ := hruns
  obtain ⟨ch, hch⟩ := Option.ne_none_iff_exists'.mp hbulk
  obtain ⟨T', hT'⟩ := source_counted h hsource
  rw [afterLanding, if_pos hdone, dropTransfer_some (s := s) (hgoes hdone) hkcs hgrids hch, if_neg hdest]
  have hptr := fun kc core => sansPtr_leavePtr (without (legCounted S x n leg) x.id) x ch
    (endOf x leg.todo 0 + if x.legs.length = 1 then leg.core * 2 ^ 21 else 0) kc core
  refine ⟨?_, bytes_landed h hptr, bar_landed h hptr, regions_landed h hptr, others_landed h hptr,
    fun hnot => absurd hdone (by rw [legsAfter, hnot]; decide), fun _ => ⟨?_, fun ch' hch' => ?_⟩⟩
  · exact (congrArg (fun q : State => { q with transfers := s.transfers, cur := s.cur, fresh := s.fresh }) hrest :)
  · exact congrArg (List.filter fun q => q.id ≠ x.id) htransfers
  · obtain rfl : ch = ch' := Option.some.inj (hch.symm.trans hch')
    rw [← endOf_eq]
    exact lastPtr_leavePtr hT' ch _

/-- A transfer with legs still open goes on. -/
theorem legLands_more (hdone : ((legsAfter x n i leg).all fun l => l.arrived) = false) (fs : List (Nat × Byte × Bool)) :
    LegLands s (afterLanding S x n i leg fs) x n T leg i D := by
  rintro ⟨-, -, hD, -⟩
  have hrest := h.here.rest
  have htransfers : (legCounted S x n leg).transfers = s.transfers := (congrArg State.transfers hrest :)
  rw [afterLanding, if_neg (by rw [hdone]; decide)]
  have hptr : ∀ kc core, sansPtr (teamOf (bump (updTransfer (legCounted S x n leg) x.id fun _ => transferAfter x n i leg fs)) kc core) = _ :=
    fun kc core => rfl
  refine ⟨?_, bytes_landed h hptr, bar_landed h hptr, regions_landed h hptr, others_landed h hptr,
    fun _ => ⟨lastPtr_counted h hD, fs, ?_⟩, fun hyes => absurd (hdone.symm.trans hyes) (by decide)⟩
  · exact (congrArg (fun q : State => { q with transfers := s.transfers, cur := s.cur, fresh := s.fresh }) hrest :)
  · exact congrArg (List.map fun q => if q.id = x.id then transferAfter x n i leg fs else q) htransfers

end

/-- Bytes land out of a buffer in the buffer of a leg's core. -/
theorem bytesLand_inBuffer {s : State} {x : Transfer} {n : Nat} {T : Team} (h : Runs s x T) (hdest : x.dspace ≠ .global) (hn : 0 < n)
    (hopen : ∃ leg ∈ x.legs, leg.arrived = false) (hready : ∀ leg ∈ x.legs, leg.arrived = false → ∃ D, LegReady s x n T leg D) :
    ∃ t leg i D, exec (.ladleBytesLand x.id n) s = .next t ∧ x.legs[i]? = some leg ∧ leg.arrived = false ∧
      s.teams.find? (fun q => q.kc = x.kc ∧ q.core = leg.core) = some D ∧ LegLands s t x n T leg i D := by
  obtain ⟨i, leg, hlanding, hget, harrived⟩ := landingLeg_open (s := s) hopen
  obtain ⟨D, hD⟩ := hready leg (List.mem_of_getElem? hget) harrived
  obtain ⟨t, S, D1, D2, hunits, ht, hcounted⟩ := counted_of_ready h hdest hD
  refine ⟨_, leg, i, D, exec_bytesLand h hn hlanding ht (unitsLen_pos hn hD.left) hunits, hget, harrived, hD.dest, ?_⟩
  cases hdone : (legsAfter x n i leg).all fun l => l.arrived with
  | false => exact legLands_more hcounted hdone t.fetched
  | true => exact legLands_last hcounted h hdest hdone t.fetched

/-! ### A unit lands in memory (R286, R291, R328) -/

/-- Bytes read from where a page is served, or none where the destination is not read. -/
structure OldBytes (s : State) (x : Transfer) (pa : Nat) (cls : BitVec 2) (n : Nat) (old : List Byte) : Prop where
  length : old.length = n
  read : x.red ≠ .copy → ∀ i, i < n → old.getD i 0 = memByte s (servedAt s (transferDie s x) pa cls + i)

/-- Only translations and the times of last use of replicas differ. -/
def ReadState (s S : State) : Prop := { S with tlb := s.tlb, replicas := s.replicas } = s

theorem getD_memRead (s : State) (pa : Nat) {n i : Nat} (hi : i < n) : (memRead s pa n).getD i 0 = memByte s (pa + i) := by
  rw [memRead, getBytes, addrsFrom, List.map_map, List.getD_eq_getElem _ _ (by simpa using hi), List.getElem_map, List.getElem_range]
  rfl

/-- What stands at the destination of a put, which a plain one does not read. -/
theorem ladleOld {s : State} {x t : Transfer} (hx : t.red = x.red ∧ t.kc = x.kc) (L : List TlbEntry) (pa : Nat) (cls : BitVec 2)
    (n va : Nat) : ∃ S old bad, (if t.red = .copy then (({ s with tlb := L } : State), Except.ok (List.replicate n 0, false)) else
        ladleRead { s with tlb := L } t ⟨.mem pa cls, 0, n, va⟩) = (S, .ok (old, bad)) ∧ ReadState s S ∧ OldBytes s x pa cls n old := by
  by_cases hcopy : t.red = .copy
  · rw [if_pos hcopy]
    exact ⟨_, _, _, rfl, rfl, List.length_replicate, fun hne => absurd (hx.1.symm.trans hcopy) hne⟩
  · have hdie : transferDie { s with tlb := L } t = transferDie s x := by rw [transferDie, hx.2]; rfl
    rw [if_neg hcopy, ladleRead]
    simp only [hdie]
    refine ⟨_, _, _, rfl, ?_, by simp [memRead, getBytes, addrsFrom], fun _ i hi => getD_memRead _ _ hi⟩
    split <;> rfl

theorem ladleWrite_mem (S : State) (t : Transfer) (pa : Nat) (cls : BitVec 2) (o n va : Nat) (bytes : List Byte) (poison : Bool) :
    ∃ P, ladleWrite S t ⟨.mem pa cls, o, n, va⟩ bytes poison = { ctxWrite S (ctxOf S t.asid) pa cls bytes with memPoison := P } := by
  simp only [ladleWrite]
  split
  · exact ⟨_, rfl⟩
  · exact ⟨(ctxWrite S (ctxOf S t.asid) pa cls bytes).memPoison, rfl⟩

/-- A unit goes to memory: its destination is read if it is added to, and then written. -/
theorem landUnit_toMemory {s s' : State} {x : Transfer} {T : Team} {core : Nat} {unit : List (Nat × Nat)} {pa : Nat} {cls : BitVec 2}
    (hS : SourceIs s x T) (hread : HasRead x T x) (hsp : x.sspace ≠ .global) (hdest : x.dspace = .global) (halign : Aligned x unit)
    (hside : ladleSide s x true (unitSpan x unit).1 (unitSpan x unit).2 =
      (s', .ok ⟨.mem pa cls, 0, (unitSpan x unit).2, (unitSpan x unit).1⟩)) (hquiet : { s' with tlb := s.tlb } = s) :
    ∃ t es S old P, landUnit s x core unit = ({ ctxWrite S (ctxOf s x.asid) pa cls (combineUnit x (unitSpan x unit).1 old es) with
        memPoison := P }, t, none) ∧ HasRead x T t ∧ ReadState s S ∧ OldBytes s x pa cls (unitSpan x unit).2 old ∧
      es.map (fun e => (e.1, e.2.1)) = unit.map fun e => (e.1, bufRead T x.sspace e.2 x.esize) := by
  obtain ⟨t, es, hfetch, ht, hes⟩ := fetchUnit_source hread hS hsp fun e he => (halign e he).2
  obtain ⟨L, rfl⟩ := eq_of_quiet hquiet
  have hsame : t.red = x.red ∧ t.kc = x.kc := by rw [ht.1]; exact ⟨rfl, rfl⟩
  obtain ⟨S, old, bad, hold, hquiet', hbytes⟩ := ladleOld (s := s) hsame L pa cls (unitSpan x unit).2 (unitSpan x unit).1
  have hside' : ladleSide s t true (unitSpan x unit).1 (unitSpan x unit).2 =
      ladleSide s x true (unitSpan x unit).1 (unitSpan x unit).2 := by rw [ht.1]; rfl
  have hdest' : t.dspace = .global := by rw [ht.1]; exact hdest
  have hcombine : combineUnit t (unitSpan x unit).1 old es = combineUnit x (unitSpan x unit).1 old es := by rw [ht.1]; rfl
  have hctx : ctxOf S t.asid = ctxOf s x.asid := by
    have hctxs : S.ctxs = s.ctxs := (congrArg State.ctxs hquiet' :)
    rw [ctxOf, ctxOf?, hctxs, ht.1]
    rfl
  obtain ⟨P, hwrite⟩ := ladleWrite_mem S t pa cls 0 (unitSpan x unit).2 (unitSpan x unit).1
    (combineUnit x (unitSpan x unit).1 old es) ((es.any fun e => e.2.2) || bad)
  refine ⟨t, es, S, old, P, ?_, ht, hquiet', hbytes, hes⟩
  simp only [landUnit, hfetch, hdest', if_true, hside', hside, hold, hcombine, hwrite, hctx]

/-- A unit that lands in memory leaves the teams, and of memory changes only its span and the context's touched mask. -/
theorem memory_landed {s S : State} {x : Transfer} {T : Team} {unit : List (Nat × Nat)} {es : List Elem} {pa : Nat} {cls : BitVec 2}
    {old : List Byte} (P : List Nat) (hs : SizedFor x) (hfills : Fills x unit) (hasc : Ascending x.esize unit)
    (hes : es.map (fun e => (e.1, e.2.1)) = unit.map fun e => (e.1, bufRead T x.sspace e.2 x.esize)) (hquiet : ReadState s S)
    (hold : OldBytes s x pa cls (unitSpan x unit).2 old) :
    (let t : State := { ctxWrite S (ctxOf s x.asid) pa cls (combineUnit x (unitSpan x unit).1 old es) with memPoison := P }
     t.teams = s.teams ∧
     (∀ e ∈ unit, (List.range x.esize).map (fun i => memByte t (pa + (e.1 - (unitSpan x unit).1) + i)) =
       reduced' x.red ((List.range x.esize).map fun i =>
         memByte s (servedAt s (transferDie s x) pa cls + (e.1 - (unitSpan x unit).1) + i)) (bufRead T x.sspace e.2 x.esize)) ∧
     ∀ a, (a < pa ∨ pa + (unitSpan x unit).2 ≤ a) → a ≠ (ctxOf s x.asid).desc + 0x58 → memByte t a = memByte s a) := by
  have hlength := (length_combineUnit hs (placed_unit hfills hasc hes hold.length)).trans hold.length
  have hwrote := onlyWrote_ctxWrite S (ctxOf s x.asid) pa cls (combineUnit x (unitSpan x unit).1 old es)
  have hteams : S.teams = s.teams := (congrArg State.teams hquiet :)
  have hmem : S.mem = s.mem := (congrArg State.mem hquiet :)
  refine ⟨(hwrote.same State.teams).trans hteams, fun e he => ?_, fun a ha hmask => ?_⟩
  · obtain ⟨hlo, hhi⟩ := hfills.inside e he
    have hmade := combineUnit_elem hs hfills hasc hes hold.length he
    refine Eq.trans (List.map_congr_left fun i hi => ?_) (hmade.trans ?_)
    · have hi := List.mem_range.mp hi
      refine (memByte_ctxWrite_ne (.inr ⟨by omega, by rw [hlength]; omega⟩) S cls).trans ?_
      rw [if_pos ⟨by omega, by rw [hlength]; omega⟩, Nat.add_assoc, Nat.add_sub_cancel_left]
    · by_cases hcopy : x.red = .copy
      · rw [hcopy]
        rfl
      · refine congrArg (fun b => reduced' x.red b _) (List.map_congr_left fun i hi => ?_)
        have hi := List.mem_range.mp hi
        rw [hold.read hcopy _ (by omega), Nat.add_assoc]
  · refine (memByte_ctxWrite_ne (.inl hmask) S cls).trans ?_
    rw [if_neg (by rw [hlength]; omega), memByte, memByte, hmem]

/-- What a unit of a transfer leaves in memory at pa. -/
structure InMemory (s : State) (x : Transfer) (T : Team) (unit : List (Nat × Nat)) (pa : Nat) (cls : BitVec 2) (t : State) : Prop where
  made : ∀ e ∈ unit, (List.range x.esize).map (fun i => memByte t (pa + (e.1 - (unitSpan x unit).1) + i)) =
    reduced' x.red ((List.range x.esize).map fun i =>
      memByte s (servedAt s (transferDie s x) pa cls + (e.1 - (unitSpan x unit).1) + i)) (bufRead T x.sspace e.2 x.esize)
  kept : ∀ a, (a < pa ∨ pa + (unitSpan x unit).2 ≤ a) → a ≠ (ctxOf s x.asid).desc + 0x58 → memByte t a = memByte s a

/-- A unit of a transfer out of a buffer lands whole in memory. -/
theorem landUnit_inMemory {s s' : State} {x : Transfer} {T : Team} {core : Nat} {unit : List (Nat × Nat)} {pa : Nat} {cls : BitVec 2}
    (h : Runs s x T) (hdest : x.dspace = .global) (hfills : Fills x unit) (halign : Aligned x unit) (hasc : Ascending x.esize unit)
    (hside : ladleSide s x true (unitSpan x unit).1 (unitSpan x unit).2 =
      (s', .ok ⟨.mem pa cls, 0, (unitSpan x unit).2, (unitSpan x unit).1⟩)) (hquiet : { s' with tlb := s.tlb } = s) :
    ∃ S t, landUnit s x core unit = (S, t, none) ∧ HasRead x T t ∧ S.teams = s.teams ∧ InMemory s x T unit pa cls S := by
  obtain ⟨-, ⟨-, -, -, hfetched⟩, ⟨hsource, -, hf32, hbf16⟩, hteam⟩ := h
  have hS : SourceIs s x T := fun a => by rw [teamOf, hteam, Option.getD_some]
  obtain ⟨t, es, S, old, P, hland, ht, hread, hold, hes⟩ :=
    landUnit_toMemory (core := core) hS (hasRead_nothing hfetched T) hsource hdest halign hside hquiet
  obtain ⟨hteams, hmade, hkept⟩ := memory_landed P ⟨hf32, hbf16⟩ hfills hasc hes hread hold
  exact ⟨_, t, hland, ht, hteams, hmade, hkept⟩

section
variable {x : Transfer} {n : Nat} {leg : Leg} (hn : 0 < n) (hn' : n ≤ 16) (hsome : leg.todo ≠ [])
include hn hn' hsome

/-- No more than 16 bytes are one unit. -/
theorem landsNow_unit : landsNow x n leg = headUnit x leg.todo ∧ landsAfter x n leg = leg.todo.drop (unitLen x leg.todo) := by
  have hone : (n + 15) / 16 = 1 := by omega
  rw [landsNow, landsAfter, hone]
  obtain ⟨e, es, htodo⟩ := List.exists_cons_of_ne_nil hsome
  rw [htodo]
  constructor
  · rw [take_unitsLen, unitsLen, List.take_zero, List.append_nil]
  · rw [unitsLen_cons, unitsLen, Nat.add_zero]

theorem fills_landsNow (hsize : 0 < x.esize) (halign : Aligned x (landsNow x n leg)) (hasc : Ascending x.esize (landsNow x n leg)) :
    Fills x (landsNow x n leg) := by
  rw [(landsNow_unit hn hn' hsome).1] at halign hasc ⊢
  obtain ⟨e, es, htodo⟩ := List.exists_cons_of_ne_nil hsome
  rw [htodo] at halign hasc ⊢
  exact fills_headUnit hsize halign hasc

theorem landUnits_one {s S : State} {t : Transfer} {T : Team} (hread : HasRead x T x) (ht : HasRead x T t) (hbulk : x.chan ≠ none)
    (hland : landUnit s x leg.core (landsNow x n leg) = (S, t, none)) : landUnits s x leg.core ((n + 15) / 16) leg.todo =
      ⟨S, t, landsAfter x n leg, (landsNow x n leg).length, none⟩ := by
  obtain ⟨hnow, hafter⟩ := landsNow_unit (x := x) hn hn' hsome
  have hone : (n + 15) / 16 = 0 + 1 := by omega
  obtain ⟨e, es, htodo⟩ := List.exists_cons_of_ne_nil hsome
  rw [hnow] at hland
  rw [hone, hnow, hafter]
  rw [htodo] at hland ⊢
  rw [landUnits_cons hread ht hbulk hland, landUnits, Nat.zero_add]

end

/-- A transfer of one leg goes on when bytes of it are left. -/
theorem afterLanding_goesOn {S : State} {x : Transfer} {n i : Nat} {leg : Leg} (hget : x.legs[i]? = some leg)
    (hrest : landsAfter x n leg ≠ []) (fs : List (Nat × Byte × Bool)) : afterLanding S x n i leg fs =
      bump (updTransfer (barChange S x.kc leg.core x.slot (moreBytes (bytesNow x n leg))) x.id
        fun _ => transferAfter x n i leg fs) := by
  have hempty : (landsAfter x n leg).isEmpty = false := List.isEmpty_eq_false_iff.mpr hrest
  have hopen : ¬((legsAfter x n i leg).all fun l => l.arrived) = true := by
    obtain ⟨hi, -⟩ := List.getElem?_eq_some_iff.mp hget
    intro hall
    have hleg := List.all_eq_true.mp hall _ (List.mem_iff_getElem?.mpr ⟨i, List.getElem?_set_self hi⟩)
    rw [show (landsAfter x n leg).isEmpty = true from hleg] at hempty
    cases hempty
  rw [afterLanding, if_neg hopen, legCounted, legLanded_eq, hempty, if_neg Bool.false_ne_true]

/-- Bytes land out of a buffer in memory. -/
theorem bytesLand_inMemory {s s' : State} {x : Transfer} {n : Nat} {T D : Team} {leg : Leg} {pa : Nat} {cls : BitVec 2} (h : Runs s x T)
    (hdest : x.dspace = .global) (hn : 0 < n) (hn' : n ≤ 16) (hlegs : x.legs = [leg]) (hopen : leg.arrived = false)
    (hsome : landsNow x n leg ≠ []) (halign : Aligned x (landsNow x n leg)) (hrest : landsAfter x n leg ≠ [])
    (hasc : Ascending x.esize (landsNow x n leg)) (hD : s.teams.find? (fun q => q.kc = x.kc ∧ q.core = leg.core) = some D)
    (hawaits : AwaitsMore D x.slot)
    (hside : ladleSide s x true (unitSpan x (landsNow x n leg)).1 (unitSpan x (landsNow x n leg)).2 =
      (s', .ok ⟨.mem pa cls, 0, (unitSpan x (landsNow x n leg)).2, (unitSpan x (landsNow x n leg)).1⟩))
    (hquiet : { s' with tlb := s.tlb } = s) :
    ∃ t, exec (.ladleBytesLand x.id n) s = .next t ∧ InMemory s x T (landsNow x n leg) pa cls t ∧
      barOf (teamOf t x.kc leg.core) x.slot =
        { barOf D x.slot with lb := (barOf D x.slot).lb + BitVec.ofNat 32 ((landsNow x n leg).length * x.esize) } := by
  have htodo : leg.todo ≠ [] := fun hnil => hsome (by rw [landsNow, hnil, List.take_nil])
  obtain ⟨S, t, hland, ht, hteams, hmem⟩ := landUnit_inMemory (core := leg.core) h hdest
    (fills_landsNow hn hn' htodo h.kind.2.1 halign hasc) halign hasc hside hquiet
  obtain ⟨i, leg', hlanding, hget, -⟩ := landingLeg_open (s := s) (x := x) ⟨leg, by rw [hlegs]; exact List.mem_singleton_self leg, hopen⟩
  obtain rfl : leg' = leg := by
    have hmem := List.mem_of_getElem? hget
    rw [hlegs] at hmem
    exact List.mem_singleton.mp hmem
  obtain ⟨-, -, hbulk, hfetched⟩ := h.runs
  have hunits := landUnits_one hn hn' htodo (hasRead_nothing hfetched T) ht hbulk hland
  have hbytes := barChange_bytes (TeamBecomes.refl (s := S) (hteams ▸ hD)) hawaits
    (f := moreBytes (bytesNow x n leg')) (by rw [moreBytes_of_clear hawaits.2.1]; exact ⟨rfl, rfl⟩)
  have hexec := exec_bytesLand h hn hlanding ht hsome hunits
  rw [afterLanding_goesOn hget hrest] at hexec
  refine ⟨_, hexec, ⟨hmem.made, hmem.kept⟩, ?_⟩
  have hteam := hbytes.teamOf_eq
  refine (congrArg (fun D => barOf D x.slot) hteam).trans ?_
  rw [barOf_setBar hawaits.1, moreBytes_of_clear hawaits.2.1]
  rfl

/-- Settles O37: each event of a ladle transfer, and each end of a hold, by its own lemma. -/
theorem ladleEvents : Obligations.LadleEvents := by
  unfold Obligations.LadleEvents
  refine ⟨fun s x n T h hdest hn hopen hready => bytesLand_inBuffer h hdest hn hopen hready, ?_,
    fun s x m h hend hgoes => accessDenied_denies h hend hgoes, fun s x m h hcause hfirst => pageFault_frames h hcause hfirst,
    fun s x h holdest => channelStart_starts h holdest, fun s c g fn o T l ls h hhold => lockWaitEnd_kicks h hhold,
    fun s c g o T l ls h hhold => lmcsHoldEnd_kicks h hhold⟩
  intro s x n T leg rest s' pa cls D h hdest hn hn' hlegs hopen hsome halign hafter hrest hasc _ hD hawaits span hside hquiet
  obtain ⟨t, ht, ⟨hmade, hkept⟩, hbar⟩ :=
    bytesLand_inMemory h hdest hn hn' hlegs hopen hsome halign (hafter ▸ hrest) hasc hD hawaits hside hquiet
  exact ⟨t, ht, hmade, hkept, hbar⟩

end Sys2Proof.Proofs.Ladle
end

section
/-! Words of device memory (R10, R303): a number of n bytes as a write of it leaves it, and what a write beside it does to it. -/

namespace Sys2Proof.Proofs.Words

open Sys2Proof Sys2Proof.Machine Sys2Proof.Claims Sys2Proof.Proofs.Completions Sys2Proof.Proofs.Accesses

theorem bytesToNat_natToBytes (n v : Nat) : bytesToNat (natToBytes n v) = v % 2 ^ (8 * n) := by
  induction n generalizing v with
  | zero => simp [natToBytes, bytesToNat, Nat.mod_one]
  | succ n ih =>
    have hpow : 2 ^ (8 * (n + 1)) = 256 * 2 ^ (8 * n) := by rw [Nat.mul_succ, Nat.pow_add]; ring
    rw [natToBytes, bytesToNat, ih, hpow, Nat.mod_mul, BitVec.toNat_ofNat]

theorem memNat_eq_memVal (s : State) (pa n : Nat) : memNat s pa n = memVal s pa n := bytesToNat_memRead s pa n

theorem memVal_congr {s t : State} {pa n : Nat} (h : ∀ a, pa ≤ a → a < pa + n → memByte t a = memByte s a) :
    memVal t pa n = memVal s pa n := by
  refine congrArg bytesToNat (List.map_congr_left fun i hi => ?_)
  have := List.mem_range.mp hi
  exact h (pa + i) (by omega) (by omega)

/-- A number read where it was written. -/
theorem memVal_putNat {s t : State} {pa n v : Nat} (h : t.mem = putNat s.mem pa n v) : memVal t pa n = v % 2 ^ (8 * n) := by
  rw [← bytesToNat_natToBytes]
  refine congrArg bytesToNat (List.ext_getElem (by simp [length_natToBytes]) fun i hi _ => ?_)
  rw [List.length_map, List.length_range] at hi
  rw [List.getElem_map, List.getElem_range, memByte, h, putNat, amGet_putBytes, length_natToBytes, if_pos (by omega),
    Nat.add_sub_cancel_left]
  exact List.getD_eq_getElem _ _ _

theorem memByte_putNat_outside {s t : State} {pa n v a : Nat} (h : t.mem = putNat s.mem pa n v) (ha : a < pa ∨ pa + n ≤ a) :
    memByte t a = memByte s a := by
  rw [memByte, h]
  exact amGet_putBytes_outside s.mem pa _ (by rwa [length_natToBytes])

/-- A write of a number leaves the numbers beside it. -/
theorem memVal_putNat_outside {s t : State} {pa n v a m : Nat} (h : t.mem = putNat s.mem pa n v) (ha : a + m ≤ pa ∨ pa + n ≤ a) :
    memVal t a m = memVal s a m :=
  memVal_congr fun _ hlo hhi => memByte_putNat_outside h (by omega)

end Sys2Proof.Proofs.Words
end

section
/-! The family "Launch, Queues and Placement": the rings of the feed queues (R303 to R309). -/

namespace Sys2Proof.Proofs.Feed

open Sys2Proof Sys2Proof.Machine Sys2Proof.Claims Sys2Proof.Proofs.Words

/-! ### The control block of a queue (R303) -/

theorem ridxOf_queueOf (s : State) (q : BitVec 8) : ridxOf s (queueOf s q) = ridx s q := memNat_eq_memVal ..

theorem bitsOf_eq_extractLsb {n : Nat} (w : BitVec n) (hi lo : Nat) : bitsOf w hi lo = (w.extractLsb' lo (hi + 1 - lo)).toNat := by
  rw [BitVec.extractLsb'_toNat, Nat.shiftRight_eq_div_pow]
  rfl

/-- The byte KIND of a header is 0 for padding (R304). -/
theorem kind_eq_zero_iff (h : DWord) : bitsOf h 7 0 = 0 ↔ h.extractLsb' 0 8 = 0 := by
  rw [bitsOf_eq_extractLsb]
  exact BitVec.toNat_inj (y := 0)

theorem raiseRidx_mem (s : State) (e : QueueEntry) : (raiseRidx s e).mem = putNat s.mem (e.cb + 8) 8 ((ridxOf s e + 1) % 2 ^ 64) :=
  memWriteNat_mem ..

/-- RIDX has risen by one, modulo 2^64. -/
theorem memVal_raiseRidx (s : State) (e : QueueEntry) :
    memVal (raiseRidx s e) (e.cb + 8) 8 = (memVal s (e.cb + 8) 8 + 1) % 2 ^ 64 := by
  rw [memVal_putNat (raiseRidx_mem s e), ridxOf, memNat_eq_memVal, Nat.mod_mod]

theorem memByte_raiseRidx (s : State) (e : QueueEntry) {a : Nat} (h : a < e.cb + 8 ∨ e.cb + 16 ≤ a) :
    memByte (raiseRidx s e) a = memByte s a := memByte_putNat_outside (raiseRidx_mem s e) h

theorem addDrops_drops (s : State) (q : BitVec 8) (n : Nat) :
    memVal (addDrops s q n) ((queueOf s q).cb + 0x18) 4 = (drops s q + n) % 2 ^ 32 := by
  rw [memVal_putNat (n := 4) rfl, memNat_eq_memVal, Nat.mod_mod]
  rfl

theorem addDrops_ridx (s : State) (q : BitVec 8) (n : Nat) : memVal (addDrops s q n) ((queueOf s q).cb + 8) 8 = ridx s q :=
  memVal_putNat_outside (n := 4) rfl (by omega)

/-- A store that is noticed changes only where the tundish looks. -/
theorem noteStore_tund (s : State) (pa n : Nat) : { (noteStore s pa n).tund with looking := s.tund.looking } = s.tund := by
  unfold noteStore
  dsimp only
  split
  · rfl
  · split <;> rfl

theorem memWrite_tund (s : State) (pa : Nat) (bytes : List Byte) : { (memWrite s pa bytes).tund with looking := s.tund.looking } = s.tund :=
  noteStore_tund ..

theorem raiseRidx_tund (s : State) (e : QueueEntry) : { (raiseRidx s e).tund with looking := s.tund.looking } = s.tund :=
  memWrite_tund ..

/-! ### The notification and the slot at RIDX (R304 to R309) -/

theorem exec_queueNotify (s : State) (q : BitVec 8) :
    exec (.queueNotify q) s = .next (if (queueOf s q).en then lookAt s q else s) := rfl

theorem mem_looking_lookAt (s : State) (q : BitVec 8) : q ∈ (lookAt s q).tund.looking :=
  mem_dedup.mpr (List.mem_append_right _ (List.mem_singleton_self q))

/-- The tundish takes the slot at RIDX of a queue that it serves and looks at. -/
theorem exec_tundishConsume {s : State} {q : BitVec 8} (hserved : served s q = true) (hlook : q ∈ s.tund.looking) :
    exec (.tundishConsume q) s = .next (consumeSlot s q) := by
  have hexec : exec (.tundishConsume q) s = .next (if served s q && s.tund.looking.contains q then consumeSlot s q else s) := rfl
  rw [hexec, if_pos (by simpa [hserved] using hlook)]

section
variable {s : State} {q : BitVec 8}

theorem consumeSlot_unready (hready : slotReady s (queueOf s q) = false) :
    consumeSlot s q = { s with tund := { s.tund with looking := s.tund.looking.filter fun x => x ≠ q } } := by
  rw [consumeSlot, hready]
  rfl

variable (hready : slotReady s (queueOf s q) = true)
include hready

theorem consumeSlot_padding (hkind : (recHeader (slotBytes s (queueOf s q))).extractLsb' 0 8 = 0) :
    consumeSlot s q = raiseRidx s (queueOf s q) := by
  rw [consumeSlot, hready]
  exact if_pos ((kind_eq_zero_iff _).mpr hkind)

variable (hkind : (recHeader (slotBytes s (queueOf s q))).extractLsb' 0 8 ≠ 0)
include hkind

theorem consumeSlot_bad (hbad : badRecord s (queueOf s q) (slotBytes s (queueOf s q)) = true) :
    consumeSlot s q = raiseRidx (addDrops s q 1) (queueOf s q) := by
  rw [consumeSlot, hready, hbad]
  exact if_neg (mt (kind_eq_zero_iff _).mp hkind)

variable (hgood : badRecord s (queueOf s q) (slotBytes s (queueOf s q)) = false)
include hgood

theorem consumeSlot_ready (hmust : mustHold s (slotBytes s (queueOf s q)) = false) : consumeSlot s q = s := by
  rw [consumeSlot, hready, hgood, hmust]
  exact if_neg (mt (kind_eq_zero_iff _).mp hkind)

variable (hmust : mustHold s (slotBytes s (queueOf s q)) = true)
include hmust

theorem consumeSlot_held (hquota : heldOf s (queueOf s q).vf < holdQuota s (queueOf s q).vf) :
    consumeSlot s q = raiseRidx { s with tund := { s.tund with held := s.tund.held ++
      [(((recHeader (slotBytes s (queueOf s q))).extractLsb' 16 12).toNat,
        ⟨slotBytes s (queueOf s q), q, (queueOf s q).asid, (queueOf s q).vf, slotPoison s (queueOf s q)⟩)] } } (queueOf s q) := by
  rw [consumeSlot, hready, hgood, hmust]
  refine (if_neg (mt (kind_eq_zero_iff _).mp hkind)).trans ((if_pos hquota).trans ?_)
  rw [bitsOf_eq_extractLsb]

theorem consumeSlot_quota (hquota : holdQuota s (queueOf s q).vf ≤ heldOf s (queueOf s q).vf) : consumeSlot s q = s := by
  rw [consumeSlot, hready, hgood, hmust]
  exact (if_neg (mt (kind_eq_zero_iff _).mp hkind)).trans (if_neg (Nat.not_lt.mpr hquota))

end

/-- Settles O41: each case of the slot at RIDX by its own equation of `consumeSlot`, with the words of the control block. -/
theorem feedQueues : Obligations.FeedQueues := by
  unfold Obligations.FeedQueues
  refine ⟨fun s q => ⟨fun hen => ?_, fun hen => ?_⟩, fun s q hserved hlook => ?_⟩
  · rw [exec_queueNotify, if_pos hen]
    exact ⟨_, rfl, rfl, mem_looking_lookAt s q, rfl⟩
  · rw [exec_queueNotify, hen]
    rfl
  · dsimp only
    rw [exec_tundishConsume hserved hlook]
    refine ⟨fun hready => ?_, fun hready hkind => ?_, fun hready hkind hbad => ?_, fun hready hkind hgood hmust hquota => ?_,
      fun hready hkind hgood hmust hquota => ?_, fun hready hkind hgood hmust => ?_⟩
    · exact ⟨_, congrArg _ (consumeSlot_unready hready), rfl, by simp⟩
    · exact ⟨_, congrArg _ (consumeSlot_padding hready hkind), memVal_raiseRidx .., fun a ha => memByte_raiseRidx _ _ ha⟩
    · refine ⟨_, congrArg _ (consumeSlot_bad hready hkind hbad), (memVal_raiseRidx ..).trans ?_, ?_⟩
      · rw [addDrops_ridx]
      · rw [← addDrops_drops]
        exact memVal_congr fun a hlo _ => memByte_raiseRidx _ _ (by omega)
    · refine ⟨_, congrArg _ (consumeSlot_held hready hkind hgood hmust hquota), (memVal_raiseRidx ..).trans ?_,
        (congrArg Tundish.held (raiseRidx_tund ..) :)⟩
      exact congrArg (fun n => (n + 1) % 2 ^ 64) (memVal_congr fun _ _ _ => rfl)
    · rw [consumeSlot_quota hready hkind hgood hmust hquota]
    · rw [consumeSlot_ready hready hkind hgood hmust]

end Sys2Proof.Proofs.Feed
end

section
/-! The family "Launch, Queues and Placement": dependence counters and the queries (R313, R316, R317). -/

namespace Sys2Proof.Proofs.Dependences

open Sys2Proof Sys2Proof.Machine Sys2Proof.Claims Sys2Proof.Proofs.Completions Sys2Proof.Proofs.Accesses Sys2Proof.Proofs.BarrierRules
  Sys2Proof.Proofs.Barriers Sys2Proof.Proofs.Words Sys2Proof.Proofs.Feed

/-! ### One value for each lane, or for the spine (R313) -/

section
variable {s U : State} {c : Issue} {g : Group} (h : OnLanes s c g)
include h

theorem giveLanes_lanes (la d : Nat) (vs : List (Nat × Nat)) :
    giveLanes U c la d vs = retireWrites U c la [d] (vs.map fun v => ⟨v.1, d, BitVec.ofNat 32 v.2⟩) [] := by
  unfold giveLanes
  rw [h.who]

theorem giveLanes_onlyGroups (la d : Nat) (vs : List (Nat × Nat)) : OnlyGroups U (giveLanes U c la d vs) := by
  rw [giveLanes_lanes h, retireWrites_eq]
  exact onlyGroups_retireLanes U c _

theorem giveLanes_lands (hflights : g.flights = []) (hU : U.groups = s.groups) (la : Nat) (d : RegField) {act : List Nat} (hact : act.Nodup)
    (v : Nat → Nat) : LandsOrFlies s (giveLanes U c la d.toNat (act.map fun l => (l, v l))) c la
      (oneV d.toNat act fun l => BitVec.ofNat 32 (v l)) := by
  rw [giveLanes_lanes h, List.map_map]
  refine landsOrFlies_retireWrites h hU hflights (nodup_oneV hact d.toNat _) (fun x hx => ?_) (fun _ _ _ => mem_oneV) la _
  obtain ⟨l, -, rfl⟩ := List.mem_map.mp hx
  exact d.isLt

end

section
variable {s U : State} {c : Issue} {k : Kc} (h : OnSpine s c k)
include h

theorem giveLanes_spine (la d l n : Nat) :
    giveLanes U c la d [(l, n)] = retireSpine U c fun sp => { xSet sp d (BitVec.ofNat 64 n) with lstat := sp.lstat ||| 0 } := by
  have hflags : ∀ sp : Spine, { xSet sp d (BitVec.ofNat 64 n) with lstat := sp.lstat ||| 0 } = xSet sp d (BitVec.ofNat 64 n) := fun sp => by
    have hlstat : (xSet sp d (BitVec.ofNat 64 n)).lstat = sp.lstat := (congrArg Spine.lstat (xSet_rest sp d (BitVec.ofNat 64 n)) :)
    rw [show sp.lstat ||| 0 = sp.lstat from BitVec.or_zero, ← hlstat]
  simp only [hflags]
  unfold giveLanes
  rw [h.who]

theorem giveLanes_onlyKcs (la d l n : Nat) : OnlyKcs U (giveLanes U c la d [(l, n)]) := by
  rw [giveLanes_spine h]
  exact onlyKcs_retireSpineTo rfl c _ _

theorem giveLanes_spineRegs (hU : U.kcs = s.kcs) (la d l n : Nat) : SpineRegs s (giveLanes U c la d [(l, n)]) k.id
    (fun r => if r = d then some (BitVec.ofNat 64 n) else none) (fun _ => none) 0 (nextPc c) := by
  rw [giveLanes_spine h]
  exact spineRegs_x h (q := k.sprue) (hU ▸ h.here) (fun id _ => kcOf_of_kcs hU id) d (BitVec.ofNat 64 n) 0

end

/-! ### Instructions that take an operand from each lane (R313) -/

/-- The VF of the member that issues. -/
def issuerVf (s : State) (c : Issue) : FuncNo := (ctxOf s (memberAsid s c.who)).vf

/-- What `wdep` and the queries with an operand have in common: every acting lane's operand must be allowed, and then all act. -/
def runOperands (s : State) (c : Issue) (o : OpsM) (allowed : State → FuncNo → Nat → Bool)
    (act : State → List (Nat × Nat) → State × List (Nat × Nat)) : State :=
  let r := laneOperands s c o.g o.a
  workChecked s c false [o.d, o.a]
    (outside s c (dst := [o.d.toNat]) fun s =>
      let bad := (r.1.filter fun w => !allowed s (issuerVf s c) w.2).map fun w => w.1
      if !r.1.isEmpty && !r.2.isEmpty then trapLanes s c cDataPoison r.2
      else if !bad.isEmpty then trapLanes s c cProtection bad
      else giveLanes (act s r.1).1 c o.la.toNat o.d.toNat (act s r.1).2)

section
variable {s : State} {c : Issue} {g : Group} {o : OpsM} {allowed : State → FuncNo → Nat → Bool}
  {act : State → List (Nat × Nat) → State × List (Nat × Nat)}

/-- The active lanes with their operands. -/
def laneWords (g : Group) (c : Issue) (o : OpsM) : List (Nat × Nat) :=
  (activeLanes g c o.g).map fun l => (l, (vGet g.regs l o.a.toNat).toNat)

section
variable (h : SomeLanes s c g o.g [o.a.toNat])
include h

theorem laneOperands_lanes : laneOperands s c o.g o.a = (laneWords g c o, []) := by
  have hgroup := h.on.group
  rw [h.on.who] at hgroup
  simp only [laneOperands, h.on.who, hgroup, readV_of_idle h.landed, h.clean]
  rfl

variable (hd : vOk g.budget false o.d.toNat = true) (ha : vOk g.budget false o.a.toNat = true)
include hd ha

/-- On lanes all checks pass but that on the operands. -/
theorem runOperands_lanes : runOperands s c o allowed act =
    if ((laneWords g c o).filter fun w => !allowed s (issuerVf s c) w.2) = [] then
      giveLanes (act s (laneWords g c o)).1 c o.la.toNat o.d.toNat (act s (laneWords g c o)).2
    else trapLanes s c cProtection (((laneWords g c o).filter fun w => !allowed s (issuerVf s c) w.2).map fun w => w.1) := by
  have hchecks : ∀ e ∈ [(isSpine c.who && false, cWrongUnit), (!([o.d, o.a].all fun r => vOk (memberGroup s c.who).budget false r.toNat),
      cIllegal)], e.1 = false := by simp [h.on.group, hd, ha]
  rw [runOperands, laneOperands_lanes h, outside_of_idle h.on h.landed, workChecked, h.on.notSpine]
  refine (checked_ok (by simpa [h.on.notSpine] using hchecks) h.on.clean).trans ?_
  simp only [List.isEmpty_nil, Bool.not_true, Bool.and_false, Bool.false_eq_true, if_false]
  by_cases hbad : ((laneWords g c o).filter fun w => !allowed s (issuerVf s c) w.2) = []
  · simp [hbad]
  · rw [if_pos, if_neg hbad]
    simpa using hbad

theorem runOperands_allowed (hall : ∀ l ∈ activeLanes g c o.g, allowed s (issuerVf s c) (vGet g.regs l o.a.toNat).toNat = true) :
    runOperands s c o allowed act = giveLanes (act s (laneWords g c o)).1 c o.la.toNat o.d.toNat (act s (laneWords g c o)).2 := by
  rw [runOperands_lanes h hd ha, if_pos]
  refine List.filter_eq_nil_iff.mpr fun w hw => ?_
  obtain ⟨l, hl, rfl⟩ := List.mem_map.mp hw
  simp [hall l hl]

theorem runOperands_denied {l : Nat} {ls : List Nat} (hbad : ((activeLanes g c o.g).filter fun l =>
      !allowed s (issuerVf s c) (vGet g.regs l o.a.toNat).toNat) = l :: ls) :
    LanesStop s (runOperands s c o allowed act) c (trapOf c { cause := 0x05, lanes := maskOf (l :: ls) }) := by
  have hwords : ((laneWords g c o).filter fun w => !allowed s (issuerVf s c) w.2).map (fun w => w.1) = l :: ls := by
    rw [laneWords, List.filter_map, List.map_map, ← hbad]
    exact List.map_id _
  rw [runOperands_lanes h hd ha, if_neg (fun hnil => by rw [hnil] at hwords; cases hwords), hwords]
  exact lanesStop_takeTrap h.on h.landed { cause := 0x05, lanes := maskOf (l :: ls) } (show (0x05 : Byte) ≠ cDataPoison by decide)

end

/-- The operand of the spine. -/
def spineWord (k : Kc) (o : OpsM) : Nat := (xGet k.spine o.a.toNat).toNat % 2 ^ 32

/-- On the spine, with its guard true, all checks pass but that on the operand. -/
theorem runOperands_spine {k : Kc} (h : OnSpine s c k) (hguard : spinePred k.spine o.g = true) (hd : o.d.toNat < 32) (ha : o.a.toNat < 32)
    (hclean : k.spine.poison.contains o.a.toNat = false) (hall : allowed s (issuerVf s c) (spineWord k o) = true) :
    runOperands s c o allowed act = giveLanes (act s [(0, spineWord k o)]).1 c o.la.toNat o.d.toNat (act s [(0, spineWord k o)]).2 := by
  have hwords : laneOperands s c o.g o.a = ([(0, spineWord k o)], []) := by
    have hmem : o.a.toNat ∉ k.spine.poison := by simpa using hclean
    simp [laneOperands, actingLanes, h.who, h.kc, hguard, hmem, spineWord]
  have hout : ∀ f, outside s c f [o.d.toNat] = f s := fun f => by rw [outside, h.who]
  rw [runOperands, hwords, hout, workChecked, h.spine]
  refine (checked_ok (by simp [hd, ha]) (poisonedIssue_spine h.spine)).trans ?_
  simp [hall]

end

/-! ### Dependence counters (R310, R316) -/

/-- What one lane does to a counter, by its operand. -/
def Counts (op : Nat) (new : BitVec 16 → BitVec 16 → BitVec 16) : Prop :=
  ∀ old w, depNew op old (w / 65536 % 65536) = new old (BitVec.ofNat 16 (w / 65536))

theorem ofNat_mod_word (w : Nat) : BitVec.ofNat 16 (w % 65536) = BitVec.ofNat 16 w := by
  apply BitVec.eq_of_toNat_eq
  simp

theorem counts_dec : Counts 0 fun old _ => if old = 0 then 0 else old - 1 := fun _ _ => rfl

theorem counts_set : Counts 2 fun _ k => k := fun _ w => ofNat_mod_word (w / 65536)

theorem counts_add : Counts 1 fun old k =>
    if (old.toNat : Int) + k.toInt < 0 then 0 else if 65535 < (old.toNat : Int) + k.toInt then 65535 else old + k := by
  intro old w
  have hsum : ((BitVec.ofNat 16 (w / 65536)).toNat : Int) = (BitVec.ofNat 16 (w / 65536)).toInt ∨
      ((BitVec.ofNat 16 (w / 65536)).toNat : Int) = (BitVec.ofNat 16 (w / 65536)).toInt + 65536 := by
    rw [BitVec.toInt_eq_toNat_cond]
    split <;> simp
  have hnum : depNew 1 old (w / 65536 % 65536) =
      BitVec.ofNat 16 (clampInt 0 65535 (old.toNat + (BitVec.ofNat 16 (w / 65536)).toInt)).toNat := by
    rw [← ofNat_mod_word (w / 65536), ← Answers.sextNat_eq_toInt (by decide)]
    rfl
  generalize BitVec.ofNat 16 (w / 65536) = k at hsum hnum
  rw [hnum, clampInt]
  dsimp only
  by_cases hneg : (old.toNat : Int) + k.toInt < 0
  · rw [if_pos hneg, if_pos hneg]
    rfl
  · by_cases hbig : 65535 < (old.toNat : Int) + k.toInt
    · rw [if_neg hneg, if_pos hbig, if_neg hneg, if_pos hbig]
      rfl
    · rw [if_neg hneg, if_neg hbig, if_neg hneg, if_neg hbig]
      apply BitVec.eq_of_toNat_eq
      rw [BitVec.toNat_ofNat, BitVec.toNat_add]
      omega

/-- A counter that is set changes nothing beside the tundish and the numbers of released records. -/
theorem setCounter_only (s : State) (n : Nat) (v : BitVec 16) :
    { setCounter s n v with tund := s.tund, nextId := s.nextId } = s := by
  unfold setCounter
  dsimp only
  split <;> rfl

theorem releases_setCounter (s : State) (n : Nat) (v : BitVec 16) : Releases s (setCounter s n v) n := by
  have hnew : amGet 0 (setCounter s n v).tund.counts n = v := by rw [setCounter_counts, amGet_amSet_same]
  simp only [Releases, hnew]
  unfold setCounter
  dsimp only
  split
  · next hfalls =>
    have hzero : amGet 0 s.tund.counts n ≠ 0 ∧ v = 0 := by simpa using hfalls
    refine ⟨fun _ => ⟨rfl, ?_⟩, fun hnot => absurd hzero hnot, rfl⟩
    rw [List.map_append, List.map_map]
    congr 1
    have hpair : ((fun r : Nat × Launch => r.2) ∘ fun h : (Nat × Launch) × Nat => (s.nextId + h.2, h.1.2)) = Prod.snd ∘ Prod.fst := rfl
    rw [hpair, ← List.map_map, List.zipIdx_map_fst]
  · next hstays =>
    have hnot : ¬(amGet 0 s.tund.counts n ≠ 0 ∧ v = 0) := by simpa using hstays
    exact ⟨fun hzero => absurd hzero hnot, fun _ => ⟨rfl, rfl⟩, rfl⟩

theorem releases_of_tund {s t u : State} {n : Nat} (h : Releases s t n) (ht : u.tund = t.tund) : Releases s u n := by
  simp only [Releases, ht]
  exact h

/-! ### Lane after lane -/

theorem lowerLanes_head (l : Nat) (ls : List Nat) : lowerLanes (l :: ls) l = [] := by simp [lowerLanes]

theorem lowerLanes_tail {l i : Nat} (h : l ≠ i) (ls : List Nat) : lowerLanes (l :: ls) i = l :: lowerLanes ls i := by
  simp [lowerLanes, h]

section
variable {op : Nat} {new : BitVec 16 → BitVec 16 → BitVec 16} (hop : Counts op new) (w : Nat → Nat)

theorem depAll_only (op : Nat) (ls : List (Nat × Nat)) (s : State) :
    { (depAll s op ls).1 with tund := s.tund, nextId := s.nextId } = s := by
  induction ls generalizing s with
  | nil => rfl
  | cons x ls ih =>
    have hset := setCounter_only s (x.2 % 4096) (depNew op (amGet 0 s.tund.counts (x.2 % 4096)) (x.2 / 65536 % 65536))
    have hrest := congrArg (fun t : State => { t with tund := s.tund, nextId := s.nextId })
      (ih (setCounter s (x.2 % 4096) (depNew op (amGet 0 s.tund.counts (x.2 % 4096)) (x.2 / 65536 % 65536))))
    exact hrest.trans hset

include hop

/-- The counters after one lane. -/
theorem counts_one (s : State) (l k : Nat) :
    amGet 0 (setCounter s (w l % 4096) (depNew op (amGet 0 s.tund.counts (w l % 4096)) (w l / 65536 % 65536))).tund.counts k =
      if w l % 4096 = k then new (amGet 0 s.tund.counts k) (BitVec.ofNat 16 (w l / 65536)) else amGet 0 s.tund.counts k := by
  rw [setCounter_counts, amGet_amSet, hop]
  by_cases hk : w l % 4096 = k
  · subst hk; simp
  · rw [if_neg hk, if_neg (Ne.symm hk)]

/-- A counter after all lanes. -/
theorem depAll_counts (ls : List Nat) (s : State) (k : Nat) :
    amGet 0 (depAll s op (ls.map fun l => (l, w l))).1.tund.counts k = countAfter new w k (amGet 0 s.tund.counts k) ls := by
  induction ls generalizing s with
  | nil => rfl
  | cons l ls ih =>
    refine (ih _).trans ?_
    rw [counts_one hop]
    rfl

/-- Each lane gets the count that the lower lanes leave. -/
theorem depAll_values {ls : List Nat} (hn : ls.Nodup) (s : State) : (depAll s op (ls.map fun l => (l, w l))).2 =
    ls.map fun l => (l, (countAfter new w (w l % 4096) (amGet 0 s.tund.counts (w l % 4096)) (lowerLanes ls l)).toNat) := by
  induction ls generalizing s with
  | nil => rfl
  | cons l ls ih =>
    obtain ⟨hl, hls⟩ := List.nodup_cons.mp hn
    rw [List.map_cons, List.map_cons, lowerLanes_head]
    refine (congrArg (List.cons _) (ih hls _)).trans (congrArg (List.cons _) (List.map_congr_left fun i hi => ?_))
    have hne : l ≠ i := fun hli => hl (hli ▸ hi)
    rw [counts_one hop, lowerLanes_tail hne]
    rfl

end

/-! ### `wdep` (R316) -/

/-- The instruction is `wdep` with operation op. -/
def RunsDep (mk : OpsM → Instr) (op : Nat) : Prop :=
  ∀ o s c, s.cur = some c → exec (mk o) s =
    .next (runOperands s c o (fun s vf w => ownsCounter s vf (w % 4096)) fun s ws => depAll s op ws)

theorem runsDep_dec : RunsDep .wdepDec 0 := fun o s _ hc => (rfl : exec (.wdepDec o) s = execWdepDec o s).trans (issueBy_some hc)
theorem runsDep_add : RunsDep .wdepAdd 1 := fun o s _ hc => (rfl : exec (.wdepAdd o) s = execWdepAdd o s).trans (issueBy_some hc)
theorem runsDep_set : RunsDep .wdepSet 2 := fun o s _ hc => (rfl : exec (.wdepSet o) s = execWdepSet o s).trans (issueBy_some hc)

theorem lanesV_oneV (act : List Nat) (d : Nat) (v : Nat → Word) : lanesV act (fun l => oneV d [l] fun _ => v l) = oneV d act v := by
  funext l r
  by_cases hl : l ∈ act <;> simp [lanesV, oneV, hl]

theorem setWidth_eq_ofNat (v : BitVec 16) : v.setWidth 32 = BitVec.ofNat 32 v.toNat := (BitVec.ofNat_toNat 32 v).symm

section
variable {mk : OpsM → Instr} {op : Nat} {new : BitVec 16 → BitVec 16 → BitVec 16} (hmk : RunsDep mk op) (hop : Counts op new)
include hmk

theorem counterDenied_dep : CounterDenied mk := by
  intro o s c g l ls h hd ha hbad
  exact ⟨_, hmk o s c h.on.cur, runOperands_denied h hd ha hbad⟩

include hop

theorem formDepLanes_of_counts : FormDepLanes mk new := by
  intro o s c g h hd ha act w hall
  have hgroups : (depAll s op (laneWords g c o)).1.groups = s.groups :=
    (congrArg State.groups (depAll_only op (laneWords g c o) s) :)
  refine ⟨_, (hmk o s c h.on.cur).trans (congrArg _ (runOperands_allowed h hd ha hall)), ?_, fun k => ?_⟩
  · rw [show (depAll s op (laneWords g c o)).2 = _ from depAll_values hop w (nodup_active g c o.g) s]
    rw [lanesV_oneV]
    simp only [setWidth_eq_ofNat]
    exact giveLanes_lands h.on h.landed hgroups o.la.toNat o.d (nodup_active g c o.g) _
  · have htund := congrArg State.tund (giveLanes_onlyGroups (U := (depAll s op (laneWords g c o)).1) h.on o.la.toNat o.d.toNat
      (depAll s op (laneWords g c o)).2)
    rw [← depAll_counts hop]
    exact congrArg (fun T : Tundish => amGet 0 T.counts k) htund

end

/-! ### One operand (R316, R317) -/

/-- From s to S one operand has acted, for lane l: only the tundish and the numbers of released records have changed, and the
value given is v. -/
structure ActsOn (s S : State) (vs : List (Nat × Nat)) (v l : Nat) : Prop where
  only : { S with tund := s.tund, nextId := s.nextId } = s
  value : vs = [(l, v)]

/-- An instruction that gives one member the value for its operand, and changes nothing but the tundish and the numbers of
released records. -/
theorem oneOperand_of_runs {i : Instr} {o : OpsM} {allowed : State → FuncNo → Nat → Bool}
    {act : Issue → State → List (Nat × Nat) → State × List (Nat × Nat)} {ready : State → Issue → Nat → Prop} {v : State → Issue → Nat → Nat}
    {post : State → State → Issue → Nat → Prop}
    (hi : ∀ s c, s.cur = some c → exec i s = .next (runOperands s c o allowed (act c)))
    (hready : ∀ s c w, ready s c w → allowed s (issuerVf s c) w = true)
    (hact : ∀ s c l w, ready s c w → ActsOn s (act c s [(l, w)]).1 (act c s [(l, w)]).2 (v s c w) l)
    (hpost : ∀ s t c l w, ready s c w → t.tund = (act c s [(l, w)]).1.tund → post s t c w) : OneOperand i o ready v post := by
  constructor
  · intro s c g l h hd ha w hw
    have hsome : SomeLanes s c g o.g [o.a.toNat] := ⟨h.on, h.landed, by rw [h.one]; exact h.clean⟩
    have hwords : laneWords g c o = [(l, w)] := by rw [laneWords, h.one]; rfl
    have hone := hact s c l w hw
    have hrun : runOperands s c o allowed (act c) = _ := runOperands_allowed (allowed := allowed) (act := act c) hsome hd ha (by
      rw [h.one]
      simpa using hready s c w hw)
    rw [hwords, hone.value] at hrun
    have honly := giveLanes_onlyGroups (U := (act c s [(l, w)]).1) h.on o.la.toNat o.d.toNat [(l, v s c w)]
    refine ⟨_, (hi s c h.on.cur).trans (congrArg _ hrun), ?_, ?_, hpost s _ c l w hw (congrArg State.tund honly :)⟩
    · have hrest := congrArg (fun x : State => { x with groups := s.groups, tund := s.tund, nextId := s.nextId, cur := s.cur
                                                        fresh := s.fresh }) honly
      exact hrest.trans (congrArg (fun x : State => { x with groups := s.groups, cur := s.cur, fresh := s.fresh }) hone.only)
    · exact giveLanes_lands (U := (act c s [(l, w)]).1) h.on h.landed (congrArg State.groups hone.only :) o.la.toNat o.d (List.nodup_singleton l) fun _ => v s c w
  · intro s c k h hguard hd ha hclean w hw
    have hone := hact s c 0 w hw
    have hrun : runOperands s c o allowed (act c) = _ := runOperands_spine (allowed := allowed) (act := act c) h hguard hd ha hclean (hready s c w hw)
    rw [show spineWord k o = w from rfl, hone.value] at hrun
    have honly := giveLanes_onlyKcs (U := (act c s [(0, w)]).1) h o.la.toNat o.d.toNat 0 (v s c w)
    refine ⟨_, (hi s c h.cur).trans (congrArg _ hrun), ?_, ?_, hpost s _ c 0 w hw (congrArg State.tund honly :)⟩
    · have hrest := congrArg (fun x : State => { x with kcs := s.kcs, tund := s.tund, nextId := s.nextId, cur := s.cur
                                                        fresh := s.fresh }) honly
      exact hrest.trans (congrArg (fun x : State => { x with kcs := s.kcs, cur := s.cur, fresh := s.fresh }) hone.only)
    · exact giveLanes_spineRegs (U := (act c s [(0, w)]).1) h (congrArg State.kcs hone.only :) o.la.toNat o.d.toNat 0 (v s c w)

theorem formDep_of_counts {mk : OpsM → Instr} {op : Nat} {new : BitVec 16 → BitVec 16 → BitVec 16} (hmk : RunsDep mk op)
    (hop : Counts op new) : FormDep mk new := by
  intro o
  refine oneOperand_of_runs (act := fun _ s ws => depAll s op ws) (hmk o) (fun _ _ _ hready => hready) (fun s c l w _ => ⟨depAll_only op [(l, w)] s, rfl⟩)
    fun s t c l w _ ht => ⟨fun k => ?_, releases_of_tund (releases_setCounter s _ _) ht⟩
  have hcount := counts_one hop (fun _ => w) s l k
  simp only [eq_comm (a := w % 4096)] at hcount
  exact (congrArg (fun T : Tundish => amGet 0 T.counts k) ht).trans hcount

/-! ### The queries (R317) -/

/-- A query changes nothing, and gives each member the value for its operand. -/
def queried (value : State → FuncNo → Nat → Option Nat) (c : Issue) (s : State) (ws : List (Nat × Nat)) : State × List (Nat × Nat) :=
  (s, ws.map fun w => (w.1, (value s (issuerVf s c) w.2).getD 0))

/-- The instruction is a query of an operand, with the value for it. -/
def RunsQuery (i : Instr) (o : OpsM) (value : State → FuncNo → Nat → Option Nat) : Prop :=
  ∀ s c, s.cur = some c → exec i s = .next (runOperands s c o (fun s vf w => (value s vf w).isSome) (queried value c))

theorem oneOperand_query {i : Instr} {o : OpsM} {value : State → FuncNo → Nat → Option Nat} (hi : RunsQuery i o value)
    {ready : State → Issue → Nat → Prop} {v : State → Issue → Nat → Nat}
    (hvalue : ∀ s c w, ready s c w → value s (issuerVf s c) w = some (v s c w)) :
    OneOperand i o ready v fun s t _ _ => t.tund = s.tund := by
  refine oneOperand_of_runs (act := queried value) hi
    (fun s c w hw => by rw [hvalue s c w hw]; rfl) (fun s c l w hw => ⟨rfl, ?_⟩) fun _ _ _ _ _ _ ht => ht
  simp [queried, hvalue s c w hw]

/-- The value of `wqry.dep`: the counter, if it is the VF's. -/
def counterValue (s : State) (vf : FuncNo) (w : Nat) : Option Nat :=
  if ownsCounter s vf (w % 4096) then some (amGet (0 : BitVec 16) s.tund.counts (w % 4096)).toNat else none

/-- The value of `wqry.feed`: the entries of the queue, if it is the VF's. -/
def feedValue (s : State) (vf : FuncNo) (w : Nat) : Option Nat :=
  let e := queueOf s (BitVec.ofNat 8 w)
  if e.vf = vf then some (min (widxOf s e - ridxOf s e) 0xFFFFFFFF) else none

theorem runQuery_eq (s : State) (c : Issue) (o : OpsM) (value : State → FuncNo → Nat → Option Nat) : runQuery s c o value =
    runOperands s c o (fun s vf w => (value s vf w).isSome) (queried value c) := by
  simp only [runQuery, runOperands, Option.not_isSome]
  rfl

theorem runsQuery_dep (o : OpsM) : RunsQuery (.wqryDep o) o counterValue := fun s c hc =>
  (issueBy_some (f := fun c => runQuery s c o counterValue) hc).trans (congrArg _ (runQuery_eq s c o counterValue))

theorem runsQuery_feed (o : OpsM) : RunsQuery (.wqryFeed o) o feedValue := fun s c hc =>
  (issueBy_some (f := fun c => runQuery s c o feedValue) hc).trans (congrArg _ (runQuery_eq s c o feedValue))

theorem counterDenied_query : CounterDenied .wqryDep := by
  intro o s c g l ls h hd ha hbad
  refine ⟨_, runsQuery_dep o s c h.on.cur, runOperands_denied h hd ha ?_⟩
  rw [← hbad]
  refine List.filter_congr fun i _ => congrArg not ?_
  rw [counterValue]
  split
  · next hown => exact hown.symm
  · next hnot => exact (Bool.eq_false_iff.mpr hnot).symm

theorem counterQuery (o : OpsM) : OneOperand (.wqryDep o) o
    (fun s c w => ownsCounter s (ctxOf s (memberAsid s c.who)).vf (w % 4096) = true)
    (fun s _ w => (amGet (0 : BitVec 16) s.tund.counts (w % 4096)).toNat) (fun s t _ _ => t.tund = s.tund) :=
  oneOperand_query (runsQuery_dep o) fun _ _ _ hown => if_pos hown

theorem queueOf_ofNat (s : State) (w : Nat) : queueOf s (BitVec.ofNat 8 w) = amGet QueueEntry.zero s.tund.queues (w % 256) := by
  rw [queueOf, BitVec.toNat_ofNat]

theorem feedQuery (o : OpsM) : OneOperand (.wqryFeed o) o
    (fun s c w => (amGet QueueEntry.zero s.tund.queues (w % 256)).vf = (ctxOf s (memberAsid s c.who)).vf)
    (fun s _ w => (let q := amGet QueueEntry.zero s.tund.queues (w % 256); min (memVal s q.cb 8 - memVal s (q.cb + 8) 8) 0xFFFFFFFF))
    (fun s t _ _ => t.tund = s.tund) :=
  oneOperand_query (runsQuery_feed o) fun s c w hvf => by
    rw [feedValue, queueOf_ofNat]
    refine (if_pos hvf).trans ?_
    rw [widxOf, ridxOf, memNat_eq_memVal, memNat_eq_memVal]

/-- The records of a member's deque: of its team, or for the spine of all teams of its kernel cluster. -/
def recordsOf (s : State) : Member → Nat
  | .spine kc => s.deques.countP fun r => r.kc = kc
  | .group kc core _ => s.deques.countP fun r => r.kc = kc && r.core = core

/-- `wqry.deque` gives each acting member the number of records. -/
theorem exec_wqryDeque {s : State} {c : Issue} (hc : s.cur = some c) (o : OpsMd) : exec (.wqryDeque o) s =
    .next (workChecked s c false [o.d] (outside s c (dst := [o.d.toNat]) fun s =>
      giveLanes s c o.la.toNat o.d.toNat ((actingLanes s c o.g).map fun l => (l, recordsOf s c.who)))) := by
  have hexec : exec (.wqryDeque o) s = execWqryDeque o s := rfl
  rw [hexec, execWqryDeque, issueBy_some hc]
  cases hwho : c.who with
  | spine kc => simp only [recordsOf, List.countP_eq_length_filter]
  | group kc core idx =>
    simp only [recordsOf, List.countP_eq_length_filter]
    rfl

theorem dequeQuery_lanes (o : OpsMd) {s : State} {c : Issue} {g : Group} (h : OnLanes s c g) (hflights : g.flights = [])
    (hd : vOk g.budget false o.d.toNat = true) :
    ∃ t, exec (.wqryDeque o) s = .next t ∧ OnlyGroups s t ∧ LandsOrFlies s t c o.la.toNat (oneV o.d.toNat (activeLanes g c o.g)
      fun _ => BitVec.ofNat 32 (s.deques.countP fun r => r.kc = g.kc && r.core = g.core)) := by
  have hact : actingLanes s c o.g = activeLanes g c o.g := by
    have hgroup := h.group
    rw [h.who] at hgroup
    simp only [actingLanes, h.who, hgroup]
  have hrun := exec_wqryDeque h.cur o
  rw [outside_of_idle h hflights, workChecked, h.notSpine, hact, checked_ok (by simp [h.group, hd]) h.clean, h.who] at hrun
  exact ⟨_, hrun, giveLanes_onlyGroups h _ _ _, giveLanes_lands h hflights rfl _ o.d (nodup_active g c o.g) fun _ => _⟩

theorem dequeQuery_spine (o : OpsMd) {s : State} {c : Issue} {k : Kc} (h : OnSpine s c k) (hguard : spinePred k.spine o.g = true)
    (hd : o.d.toNat < 32) : ∃ t, exec (.wqryDeque o) s = .next t ∧ OnlyKcs s t ∧ SpineRegs s t k.id
      (fun r => if r = o.d.toNat then some (BitVec.ofNat 64 (s.deques.countP fun q => q.kc = k.id)) else none) (fun _ => none) 0
      (nextPc c) := by
  have hact : actingLanes s c o.g = [0] := by simp [actingLanes, h.who, h.kc, hguard]
  have hrun := exec_wqryDeque h.cur o
  have hout : ∀ f, outside s c f [o.d.toNat] = f s := fun f => by rw [outside, h.who]
  rw [hout, workChecked, h.spine, hact, checked_ok (by simp [hd]) (poisonedIssue_spine h.spine), h.who] at hrun
  exact ⟨_, hrun, giveLanes_onlyKcs h _ _ _ _, giveLanes_spineRegs h rfl _ _ _ _⟩

/-- Settles O35: `wdep` by what one lane does to a counter, one lane after the other; the queries by the value of an operand. -/
theorem dependencesAndQueries : Obligations.DependencesAndQueries := by
  unfold Obligations.DependencesAndQueries
  exact ⟨formDepLanes_of_counts runsDep_dec counts_dec, formDepLanes_of_counts runsDep_add counts_add,
    formDepLanes_of_counts runsDep_set counts_set, counterDenied_dep runsDep_dec, counterDenied_dep runsDep_add,
    counterDenied_dep runsDep_set, counterDenied_query, formDep_of_counts runsDep_dec counts_dec,
    formDep_of_counts runsDep_add counts_add, formDep_of_counts runsDep_set counts_set, counterQuery, feedQuery,
    fun o => ⟨fun _ _ _ h hflights hd => dequeQuery_lanes o h hflights hd, fun _ _ _ h hguard hd => dequeQuery_spine o h hguard hd⟩⟩

end Sys2Proof.Proofs.Dependences
end

section
/-! The candidates of a placement (R318, R319): which there are, in what order, and when one takes a kernel cluster. -/

namespace Sys2Proof.Proofs.Candidates

open Sys2Proof Sys2Proof.Machine Sys2Proof.Claims

/-! ### The candidates in their order (R319) -/

theorem mem_candsOn {dies : List DieNo} {rows cols : Nat} {c : Cand} :
    c ∈ candsOn dies rows cols ↔ c.die ∈ dies ∧ c.row + rows ≤ 3 ∧ c.col + cols ≤ 4 := by
  simp only [candsOn, List.mem_flatMap, List.mem_map, List.mem_range]
  constructor
  · rintro ⟨d, hd, h, -, r, hr, j, hj, rfl⟩
    exact ⟨hd, by dsimp only; omega, by dsimp only; omega⟩
  · rintro ⟨hd, hrow, hcol⟩
    exact ⟨c.die, hd, c.hw.toNat, c.hw.isLt, c.row, by omega, c.col, by omega, by simp⟩

theorem mem_candCores {c : Cand} {rows cols n : Nat} :
    n ∈ candCores c rows cols ↔ ∃ i < rows, ∃ j < cols, c.hw.toNat * 12 + (c.row + i) * 4 + (c.col + j) = n := by
  simp only [candCores, List.mem_flatMap, List.mem_map, List.mem_range]

/-- On dies in ascending order the candidates are listed in the order of R319. -/
theorem candsOn_ordered {dies : List DieNo} (h : (dies.map fun d => d.toNat).Pairwise (· < ·)) (rows cols : Nat) :
    (candsOn dies rows cols).Pairwise fun a b => candKey a < candKey b := by
  have hcol : ∀ (d : DieNo) (i r : Nat), ((List.range (5 - cols)).map fun c => (⟨d, BitVec.ofNat 2 i, r, c⟩ : Cand)).Pairwise
      fun a b => candKey a < candKey b := fun d i r =>
    List.pairwise_map.mpr (List.pairwise_lt_range.imp fun hlt => Nat.add_lt_add_left hlt _)
  refine List.pairwise_flatMap.mpr ⟨fun d _ => List.pairwise_flatMap.mpr
    ⟨fun i _ => List.pairwise_flatMap.mpr ⟨fun r _ => hcol d i r, ?_⟩, ?_⟩, ?_⟩
  · refine List.pairwise_lt_range.imp fun {r r'} hlt a ha b hb => ?_
    obtain ⟨j, hj, rfl⟩ := List.mem_map.mp ha
    obtain ⟨j', -, rfl⟩ := List.mem_map.mp hb
    have := List.mem_range.mp hj
    simp only [candKey]
    omega
  · refine (List.pairwise_lt_range.imp_of_mem fun {i i'} hi hi' hlt a ha b hb => ?_)
    obtain ⟨r, hr, ha⟩ := List.mem_flatMap.mp ha
    obtain ⟨r', -, hb⟩ := List.mem_flatMap.mp hb
    obtain ⟨j, hj, rfl⟩ := List.mem_map.mp ha
    obtain ⟨j', -, rfl⟩ := List.mem_map.mp hb
    have hr := List.mem_range.mp hr
    have hj := List.mem_range.mp hj
    have hi := List.mem_range.mp hi
    have hi' := List.mem_range.mp hi'
    simp only [candKey, BitVec.toNat_ofNat, Nat.mod_eq_of_lt (show i < 2 ^ 2 by omega), Nat.mod_eq_of_lt (show i' < 2 ^ 2 by omega)]
    omega
  · refine (List.pairwise_map.mp h).imp fun {d d'} hlt a ha b hb => ?_
    obtain ⟨i, -, ha⟩ := List.mem_flatMap.mp ha
    obtain ⟨r, hr, ha⟩ := List.mem_flatMap.mp ha
    obtain ⟨j, hj, rfl⟩ := List.mem_map.mp ha
    obtain ⟨i', -, hb⟩ := List.mem_flatMap.mp hb
    obtain ⟨r', -, hb⟩ := List.mem_flatMap.mp hb
    obtain ⟨j', -, rfl⟩ := List.mem_map.mp hb
    have hr := List.mem_range.mp hr
    have hj := List.mem_range.mp hj
    have hi := (BitVec.ofNat 2 i).isLt
    simp only [candKey]
    omega

/-- Of a list in the order of a key a search finds the entry with the least key that passes. -/
theorem find?_eq_some_iff_least {α : Type} {key : α → Nat} {p : α → Bool} {l : List α} (h : l.Pairwise fun a b => key a < key b) {x : α} :
    l.find? p = some x ↔ x ∈ l ∧ p x = true ∧ ∀ y ∈ l, p y = true → key x ≤ key y := by
  induction l with
  | nil => simp
  | cons a l ih =>
    obtain ⟨hhead, htail⟩ := List.pairwise_cons.mp h
    rw [List.find?_cons]
    split
    · next hp =>
      simp only [Option.some.injEq]
      constructor
      · rintro rfl
        exact ⟨List.mem_cons_self, hp, List.forall_mem_cons.mpr ⟨fun _ => le_rfl, fun y hy _ => (hhead y hy).le⟩⟩
      · rintro ⟨hx, -, hmin⟩
        rcases List.mem_cons.mp hx with rfl | hx
        · rfl
        · exact absurd (hmin a List.mem_cons_self hp) (Nat.not_le.mpr (hhead x hx))
    · next hp =>
      rw [ih htail]
      constructor
      · rintro ⟨hx, hpx, hmin⟩
        exact ⟨List.mem_cons_of_mem _ hx, hpx, List.forall_mem_cons.mpr ⟨fun ha => absurd ha (by simp [hp]), hmin⟩⟩
      · rintro ⟨hx, hpx, hmin⟩
        rcases List.mem_cons.mp hx with rfl | hx
        · rw [hpx] at hp; cases hp
        · exact ⟨hx, hpx, fun y hy => hmin y (List.mem_cons_of_mem _ hy)⟩

/-! ### What a core takes (R318) -/

theorem foldl_add_eq_sum (l : List Nat) : l.foldl (· + ·) 0 = l.sum := List.sum_eq_foldl.symm

/-- All bits of one word are set in another. -/
theorem and_eq_right_iff {w : Nat} (a b : BitVec w) : a &&& b = b ↔ ∀ i < w, b.getLsbD i = true → a.getLsbD i = true := by
  constructor
  · intro h i _ hb
    have := congrArg (fun x : BitVec w => x.getLsbD i) h
    simpa [hb] using this
  · intro h
    apply BitVec.eq_of_getLsbD_eq
    intro i hi
    cases hb : b.getLsbD i with
    | false => simp [hb]
    | true => simp [hb, h i hi hb]

theorem getLsbD_withRegion (m : Mould) (i : Nat) :
    (mouldReq m).getLsbD i = (m.caps.getLsbD i || (decide (m.regions ≠ []) && decide (i = 10))) := by
  have hbit : (0x400 : Word).getLsbD i = decide (i = 10) := by
    rw [show (0x400 : Word) = BitVec.twoPow 32 10 by decide, BitVec.getLsbD_twoPow]
    by_cases hi : i = 10 <;> simp [hi, eq_comm]
  rw [mouldReq, withRegion, BitVec.getLsbD_or]
  by_cases hr : m.regions = []
  · simp [hr]
  · rw [if_neg (by simpa using hr), hbit, decide_eq_true hr, Bool.true_and]

theorem coreMeets_iff {s : State} {m : Mould} {d : DieNo} {c : Nat} : coreMeets s (mouldReq m) d c = true ↔
    (∀ i < 4, m.caps.getLsbD i = true → (coreCaps s d c).getLsbD i = true) ∧
    (∀ i < 4, m.caps.getLsbD (8 + i) = true ∨ (i = 2 ∧ m.regions ≠ []) → (coreFeat s d c).getLsbD i = true) ∧
    c ∉ (dieOf s d).outOf := by
  have hcaps : ∀ i < 4, ((mouldReq m).setWidth 4).getLsbD i = m.caps.getLsbD i := fun i hi => by
    rw [BitVec.getLsbD_setWidth, getLsbD_withRegion]
    simp [hi, show i ≠ 10 by omega]
  have hfeat : ∀ i < 4, (BitVec.ofNat 4 (bitsOf (mouldReq m) 11 8)).getLsbD i =
      (m.caps.getLsbD (8 + i) || (decide (m.regions ≠ []) && decide (i = 2))) := fun i hi => by
    have hfield : BitVec.ofNat 4 (bitsOf (mouldReq m) 11 8) = (mouldReq m).extractLsb' 8 4 := by
      rw [Feed.bitsOf_eq_extractLsb, BitVec.ofNat_toNat, BitVec.setWidth_eq]
    rw [hfield, BitVec.getLsbD_extractLsb', getLsbD_withRegion]
    simp [hi, show (8 + i = 10) = (i = 2) by simp; omega]
  simp only [coreMeets, Bool.and_eq_true, decide_eq_true_eq, and_eq_right_iff, Bool.not_eq_true', and_assoc]
  refine and_congr (forall₂_congr fun i hi => by rw [hcaps i hi]) (and_congr (forall₂_congr fun i hi => ?_) (by simp))
  rw [hfeat i hi]
  simp only [Bool.or_eq_true, Bool.and_eq_true, decide_eq_true_eq, and_comm]

theorem coreFits_iff {s : State} {m : Mould} {d : DieNo} {c : Nat} :
    coreFits s m (mouldReq m) d c 1 = true ↔ CoreTakes s m d c := by
  have hdeque : dequeFill s (d, c) = (s.deques.filter fun r => (kcOf s r.kc).place.isSome ∧
      hwCore (kcOf s r.kc) r.core = (d, c)).length := by
    simp only [dequeFill, Bool.decide_and, Bool.decide_eq_true]
  simp only [coreFits, Bool.and_eq_true, decide_eq_true_eq, coreMeets_iff, foldl_add_eq_sum, hdeque]
  constructor
  · rintro ⟨⟨⟨⟨⟨⟨⟨⟨⟨⟨⟨hcaps, hfeat, hservice⟩, hgroups⟩, hlanes⟩, hregs⟩, hw⟩, ha⟩, hc⟩, hbars⟩, hstepped⟩, hdeque⟩, hseats⟩
    exact ⟨hservice, hcaps, hfeat, hgroups, hlanes, hregs, hw, ha, hc, hbars, hstepped, by omega, hseats⟩
  · rintro ⟨hservice, hcaps, hfeat, hgroups, hlanes, hregs, hw, ha, hc, hbars, hstepped, hdeque, hseats⟩
    exact ⟨⟨⟨⟨⟨⟨⟨⟨⟨⟨⟨hcaps, hfeat, hservice⟩, hgroups⟩, hlanes⟩, hregs⟩, hw⟩, ha⟩, hc⟩, hbars⟩, hstepped⟩, by omega⟩, hseats⟩

theorem length_spinesUsed (s : State) (d : DieNo) (hw : BitVec 2) : (spinesUsed s d hw).length =
    (s.kcs.filter fun k => k.place.map (fun p => (p.die, p.hw)) = some (d, hw)).length := by
  rw [spinesUsed]
  induction s.kcs with
  | nil => rfl
  | cons k ks ih =>
    cases hp : k.place with
    | none => simpa [List.filterMap_cons, List.filter_cons, hp] using ih
    | some p => by_cases h : p.die = d ∧ p.hw = hw <;> simpa [List.filterMap_cons, List.filter_cons, hp, h] using ih

section
variable {s : State} (hfree : agedHeads s = [])
include hfree

/-- While no head reserves anything a candidate fits when it takes the kernel cluster. -/
theorem fitsAt_iff (m : Mould) (who : Option HeadKey) (c : Cand) : fitsAt s m (mouldReq m) who (fun _ => 1) c = true ↔ Takes s m c := by
  have hall : ((candCores c m.rows m.cols).zipIdx.all fun i => coreFits s m (mouldReq m) c.die i.1 1) =
      (candCores c m.rows m.cols).all fun i => coreFits s m (mouldReq m) c.die i 1 := by
    conv_rhs => rw [← List.zipIdx_map_fst 0 (candCores c m.rows m.cols)]
    rw [List.all_map]
    rfl
  have hopen : candOpen s who c m.rows m.cols = true ↔ (dieOf s c.die).st = .online ∧ (spinesUsed s c.die c.hw).length < 4 := by
    simp [candOpen, hfree, spinesReserved, coreReserved]
  rw [fitsAt, Bool.and_eq_true, hall, hopen, Takes, and_assoc, length_spinesUsed]
  refine and_congr_right fun _ => and_congr_right fun _ => ?_
  simp only [List.all_eq_true, mem_candCores, coreFits_iff]
  constructor
  · exact fun h i hi j hj => h _ ⟨i, hi, j, hj, rfl⟩
  · rintro h n ⟨i, hi, j, hj, rfl⟩
    exact h i hi j hj

/-- A search among the candidates finds the first that fits, of those on allowed dies. -/
theorem find?_candsOn {dies : List DieNo} (hdies : (dies.map fun d => d.toNat).Pairwise (· < ·)) {m : Mould} {who : Option HeadKey}
    {p : DieNo → Bool} {ok : DieNo → Prop} (hok : ∀ d, ok d ↔ d ∈ dies ∧ p d = true) {c : Cand} :
    ((candsOn dies m.rows m.cols).find? fun c => p c.die && fitsAt s m (mouldReq m) who (fun _ => 1) c) = some c ↔ FirstFit s m ok c := by
  rw [find?_eq_some_iff_least (candsOn_ordered hdies m.rows m.cols)]
  simp only [mem_candsOn, Bool.and_eq_true, fitsAt_iff hfree]
  constructor
  · rintro ⟨⟨hd, hmesh⟩, ⟨hp, htakes⟩, hmin⟩
    exact ⟨hmesh, (hok c.die).mpr ⟨hd, hp⟩, htakes, fun x hx hxok hxt =>
      hmin x ⟨((hok x.die).mp hxok).1, hx⟩ ⟨((hok x.die).mp hxok).2, hxt⟩⟩
  · rintro ⟨hmesh, hd, htakes, hmin⟩
    exact ⟨⟨((hok c.die).mp hd).1, hmesh⟩, ⟨((hok c.die).mp hd).2, htakes⟩, fun x hx hxp =>
      hmin x hx.2 ((hok x.die).mpr ⟨hx.1, hxp.1⟩) hxp.2⟩

end

/-! ### Grids that can never be placed (R319) -/

theorem unplaceable_iff (s : State) (l : Launch) (m : Mould) : unplaceable s l m = true ↔ NeverPlaced s l m := by
  have hregs : (roleGroups m).foldl (fun n g => n + g.2.1 * g.2.2.1 * 4) 0 = total (roleGroups m) fun g => g.2.1 * g.2.2.1 * 4 := by
    rw [total, ← foldl_add_eq_sum, List.foldl_map]
  have hone : (((candsOn ((ctxDies s l.asid).filter fun d => (dieOf s d).st ≠ .failed) m.rows m.cols).any fun c =>
      (candCores c m.rows m.cols).all fun i => coreMeets s (mouldReq m) c.die i) = false) ↔
      ∀ c, InMesh m c → c.die ∈ ctxDies s l.asid → (dieOf s c.die).st ≠ .failed →
        ∃ i < m.rows, ∃ j < m.cols, coreMeets s (mouldReq m) c.die (c.hw.toNat * 12 + (c.row + i) * 4 + (c.col + j)) = false := by
    simp only [List.any_eq_false, mem_candsOn, List.mem_filter, decide_eq_true_eq, List.all_eq_true, mem_candCores, not_forall,
      Bool.not_eq_true]
    constructor
    · intro h c hmesh hd hst
      obtain ⟨n, ⟨i, hi, j, hj, rfl⟩, hbad⟩ := h c ⟨⟨hd, hst⟩, hmesh⟩
      exact ⟨i, hi, j, hj, hbad⟩
    · rintro h c ⟨⟨hd, hst⟩, hmesh⟩
      obtain ⟨i, hi, j, hj, hbad⟩ := h c hmesh hd hst
      exact ⟨_, ⟨i, hi, j, hj, rfl⟩, hbad⟩
  rw [unplaceable, NeverPlaced, ← hone, ← hregs]
  simp only [Bool.or_eq_true, decide_eq_true_eq, Bool.not_eq_true', or_assoc]
  refine or_congr_right (or_congr_right or_comm)

end Sys2Proof.Proofs.Candidates
end

section
/-! The start of a grid (R319, R322): what the placement of a kernel cluster changes, and the placements that form a start. -/

namespace Sys2Proof.Proofs.Starts

open Sys2Proof Sys2Proof.Machine Sys2Proof.Claims Sys2Proof.Proofs.Candidates

/-! ### Sorting by a key -/

theorem insertFirst_perm {α : Type} (key : α → Nat) (x : α) (l : List α) : (sortBy.insertFirst key x l).Perm (x :: l) := by
  induction l with
  | nil => exact .refl _
  | cons y ys ih =>
    rw [sortBy.insertFirst]
    split
    · exact .refl _
    · exact (ih.cons y).trans (.swap x y ys)

theorem sortBy_perm {α : Type} (key : α → Nat) (l : List α) : (sortBy key l).Perm l := by
  induction l with
  | nil => exact .refl _
  | cons x xs ih => exact (insertFirst_perm key x _).trans (ih.cons x)

theorem insertFirst_sorted {α : Type} {key : α → Nat} (x : α) {l : List α} (h : l.Pairwise fun a b => key a ≤ key b) :
    (sortBy.insertFirst key x l).Pairwise fun a b => key a ≤ key b := by
  induction l with
  | nil => exact List.pairwise_singleton _ x
  | cons y ys ih =>
    obtain ⟨hy, hys⟩ := List.pairwise_cons.mp h
    rw [sortBy.insertFirst]
    split
    · next hle => exact List.pairwise_cons.mpr ⟨List.forall_mem_cons.mpr ⟨hle, fun z hz => hle.trans (hy z hz)⟩, h⟩
    · next hle =>
      refine List.pairwise_cons.mpr ⟨fun z hz => ?_, ih hys⟩
      rcases List.mem_cons.mp ((insertFirst_perm key x ys).mem_iff.mp hz) with rfl | hz
      · omega
      · exact hy z hz

theorem sortBy_sorted {α : Type} (key : α → Nat) (l : List α) : (sortBy key l).Pairwise fun a b => key a ≤ key b := by
  induction l with
  | nil => exact List.Pairwise.nil
  | cons x xs ih => exact insertFirst_sorted x ih

/-- Dies sorted by number, each once, are in ascending order. -/
theorem sortBy_dies_ascending {l : List DieNo} (h : l.Nodup) : ((sortBy (fun d => d.toNat) l).map fun d => d.toNat).Pairwise (· < ·) := by
  rw [List.pairwise_map]
  refine ((sortBy_sorted _ l).and ((sortBy_perm (fun d : DieNo => d.toNat) l).nodup_iff.mpr h)).imp fun {a b} hab => ?_
  exact lt_of_le_of_ne hab.1 fun he => hab.2 (BitVec.eq_of_toNat_eq he)

/-! ### The placement of one kernel cluster (R322) -/

/-- The placement of a kernel cluster leaves the tundish, the grids, the contexts and the dies. -/
theorem placeKc_only (s : State) (g : Grid) (n : Nat) (c : Cand) :
    { placeKc s g n c with mem := s.mem, nextId := s.nextId, fresh := s.fresh, kcs := s.kcs, teams := s.teams, groups := s.groups
                           deques := s.deques } = s := by
  simp only [placeKc, touch]
  split <;> rfl

theorem placeKc_tund (s : State) (g : Grid) (n : Nat) (c : Cand) : (placeKc s g n c).tund = s.tund :=
  (congrArg State.tund (placeKc_only s g n c) :)

theorem placeKc_grids (s : State) (g : Grid) (n : Nat) (c : Cand) : (placeKc s g n c).grids = s.grids :=
  (congrArg State.grids (placeKc_only s g n c) :)

/-- The kernel cluster that a placement makes. -/
def placedKc (s : State) (g : Grid) (n : Nat) (c : Cand) : Kc :=
  { id := s.nextId, grid := g.id, asid := g.asid, cluster := BitVec.ofNat 32 n
    gx := BitVec.ofNat 32 (n % g.gx), gy := BitVec.ofNat 32 (n / g.gx % g.gy), gz := BitVec.ofNat 32 (n / (g.gx * g.gy))
    rows := g.mould.rows, cols := g.mould.cols, cfgSprue := g.mould.sprue, cfgBar := g.mould.barriers
    place := some ⟨c.die, c.hw, c.row, c.col, freeSpine s c⟩, status := .running, slotNo := none
    sprue := [], spine := { spineInit g.mould.spine with gsteps := g.boundary, seenFrom := s.fresh + 1 } }

theorem placeKc_kcs (s : State) (g : Grid) (n : Nat) (c : Cand) : (placeKc s g n c).kcs = s.kcs ++ [placedKc s g n c] := by
  simp only [placeKc, touch, placedKc]
  split <;> rfl

/-- Where fewer than four spine contexts are used, the lowest free one is not among them. -/
theorem freeSpine_free {s : State} {c : Cand} (h : (spinesUsed s c.die c.hw).length < 4) : freeSpine s c ∉ spinesUsed s c.die c.hw := by
  have hsome : ((List.range 4).filter fun i => !(spinesUsed s c.die c.hw).contains i) ≠ [] := by
    intro hnil
    have hall : List.range 4 ⊆ spinesUsed s c.die c.hw := fun i hi => by
      simpa using List.filter_eq_nil_iff.mp hnil i hi
    have := (List.nodup_range (n := 4)).length_le_of_subset hall
    rw [List.length_range] at this
    omega
  obtain ⟨i, rest, hlist⟩ := List.exists_cons_of_ne_nil hsome
  have hmem : i ∈ (List.range 4).filter fun i => !(spinesUsed s c.die c.hw).contains i := hlist ▸ List.mem_cons_self
  rw [freeSpine, hlist]
  simpa using (List.mem_filter.mp hmem).2

theorem mem_spinesUsed {s : State} {q : Kc} {r : Place} (hq : q ∈ s.kcs) (hr : q.place = some r) : r.ctx ∈ spinesUsed s r.die r.hw :=
  List.mem_filterMap.mpr ⟨q, hq, by simp [hr]⟩

/-! ### The placements of a start (R319) -/

/-- The dies of a context's partition stand in ascending order. -/
theorem ctxDies_ascending (s : State) (asid : Asid) : ((ctxDies s asid).map fun d => d.toNat).Pairwise (· < ·) := by
  have hpart : ∀ mode part : BitVec 2, ((partDies mode part).map fun d => d.toNat).Pairwise (· < ·) := by decide
  unfold ctxDies
  split
  · exact hpart ..
  · exact List.Pairwise.nil

theorem dieAllowed_iff (m : Mould) (left : Nat) (used : List DieNo) (d : DieNo) : dieAllowed m (left + 1) used d = true ↔
    (d ∈ used → m.dmin ≤ used.length + left) ∧ (d ∉ used → used.length < m.dmax) := by
  by_cases hd : d ∈ used
  · simp only [dieAllowed, List.contains_iff_mem, hd, if_true, Bool.not_eq_true', decide_eq_false_iff_not, forall_const, not_true,
      false_implies, and_true]
    omega
  · simp [dieAllowed, hd]

/-- A head that is not aged reserves nothing. -/
theorem agedHeads_of_tund {s t : State} (h : t.tund = s.tund) : agedHeads t = agedHeads s := by rw [agedHeads, agedHeads, h]

/-- The placements that the tundish forms are those of R319. -/
theorem formStart_eq_some_iff {g : Grid} {dies : List DieNo} (hdies : (dies.map fun d => d.toNat).Pairwise (· < ·)) {who : Option HeadKey}
    {t : State} {all : List DieNo} {left n : Nat} {s : State} {used : List DieNo} (hfree : agedHeads s = []) :
    formStart s who g dies left n used = some (t, all) ↔ Formed g dies t all left n s used := by
  induction left generalizing n s used with
  | zero => simp [formStart, Formed, eq_comm]
  | succ left ih =>
    have hfind := fun c => find?_candsOn (s := s) hfree hdies (m := g.mould) (who := who) (p := dieAllowed g.mould (left + 1) used)
      (ok := fun d => d ∈ dies ∧ (d ∈ used → g.mould.dmin ≤ used.length + left) ∧ (d ∉ used → used.length < g.mould.dmax))
      (fun d => and_congr_right fun _ => (dieAllowed_iff g.mould left used d).symm) (c := c)
    have hnext : ∀ c, agedHeads (placeKc s g n c) = [] := fun c => (agedHeads_of_tund (placeKc_tund s g n c)).trans hfree
    simp only [formStart, Formed, List.contains_iff_mem]
    split
    · next hnone =>
      refine ⟨fun h => (by cases h), ?_⟩
      rintro ⟨c, hfirst, -⟩
      rw [(hfind c).mpr hfirst] at hnone
      cases hnone
    · next c hsome =>
      rw [ih (hnext c)]
      refine ⟨fun h => ⟨c, (hfind c).mp hsome, h⟩, ?_⟩
      rintro ⟨c', hfirst, h⟩
      have hsame := (hfind c').mpr hfirst
      rw [hsome, Option.some.injEq] at hsame
      exact hsame ▸ h

section
variable {g : Grid} {dies : List DieNo} {t : State} {all : List DieNo}

theorem formed_tund {left n : Nat} {s : State} {used : List DieNo} (h : Formed g dies t all left n s used) : t.tund = s.tund := by
  induction left generalizing n s used with
  | zero => rw [h.1]
  | succ left ih =>
    obtain ⟨c, -, h⟩ := h
    exact (ih h).trans (placeKc_tund s g n c)

theorem formed_grids {left n : Nat} {s : State} {used : List DieNo} (h : Formed g dies t all left n s used) : t.grids = s.grids := by
  induction left generalizing n s used with
  | zero => rw [h.1]
  | succ left ih =>
    obtain ⟨c, -, h⟩ := h
    exact (ih h).trans (placeKc_grids s g n c)

/-- A start places as many kernel clusters as it forms. -/
theorem formed_length {left n : Nat} {s : State} {used : List DieNo} (h : Formed g dies t all left n s used) :
    t.kcs.length = s.kcs.length + left := by
  induction left generalizing n s used with
  | zero => rw [h.1]; rfl
  | succ left ih =>
    obtain ⟨c, -, h⟩ := h
    rw [ih h, placeKc_kcs, List.length_append, List.length_singleton]
    omega

/-- The dies of a start are listed once each. -/
theorem formed_nodup {left n : Nat} {s : State} {used : List DieNo} (h : Formed g dies t all left n s used) (hn : used.Nodup) :
    all.Nodup := by
  induction left generalizing n s used with
  | zero => exact h.2 ▸ hn
  | succ left ih =>
    obtain ⟨c, -, h⟩ := h
    refine ih h ?_
    split
    · exact hn
    · next hnot => exact List.nodup_append.mpr ⟨hn, List.nodup_singleton _, by simpa using fun a ha (he : a = c.die) => hnot (he ▸ ha)⟩

end

end Sys2Proof.Proofs.Starts
end

section
/-! The completion of a launch that leaves its queue (R302, R320): the heads of the other queues and the grids stay. -/

namespace Sys2Proof.Proofs.Heads

open Sys2Proof Sys2Proof.Machine Sys2Proof.Claims Sys2Proof.Proofs.Completions Sys2Proof.Proofs.Accesses Sys2Proof.Proofs.Feed

/-! ### What stores of the device leave of the tundish -/

/-- From s to t the heads of the queues stay. -/
def KeepsHeads (s t : State) : Prop := t.tund.heads = s.tund.heads

theorem KeepsHeads.trans {s t u : State} (h : KeepsHeads s t) (h' : KeepsHeads t u) : KeepsHeads s u := Eq.trans h' h

theorem KeepsHeads.ite {α : Type} {s : State} {p : Prop} [Decidable p] {x y : State × α} (hx : KeepsHeads s x.1)
    (hy : KeepsHeads s y.1) : KeepsHeads s (if p then x else y).1 := by
  split
  · exact hx
  · exact hy

theorem memWrite_heads (s : State) (pa : Nat) (bytes : List Byte) : KeepsHeads s (memWrite s pa bytes) :=
  (congrArg Tundish.heads (memWrite_tund s pa bytes) :)

theorem memWriteNat_heads (s : State) (pa n v : Nat) : KeepsHeads s (memWriteNat s pa n v) := memWrite_heads ..

theorem allocate_heads {s t : State} {c : Ctx} {va pte : Nat} {cls : BitVec 2} (h : allocate s c va pte cls = .ok t) :
    KeepsHeads s t := by
  simp only [allocate] at h
  split at h
  · cases h
  · split at h
    · cases h
    · injection h with h
      subst h
      refine KeepsHeads.trans ?_ ((memWriteNat_heads _ _ _ _).trans (memWriteNat_heads _ _ _ _))
      rfl

theorem translate_heads (s : State) (c : Ctx) (va : Nat) : KeepsHeads s (Machine.translate s c va).1 := by
  unfold Machine.translate
  generalize walkBoth s c va = w
  dsimp only
  cases w with
  | error e =>
    split
    · rfl
    · exact .ite rfl (.ite rfl rfl)
  | ok x =>
    have hkeep : ∀ T, KeepsHeads s (if x.aot.isSome then s else { s with tlb := T }) := fun T => by split <;> rfl
    split
    · exact hkeep _
    · exact .ite (hkeep _) (.ite rfl (hkeep _))

theorem resolvePart_heads (s : State) (c : Ctx) (need : Need) (feat : Bool) (va n : Nat) :
    KeepsHeads s (resolvePart s c need feat va n).1 := by
  have htr := translate_heads s c va
  unfold resolvePart
  generalize Machine.translate s c va = r at htr ⊢
  obtain ⟨u, e | x⟩ := r
  · exact htr
  · refine .ite htr ?_
    cases x.aot with
    | none =>
      refine .ite htr (.ite htr (.ite htr ?_))
      cases wayOf x.pa x.cls with
      | door a i off => exact .ite htr htr
      | mem pa cls => exact htr
      | window w off => exact htr
      | fabric dev exp off => exact htr
    | some pte =>
      dsimp only
      cases hal : allocate u c va pte x.cls with
      | error code => exact htr
      | ok t =>
        have hboth := htr.trans (allocate_heads hal)
        dsimp only
        cases walkBoth t c va with
        | error e => exact hboth
        | ok x => exact .ite hboth hboth

theorem resolve_heads (s : State) (c : Ctx) (need : Need) (feat : Bool) (va n : Nat) :
    KeepsHeads s (resolve s c need feat va n).1 := by
  unfold resolve
  dsimp only
  split
  · have hpart := resolvePart_heads s c need feat va n
    generalize resolvePart s c need feat va n = r at hpart ⊢
    obtain ⟨u, e | w⟩ := r <;> exact hpart
  · have hfirst := resolvePart_heads s c need feat va (65536 - va % 65536)
    generalize resolvePart s c need feat va (65536 - va % 65536) = r at hfirst ⊢
    have hboth := hfirst.trans (resolvePart_heads r.1 c need feat ((va + (65536 - va % 65536)) % 2 ^ 48) (n - (65536 - va % 65536)))
    generalize resolvePart r.1 c need feat ((va + (65536 - va % 65536)) % 2 ^ 48) (n - (65536 - va % 65536)) = r' at hboth ⊢
    split <;> exact hboth

theorem ctxWrite_heads (s : State) (c : Ctx) (pa : Nat) (cls : BitVec 2) (bytes : List Byte) : KeepsHeads s (ctxWrite s c pa cls bytes) := by
  unfold ctxWrite touch
  dsimp only
  split
  · refine KeepsHeads.trans ?_ (memWrite_heads _ pa bytes)
    split <;> rfl
  · exact memWrite_heads ..

theorem ringOnce_heads (s : State) (a : Asid) (i : Nat) (rel : Bool) : KeepsHeads s (ringOnce s a i rel) := by
  unfold ringOnce
  split
  · split <;> rfl
  · split
    · rfl
    · split
      · rfl
      · split
        · rfl
        · split <;> rfl

theorem quietStore_heads {s t : State} {c : Ctx} {va : Nat} {bytes : List Byte} (h : quietStore s c va bytes = some t) :
    KeepsHeads s t := by
  have hres := resolve_heads s c { w := true } true va bytes.length
  unfold quietStore at h
  generalize resolve s c { w := true } true va bytes.length = r at h hres
  split at h
  · split at h
    · split at h
      · cases h
      · injection h with h
        exact h ▸ hres.trans (ctxWrite_heads ..)
    · injection h with h
      exact h ▸ hres.trans (ringOnce_heads ..)
    · obtain ⟨tg, -, rfl⟩ := Option.map_eq_some_iff.mp h
      exact hres
  · cases h

theorem wordStored_heads (s : State) (l : Launch) (status cause : Nat) : KeepsHeads s (wordStored s l status cause) := by
  unfold wordStored
  split
  · rfl
  · split
    · rfl
    · next c _ =>
      cases hstore : quietStore s c (recField l.bytes 0x18 8) (natToBytes 8 (status + 256 * cause)) with
      | none => rfl
      | some t => exact quietStore_heads hstore

theorem signalled_heads (s : State) (l : Launch) : KeepsHeads s (signalled s l) := by
  unfold signalled decCounter setCounter
  split
  · dsimp only
    split
    · rfl
    · split <;> rfl
  · rfl

theorem completeLaunch_heads (s : State) (l : Launch) (status cause : Nat) : KeepsHeads s (completeLaunch s l status cause) := by
  rw [completeLaunch_eq]
  exact (wordStored_heads s l status cause).trans (signalled_heads _ l)

theorem completeLaunch_grids (s : State) (l : Launch) (status cause : Nat) : (completeLaunch s l status cause).grids = s.grids :=
  (completeLaunch_keepsMembers s l status cause).grids

/-! ### The completion of a launch that never became a grid (R302) -/

/-- The clearing of the touched-dies mask is no part of what a completion says. -/
theorem completed_of_untouched {s t : State} {l : Launch} {C : Ctx} {status cause : Nat} {asid : Asid}
    (hdesc : ∀ c, ctxOf? t asid = some c → c.desc = C.desc) (h : Completed s (untouchIfIdle t asid) l C status cause) :
    Completed s t l C status cause := by
  have hmem : ∀ a, a < C.desc + 0x58 ∨ C.desc + 0x60 ≤ a → memByte (untouchIfIdle t asid) a = memByte t a := fun a ha =>
    memByte_untouchIfIdle hdesc ha
  obtain ⟨hsilent, hword, hsig⟩ := h
  refine ⟨fun hdone a ha => ?_, fun u pa cls va hdone hcls hres a ha => ?_, fun hstored => ?_⟩
  · rw [← hmem a ha]
    exact hsilent hdone a ha
  · rw [← hmem a ha]
    exact hword u pa cls va hdone hcls hres a ha
  · have := hsig hstored
    rwa [CounterFalls, untouchIfIdle_tund] at this

theorem completed_launch {s : State} {l : Launch} {C : Ctx} (hC : ctxOf? s l.asid = some C) (status cause : Nat) :
    Completed s (completeLaunch s l status cause) l C status cause :=
  completed_of_untouched (fun _ hc => (completeLaunch_keepsMembers s l status cause).desc hc hC)
    (completed_completeLaunch hC status cause)

/-! ### A head that leaves (R306, R320) -/

/-- The head k is gone; its record still stands in its ring or among the released ones. -/
def withoutHead (s : State) (k : HeadKey) : State :=
  { s with tund := { s.tund with heads := s.tund.heads.filter fun h => decide (h.key ≠ k) } }

/-- A head that leaves changes only memory and the tundish. -/
theorem leaveHead_only (s : State) (k : HeadKey) : OnlyWrote s (leaveHead s k) := by
  cases k with
  | released n => rfl
  | ring q =>
    have hraise : OnlyWrote (withoutHead s (.ring q)) (raiseRidx (withoutHead s (.ring q)) (queueOf (withoutHead s (.ring q)) q)) :=
      onlyWrote_memWrite ..
    exact congrArg (fun x : State => { x with tund := s.tund }) hraise

theorem leaveHead_heads (s : State) (k : HeadKey) : (leaveHead s k).tund.heads = s.tund.heads.filter fun h => decide (h.key ≠ k) := by
  unfold leaveHead
  cases k with
  | released n => rfl
  | ring q => exact memWriteNat_heads ..

theorem leaveHead_grids (s : State) (k : HeadKey) : (leaveHead s k).grids = s.grids := ((leaveHead_only s k).same State.grids :)

end Sys2Proof.Proofs.Heads
end

section
/-! A round of placement, step by step (R320): what each of its steps leaves unchanged, and what one does that has work. -/

namespace Sys2Proof.Proofs.Rounds

open Sys2Proof Sys2Proof.Machine Sys2Proof.Claims Sys2Proof.Proofs.Candidates Sys2Proof.Proofs.Starts Sys2Proof.Proofs.Heads

/-! ### The steps of a round -/

/-- The idle contexts take up their descriptors. -/
def latch (s : State) : State := s.ctxs.foldl relatch s

/-- The heads stay that still stand for their record. -/
def stand (s : State) : State := { s with tund := { s.tund with heads := s.tund.heads.filter (headStands s) } }

/-- The heads are met. -/
def meetAll (s : State) : State := (allHeads s).foldl meetHead s

/-- The pending clusters of a class are placed. -/
def placeClass (s : State) (k : Nat) : State :=
  ((s.grids.filter fun g => g.mould.klass = k).map fun g => g.id).foldl (fun s g => placePending s g 64) s

/-- The permission to grow lasts for one round. -/
def endGrowth (s : State) : State := { s with grids := s.grids.map fun g => { g with grow := false } }

/-- The heads of a class are served. -/
def serveClass (s : State) (k : Nat) : State := (classHeads s k).foldl serveHead s

/-- What a round does with the classes, the highest first, when its heads have been met. -/
def classes (s : State) : State := [3, 2, 1, 0].foldl serveClass (endGrowth ([3, 2, 1, 0].foldl placeClass s))

theorem placementRound_eq (s : State) : exec .placementRound s = .next (classes (meetAll (stand (latch s)))) := rfl

/-! ### Folds -/

theorem foldl_eq_self_of_forall_mem {α β : Type} {f : β → α → β} {b : β} {l : List α} (h : ∀ x ∈ l, f b x = b) : l.foldl f b = b := by
  induction l with
  | nil => rfl
  | cons x xs ih =>
    rw [List.foldl_cons, h x List.mem_cons_self]
    exact ih fun y hy => h y (List.mem_cons_of_mem x hy)

/-- Of the classes only k has work, before and after its turn. -/
theorem foldl_classes {f : State → Nat → State} {s : State} {k : Nat} (hk : k ≤ 3) (hbefore : ∀ j, j ≠ k → f s j = s)
    (hafter : ∀ j, j ≠ k → f (f s k) j = f s k) : [3, 2, 1, 0].foldl f s = f s k := by
  simp only [List.foldl_cons, List.foldl_nil]
  obtain rfl | rfl | rfl | rfl : k = 3 ∨ k = 2 ∨ k = 1 ∨ k = 0 := by omega
  · rw [hafter 2 (by decide), hafter 1 (by decide), hafter 0 (by decide)]
  · rw [hbefore 3 (by decide), hafter 1 (by decide), hafter 0 (by decide)]
  · rw [hbefore 3 (by decide), hbefore 2 (by decide), hafter 0 (by decide)]
  · rw [hbefore 3 (by decide), hbefore 2 (by decide), hbefore 1 (by decide)]

/-! ### Steps without work -/

theorem updCtx_eq_self {s : State} (hnodup : (s.ctxs.map fun c => c.asid).Nodup) {c : Ctx} (hc : c ∈ s.ctxs) :
    updCtx s c.asid (fun _ => c) = s := by
  have hmap : (s.ctxs.map fun x => if x.asid = c.asid then c else x) = s.ctxs := by
    conv_rhs => rw [← List.map_id s.ctxs]
    refine List.map_congr_left fun x hx => ?_
    split
    · next heq => exact (List.inj_on_of_nodup_map hnodup hx hc heq).symm
    · rfl
  rw [updCtx, hmap]

theorem relatch_of_latched {s : State} (h : LatchedAll s) {c : Ctx} (hc : c ∈ s.ctxs) : relatch s c = s := by
  obtain ⟨hsame, hnodup⟩ := h
  unfold relatch
  simp only [hsame c hc, updCtx_eq_self hnodup hc, if_true, ite_self]

theorem latch_of_latched {s : State} (h : LatchedAll s) : latch s = s := foldl_eq_self_of_forall_mem fun _ hc => relatch_of_latched h hc

theorem stand_of_all {s : State} (h : ∀ x ∈ s.tund.heads, headStands s x = true) : stand s = s := by
  rw [stand, List.filter_eq_self.mpr h]

theorem stand_of_noHeads {s : State} (h : s.tund.heads = []) : stand s = s := stand_of_all fun x hx => by rw [h] at hx; cases hx

theorem placeClass_eq_self {s : State} {k : Nat} (h : ∀ g ∈ s.grids, g.mould.klass = k → placePending s g.id 64 = s) :
    placeClass s k = s := by
  refine foldl_eq_self_of_forall_mem fun id hid => ?_
  obtain ⟨g, hg, rfl⟩ := List.mem_map.mp hid
  obtain ⟨hmem, hklass⟩ := List.mem_filter.mp hg
  exact h g hmem (of_decide_eq_true hklass)

theorem endGrowth_eq_self {s : State} (h : ∀ g ∈ s.grids, g.grow = false) : endGrowth s = s := by
  have hmap : (s.grids.map fun g => { g with grow := false }) = s.grids := by
    conv_rhs => rw [← List.map_id s.grids]
    refine List.map_congr_left fun g hg => ?_
    rw [← h g hg]
    rfl
  rw [endGrowth, hmap]

theorem classHeads_eq_nil {s : State} {k : Nat} (h : ∀ x ∈ s.tund.heads, x.mould.klass ≠ k) : classHeads s k = [] := by
  have hmine : (s.tund.heads.filter fun x => x.mould.klass = k) = [] := List.filter_eq_nil_iff.mpr fun x hx => by simp [h x hx]
  simp [classHeads, hmine]

theorem serveClass_eq_self {s : State} {k : Nat} (h : ∀ x ∈ s.tund.heads, x.mould.klass ≠ k) : serveClass s k = s := by
  rw [serveClass, classHeads_eq_nil h, List.foldl_nil]

/-- Where no grid has pending clusters to place, a round of the classes only serves the heads. -/
theorem classes_of_nothingPending {s : State} (hpend : ∀ g ∈ s.grids, placePending s g.id 64 = s) (hgrow : ∀ g ∈ s.grids, g.grow = false) :
    classes s = [3, 2, 1, 0].foldl serveClass s := by
  rw [classes, foldl_eq_self_of_forall_mem fun k _ => placeClass_eq_self fun g hg _ => hpend g hg, endGrowth_eq_self hgrow]

theorem serve_of_noHeads {s : State} (h : s.tund.heads = []) : [3, 2, 1, 0].foldl serveClass s = s :=
  foldl_eq_self_of_forall_mem fun k _ => serveClass_eq_self fun x hx => by rw [h] at hx; cases hx

theorem classes_of_noGrids {s : State} (h : s.grids = []) : classes s = [3, 2, 1, 0].foldl serveClass s :=
  classes_of_nothingPending (by simp [h]) (by simp [h])

theorem allHeads_eq_nil {s : State} (hrel : s.tund.released = []) (hlook : s.tund.looking = []) (hrr : s.tund.rr = []) : allHeads s = [] := by
  simp [allHeads, hrel, hlook, hrr, dedup]

/-- Where no head waits, only the classes' grids have work. -/
theorem round_of_noHeads {s : State} (hl : LatchedAll s) (hheads : s.tund.heads = []) (hrel : s.tund.released = [])
    (hlook : s.tund.looking = []) (hrr : s.tund.rr = []) : exec .placementRound s = .next (classes s) := by
  rw [placementRound_eq, latch_of_latched hl, stand_of_noHeads hheads, meetAll, allHeads_eq_nil hrel hlook hrr, List.foldl_nil]

theorem round_of_nothing {s : State} (hl : LatchedAll s) (hgrids : s.grids = []) (hheads : s.tund.heads = []) (hrel : s.tund.released = [])
    (hlook : s.tund.looking = []) (hrr : s.tund.rr = []) : exec .placementRound s = .next s := by
  rw [round_of_noHeads hl hheads hrel hlook hrr, classes_of_noGrids hgrids, serve_of_noHeads hheads]

/-! ### A head that is met (R299, R301, R319) -/

/-- The head of a record that is met. -/
def newHead (k : HeadKey) (l : Launch) (m : Mould) : Head := ⟨k, l, m, false, 0, false, [], []⟩

/-- That head when its start set has not fitted. -/
def blockedHead (k : HeadKey) (l : Launch) (m : Mould) : Head := ⟨k, l, m, true, 0, false, [], []⟩

theorem findHead_of_noHeads {s : State} (h : s.tund.heads = []) (k : HeadKey) : findHead s k = none := by rw [findHead, h]; rfl

section met
variable {s : State} {k : HeadKey} {l : Launch} (hl : headLaunch s k = some l) (hnew : findHead s k = none)
include hl hnew

theorem meetHead_rejected (h : readMould s l = none ∨ ∃ m, readMould s l = some m ∧ dimsBad l m = true) :
    meetHead s k = completeLaunch (leaveHead s k) l 3 0 := by
  unfold meetHead
  obtain h | ⟨m, h, hbad⟩ := h
  · simp only [hl, hnew, h]
  · simp only [hl, hnew, h, hbad, if_true]

theorem meetHead_neverPlaced {m : Mould} (hm : readMould s l = some m) (hdims : dimsBad l m = false) (h : NeverPlaced s l m) :
    meetHead s k = completeLaunch (leaveHead s k) l 4 0 := by
  have hu : unplaceable s l m = true := (unplaceable_iff s l m).mpr h
  simp only [meetHead, hl, hnew, hm, hdims, hu, if_true, Bool.false_eq_true, if_false]

theorem meetHead_waits {m : Mould} (hm : readMould s l = some m) (hdims : dimsBad l m = false) (h : ¬NeverPlaced s l m) :
    meetHead s k = { s with tund := { s.tund with heads := s.tund.heads ++ [newHead k l m] } } := by
  have hu : unplaceable s l m = false := Bool.eq_false_iff.mpr fun hu => h ((unplaceable_iff s l m).mp hu)
  simp only [meetHead, hl, hnew, hm, hdims, hu, newHead, Bool.false_eq_true, if_false]

end met

theorem meetHead_met {s : State} {k : HeadKey} {h : Head} (hmet : findHead s k = some h) : meetHead s k = s := by
  unfold meetHead
  rw [hmet]
  split
  · contradiction
  · rfl

/-- A round in which one head waits to be met. -/
theorem round_of_newHead {s : State} {k : HeadKey} (hl : LatchedAll s) (hheads : s.tund.heads = []) (hall : allHeads s = [k]) :
    exec .placementRound s = .next (classes (meetHead s k)) := by
  rw [placementRound_eq, latch_of_latched hl, stand_of_noHeads hheads, meetAll, hall, List.foldl_cons, List.foldl_nil]

/-- A launch that leaves its queue completed, its head being the only one, leaves the round nothing to do. -/
theorem classes_of_completed {s : State} {k : HeadKey} (hgrids : s.grids = []) (hheads : ∀ x ∈ s.tund.heads, x.key = k) (l : Launch)
    (status cause : Nat) : classes (completeLaunch (leaveHead s k) l status cause) = completeLaunch (leaveHead s k) l status cause := by
  rw [classes_of_noGrids, serve_of_noHeads]
  · rw [completeLaunch_heads, leaveHead_heads]
    exact List.filter_eq_nil_iff.mpr fun x hx => by simp [hheads x hx]
  · rw [completeLaunch_grids, leaveHead_grids, hgrids]

/-- A round whose one new head is completed at once. -/
theorem round_of_completed {s : State} {k : HeadKey} {l : Launch} {C : Ctx} (hl : LatchedAll s) (hgrids : s.grids = [])
    (hheads : s.tund.heads = []) (hall : allHeads s = [k]) (hC : ctxOf? (leaveHead s k) l.asid = some C) {status : Nat}
    (hmet : meetHead s k = completeLaunch (leaveHead s k) l status 0) :
    ∃ t, exec .placementRound s = .next t ∧ t.grids = [] ∧ Completed (leaveHead s k) t l C status 0 := by
  refine ⟨completeLaunch (leaveHead s k) l status 0, ?_, ?_, completed_launch hC status 0⟩
  · rw [round_of_newHead hl hheads hall, hmet, classes_of_completed hgrids (by simp [hheads])]
  · rw [completeLaunch_grids, leaveHead_grids, hgrids]

/-! ### A head that is served (R319, R320) -/

section served
variable {s : State} {h : Head} (hheads : s.tund.heads = [h])
include hheads

theorem findHead_only : findHead s h.key = some h := by simp [findHead, hheads]

theorem classHeads_only (hall : allHeads s = [h.key]) : classHeads s h.mould.klass = [h.key] := by
  cases haged : h.aged <;> simp [classHeads, hheads, hall, haged]

/-- The only head is served, in its class's turn, and once. -/
theorem serve_of_onlyHead (hall : allHeads s = [h.key]) (hk : h.mould.klass ≤ 3)
    (hafter : ∀ x ∈ (serveHead s h.key).tund.heads, x.mould.klass = h.mould.klass) :
    [3, 2, 1, 0].foldl serveClass s = serveHead s h.key := by
  have hserved : serveClass s h.mould.klass = serveHead s h.key := by
    rw [serveClass, classHeads_only hheads hall, List.foldl_cons, List.foldl_nil]
  rw [foldl_classes hk, hserved]
  · exact fun j hj => serveClass_eq_self fun x hx => by
      rw [hheads, List.mem_singleton] at hx
      exact hx ▸ hj.symm
  · rw [hserved]
    exact fun j hj => serveClass_eq_self fun x hx => by rw [hafter x hx]; exact hj.symm

theorem serveHead_neverPlaced (hl : headLaunch s h.key = some h.launch) (hnever : NeverPlaced s h.launch h.mould) :
    serveHead s h.key = completeLaunch (leaveHead s h.key) h.launch 4 0 := by
  have hu : unplaceable s h.launch h.mould = true := (unplaceable_iff ..).mpr hnever
  simp only [serveHead, hl, findHead_only hheads, hu, if_true]

end served

theorem headRecord_of_headLaunch {s : State} {k : HeadKey} {l : Launch} (h : headLaunch s k = some l) : headRecord s k = some l :=
  (Option.filter_eq_some_iff.mp h).1

theorem headStands_of_headLaunch {s : State} {h : Head} (hl : headLaunch s h.key = some h.launch) : headStands s h = true := by
  rw [headStands, headRecord_of_headLaunch hl, Option.map_some]
  exact decide_eq_true rfl

/-- A head that has become unplaceable since it was met (R319). -/
theorem round_of_unplaceable {s : State} {h : Head} {C : Ctx} (hlatch : LatchedAll s) (hgrids : s.grids = []) (hheads : s.tund.heads = [h])
    (hall : allHeads s = [h.key]) (hl : headLaunch s h.key = some h.launch) (hk : h.mould.klass ≤ 3)
    (hnever : NeverPlaced s h.launch h.mould) (hC : ctxOf? (leaveHead s h.key) h.launch.asid = some C) :
    ∃ t, exec .placementRound s = .next t ∧ t.grids = [] ∧ Completed (leaveHead s h.key) t h.launch C 4 0 := by
  have hserve := serveHead_neverPlaced hheads hl hnever
  have hgone : (serveHead s h.key).tund.heads = [] := by
    rw [hserve, completeLaunch_heads, leaveHead_heads, hheads]
    simp
  refine ⟨serveHead s h.key, ?_, ?_, hserve ▸ completed_launch hC 4 0⟩
  · rw [placementRound_eq, latch_of_latched hlatch, stand_of_all, meetAll, hall, List.foldl_cons, List.foldl_nil,
      meetHead_met (findHead_only hheads), classes_of_noGrids hgrids, serve_of_onlyHead hheads hall hk]
    · rw [hgone]
      exact fun x hx => nomatch hx
    · rw [hheads]
      exact fun x hx => List.mem_singleton.mp hx ▸ headStands_of_headLaunch hl
  · rw [hserve, completeLaunch_grids, leaveHead_grids, hgrids]

/-- A back-fill is counted for every blocked head. -/
def backfilled (s : State) : State :=
  { s with tund := { s.tund with heads := s.tund.heads.map fun h => if h.blocked then { h with backfills := h.backfills + 1 } else h } }

theorem countBackfill_eq (s : State) :
    countBackfill s = ((backfilled s).tund.heads.filter fun h => !h.aged && decide (64 ≤ h.backfills)).foldl ageHead (backfilled s) := rfl

/-- A back-fill concerns no one where no head waits. -/
theorem countBackfill_of_noHeads {s : State} (h : s.tund.heads = []) : countBackfill s = s := by
  have hsame : backfilled s = s := by rw [backfilled, h, List.map_nil, ← h]
  rw [countBackfill_eq, hsame, h, List.filter_nil, List.foldl_nil]

/-! ### A grid that starts, or not (R319) -/

/-- The state in which a launch's grid has been formed on the dies `used`, and is entered. -/
def entered (s : State) (g : Grid) (used : List DieNo) : State :=
  { s with
    grids := s.grids ++ [{ g with dies := sortBy (fun d => d.toNat) used }]
    tund := { s.tund with nextGrid := if s.tund.nextGrid = 0xFFFFFFFF then 1 else s.tund.nextGrid + 1 } }

theorem tryStart_eq {s : State} {k : HeadKey} {l : Launch} {m : Mould} (hmode : modeBlocks s l.asid = false)
    (henergy : m.ebudget = 0 ∨ m.ebudget ≤ allowanceLeft s l.asid 0) :
    tryStart s k l m = (formStart s (some k) (startedGrid s l m) (ctxDies s l.asid) m.gmin 0 []).map fun x =>
      entered x.1 (startedGrid s l m) x.2 := by
  have hok : energyOk s l m = true := by simpa [energyOk] using henergy
  unfold tryStart
  simp only [hok, hmode, Bool.not_true, Bool.or_false, Bool.false_eq_true, if_false]
  split
  · next hnone =>
    have : formStart s (some k) (startedGrid s l m) (ctxDies s l.asid) m.gmin 0 [] = none := hnone
    rw [this]
    rfl
  · next s' used hsome =>
    have : formStart s (some k) (startedGrid s l m) (ctxDies s l.asid) m.gmin 0 [] = some (s', used) := hsome
    rw [this]
    rfl

section started
variable {s : State} {k : HeadKey} {l : Launch} {m : Mould} (hheads : s.tund.heads = [newHead k l m])
  (hl : headLaunch s k = some l) (hfits : ¬NeverPlaced s l m) (hmode : modeBlocks s l.asid = false)
  (henergy : m.ebudget = 0 ∨ m.ebudget ≤ allowanceLeft s l.asid 0)
include hheads hl hfits hmode henergy

theorem serveHead_new : serveHead s k =
    match formStart s (some k) (startedGrid s l m) (ctxDies s l.asid) m.gmin 0 [] with
    | some x => countBackfill (leaveHead (entered x.1 (startedGrid s l m) x.2) k)
    | none => { s with tund := { s.tund with heads := [blockedHead k l m] } } := by
  have hu : unplaceable s l m = false := Bool.eq_false_iff.mpr fun hu => hfits ((unplaceable_iff s l m).mp hu)
  have hfind : findHead s k = some (newHead k l m) := findHead_only hheads
  have hmould : (newHead k l m).mould = m := rfl
  simp only [serveHead, hl, hfind, hmould, hu, Bool.false_eq_true, if_false, tryStart_eq hmode henergy]
  cases formStart s (some k) (startedGrid s l m) (ctxDies s l.asid) m.gmin 0 [] with
  | none => simp [hheads, newHead, blockedHead]
  | some x => rfl

theorem serveHead_starts {s' : State} {used : List DieNo}
    (hform : formStart s (some k) (startedGrid s l m) (ctxDies s l.asid) m.gmin 0 [] = some (s', used)) (htund : s'.tund = s.tund) :
    serveHead s k = leaveHead (entered s' (startedGrid s l m) used) k ∧ (serveHead s k).tund.heads = [] := by
  have hgone : (leaveHead (entered s' (startedGrid s l m) used) k).tund.heads = [] := by
    have : (entered s' (startedGrid s l m) used).tund.heads = [newHead k l m] := by rw [← hheads, ← htund]; rfl
    rw [leaveHead_heads, this]
    simp [newHead]
  have hserve : serveHead s k = leaveHead (entered s' (startedGrid s l m) used) k := by
    rw [serveHead_new hheads hl hfits hmode henergy, hform]
    exact countBackfill_of_noHeads hgone
  exact ⟨hserve, hserve ▸ hgone⟩

theorem serveHead_blocked (hform : formStart s (some k) (startedGrid s l m) (ctxDies s l.asid) m.gmin 0 [] = none) :
    serveHead s k = { s with tund := { s.tund with heads := [blockedHead k l m] } } := by
  rw [serveHead_new hheads hl hfits hmode henergy, hform]

end started

end Sys2Proof.Proofs.Rounds
end

section
/-! A head that is met in a round starts its grid in it, or is blocked (R319, R320). -/

namespace Sys2Proof.Proofs.Rounds

open Sys2Proof Sys2Proof.Machine Sys2Proof.Claims Sys2Proof.Proofs.Starts Sys2Proof.Proofs.Heads

/-- The state with the heads hs. Records, dies and contexts are the same in it, by computation, and so is what the round asks of
them. -/
def withHeads (s : State) (hs : List Head) : State := { s with tund := { s.tund with heads := hs } }

theorem klass_of_readMould {s : State} {l : Launch} {m : Mould} (h : readMould s l = some m) : m.klass ≤ 3 := by
  unfold readMould at h
  dsimp only at h
  split at h
  · cases h
  · split at h
    · cases h
    · obtain ⟨b, -, hb⟩ := Option.bind_eq_some_iff.mp h
      unfold parseMould at hb
      dsimp only at hb
      split at hb
      · cases hb
      · cases hb
        exact Nat.le_of_lt_succ (Nat.mod_lt _ (by decide))

section met
variable {s : State} {k : HeadKey} {l : Launch} {m : Mould} (hlatch : LatchedAll s) (hgrids : s.grids = []) (hheads : s.tund.heads = [])
  (hall : allHeads s = [k]) (hl : headLaunch s k = some l) (hm : readMould s l = some m) (hdims : dimsBad l m = false)
  (hfits : ¬NeverPlaced s l m) (hmode : modeBlocks s l.asid = false) (henergy : m.ebudget = 0 ∨ m.ebudget ≤ allowanceLeft s l.asid 0)
include hlatch hgrids hheads hall hl hm hdims hfits

/-- The round serves the head that it has met. -/
theorem round_serves_new
    (hafter : ∀ x ∈ (serveHead (withHeads s [newHead k l m]) k).tund.heads, x.mould.klass = m.klass) :
    exec .placementRound s = .next (serveHead (withHeads s [newHead k l m]) k) := by
  have hmet : meetHead s k = withHeads s [newHead k l m] := by
    rw [meetHead_waits hl (findHead_of_noHeads hheads k) hm hdims hfits, hheads]
    rfl
  have hserve := serve_of_onlyHead (s := withHeads s [newHead k l m]) (h := newHead k l m) rfl hall
    (klass_of_readMould hm) hafter
  rw [round_of_newHead hlatch hheads hall, hmet, classes_of_noGrids (s := withHeads s [newHead k l m]) hgrids]
  exact congrArg Host.Outcome.next hserve

include hmode henergy

/-- The head's start set fits: the grid starts (R319). -/
theorem round_starts {s' : State} {used : List DieNo} (hform : Formed (startedGrid s l m) (ctxDies s l.asid) s' used m.gmin 0
      (withHeads s [newHead k l m]) []) :
    ∃ t G, exec .placementRound s = .next t ∧ t.grids = [G] ∧ G = { startedGrid s l m with dies := G.dies } ∧
      (∀ d, d ∈ G.dies ↔ d ∈ used) ∧ (G.dies.map fun d => d.toNat).Pairwise (· < ·) ∧
      t.kcs = s'.kcs ∧ t.kcs.length = s.kcs.length + m.gmin ∧ t.groups = s'.groups ∧ t.teams = s'.teams ∧ t.deques = s'.deques := by
  have hsome := (formStart_eq_some_iff (ctxDies_ascending s l.asid) (who := some k) (g := startedGrid s l m)
    (s := withHeads s [newHead k l m]) rfl).mpr hform
  obtain ⟨hserve, hgone⟩ := serveHead_starts (s := withHeads s [newHead k l m]) rfl hl hfits hmode henergy hsome
    (formed_tund hform)
  have hexec := round_serves_new hlatch hgrids hheads hall hl hm hdims hfits (by rw [hgone]; exact fun x hx => nomatch hx)
  rw [hserve] at hexec
  have honly := leaveHead_only (entered s' (startedGrid (withHeads s [newHead k l m]) l m) used) k
  have hkcs : (leaveHead (entered s' (startedGrid s l m) used) k).kcs = s'.kcs := (honly.same State.kcs :)
  refine ⟨_, { startedGrid s l m with dies := sortBy (fun d => d.toNat) used }, hexec, ?grids, rfl, ?dies, ?ascending, hkcs, ?length,
    (honly.same State.groups :), (honly.same State.teams :), (honly.same State.deques :)⟩
  case grids =>
    have hbefore : s'.grids = [] := (formed_grids hform).trans hgrids
    rw [leaveHead_grids, entered, hbefore]
    rfl
  case dies => exact fun d => (sortBy_perm (fun d : DieNo => d.toNat) used).mem_iff
  case ascending => exact sortBy_dies_ascending (formed_nodup hform List.nodup_nil)
  case length => exact (congrArg List.length hkcs).trans (formed_length hform :)

/-- No start set fits: the head is blocked, and nothing else changes (R320). -/
theorem round_blocks (hnone : ∀ s' used, ¬Formed (startedGrid s l m) (ctxDies s l.asid) s' used m.gmin 0
      (withHeads s [newHead k l m]) []) :
    ∃ t, exec .placementRound s = .next t ∧ { t with tund := s.tund } = s ∧
      t.tund.heads = [blockedHead k l m] ∧ { t.tund with heads := [] } = s.tund := by
  have hform : formStart (withHeads s [newHead k l m]) (some k) (startedGrid s l m) (ctxDies s l.asid) m.gmin 0 [] =
      none := by
    rw [Option.eq_none_iff_forall_ne_some]
    rintro ⟨s', used⟩ hsome
    exact hnone s' used ((formStart_eq_some_iff (ctxDies_ascending s l.asid) rfl).mp hsome)
  have hserve : serveHead (withHeads s [newHead k l m]) k = withHeads s [blockedHead k l m] :=
    serveHead_blocked (s := withHeads s [newHead k l m]) rfl hl hfits hmode henergy hform
  have hexec := round_serves_new hlatch hgrids hheads hall hl hm hdims hfits (by
    rw [hserve]
    exact fun x hx => (congrArg (fun h : Head => h.mould.klass) (List.mem_singleton.mp hx) :))
  rw [hserve] at hexec
  exact ⟨_, hexec, rfl, rfl, by rw [← hheads]; rfl⟩

end met

end Sys2Proof.Proofs.Rounds
end

section
/-! The pending clusters of a grid in a round (R319, R320, R324), and the ageing of a blocked head (R321). -/

namespace Sys2Proof.Proofs.Rounds

open Sys2Proof Sys2Proof.Machine Sys2Proof.Claims Sys2Proof.Proofs.Candidates Sys2Proof.Proofs.Starts

/-- The state in which the next cluster of a grid has been placed. -/
def placedNext (s : State) (G : Grid) (c : Cand) : State :=
  updGrid (placeKc s G G.nextCluster c) G.id fun g =>
    { g with
      nextCluster := g.nextCluster + 1
      dies := if g.dies.contains c.die then g.dies else sortBy (fun d => d.toNat) (c.die :: g.dies) }

/-- Whether a grid gets no cluster now, be there room or not. -/
def atRest (s : State) (G : Grid) : Bool :=
  decide (gridSize G ≤ G.nextCluster) || G.suspended || (ctxOf s G.asid).suspended || modeBlocks s G.asid || !energyPermits s G

theorem growDies_of_noGrow {s : State} {G : Grid} (h : G.grow = false) : growDies s G = [] := by simp [growDies, h]

section pending
variable {s : State} {G : Grid} (hgrids : s.grids = [G])
include hgrids

theorem gridOf?_only : gridOf? s G.id = some G := by simp [gridOf?, hgrids]

/-- Nothing is placed for a grid that is complete, suspended, or out of budget. -/
theorem placePending_stops (h : gridSize G ≤ G.nextCluster ∨ G.suspended = true ∨ energyPermits s G = false) (n : Nat) :
    placePending s G.id n = s := by
  have hstop : atRest s G = true := by obtain h | h | h := h <;> simp [atRest, h]
  unfold atRest at hstop
  cases n with
  | zero => rfl
  | succ n => simp only [placePending, gridOf?_only hgrids, hstop, if_true]

section going
variable (hpend : G.nextCluster < gridSize G) (hsusp : G.suspended = false) (hctx : (ctxOf s G.asid).suspended = false)
  (hmode : modeBlocks s G.asid = false) (henergy : energyPermits s G = true)
include hpend hsusp hctx hmode henergy

omit hgrids in
theorem atRest_eq_false : atRest s G = false := by simp [atRest, hsusp, hctx, hmode, henergy, hpend]

variable (hgrow : G.grow = false)
include hgrow

/-- Where the grid may go on, its dies are searched for its next cluster. -/
theorem placePending_noCandidate
    (hfind : (candsOn G.dies G.mould.rows G.mould.cols).find? (fitsAt s G.mould (mouldReq G.mould) none fun _ => 1) = none) (n : Nat) :
    placePending s G.id (n + 1) = s := by
  have hgo := atRest_eq_false hpend hsusp hctx hmode henergy
  unfold atRest at hgo
  simp only [placePending, gridOf?_only hgrids, hgo, Bool.false_eq_true, if_false, growDies_of_noGrow hgrow, List.append_nil, hfind]

theorem placePending_candidate {c : Cand} (hrenew : renewBudget s G = s)
    (hfind : (candsOn G.dies G.mould.rows G.mould.cols).find? (fitsAt s G.mould (mouldReq G.mould) none fun _ => 1) = some c) (n : Nat) :
    placePending s G.id (n + 1) = placePending (placedNext s G c) G.id n := by
  have hgo := atRest_eq_false hpend hsusp hctx hmode henergy
  unfold atRest at hgo
  simp only [placePending, gridOf?_only hgrids, hgo, Bool.false_eq_true, if_false, growDies_of_noGrow hgrow, List.append_nil, hfind, hrenew, placedNext]

end going

end pending

/-- The grids' dies are searched for the candidate that R319 names. -/
theorem find?_gridDies {s : State} {G : Grid} (hheads : s.tund.heads = []) (hasc : (G.dies.map fun d => d.toNat).Pairwise (· < ·))
    (c : Cand) : (candsOn G.dies G.mould.rows G.mould.cols).find? (fitsAt s G.mould (mouldReq G.mould) none fun _ => 1) = some c ↔
      FirstFit s G.mould (fun d => d ∈ G.dies) c :=
  find?_candsOn (s := s) (by simp [agedHeads, hheads]) hasc (m := G.mould) (who := none) (p := fun _ => true) (by simp)

theorem find?_gridDies_none {s : State} {G : Grid} (hheads : s.tund.heads = [])
    (hnone : ∀ c, InMesh G.mould c → c.die ∈ G.dies → ¬Takes s G.mould c) :
    (candsOn G.dies G.mould.rows G.mould.cols).find? (fitsAt s G.mould (mouldReq G.mould) none fun _ => 1) = none := by
  rw [List.find?_eq_none]
  intro c hc
  rw [fitsAt_iff (s := s) (by simp [agedHeads, hheads])]
  obtain ⟨hdie, hmesh⟩ := mem_candsOn.mp hc
  exact hnone c hmesh hdie

theorem energyPermits_of_budgetLeft {s : State} {G : Grid} (h : G.ebudget = 0 ∨ G.charged < G.ebudget) : energyPermits s G = true := by
  obtain h | h := h <;> simp [energyPermits, h]

theorem energyPermits_of_usedUp {s : State} {G : Grid} (hbudget : G.ebudget ≠ 0) (hused : G.ebudget ≤ G.charged)
    (hleft : allowanceLeft s G.asid G.id < G.charged + G.mould.ebudget) : energyPermits s G = false := by
  simp [energyPermits, hbudget, hused, hleft]

theorem renewBudget_of_budgetLeft {s : State} {G : Grid} (h : G.ebudget = 0 ∨ G.charged < G.ebudget) : renewBudget s G = s := by
  have hleft : (G.ebudget ≠ 0 && decide (G.ebudget ≤ G.charged) && energyPermits s G) = false := by
    obtain h | h := h <;> simp [h]
  unfold renewBudget
  rw [hleft]
  rfl

theorem placedNext_kcs (s : State) (G : Grid) (c : Cand) : (placedNext s G c).kcs = s.kcs ++ [placedKc s G G.nextCluster c] :=
  placeKc_kcs s G G.nextCluster c

theorem placedNext_tund (s : State) (G : Grid) (c : Cand) : (placedNext s G c).tund = s.tund := placeKc_tund s G G.nextCluster c

/-- On a die of the grid the grid only counts its cluster. -/
theorem placedNext_grids {s : State} {G : Grid} (hgrids : s.grids = [G]) {c : Cand} (hdie : c.die ∈ G.dies) :
    (placedNext s G c).grids = [{ G with nextCluster := G.nextCluster + 1 }] := by
  rw [placedNext, updGrid, placeKc_grids, hgrids]
  simp [hdie]

/-- The kernel cluster that a placement makes has a spine context of its own. -/
theorem placedKc_ctx {s : State} {G : Grid} {c : Cand} (htakes : Takes s G.mould c) {q : Kc} (hq : q ∈ s.kcs) {r : Place}
    (hr : q.place = some r) (hdie : r.die = c.die) (hhw : r.hw = c.hw) : r.ctx ≠ freeSpine s c := by
  obtain ⟨-, hfree, -⟩ := htakes
  have hused := mem_spinesUsed hq hr
  rw [hdie, hhw] at hused
  intro heq
  exact freeSpine_free (by rwa [length_spinesUsed]) (heq ▸ hused)

/-! ### A round with one grid -/

section oneGrid
variable {s : State} {G : Grid} (hlatch : LatchedAll s) (hgrids : s.grids = [G]) (hheads : s.tund.heads = [])
  (hrel : s.tund.released = []) (hlook : s.tund.looking = []) (hrr : s.tund.rr = []) (hgrow : G.grow = false)
include hlatch hgrids hheads hrel hlook hrr hgrow

theorem round_of_noPlacement (h : placePending s G.id 64 = s) : exec .placementRound s = .next s := by
  rw [round_of_noHeads hlatch hheads hrel hlook hrr, classes_of_nothingPending (by simpa [hgrids] using h) (by simpa [hgrids] using hgrow),
    serve_of_noHeads hheads]

variable (hpend : G.nextCluster < gridSize G) (hctx : (ctxOf s G.asid).suspended = false) (hmode : modeBlocks s G.asid = false)
  (hasc : (G.dies.map fun d => d.toNat).Pairwise (· < ·))
include hpend hctx hmode

/-- Nothing is placed while the grid is suspended, its budget is used up, or nothing fits. -/
theorem round_places_nothing (h : G.suspended = true ∨ (G.ebudget ≠ 0 ∧ G.ebudget ≤ G.charged ∧
      allowanceLeft s G.asid G.id < G.charged + G.mould.ebudget) ∨ ∀ c, InMesh G.mould c → c.die ∈ G.dies → ¬Takes s G.mould c) :
    exec .placementRound s = .next s := by
  refine round_of_noPlacement hlatch hgrids hheads hrel hlook hrr hgrow ?_
  by_cases hstop : gridSize G ≤ G.nextCluster ∨ G.suspended = true ∨ energyPermits s G = false
  · exact placePending_stops hgrids hstop 64
  · rw [not_or, not_or, Bool.not_eq_true, Bool.not_eq_false] at hstop
    obtain ⟨-, hsusp, henergy⟩ := hstop
    obtain h | ⟨hbudget, hused, hleft⟩ | hnone := h
    · rw [h] at hsusp
      cases hsusp
    · rw [energyPermits_of_usedUp hbudget hused hleft] at henergy
      cases henergy
    · exact placePending_noCandidate hgrids hpend hsusp hctx hmode henergy hgrow (find?_gridDies_none hheads hnone) 63

include hasc

omit hlatch hrel hlook hrr in
/-- The last pending cluster is placed where it first fits. -/
theorem placePending_last {c : Cand} (hsusp : G.suspended = false) (hleft : G.ebudget = 0 ∨ G.charged < G.ebudget)
    (hlast : G.nextCluster + 1 = gridSize G) (hfit : FirstFit s G.mould (fun d => d ∈ G.dies) c) :
    placePending s G.id 64 = placedNext s G c := by
  rw [placePending_candidate hgrids hpend hsusp hctx hmode (energyPermits_of_budgetLeft hleft) hgrow (renewBudget_of_budgetLeft hleft)
    ((find?_gridDies hheads hasc c).mpr hfit)]
  exact placePending_stops (G := { G with nextCluster := G.nextCluster + 1 }) (placedNext_grids hgrids hfit.die) (.inl hlast.ge) 63

theorem round_places (hk : G.mould.klass ≤ 3) {c : Cand} (hsusp : G.suspended = false) (hleft : G.ebudget = 0 ∨ G.charged < G.ebudget)
    (hlast : G.nextCluster + 1 = gridSize G) (hfit : FirstFit s G.mould (fun d => d ∈ G.dies) c) :
    exec .placementRound s = .next (placedNext s G c) := by
  have hplaced := placePending_last hgrids hheads hgrow hpend hctx hmode hasc hsusp hleft hlast hfit
  have hgrids' := placedNext_grids hgrids hfit.die
  have hheads' : (placedNext s G c).tund.heads = [] := by rw [placedNext_tund, hheads]
  have hturn : placeClass s G.mould.klass = placedNext s G c := by simp [placeClass, hgrids, hplaced]
  have hclasses : [3, 2, 1, 0].foldl placeClass s = placedNext s G c := by
    rw [foldl_classes hk, hturn]
    · exact fun j hj => placeClass_eq_self fun g hg hgj => absurd hgj (by rw [hgrids, List.mem_singleton] at hg; exact hg ▸ hj.symm)
    · rw [hturn]
      exact fun j hj => placeClass_eq_self fun g hg hgj => absurd hgj (by rw [hgrids', List.mem_singleton] at hg; exact hg ▸ hj.symm)
  rw [round_of_noHeads hlatch hheads hrel hlook hrr, classes, hclasses, endGrowth_eq_self, serve_of_noHeads hheads']
  intro g hg
  rw [hgrids', List.mem_singleton] at hg
  exact hg ▸ hgrow

end oneGrid

/-! ### Ageing (R321) -/

/-- A reservation is all that an aged head chooses. -/
theorem reserve_only (s : State) (h : Head) : { reserve s h with cores := h.cores, spines := h.spines } = h := by
  unfold reserve
  split
  · rfl
  · split <;> rfl

theorem headAgeing_of_found {s : State} {q : BitVec 8} {h : Head}
    (hfound : s.tund.heads.find? (fun h => h.launch.queue = q && h.blocked && !h.aged) = some h) :
    ∃ t h', exec (.headAgeing q) s = .next t ∧ { t with tund := s.tund } = s ∧ h'.key = h.key ∧ h'.launch = h.launch ∧ h'.aged = true ∧
      t.tund.heads = (s.tund.heads.filter fun x => decide (x.key ≠ h.key)) ++ [h'] := by
  have hexec : exec (.headAgeing q) s = .next (ageHead s h) := by
    change execHeadAgeing q s = _
    rw [execHeadAgeing, hfound]
  have hkeeps := reserve_only s { h with aged := true }
  exact ⟨_, reserve s { h with aged := true }, hexec, rfl, (congrArg Head.key hkeeps :),
    (congrArg Head.launch hkeeps :), (congrArg Head.aged hkeeps :), rfl⟩

end Sys2Proof.Proofs.Rounds
end

section
/-! Work deposits (R310, R311): the worker that gets a record, and the wake arrival. -/

namespace Sys2Proof.Proofs.Deposits

open Sys2Proof Sys2Proof.Machine Sys2Proof.Claims Sys2Proof.Proofs.StateRules Sys2Proof.Proofs.Accesses Sys2Proof.Proofs.Words
  Sys2Proof.Proofs.BarrierRules Sys2Proof.Proofs.Feed

/-! ### The worker with the fewest records -/

/-- Of two workers the later one must have fewer records. -/
def better (acc : Option (Nat × Team)) (w : Nat × Team) : Option (Nat × Team) :=
  match acc with
  | none => some w
  | some b => if w.1 < b.1 then some w else some b

theorem chooseWorker_eq (ws : List (Nat × Team)) : chooseWorker ws = (ws.foldl better none).map fun w => w.2 := rfl

theorem better_of_all_more {ws : List (Nat × Team)} {x : Nat × Team} (h : ∀ w ∈ ws, x.1 < w.1) (acc : Option (Nat × Team))
    (hacc : ∀ b, acc = some b → x.1 < b.1) : better (ws.foldl better acc) x = some x := by
  induction ws generalizing acc with
  | nil =>
    cases acc with
    | none => rfl
    | some b => exact if_pos (hacc b rfl)
  | cons w ws ih =>
    refine ih (fun y hy => h y (List.mem_cons_of_mem w hy)) (better acc w) fun b hb => ?_
    have hw := h w List.mem_cons_self
    cases acc with
    | none => exact Option.some.inj hb ▸ hw
    | some a =>
      have ha := hacc a rfl
      simp only [better] at hb
      split at hb
      · exact Option.some.inj hb ▸ hw
      · exact Option.some.inj hb ▸ ha

theorem foldl_better_of_all_least {ws : List (Nat × Team)} {x : Nat × Team} (h : ∀ w ∈ ws, x.1 ≤ w.1) :
    ws.foldl better (some x) = some x := by
  induction ws with
  | nil => rfl
  | cons w ws ih =>
    rw [List.foldl_cons, better, if_neg (h w List.mem_cons_self).not_gt]
    exact ih fun y hy => h y (List.mem_cons_of_mem w hy)

theorem chooseWorker_least {before after : List (Nat × Team)} {x : Nat × Team} (hb : ∀ w ∈ before, x.1 < w.1) (ha : ∀ w ∈ after, x.1 ≤ w.1) :
    chooseWorker (before ++ x :: after) = some x.2 := by
  rw [chooseWorker_eq, List.foldl_append, List.foldl_cons, better_of_all_more hb none (fun b h => nomatch h), foldl_better_of_all_least ha,
    Option.map_some]

/-- Whether a team is a worker of a queue, as the tundish tests it. -/
def isWorker (s : State) (q : BitVec 8) (asid : Asid) (t : Team) : Bool :=
  (kcOf s t.kc).place.isSome && decide ((kcOf s t.kc).asid = asid) && dequeRoom s t.kc t.core &&
    (match gridOf? s (kcOf s t.kc).grid with
     | some g => g.mould.wqv && decide (g.mould.wq = q)
     | none => false)

theorem workers_eq (s : State) (q : BitVec 8) (asid : Asid) :
    workers s q asid = (s.teams.filter (isWorker s q asid)).map fun t => (boundCount s t.kc t.core, t) := rfl

theorem isWorker_iff {s : State} {q : BitVec 8} {asid : Asid} {T : Team} : isWorker s q asid T = true ↔ Worker s q asid T := by
  have hroom : dequeRoom s T.kc T.core = true ↔
      (s.deques.filter fun r => (kcOf s r.kc).place.isSome ∧ hwCore (kcOf s r.kc) r.core = hwCore (kcOf s T.kc) T.core).length < 256 := by
    simp only [dequeRoom, dequeFill, Bool.decide_and, Bool.decide_eq_true]
    exact decide_eq_true_iff
  have hworks : (match gridOf? s (kcOf s T.kc).grid with
      | some g => g.mould.wqv && decide (g.mould.wq = q)
      | none => false) = true ↔ ∃ G, gridOf? s (kcOf s T.kc).grid = some G ∧ G.mould.wqv = true ∧ G.mould.wq = q := by
    cases gridOf? s (kcOf s T.kc).grid <;> simp
  rw [isWorker, Bool.and_eq_true, Bool.and_eq_true, Bool.and_eq_true, hroom, hworks, decide_eq_true_eq]
  exact ⟨fun ⟨⟨⟨hplaced, hctx⟩, hroom⟩, hworks⟩ => ⟨hplaced, hctx, hworks, hroom⟩,
    fun ⟨hplaced, hctx, hworks, hroom⟩ => ⟨⟨⟨hplaced, hctx⟩, hroom⟩, hworks⟩⟩

theorem chooseWorker_fewest {s : State} {q : BitVec 8} {asid : Asid} {T : Team} (h : Fewest s q asid T) :
    chooseWorker (workers s q asid) = some T := by
  obtain ⟨before, after, hteams, hT, hbefore, hafter⟩ := h
  rw [workers_eq, hteams, List.filter_append, List.filter_cons_of_pos (isWorker_iff.mpr hT), List.map_append, List.map_cons]
  refine chooseWorker_least (x := (boundCount s T.kc T.core, T)) (fun w hw => ?_) fun w hw => ?_
  · obtain ⟨X, hX, rfl⟩ := List.mem_map.mp hw
    obtain ⟨hmem, hworks⟩ := List.mem_filter.mp hX
    exact hbefore X hmem (isWorker_iff.mp hworks)
  · obtain ⟨X, hX, rfl⟩ := List.mem_map.mp hw
    obtain ⟨hmem, hworks⟩ := List.mem_filter.mp hX
    exact hafter X hmem (isWorker_iff.mp hworks)

theorem chooseWorker_none {s : State} {q : BitVec 8} {asid : Asid} (h : ∀ T ∈ s.teams, ¬Worker s q asid T) :
    chooseWorker (workers s q asid) = none := by
  have hnone : s.teams.filter (isWorker s q asid) = [] := List.filter_eq_nil_iff.mpr fun T hT hw => h T hT (isWorker_iff.mp hw)
  rw [workers_eq, hnone]
  rfl

/-! ### The deposit and its wake arrival (R311) -/

/-- A record is bound at the head of the deques. -/
def withRecord (s : State) (r : DequeRec) : State := { s with deques := r :: s.deques }

section deposit
variable {s : State} {kc core : Nat} (q : Option (BitVec 8)) (bytes : List Byte) (poison : List Nat)

theorem depositRec_silent (h : wakeSlot s kc = none ∨ boundCount s kc core ≠ 0) :
    depositRec s kc core q bytes poison = withRecord s ⟨kc, core, false, q, bytes, poison⟩ := by
  have hsame : wakeSlot (withRecord s ⟨kc, core, false, q, bytes, poison⟩) kc = wakeSlot s kc := rfl
  unfold depositRec
  change (match wakeSlot (withRecord s ⟨kc, core, false, q, bytes, poison⟩) kc with | some slot => _ | none => _) = _
  rw [hsame]
  obtain h | h := h
  · rw [h]
    rfl
  · split
    · exact if_neg h
    · rfl

theorem depositRec_wakes {slot : Nat} (hslot : wakeSlot s kc = some slot) (hfirst : boundCount s kc core = 0) :
    depositRec s kc core q bytes poison = barChange (withRecord s ⟨kc, core, false, q, bytes, poison⟩) kc core slot engineArrive := by
  have hsame : wakeSlot (withRecord s ⟨kc, core, false, q, bytes, poison⟩) kc = some slot := hslot
  unfold depositRec
  change (match wakeSlot (withRecord s ⟨kc, core, false, q, bytes, poison⟩) kc with | some slot => _ | none => _) = _
  rw [hsame]
  exact if_pos hfirst

/-- A deposit changes only its deque and its team. -/
theorem depositRec_only : { depositRec s kc core q bytes poison with teams := s.teams, deques := s.deques } = s ∧
    (depositRec s kc core q bytes poison).deques = ⟨kc, core, false, q, bytes, poison⟩ :: s.deques := by
  by_cases h : wakeSlot s kc = none ∨ boundCount s kc core ≠ 0
  · rw [depositRec_silent q bytes poison h]
    exact ⟨rfl, rfl⟩
  · rw [not_or, not_not] at h
    obtain ⟨hsome, hfirst⟩ := h
    obtain ⟨slot, hslot⟩ := Option.ne_none_iff_exists'.mp hsome
    rw [depositRec_wakes q bytes poison hslot hfirst]
    exact ⟨rfl, rfl⟩

end deposit

/-- An engine's arrival that completes no phase. -/
theorem barOf_barChange_unready {s : State} {kc core slot : Nat} {T : Team}
    (hT : s.teams.find? (fun q => q.kc = kc ∧ q.core = core) = some T) (hslot : slot < T.bars.length)
    (hready : barReady (engineArrive (barOf T slot)) = false) :
    barOf (teamOf (barChange s kc core slot engineArrive) kc core) slot = engineArrive (barOf T slot) := by
  rw [barChange, teamOf_updTeam_same (f := fun t => barSettle (teamNo (kcOf s kc) core) (setBar t slot (engineArrive (barOf t slot)))
    slot 1024) (fun t => barSettle_key _ (setBar t slot _) slot 1024) hT, barSettle_unready, barOf_setBar hslot]
  rwa [barOf_setBar hslot]

theorem wakesTeam_depositRec (s : State) (kc core : Nat) (q : Option (BitVec 8)) (bytes : List Byte) (poison : List Nat) :
    WakesTeam s (depositRec s kc core q bytes poison) kc core := by
  refine ⟨fun h => by rw [depositRec_silent q bytes poison h]; rfl, fun slot T hslot hfirst hT hlen => ?_⟩
  rw [depositRec_wakes q bytes poison hslot hfirst]
  have hbar := barOf_barChange_unready (s := withRecord s ⟨kc, core, false, q, bytes, poison⟩) hT hlen
  refine ⟨fun hf hh => ?_, fun hf ha hlast => ?_⟩
  · have harrive : engineArrive (barOf T slot) = { barOf T slot with h := (barOf T slot).h + 1 } := by
      rw [engineArrive, if_pos hf, inc10, if_neg hh]
    rw [hbar, harrive]
    rw [harrive, ← Bool.not_eq_true, barReady_iff]
    simp [hf]
  · have harrive : engineArrive (barOf T slot) = { barOf T slot with a := (barOf T slot).a + 1 } := by
      rw [engineArrive, if_neg (by rw [hf]; decide), inc10, if_neg ha]
    rw [hbar, harrive]
    rw [harrive, ← Bool.not_eq_true, barReady_iff]
    rintro ⟨hne, hle, -⟩
    exact hlast.elim hne (BitVec.not_lt.mpr hle)

/-- The teams alone say whether the arrival was made. -/
theorem wakesTeam_of_teams {s t t' : State} {kc core : Nat} (h : WakesTeam s t kc core) (hteams : t'.teams = t.teams) :
    WakesTeam s t' kc core := by
  have hteam : teamOf t' kc core = teamOf t kc core := by rw [teamOf, teamOf, hteams]
  rw [WakesTeam, hteams, hteam]
  exact h

/-! ### What WORK_DEPOSIT does -/

theorem depositWork_fewest {s : State} {l : Launch} {T : Team} (h : Fewest s l.queue (queueOf s l.queue).asid T) :
    depositWork s l = some (depositRec s T.kc T.core (some l.queue) l.bytes l.poison) := by
  rw [depositWork, chooseWorker_fewest h, Option.map_some]

theorem depositWork_none {s : State} {l : Launch} (h : ∀ T ∈ s.teams, ¬Worker s l.queue (queueOf s l.queue).asid T) :
    depositWork s l = none := by
  rw [depositWork, chooseWorker_none h, Option.map_none]

theorem queue_of_releasedWork {s : State} {q : BitVec 8} {n : Nat} {l : Launch} (h : releasedWork s q = some (n, l)) : l.queue = q := by
  have := List.find?_some h
  simp only [Bool.and_eq_true, decide_eq_true_eq] at this
  exact this.1

theorem queue_of_ringHead {s : State} {q : BitVec 8} {l : Launch} (h : ringHead s q = some l) : l.queue = q := by
  unfold ringHead at h
  dsimp only at h
  split at h
  · exact Option.some.inj h ▸ rfl
  · cases h

/-- The record n has left the released ones. -/
def withoutReleased (s : State) (n : Nat) : State :=
  { s with tund := { s.tund with released := s.tund.released.filter fun x => x.1 ≠ n } }

section released
variable {s : State} {q : BitVec 8} {n : Nat} {l : Launch} (hrel : releasedWork s q = some (n, l))
include hrel

theorem exec_workDeposit_released {s' : State} (h : depositWork s l = some s') : exec (.workDeposit q) s = .next (withoutReleased s' n) := by
  change execWorkDeposit q s = _
  simp only [execWorkDeposit, hrel, h, withoutReleased]

theorem exec_workDeposit_released_none (h : depositWork s l = none) : exec (.workDeposit q) s = .next s := by
  change execWorkDeposit q s = _
  simp only [execWorkDeposit, hrel, h]

theorem workDeposit_released :
    (∀ T, Fewest s q (queueOf s q).asid T →
      ∃ t, exec (.workDeposit q) s = .next t ∧ t.mem = s.mem ∧
        t.deques = ⟨T.kc, T.core, false, some q, l.bytes, l.poison⟩ :: s.deques ∧ WakesTeam s t T.kc T.core ∧
        t.tund.released = s.tund.released.filter fun x => x.1 ≠ n) ∧
    ((∀ T ∈ s.teams, ¬ Worker s q (queueOf s q).asid T) → exec (.workDeposit q) s = .next s) := by
  obtain rfl := queue_of_releasedWork hrel
  refine ⟨fun T hT => ?_, fun hnone => exec_workDeposit_released_none hrel (depositWork_none hnone)⟩
  obtain ⟨honly, hdeques⟩ := depositRec_only (s := s) (kc := T.kc) (core := T.core) (some l.queue) l.bytes l.poison
  have htund : (depositRec s T.kc T.core (some l.queue) l.bytes l.poison).tund = s.tund := (congrArg State.tund honly :)
  exact ⟨_, exec_workDeposit_released hrel (depositWork_fewest hT), (congrArg State.mem honly :), hdeques,
    wakesTeam_of_teams (wakesTeam_depositRec ..) rfl, congrArg (fun u : Tundish => u.released.filter fun x : Nat × Launch => x.1 ≠ n) htund⟩

end released

section ring
variable {s : State} {q : BitVec 8} (hrel : releasedWork s q = none) (hwork : (queueOf s q).work = true)
include hrel hwork

theorem workDeposit_noHead (hhead : ringHead s q = none) : exec (.workDeposit q) s = .next s := by
  change execWorkDeposit q s = _
  simp only [execWorkDeposit, hrel, hwork, hhead, if_true]

variable {l : Launch} (hhead : ringHead s q = some l)
include hhead

theorem exec_workDeposit_ring {s' : State} (h : depositWork s l = some s') :
    exec (.workDeposit q) s = .next (raiseRidx s' (queueOf s' q)) := by
  change execWorkDeposit q s = _
  simp only [execWorkDeposit, hrel, hwork, hhead, h, if_true]

theorem exec_workDeposit_ring_none (h : depositWork s l = none) : exec (.workDeposit q) s = .next s := by
  change execWorkDeposit q s = _
  simp only [execWorkDeposit, hrel, hwork, hhead, h, if_true]

theorem workDeposit_ring :
    (∀ T, Fewest s q (queueOf s q).asid T →
      ∃ t, exec (.workDeposit q) s = .next t ∧ t.deques = ⟨T.kc, T.core, false, some q, l.bytes, l.poison⟩ :: s.deques ∧
        WakesTeam s t T.kc T.core ∧ memVal t ((queueOf s q).cb + 8) 8 = (ridx s q + 1) % 2 ^ 64) ∧
    ((∀ T ∈ s.teams, ¬ Worker s q (queueOf s q).asid T) → exec (.workDeposit q) s = .next s) := by
  obtain rfl := queue_of_ringHead hhead
  refine ⟨fun T hT => ?_, fun hnone => exec_workDeposit_ring_none hrel hwork hhead (depositWork_none hnone)⟩
  have hexec := exec_workDeposit_ring hrel hwork hhead (depositWork_fewest hT)
  have hwakes := wakesTeam_depositRec s T.kc T.core (some l.queue) l.bytes l.poison
  obtain ⟨honly, hdeques⟩ := depositRec_only (s := s) (kc := T.kc) (core := T.core) (some l.queue) l.bytes l.poison
  generalize depositRec s T.kc T.core (some l.queue) l.bytes l.poison = s' at *
  have hqueue : queueOf s' l.queue = queueOf s l.queue := (congrArg (fun u : State => queueOf u l.queue) honly :)
  have hmem : s'.mem = s.mem := (congrArg State.mem honly :)
  have hraise : OnlyWrote s' (raiseRidx s' (queueOf s l.queue)) := onlyWrote_memWrite ..
  have hridx : memVal s' ((queueOf s l.queue).cb + 8) 8 = ridx s l.queue := memVal_congr fun a _ _ => by rw [memByte, memByte, hmem]
  rw [hqueue] at hexec
  exact ⟨_, hexec, (hraise.same State.deques :).trans hdeques, wakesTeam_of_teams hwakes (hraise.same State.teams :),
    by rw [memVal_raiseRidx, hridx]⟩

end ring

end Sys2Proof.Proofs.Deposits
end

section
/-! The rounds of placement and the deposits of work (O42). -/

namespace Sys2Proof.Proofs.Rounds

open Sys2Proof Sys2Proof.Machine Sys2Proof.Claims Sys2Proof.Proofs.Deposits

/-- Settles O42: a round is cut into its steps; a search of the candidates finds the first that fits, and the clauses are what the
steps do with one head, with one grid or with nothing; a deposit goes to the first of the workers with the fewest records. -/
theorem placementAndWork : Obligations.PlacementAndWork := by
  unfold Obligations.PlacementAndWork
  refine ⟨?empty, ?newHead, ?laterNever, ?pending, ?ageing, ?released, ?ring, ?noHead⟩
  case empty => exact fun s hlatch hgrids hheads hrel hlook hrr => round_of_nothing hlatch hgrids hheads hrel hlook hrr
  case newHead =>
    intro s key l hlatch hgrids hheads hall hl
    have hnew := findHead_of_noHeads hheads key
    refine ⟨fun m hm hdims hfits hmode henergy => ⟨fun s' used hform => ?_, fun hnone => ?_⟩, fun C hC => ⟨fun hbad => ?_,
      fun m hm hdims hnever => ?_⟩⟩
    · exact round_starts hlatch hgrids hheads hall hl hm hdims hfits hmode henergy hform
    · exact round_blocks hlatch hgrids hheads hall hl hm hdims hfits hmode henergy hnone
    · exact round_of_completed hlatch hgrids hheads hall hC (meetHead_rejected hl hnew hbad)
    · exact round_of_completed hlatch hgrids hheads hall hC (meetHead_neverPlaced hl hnew hm hdims hnever)
  case laterNever =>
    exact fun s h C hlatch hgrids hheads hall hl hk hnever hC => round_of_unplaceable hlatch hgrids hheads hall hl hk hnever hC
  case pending =>
    intro s G hlatch hgrids hheads hrel hlook hrr hk hgrow hpend hctx hmode hasc
    refine ⟨fun h => round_places_nothing hlatch hgrids hheads hrel hlook hrr hgrow hpend hctx hmode h,
      fun c hsusp hleft hlast hfit => ?_⟩
    refine ⟨placedNext s G c, Starts.placedKc s G G.nextCluster c, _,
      round_places hlatch hgrids hheads hrel hlook hrr hgrow hpend hctx hmode hasc hk hsusp hleft hlast hfit,
      placedNext_grids hgrids hfit.die, placedNext_kcs s G c, rfl, rfl, rfl, rfl, rfl, rfl, rfl, rfl, ?_⟩
    exact fun q hq r hr hdie hhw => placedKc_ctx hfit.takes hq hr hdie hhw
  case ageing => exact fun s q h hfound => headAgeing_of_found hfound
  case released => exact fun s q n l hrel => workDeposit_released hrel
  case ring => exact fun s q l hrel hwork hhead => workDeposit_ring hrel hwork hhead
  case noHead => exact fun s q hrel hwork hhead => workDeposit_noHead hrel hwork hhead

end Sys2Proof.Proofs.Rounds
end

section
/-! Append pages at their home (R354 to R366): the append fields of a frame entry, and what each PAGE request does there. -/

namespace Sys2Proof.Proofs.PageHome

open Sys2Proof Sys2Proof.Machine Sys2Proof.Claims Sys2Proof.Proofs.Completions Sys2Proof.Proofs.Accesses Sys2Proof.Proofs.Words
  Sys2Proof.Proofs.Starts Sys2Proof.Proofs.Dependences

/-! ### The append fields of an entry (R354) -/

/-- What the append fields of an entry hold. -/
structure Holds (e : FrameEntry) (rtail ctail nres wlog : Nat) (sealw : Bool) (apst : BitVec 2) : Prop where
  rtail : apRtail e = rtail
  ctail : apCtail e = ctail
  nres : apNres e = nres
  wlog : apWlog e = wlog
  sealw : apSealw e = sealw
  apst : e.apst = apst

theorem apRtail_lt (e : FrameEntry) : apRtail e < 2 ^ 17 := Nat.mod_lt _ (by decide)
theorem apCtail_lt (e : FrameEntry) : apCtail e < 2 ^ 17 := Nat.mod_lt _ (by decide)
theorem apNres_lt (e : FrameEntry) : apNres e < 2 ^ 5 := Nat.mod_lt _ (by decide)
theorem apWlog_lt (e : FrameEntry) : apWlog e < 2 ^ 3 := Nat.mod_lt _ (by decide)
theorem apScopeOf_lt (e : FrameEntry) : apScopeOf e < 2 ^ 2 := Nat.mod_lt _ (by decide)

/-- APSTATE holds the fields it was packed from. -/
theorem holds_of_apPack {e : FrameEntry} {rtail ctail nres wlog scope : Nat} {sealw repl : Bool} (hr : rtail < 2 ^ 17) (hc : ctail < 2 ^ 17)
    (hn : nres < 2 ^ 5) (hw : wlog < 2 ^ 3) (hs : scope < 2 ^ 2) (h : e.apstate = apPack rtail ctail nres wlog scope sealw repl) :
    Holds e rtail ctail nres wlog sealw e.apst := by
  have hval : e.apstate.toNat = rtail * 2 ^ 31 + ctail * 2 ^ 14 + nres * 2 ^ 9 + wlog * 2 ^ 6 + scope * 2 ^ 4 +
      (if sealw then 8 else 0) + (if repl then 4 else 0) := by
    rw [h, apPack, BitVec.toNat_ofNat, Nat.mod_eq_of_lt]
    split <;> split <;> omega
  have hseal : (if sealw then 8 else 0) + (if repl then 4 else 0) < 16 := by cases sealw <;> cases repl <;> decide
  refine ⟨?_, ?_, ?_, ?_, ?_, rfl⟩
  · simp only [apRtail, bitsOf, hval]; omega
  · simp only [apCtail, bitsOf, hval]; omega
  · simp only [apNres, bitsOf, hval]; omega
  · simp only [apWlog, bitsOf, hval]; omega
  · rw [apSealw, bitOf, BitVec.getLsbD, hval, Nat.testBit_eq_decide_div_mod_eq]
    cases sealw <;> cases repl <;> simp <;> omega

theorem frameEntry_setFrame (s : State) (f : Nat) (e : FrameEntry) (f' : Nat) :
    frameEntry (setFrame s f e) f' = if f' = f then e else frameEntry s f' := amGet_amSet ..

/-- A write of the append fields of a page. -/
theorem holds_apWrite (s : State) (f : Nat) {rtail ctail nres : Nat} (hr : rtail < 2 ^ 17) (hc : ctail < 2 ^ 17) (hn : nres < 2 ^ 5)
    (sealw : Bool) (apst : BitVec 2) :
    Holds (frameEntry (apWrite s f rtail ctail nres sealw apst) f) rtail ctail nres (apWlog (frameEntry s f)) sealw apst := by
  rw [apWrite, frameEntry_setFrame, if_pos rfl]
  exact holds_of_apPack hr hc hn (apWlog_lt _) (apScopeOf_lt _) rfl

/-! ### What a request leaves alone -/

/-- From s to t a request at the home of frame f has changed no other frame's entry, and beside entries and reservations only what a
write of memory changes. -/
structure OnlyPage (s t : State) (f : Nat) : Prop where
  rest : { t with
    frameTab := s.frameTab, resvs := s.resvs, ctxs := s.ctxs, mem := s.mem, memPoison := s.memPoison, blockMarks := s.blockMarks
    oldText := s.oldText, tund := s.tund, agenda := s.agenda } = s
  others : ∀ f', f' ≠ f → frameEntry t f' = frameEntry s f'

theorem OnlyPage.refl (s : State) (f : Nat) : OnlyPage s s f := ⟨rfl, fun _ _ => rfl⟩

theorem OnlyPage.trans {s t u : State} {f : Nat} (h : OnlyPage s t f) (h' : OnlyPage t u f) : OnlyPage s u f where
  rest := (congrArg (fun x : State => { x with
    frameTab := s.frameTab, resvs := s.resvs, ctxs := s.ctxs, mem := s.mem, memPoison := s.memPoison, blockMarks := s.blockMarks
    oldText := s.oldText, tund := s.tund, agenda := s.agenda }) h'.rest).trans h.rest
  others f' hf := (h'.others f' hf).trans (h.others f' hf)

theorem OnlyPage.of_wrote {s t : State} (h : OnlyWrote s t) (f : Nat) : OnlyPage s t f where
  rest := (congrArg (fun x : State => { x with frameTab := s.frameTab, resvs := s.resvs }) h :)
  others f' _ := h.same fun x => frameEntry x f'

/-- The state with other reservations. -/
def withResvs (rs : List Resv) (s : State) : State := { s with resvs := rs }

theorem onlyPage_withResvs (s : State) (rs : List Resv) (f : Nat) : OnlyPage s (withResvs rs s) f := ⟨rfl, fun _ _ => rfl⟩

/-- A write of a page's append fields, with other reservations. -/
theorem onlyPage_apWrite (s : State) (rs : List Resv) (f rtail ctail nres : Nat) (sealw : Bool) (apst : BitVec 2) :
    OnlyPage s (apWrite (withResvs rs s) f rtail ctail nres sealw apst) f where
  rest := rfl
  others f' hf := by rw [apWrite, frameEntry_setFrame, if_neg hf]; rfl

/-- No watch stands on a page. -/
def Unwatched (s : State) (f : Nat) : Prop := ∀ w ∈ s.watches, w.frame ≠ f

theorem fireWatches_unwatched {s : State} {f : Nat} (h : Unwatched s f) : fireWatches s f = s := by
  have hhit : (s.watches.filter fun w => w.frame = f && (decide (w.threshold ≤ apCtail (frameEntry s f)) || (frameEntry s f).apst = 2)) = [] :=
    List.filter_eq_nil_iff.mpr fun w hw => by simp [h w hw]
  dsimp only [fireWatches]
  rw [hhit]
  simp

/-! ### Reservations granted and refused (R362) -/

/-- R362's order of refusals is that of the home. -/
theorem reserveStatus_eq (s : State) (f n : Nat) : reserveStatus s f n = (refusal s f n).map BitVec.toNat := by
  unfold reserveStatus refusal
  delta apWindow
  simp only [Bool.or_eq_true, decide_eq_true_eq]
  split_ifs <;> rfl

/-- The number of reservations outstanding in a page's stack. -/
def outstanding (s : State) (f : Nat) : Nat := (s.resvs.filter fun r => r.frame / 2 ^ 20 = f / 2 ^ 20).length

/-- The page has room for a reservation of n bytes. -/
structure Granted (s : State) (f n : Nat) : Prop where
  opened : (frameEntry s f).apst = 1
  unsealed : apSealw (frameEntry s f) = false
  sized : 0 < n ∧ n ≤ 2 ^ (apWlog (frameEntry s f) + 10)
  fits : apRtail (frameEntry s f) + n ≤ 65536
  counted : apNres (frameEntry s f) ≠ 16 ∧ outstanding s f < 8192
  window : apRtail (frameEntry s f) + n - apCtail (frameEntry s f) ≤ 2 ^ (apWlog (frameEntry s f) + 10)

theorem refusal_eq_none {s : State} {f n : Nat} : refusal s f n = none ↔ Granted s f n := by
  simp only [refusal, ite_eq_iff, reduceCtorEq, and_false, and_true, false_or]
  constructor
  · rintro ⟨hopen, hsize, hfits, hcount, hwindow⟩
    obtain ⟨hopened, hunsealed⟩ := not_or.mp hopen
    exact ⟨not_not.mp hopened, Bool.eq_false_iff.mpr hunsealed, by omega, by omega,
      ⟨fun h => hcount (.inl h), Nat.lt_of_not_le fun h => hcount (.inr h)⟩, by omega⟩
  · rintro ⟨hopened, hunsealed, hsized, hfits, ⟨hnres, hcount⟩, hwindow⟩
    exact ⟨fun h => h.elim (absurd hopened) (by simp [hunsealed]), by omega, by omega,
      fun h => h.elim hnres (Nat.not_le.mpr hcount), by omega⟩

/-- From s to t a reservation of n bytes has been added behind RTAIL. -/
structure Reserves (s t : State) (f n : Nat) : Prop where
  only : OnlyPage s t f
  mem : t.mem = s.mem
  resvs : t.resvs = s.resvs ++ [⟨f, apRtail (frameEntry s f), n, false⟩]
  entry : Holds (frameEntry t f) (apRtail (frameEntry s f) + n) (apCtail (frameEntry s f)) (apNres (frameEntry s f) + 1)
    (apWlog (frameEntry s f)) false 1

theorem pageAt_reserve_granted {s : State} {f n : Nat} (hg : Granted s f (roundUp n 4)) (hn : apNres (frameEntry s f) < 16) (ctx : Ctx)
    (off : Nat) : ∃ t, pageAt s ctx f off (.reserve n) = (t, .ok (apRtail (frameEntry s f))) ∧ Reserves s t f (roundUp n 4) := by
  have hfits := hg.fits
  have hentry := holds_apWrite (withResvs (s.resvs ++ [⟨f, apRtail (frameEntry s f), roundUp n 4, false⟩]) s) f
    (rtail := apRtail (frameEntry s f) + roundUp n 4) (by omega) (apCtail_lt (frameEntry s f)) (nres := apNres (frameEntry s f) + 1)
    (by omega) false 1
  refine ⟨_, ?_, onlyPage_apWrite s (s.resvs ++ [⟨f, apRtail (frameEntry s f), roundUp n 4, false⟩]) .., rfl, rfl, hentry⟩
  simp only [pageAt, reserveStatus_eq, refusal_eq_none.mpr hg, Option.map_none, hg.unsealed, hg.opened]
  rfl

theorem pageAt_reserve_refused {s : State} {f n : Nat} {w : Word} (h : refusal s f (roundUp n 4) = some w) (ctx : Ctx) (off : Nat) :
    pageAt s ctx f off (.reserve n) = (s, .ok w.toNat) := by
  simp [pageAt, reserveStatus_eq, h]

/-! ### Commits and appends (R363, R364) -/

theorem resvsOf_eq_nil {s : State} {f : Nat} : resvsOf s f = [] ↔ (s.resvs.filter fun r => r.frame = f) = [] := by
  rw [← List.perm_nil, ← List.perm_nil]
  exact ⟨fun h => (sortBy_perm _ _).symm.trans h, fun h => (sortBy_perm _ _).trans h⟩

theorem resvsOf_eq_singleton {s : State} {f : Nat} {r : Resv} : resvsOf s f = [r] ↔ (s.resvs.filter fun r => r.frame = f) = [r] := by
  rw [← List.perm_singleton, ← List.perm_singleton]
  exact ⟨fun h => (sortBy_perm _ _).symm.trans h, fun h => (sortBy_perm _ _).trans h⟩

/-- From s to t the one reservation of a page, of n bytes, has left the list, and CTAIL has advanced across it; with no other
reservation counted a waiting seal closes the page (R356, R365). -/
structure Advances (s t : State) (f n : Nat) : Prop where
  only : OnlyPage s t f
  mem : t.mem = s.mem
  ctxs : t.ctxs = s.ctxs
  resvs : ∀ r ∈ t.resvs, r.frame ≠ f
  entry : Holds (frameEntry t f) (apRtail (frameEntry s f)) (apCtail (frameEntry s f) + n) (apNres (frameEntry s f) - 1)
    (apWlog (frameEntry s f)) (apSealw (frameEntry s f) && !decide (apNres (frameEntry s f) ≤ 1))
    (if apSealw (frameEntry s f) && decide (apNres (frameEntry s f) ≤ 1) then 2 else (frameEntry s f).apst)

theorem advanceTail_one {s : State} {f : Nat} {r : Resv} (hw : Unwatched s f) (h : resvsOf s f = [r]) (hdone : r.done = true)
    (hfit : apCtail (frameEntry s f) + r.len ≤ 65536) : Advances s (advanceTail s f) f r.len := by
  have hn := apNres_lt (frameEntry s f)
  have hzero : decide (apNres (frameEntry s f) - 1 = 0) = decide (apNres (frameEntry s f) ≤ 1) := decide_eq_decide.mpr (by omega)
  have hlead : leadingDone (resvsOf s f) = [r] := by rw [h, leadingDone, hdone]; rfl
  have heq : advanceTail s f = apWrite (withResvs (s.resvs.filter fun x => !([r].contains x)) s) f (apRtail (frameEntry s f))
      (apCtail (frameEntry s f) + r.len) (apNres (frameEntry s f) - 1)
      (apSealw (frameEntry s f) && !decide (apNres (frameEntry s f) ≤ 1))
      (if apSealw (frameEntry s f) && decide (apNres (frameEntry s f) ≤ 1) then 2 else (frameEntry s f).apst) := by
    refine Eq.trans ?_ (fireWatches_unwatched hw)
    simp only [advanceTail, hlead, List.foldl_cons, List.foldl_nil, List.length_singleton, hzero]
    cases apSealw (frameEntry s f) <;> rfl
  rw [heq]
  refine ⟨onlyPage_apWrite .., rfl, rfl, fun x hx hxf => ?_, holds_apWrite _ f (apRtail_lt _) (by omega) (by omega) _ _⟩
  obtain ⟨hmem, hne⟩ := List.mem_filter.mp (show x ∈ s.resvs.filter fun x => !([r].contains x) from hx)
  have hin : x ∈ s.resvs.filter fun r => r.frame = f := List.mem_filter.mpr ⟨hmem, by simpa using hxf⟩
  rw [resvsOf_eq_singleton.mp h, List.mem_singleton] at hin
  simp [hin] at hne

/-- A commit marks the reservation at its offset done. -/
def marked (f off : Nat) (r : Resv) : Resv := if r.frame = f ∧ r.off = off then { r with done := true } else r

theorem marked_frame (f off : Nat) (r : Resv) : (marked f off r).frame = r.frame := by
  unfold marked
  split <;> rfl

theorem resvsOf_marked {s : State} {f : Nat} {r : Resv} (h : resvsOf s f = [r]) :
    resvsOf (withResvs (s.resvs.map (marked f r.off)) s) f = [{ r with done := true }] := by
  have hone := resvsOf_eq_singleton.mp h
  have hin : r ∈ s.resvs.filter fun r => r.frame = f := hone ▸ List.mem_singleton_self r
  have hframe : r.frame = f := by simpa using (List.mem_filter.mp hin).2
  refine resvsOf_eq_singleton.mpr ?_
  change (s.resvs.map (marked f r.off)).filter (fun r => r.frame = f) = _
  rw [List.filter_map, show (fun r : Resv => decide (r.frame = f)) ∘ marked f r.off = fun r => decide (r.frame = f) from
    funext fun x => by rw [Function.comp_apply, marked_frame], hone, List.map_singleton, marked, if_pos ⟨hframe, rfl⟩]

/-- The tail word of a page whose one reservation, of n bytes, has just been committed. -/
theorem tailWord_of_advances {s t : State} {f n : Nat} (h : Advances s t f n) (hopen : (frameEntry s f).apst ≠ 2) :
    tailWord (frameEntry t f) (apCtail (frameEntry t f)) =
      (if apSealw (frameEntry s f) && decide (apNres (frameEntry s f) ≤ 1) then 3 else if apSealw (frameEntry s f) then 2 else 1) * 2 ^ 30 +
        apCtail (frameEntry s f) + n := by
  obtain ⟨-, hctail, -, -, hseal, hapst⟩ := h.entry
  have hcode : ¬(frameEntry s f).apst = 2#2 := hopen
  rw [tailWord, hctail, hseal, hapst]
  cases apSealw (frameEntry s f) <;> cases decide (apNres (frameEntry s f) ≤ 1) <;> simp [hcode, Nat.add_assoc]

theorem pageAt_commit {s : State} {f off : Nat} {r : Resv} (hw : Unwatched s f) (hopen : (frameEntry s f).apst ≠ 2)
    (h : resvsOf s f = [r]) (hoff : r.off = off) (hfit : apCtail (frameEntry s f) + r.len ≤ 65536) (ctx : Ctx) :
    ∃ t, pageAt s ctx f off .commit = (t, .ok ((if apSealw (frameEntry s f) && decide (apNres (frameEntry s f) ≤ 1) then 3
        else if apSealw (frameEntry s f) then 2 else 1) * 2 ^ 30 + apCtail (frameEntry s f) + r.len)) ∧
      Advances s t f r.len := by
  subst hoff
  have hmarked := advanceTail_one (s := withResvs (s.resvs.map (marked f r.off)) s) hw (resvsOf_marked h) rfl hfit
  have hadv : Advances s (advanceTail (withResvs (s.resvs.map (marked f r.off)) s) f) f r.len :=
    ⟨(onlyPage_withResvs s _ f).trans hmarked.only, hmarked.mem, hmarked.ctxs, hmarked.resvs, hmarked.entry⟩
  refine ⟨_, ?_, hadv⟩
  have hany : ((resvsOf s f).any fun x => x.off = r.off) = true := by simp [h]
  simp only [pageAt, if_neg hopen, hany, if_true]
  exact congrArg (fun n => (_, Except.ok n)) (tailWord_of_advances hadv hopen)

/-- An append has taken its n bytes behind RTAIL, done, and CTAIL has yet to advance. -/
def appending (s : State) (f n : Nat) : State :=
  apWrite (withResvs (s.resvs ++ [⟨f, apRtail (frameEntry s f), n, true⟩]) s) f (apRtail (frameEntry s f) + n) (apCtail (frameEntry s f))
    (apNres (frameEntry s f) + 1) false 1

/-- From s to t a page has grown by n bytes that are committed. -/
structure Grows (s t : State) (f n : Nat) : Prop where
  only : OnlyPage s t f
  mem : t.mem = s.mem
  entry : Holds (frameEntry t f) (apRtail (frameEntry s f) + n) (apCtail (frameEntry s f) + n) (apNres (frameEntry s f))
    (apWlog (frameEntry s f)) false 1

/-- With no other reservation an append is committed at once. -/
theorem advanceTail_appending {s : State} {f n : Nat} (hw : Unwatched s f) (hfits : apRtail (frameEntry s f) + n ≤ 65536)
    (hn : apNres (frameEntry s f) < 16) (h : resvsOf s f = []) (hle : apCtail (frameEntry s f) ≤ apRtail (frameEntry s f)) :
    Grows s (advanceTail (appending s f n) f) f n := by
  have hentry : Holds (frameEntry (appending s f n) f) (apRtail (frameEntry s f) + n) (apCtail (frameEntry s f))
      (apNres (frameEntry s f) + 1) (apWlog (frameEntry s f)) false 1 :=
    holds_apWrite (withResvs (s.resvs ++ [⟨f, apRtail (frameEntry s f), n, true⟩]) s) f (by omega) (apCtail_lt _) (by omega) false 1
  have hone : resvsOf (appending s f n) f = [⟨f, apRtail (frameEntry s f), n, true⟩] := resvsOf_eq_singleton.mpr (by
    change (s.resvs ++ [(⟨f, apRtail (frameEntry s f), n, true⟩ : Resv)]).filter (fun r => r.frame = f) = _
    rw [List.filter_append, resvsOf_eq_nil.mp h]
    simp)
  obtain ⟨honly, hmem, -, -, hadv⟩ := advanceTail_one (s := appending s f n) hw hone rfl (by rw [hentry.ctail]; dsimp only; omega)
  rw [hentry.rtail, hentry.ctail, hentry.nres, hentry.wlog, hentry.sealw, hentry.apst] at hadv
  exact ⟨(onlyPage_apWrite s _ f _ _ _ _ _).trans honly, hmem, hadv⟩

theorem pageAt_append {s : State} {f : Nat} {bytes : List Byte} (hw : Unwatched s f) (hg : Granted s f bytes.length)
    (hn : apNres (frameEntry s f) < 16) (h : resvsOf s f = []) (hle : apCtail (frameEntry s f) ≤ apRtail (frameEntry s f)) (ctx : Ctx)
    (off : Nat) :
    ∃ t, pageAt s ctx f off (.append bytes) = (t, .ok (apRtail (frameEntry s f))) ∧ OnlyPage s t f ∧
      Holds (frameEntry t f) (apRtail (frameEntry s f) + bytes.length) (apCtail (frameEntry s f) + bytes.length)
        (apNres (frameEntry s f)) (apWlog (frameEntry s f)) false 1 ∧
      t.mem = (ctxWrite s ctx (f * 65536 + apRtail (frameEntry s f)) 1 bytes).mem := by
  have hwrote := onlyWrote_ctxWrite s ctx (f * 65536 + apRtail (frameEntry s f)) 1 bytes
  simp only [pageAt, reserveStatus_eq, refusal_eq_none.mpr hg, Option.map_none, hg.unsealed, hg.opened]
  generalize ctxWrite s ctx (f * 65536 + apRtail (frameEntry s f)) 1 bytes = W at hwrote
  have hentry : frameEntry W f = frameEntry s f := hwrote.same fun x => frameEntry x f
  have hresvs : W.resvs = s.resvs := hwrote.same State.resvs
  have hwatches : W.watches = s.watches := hwrote.same State.watches
  obtain ⟨honly, hmem, hgrown⟩ := advanceTail_appending (s := W) (n := bytes.length) (fun w hin => hw w (hwatches ▸ hin))
    (hentry ▸ hg.fits) (hentry ▸ hn) (by rw [resvsOf, hresvs]; exact h) (hentry ▸ hle)
  rw [hentry] at hgrown
  refine ⟨advanceTail (appending W f bytes.length) f, ?_, (OnlyPage.of_wrote hwrote f).trans honly, hgrown, hmem⟩
  rw [appending, hentry]
  rfl

/-! ### Seals and tail reads (R365, R366) -/

theorem pageAt_sealed {s : State} {f : Nat} (h : (frameEntry s f).apst = 2) (ctx : Ctx) (off : Nat) (waiting : Bool) :
    pageAt s ctx f off (.close waiting) = (s, .ok (3 * 2 ^ 30 + apCtail (frameEntry s f))) := by
  simp only [pageAt, h, if_true, tailWord]

/-- What a close answers: the tail word of what it leaves. -/
theorem tailWord_of_holds {e : FrameEntry} {rtail ctail nres wlog : Nat} {sealw : Bool} {apst : BitVec 2}
    (h : Holds e rtail ctail nres wlog sealw apst) :
    tailWord e (apCtail e) = (if apst = 2 then 3 else if sealw then 2 else 1) * 2 ^ 30 + ctail := by
  rw [tailWord, h.apst, h.sealw, h.ctail]

/-- A page sealed at CTAIL: every reservation is gone. -/
def sealedAt (s : State) (f : Nat) : State :=
  apWrite (withResvs (s.resvs.filter fun r => r.frame ≠ f) s) f (apCtail (frameEntry s f)) (apCtail (frameEntry s f)) 0 false 2

/-- A seal takes every reservation of the page away, and RTAIL back to CTAIL. -/
theorem pageAt_seal {s : State} {f : Nat} (hw : Unwatched s f) (hopen : (frameEntry s f).apst ≠ 2) (ctx : Ctx) (off : Nat) :
    ∃ t, pageAt s ctx f off (.close false) = (t, .ok (3 * 2 ^ 30 + apCtail (frameEntry s f))) ∧ OnlyPage s t f ∧ t.mem = s.mem ∧
      (∀ r ∈ t.resvs, r.frame ≠ f) ∧
      Holds (frameEntry t f) (apCtail (frameEntry s f)) (apCtail (frameEntry s f)) 0 (apWlog (frameEntry s f)) false 2 := by
  have hentry : Holds (frameEntry (sealedAt s f) f) (apCtail (frameEntry s f)) (apCtail (frameEntry s f)) 0 (apWlog (frameEntry s f))
      false 2 := holds_apWrite (withResvs (s.resvs.filter fun r => r.frame ≠ f) s) f (apCtail_lt _) (apCtail_lt _) (by decide) false 2
  have hat : pageAt s ctx f off (.close false) = (fireWatches (sealedAt s f) f,
      .ok (tailWord (frameEntry (fireWatches (sealedAt s f) f) f) (apCtail (frameEntry (fireWatches (sealedAt s f) f) f)))) := by
    simp only [pageAt, if_neg hopen, Bool.false_eq_true, if_false]
    rfl
  rw [fireWatches_unwatched (s := sealedAt s f) hw, tailWord_of_holds hentry, if_pos rfl] at hat
  exact ⟨_, hat, onlyPage_apWrite .., rfl, fun r hr => by simpa using (List.mem_filter.mp hr).2, hentry⟩

/-- A waiting seal closes a page without reservations at once, and else waits for them. -/
theorem pageAt_sealW {s : State} {f : Nat} (hw : Unwatched s f) (hopen : (frameEntry s f).apst ≠ 2)
    (hunsealed : apSealw (frameEntry s f) = false) (ctx : Ctx) (off : Nat) :
    ∃ t, pageAt s ctx f off (.close true) =
        (t, .ok ((if apNres (frameEntry s f) = 0 then 3 else 2) * 2 ^ 30 + apCtail (frameEntry s f))) ∧
      OnlyPage s t f ∧ t.mem = s.mem ∧ t.resvs = s.resvs ∧
      Holds (frameEntry t f) (apRtail (frameEntry s f)) (apCtail (frameEntry s f)) (apNres (frameEntry s f)) (apWlog (frameEntry s f))
        (decide (apNres (frameEntry s f) ≠ 0)) (if apNres (frameEntry s f) = 0 then 2 else (frameEntry s f).apst) := by
  by_cases hn : apNres (frameEntry s f) = 0
  · have hentry := holds_apWrite s f (apRtail_lt (frameEntry s f)) (apCtail_lt (frameEntry s f)) (nres := 0) (by decide) false 2
    have hfire := fireWatches_unwatched (s := apWrite s f (apRtail (frameEntry s f)) (apCtail (frameEntry s f)) 0 false 2) hw
    simp only [pageAt, if_neg hopen, hunsealed, hn, Bool.false_eq_true, if_false, if_true, hfire, tailWord_of_holds hentry]
    exact ⟨_, rfl, onlyPage_apWrite s s.resvs .., rfl, rfl, hentry⟩
  · have hentry := holds_apWrite s f (apRtail_lt (frameEntry s f)) (apCtail_lt (frameEntry s f)) (apNres_lt (frameEntry s f)) true
      (frameEntry s f).apst
    simp only [pageAt, if_neg hopen, hunsealed, hn, Bool.false_eq_true, if_false, if_true, tailWord_of_holds hentry]
    exact ⟨_, rfl, onlyPage_apWrite s s.resvs .., rfl, rfl, by simpa [hn] using hentry⟩

theorem pageAt_tail (s : State) (ctx : Ctx) (f off : Nat) (reserved : Bool) : pageAt s ctx f off (.tail reserved) =
    (s, .ok (tailCode (frameEntry s f) * 2 ^ 30 + if reserved then apRtail (frameEntry s f) else apCtail (frameEntry s f))) := rfl

/-! ### The lanes of one `apres` that name one page (R361, R362) -/

/-- A page has room for reservations of the sizes given, one behind the other. -/
structure Room (s : State) (f : Nat) (ns : List Nat) : Prop where
  opened : (frameEntry s f).apst = 1
  unsealed : apSealw (frameEntry s f) = false
  sized : ∀ n ∈ ns, 0 < n ∧ n ≤ 2 ^ (apWlog (frameEntry s f) + 10)
  fits : apRtail (frameEntry s f) + ns.sum ≤ 65536
  counted : apNres (frameEntry s f) + ns.length ≤ 16
  stack : outstanding s f + ns.length ≤ 8192
  window : apRtail (frameEntry s f) + ns.sum - apCtail (frameEntry s f) ≤ 2 ^ (apWlog (frameEntry s f) + 10)

theorem Room.granted {s : State} {f n : Nat} {ns : List Nat} (h : Room s f (n :: ns)) : Granted s f n := by
  obtain ⟨hopened, hunsealed, hsized, hfits, hcounted, hstack, hwindow⟩ := h
  rw [List.sum_cons] at hfits hwindow
  rw [List.length_cons] at hcounted hstack
  exact ⟨hopened, hunsealed, hsized n List.mem_cons_self, by omega, ⟨by omega, by omega⟩, by omega⟩

/-- Once the first reservation is made there is room for the others. -/
theorem Room.rest {s t : State} {f n : Nat} {ns : List Nat} (h : Room s f (n :: ns)) (ht : Reserves s t f n) : Room t f ns := by
  obtain ⟨hopened, hunsealed, hsized, hfits, hcounted, hstack, hwindow⟩ := h
  obtain ⟨hr, hc, hn, hw, hs, ha⟩ := ht.entry
  have hout : outstanding t f = outstanding s f + 1 := by
    rw [outstanding, ht.resvs, List.filter_append, List.length_append]
    simp [outstanding]
  rw [List.sum_cons] at hfits hwindow
  rw [List.length_cons] at hcounted hstack
  refine ⟨ha, hs, fun i hi => hw ▸ hsized i (List.mem_cons_of_mem n hi), ?_, ?_, ?_, ?_⟩
  · rw [hr]; omega
  · rw [hn]; omega
  · rw [hout]; omega
  · rw [hr, hc, hw]; omega

/-- Where the reservation of a lane begins: behind those of the lower lanes. -/
def placeOf (s : State) (f : Nat) (size : Nat → Nat) (act : List Nat) (l : Nat) : Nat :=
  apRtail (frameEntry s f) + ((lowerLanes act l).map size).sum

/-- From s to t lanes have made reservations of the sizes given in ascending order. -/
structure ReservesAll (s t : State) (f : Nat) (size : Nat → Nat) (act : List Nat) : Prop where
  only : OnlyPage s t f
  mem : t.mem = s.mem
  resvs : t.resvs = s.resvs ++ act.map fun l => ⟨f, placeOf s f size act l, size l, false⟩
  entry : Holds (frameEntry t f) (apRtail (frameEntry s f) + (act.map size).sum) (apCtail (frameEntry s f))
    (apNres (frameEntry s f) + act.length) (apWlog (frameEntry s f)) false 1

/-- A lane but the lowest finds the lowest one's reservation made. -/
theorem placeOf_cons {s t : State} {f : Nat} {size : Nat → Nat} {l i : Nat} {ls : List Nat} (ht : Reserves s t f (size l)) (hne : l ≠ i) :
    placeOf s f size (l :: ls) i = placeOf t f size ls i := by
  rw [placeOf, placeOf, lowerLanes_tail hne, ht.entry.rtail, List.map_cons, List.sum_cons, Nat.add_assoc]

theorem pageBlock_reserves {f : Nat} {act : List Nat} (hnodup : act.Nodup) (ctx : Ctx) (th : Nat → Thread) (hth : ∀ l, (th l).lane = l)
    (n : Nat → Nat) (pc : Nat → Piece) {s : State} (hroom : Room s f (act.map fun l => roundUp (n l) 4)) :
    ∃ t, pageBlock s ctx f (act.map fun l => (⟨th l, .reserve (n l)⟩, pc l)) =
        (t, act.map (fun l => (l, placeOf s f (fun l => roundUp (n l) 4) act l)), []) ∧
      ReservesAll s t f (fun l => roundUp (n l) 4) act := by
  induction act generalizing s with
  | nil => exact ⟨s, rfl, .refl s f, rfl, by simp, rfl, rfl, rfl, rfl, hroom.unsealed, hroom.opened⟩
  | cons l ls ih =>
    obtain ⟨hl, hls⟩ := List.nodup_cons.mp hnodup
    have hcounted := hroom.counted
    rw [List.map_cons, List.length_cons] at hcounted
    obtain ⟨t, hat, ht⟩ := pageAt_reserve_granted (n := n l) hroom.granted (by omega) ctx ((pc l).va % 65536)
    obtain ⟨u, hrest, honly, hmem, hresvs, hr, hc, hn, hw, hs, ha⟩ := ih hls (hroom.rest ht)
    have hplace : ∀ i ∈ ls, placeOf s f (fun l => roundUp (n l) 4) (l :: ls) i = placeOf t f (fun l => roundUp (n l) 4) ls i :=
      fun i hi => placeOf_cons ht fun e => hl (e ▸ hi)
    have hfirst : placeOf s f (fun l => roundUp (n l) 4) (l :: ls) l = apRtail (frameEntry s f) := by rw [placeOf, lowerLanes_head]; rfl
    refine ⟨u, ?_, ht.only.trans honly, hmem.trans ht.mem, ?_, ?_, hc.trans ht.entry.ctail, ?_, hw.trans ht.entry.wlog, hs, ha⟩
    · simp only [List.map_cons, pageBlock, hat, hrest, hth, hfirst]
      exact congrArg (fun vs => (u, (l, apRtail (frameEntry s f)) :: vs, []))
        (List.map_congr_left fun i hi => congrArg (i, ·) (hplace i hi).symm)
    · rw [hresvs, ht.resvs, List.map_cons, hfirst, List.append_assoc]
      exact congrArg (fun rs => s.resvs ++ ⟨f, apRtail (frameEntry s f), roundUp (n l) 4, false⟩ :: rs)
        (List.map_congr_left fun i hi => congrArg (fun off => (⟨f, off, _, false⟩ : Resv)) (hplace i hi).symm)
    · rw [hr, ht.entry.rtail, List.map_cons, List.sum_cons, Nat.add_assoc]
    · rw [hn, ht.entry.nres, List.length_cons]; omega

end Sys2Proof.Proofs.PageHome
end

section
/-! PAGE instructions (R361): how one runs on lanes and on the spine, from its checks to its home and back. -/

namespace Sys2Proof.Proofs.PageRuns

open Sys2Proof Sys2Proof.Machine Sys2Proof.Claims Sys2Proof.Proofs.StateRules Sys2Proof.Proofs.Answers Sys2Proof.Proofs.Stops
  Sys2Proof.Proofs.Boundaries Sys2Proof.Proofs.Completions Sys2Proof.Proofs.Accesses Sys2Proof.Proofs.GlobalLoads
  Sys2Proof.Proofs.PageHome

/-! ### The blocks of one instruction (R249, R361) -/

theorem appendMarks_onlyCtxs (s : State) (asid : Asid) (m : Member) (f : Nat) (blk : List (PageThread × Piece)) (vs : List (Nat × Nat)) :
    { appendMarks s asid m f blk vs with ctxs := s.ctxs } = s := by
  unfold appendMarks
  induction vs generalizing s with
  | nil => rfl
  | cons v vs ih =>
    rw [List.foldl_cons]
    refine (congrArg (fun x : State => { x with ctxs := s.ctxs }) (ih _) :).trans ?_
    split
    · split
      · split <;> rfl
      · rfl
    · rfl

/-- A list of one thing, repeated, without repeats. -/
theorem dedup_of_forall_eq {α : Type} [DecidableEq α] {l : List α} {x : α} (hne : l ≠ []) (h : ∀ y ∈ l, y = x) : dedup l = [x] := by
  cases l with
  | nil => exact absurd rfl hne
  | cons y ys =>
    obtain ⟨rfl, hys⟩ := List.forall_mem_cons.mp h
    rw [dedup, List.filter_eq_nil_iff.mpr]
    intro z hz
    simpa using hys z (mem_dedup.mp hz)

/-- What an instruction has when its pages have answered: for each lane a value for d. -/
def pageAsked (d : Nat) (m : LaneMask) (vs : List (Nat × Nat)) : Asked :=
  ⟨[], [], vs.map fun v => (v.1, 0, natToBytes 4 v.2), some (d, 2, false), m, true, [], []⟩

section
variable {s U : State} {ctx : Ctx} {f : Nat} {ts : List (PageThread × Piece)} {vs : List (Nat × Nat)}
  (hf : ∀ t ∈ ts, pieceFrame t.2 = some f)
include hf

/-- Requests that all name one page, at home on this device, are one block. -/
theorem pageBlocks_one (hblock : pageBlock s ctx f ts = (U, vs, [])) {d : DieNo} {need : Need}
    (hlate : ∀ t ∈ ts, pieceLate s d { need with page := true } t.2 = none) (who : Member) (r : Nat) (m : LaneMask) :
    ∃ V m', { V with ctxs := U.ctxs } = U ∧ pageBlocks s ctx who need d ts (dedup (ts.filterMap fun t => pieceFrame t.2)) (pageAsked r m []) =
      (V, pageAsked r m' vs) := by
  by_cases hnil : ts = []
  · subst hnil
    cases hblock
    exact ⟨s, m, rfl, rfl⟩
  · have hframes : dedup (ts.filterMap fun t => pieceFrame t.2) = [f] := by
      refine dedup_of_forall_eq (fun h => ?_) fun y hy => ?_
      · obtain ⟨t, ht⟩ := List.exists_mem_of_ne_nil ts hnil
        have := List.filterMap_eq_nil_iff.mp h t ht
        rw [hf t ht] at this
        cases this
      · obtain ⟨t, ht, hty⟩ := List.mem_filterMap.mp hy
        exact Option.some.inj (hty.symm.trans (hf t ht))
    have hall : ts.filter (fun t => pieceFrame t.2 = some f) = ts := List.filter_eq_self.mpr fun t ht => by simpa using hf t ht
    have hearly : (ts.filterMap fun t => (pieceLate s d { need with page := true } t.2).map fun b => (t.1.t.lane, b, t.2.va)) = [] :=
      List.filterMap_eq_nil_iff.mpr fun t ht => by rw [hlate t ht]; rfl
    rw [hframes]
    refine ⟨appendMarks U ctx.asid who f ts vs, m &&& ~~~maskOf (vs.map fun v => v.1), appendMarks_onlyCtxs .., ?_⟩
    simp only [pageBlocks, hall, hearly, hblock, List.isEmpty_nil, Bool.not_true, Bool.false_eq_true, if_false, if_true]
    rfl

theorem targetPages_nil : dedup (ts.filterMap fun t => targetPage t.2.way) = [] := by
  have hnone : (ts.filterMap fun t => targetPage t.2.way) = [] := List.filterMap_eq_nil_iff.mpr fun t ht => by
    have := hf t ht
    unfold pieceFrame at this
    unfold targetPage
    split at this
    · next h => rw [h]
    · cases this
  rw [hnone, dedup]

end

/-! ### From the checks to the home -/

/-- What an access of a PAGE instruction needs (R342). -/
def pageNeed (o : PageOp) : Need := { r := !o.write, w := o.write, page := true }

/-- A PAGE instruction of the threads ts once its registers are read: its access is checked, each page's home answers, the sprue
registers ks are consumed, and the access ends. -/
def pageAccess (s : State) (c : Issue) (o : PageOp) (ks : List Nat) (ts : List Thread) : State :=
  let r := checkAll s (ctxOf s (memberAsid s c.who)) (pageNeed o) true false 1 ts
  if !(missesOf r.2).isEmpty then raiseMisses s c (missesOf r.2) [o.d.toNat] false
  else
    let ps := (passedOf r.2).filterMap fun t => t.2.head?.map fun p => ((⟨t.1, o.req t.1.data⟩ : PageThread), p)
    let b := pageBlocks r.1 (ctxOf s (memberAsid s c.who)) c.who (pageNeed o) (memberDie s c.who) ps
      (dedup (ps.filterMap fun p => pieceFrame p.2)) { askedInit ts (some (o.d.toNat, 2, false)) with keep := true }
    let q := pageRemote b.1 c (ctxOf s (memberAsid s c.who)) o.d.toNat ps (dedup (ps.filterMap fun p => targetPage p.2.way)) b.2
    endAccess (acquireIf (if q.2.late.isEmpty && q.2.waiting.isEmpty then consumeAll q.1 (memberKc c.who) ks else q.1) c
      (o.req [] = .tail false) q.2) c o.la [o.d.toNat] q.2 (if q.2.late.isEmpty then [] else loadedWrites q.2)

/-- The requests of threads whose addresses lead to pages on this device. -/
def homeRequests (o : PageOp) (lanes : List Nat) (addr : Nat → DWord) (data : Nat → List Byte) (pa : Nat → Nat) (cls : Nat → BitVec 2) :
    List (PageThread × Piece) :=
  lanes.map fun l => (⟨⟨l, addr l, data l⟩, o.req (data l)⟩, ⟨.mem (pa l) (cls l), 0, 1, (addr l).toNat % 2 ^ 48⟩)

/-- The pieces of those threads' accesses. -/
def homePieces (addr : Nat → DWord) (pa : Nat → Nat) (cls : Nat → BitVec 2) (l : Nat) : List Piece :=
  [⟨.mem (pa l) (cls l), 0, 1, (addr l).toNat % 2 ^ 48⟩]

section
variable {s s' U : State} {c : Issue} {o : PageOp} {lanes : List Nat} {addr : Nat → DWord} {data : Nat → List Byte} {pa : Nat → Nat}
  {cls : Nat → BitVec 2} {f : Nat} {vs : List (Nat × Nat)}

theorem homeRequests_frame (hf : ∀ l ∈ lanes, pa l / 65536 = f) : ∀ t ∈ homeRequests o lanes addr data pa cls, pieceFrame t.2 = some f := by
  intro t ht
  obtain ⟨l, hl, rfl⟩ := List.mem_map.mp ht
  exact congrArg some (hf l hl)

theorem homeRequests_passed : (lanes.map fun l => ((⟨l, addr l, data l⟩ : Thread), homePieces addr pa cls l)).filterMap
    (fun t => t.2.head?.map fun p => ((⟨t.1, o.req t.1.data⟩ : PageThread), p)) = homeRequests o lanes addr data pa cls := by
  rw [List.filterMap_map, homeRequests]
  exact congrFun List.filterMap_eq_map' lanes

/-- Threads that name one page on this device: its home decides, and the access ends with the answers. -/
theorem pageAccess_home (hp : Passes s c (pageNeed o) true false 1 lanes addr s' (homePieces addr pa cls))
    (hlate : ∀ l ∈ lanes, pieceLate s' (memberDie s c.who) (pageNeed o) ⟨.mem (pa l) (cls l), 0, 1, (addr l).toNat % 2 ^ 48⟩ = none)
    (hf : ∀ l ∈ lanes, pa l / 65536 = f)
    (hblock : pageBlock s' (ctxOf s (memberAsid s c.who)) f (homeRequests o lanes addr data pa cls) = (U, vs, [])) (ks : List Nat) :
    ∃ V m, { V with ctxs := U.ctxs } = U ∧ pageAccess s c o ks (threadsOf lanes addr data) =
      endAccess (accessFrom (consumeAll V (memberKc c.who) ks) c (o.req [] = .tail false)) c o.la [o.d.toNat]
        (pageAsked o.d.toNat m vs) [] := by
  have hframe := homeRequests_frame (o := o) (addr := addr) (data := data) (cls := cls) hf
  obtain ⟨V, m, hV, hblocks⟩ := pageBlocks_one hframe hblock (d := memberDie s c.who) (need := pageNeed o) (fun t ht => by
    obtain ⟨l, hl, rfl⟩ := List.mem_map.mp ht
    exact hlate l hl) c.who o.d.toNat (maskOf lanes)
  have hinit : ({ askedInit (threadsOf lanes addr data) (some (o.d.toNat, 2, false)) with keep := true } : Asked) =
      pageAsked o.d.toNat (maskOf lanes) [] := by
    simp [askedInit, pageAsked, threadsOf, Function.comp_def]
  refine ⟨V, m, hV, ?_⟩
  simp only [pageAccess, hp data, missesOf_passed, passedOf_passed, homeRequests_passed, hinit, hblocks, targetPages_nil hframe, pageRemote,
    List.isEmpty_nil, Bool.not_true, Bool.false_eq_true, if_false]
  rw [acquireIf_done rfl rfl]
  rfl

end

/-- On lanes the checks before the access pass. -/
theorem runPage_lanes {s : State} {c : Issue} {g : Group} {o : PageOp}
    (h : SomeLanes s c g o.g ([o.a.toNat, o.a.toNat + 1] ++ if o.reads then (List.range (regCount o.size)).map (o.d.toNat + ·) else []))
    (hok : accessOk g o.size o.d o.a) : runPage s c o = pageAccess s c o []
      (threadsOf (activeLanes g c o.g) (fun l => pairAt g l o.a.toNat) fun l => laneData s g l o.size o.d.toNat) := by
  obtain ⟨ha, hd⟩ := hok
  have hgroup := h.on.group
  have hclean := h.clean
  have hacq : acquirePending s g = false := by simp [acquirePending, h.landed]
  have hthreads : (addrThreads s c o.g o.a).map (fun t => ({ t with data := laneData s g t.lane o.size o.d.toNat } : Thread)) =
      threadsOf (activeLanes g c o.g) (fun l => pairAt g l o.a.toNat) fun l => laneData s g l o.size o.d.toNat := by
    rw [h.on.who] at hgroup
    rw [addrThreads, h.on.who]
    dsimp only
    rw [hgroup, List.map_map, ← threads_of_active h.landed s]
    rfl
  have hacting : actingLanes s c o.g = activeLanes g c o.g := by
    rw [h.on.who] at hgroup
    rw [actingLanes, h.on.who]
    dsimp only
    rw [hgroup]
  rw [runPage, h.on.notSpine]
  refine (checked_ok (by simp [hgroup, ha, hd, spruesOk]) h.on.clean).trans ?_
  simp only [hgroup, hacting, hclean, hacq, outside_of_idle h.on h.landed, Bool.false_and, Bool.false_eq_true, if_false,
    List.any_nil, List.isEmpty_nil, Bool.not_true, hthreads, dataRegs_eq]
  rfl

/-- A sprue register that a spine's address names can be read, and is clean. -/
theorem spine_sprue {s : State} {c : Issue} {k : Kc} {gd : PredNo} {a : RegField} (h : SpineAddr s c k gd a) {i : Nat}
    (hi : i ∈ (spineSprue a).toList) : i < k.cfgSprue ∧ readable k i = true ∧ (sprueGet k i).poison = false :=
  addr_readable (o := ⟨gd, false, false, 0, a, 0, 0, false, 0, 0⟩) h hi

/-- On the spine, with its guard true, the checks before the access pass. -/
theorem runPage_spine {s : State} {c : Issue} {k : Kc} {o : PageOp} (h : SpineAddr s c k o.g o.a) (hsize : o.size ≤ 3) (hd : o.d.toNat < 32) :
    runPage s c o = pageAccess s c o (spineSprue o.a).toList
      (threadsOf [0] (fun _ => addrOf k o.a) fun _ => natToBytes (2 ^ o.size) (xGet k.spine o.d.toNat).toNat) := by
  obtain ⟨-, -, hpoison⟩ := h.free
  have hwho := h.on.who
  have hsprues : spruesOk s c (spineSprue o.a).toList = true := by
    rw [spruesOk_iff, h.on.id, h.on.kc]
    intro i hi
    exact (spine_sprue h hi).1
  have hreadable : ((spineSprue o.a).toList.any fun i => !readable k i) = false := by
    rw [List.any_eq_false]
    intro i hi
    simp [(spine_sprue h hi).2.1]
  have hclean : ((spineSprue o.a).toList.any fun i => (sprueGet k i).poison) = false := by
    rw [List.any_eq_false]
    intro i hi
    simp [(spine_sprue h hi).2.2]
  have hacting : actingLanes s c o.g = [0] := by simp [actingLanes, hwho, h.on.kc, h.guard]
  have hthreads : (addrThreads s c o.g o.a) = threadsOf [0] (fun _ => addrOf k o.a) fun _ => [] := by
    simp [addrThreads, hacting, hwho, h.on.kc, addrOf_eq, threadsOf]
  have hacq : acquirePending s (memberGroup s c.who) = false := by rw [hwho]; rfl
  have hout : ∀ f, outside s c f [o.d.toNat] = f s := fun f => by rw [outside, hwho]
  have hfour : o.size ≠ 4 := by omega
  rw [runPage, h.on.spine]
  refine (checked_ok (by simp [hfour, hsprues, hd]) (poisonedIssue_spine h.on.spine)).trans ?_
  simp only [h.on.id, h.on.kc, h.guard, hreadable, hclean, hpoison, hacting, hthreads, hacq, hout, Bool.not_true, Bool.and_false,
    Bool.false_eq_true, if_false, if_true, List.contains_nil, Bool.or_self, List.isEmpty_nil, sizeBytes]
  rw [pageAccess, h.on.id]
  rfl

/-! ### How the instruction ends -/

/-- The state t with members, contexts and the issue as they are in U. -/
def membersOf (U t : State) : State := { t with groups := U.groups, kcs := U.kcs, ctxs := U.ctxs, cur := U.cur, fresh := U.fresh }

/-- From U, the state that a page's home leaves, to t the issuing member has ended its access, and seen its team's swaps if it
acquires. -/
def Ended (U t : State) (c : Issue) (acq : Bool) : Prop := membersOf U t = accessFrom U c acq

/-- The state t with what a PAGE instruction may change as it is in s. -/
def pageRestored (s t : State) : State :=
  { t with
    groups := s.groups, kcs := s.kcs, tlb := s.tlb, frameTab := s.frameTab, resvs := s.resvs, ctxs := s.ctxs, mem := s.mem
    memPoison := s.memPoison, blockMarks := s.blockMarks, oldText := s.oldText, tund := s.tund, agenda := s.agenda, cur := s.cur
    fresh := s.fresh }

theorem accessFrom_teams (U : State) (c : Issue) (acq : Bool) : { accessFrom U c acq with teams := U.teams } = U := by
  unfold accessFrom
  split
  · cases c.who <;> rfl
  · rfl

theorem accessFrom_membersOf (U t : State) (c : Issue) (acq : Bool) : accessFrom (membersOf U t) c acq = membersOf U (accessFrom t c acq) := by
  unfold accessFrom
  split
  · cases c.who <;> rfl
  · rfl

theorem accessFrom_kcs (U : State) (c : Issue) (acq : Bool) : (accessFrom U c acq).kcs = U.kcs :=
  (congrArg State.kcs (accessFrom_teams U c acq) :)

/-- An access that starts from what the home left, but for contexts, and changes only members has ended. -/
theorem ended_of_members {U V t : State} {c : Issue} {acq : Bool} (hV : { V with ctxs := U.ctxs } = U)
    (ht : membersOf U t = membersOf U (accessFrom V c acq)) : Ended U t c acq := by
  have hmembers : membersOf U V = U :=
    congrArg (fun x : State => { x with groups := U.groups, kcs := U.kcs, cur := U.cur, fresh := U.fresh }) hV
  rw [Ended, ht, ← accessFrom_membersOf, hmembers]

theorem accessFrom_pageRestored (s U : State) (c : Issue) (acq : Bool) :
    accessFrom (pageRestored s U) c acq = pageRestored s (accessFrom U c acq) := by
  unfold accessFrom
  split
  · cases c.who <;> rfl
  · rfl

theorem accessFrom_spine {c : Issue} (h : isSpine c.who = true) (U : State) (acq : Bool) : accessFrom U c acq = U := by
  unfold accessFrom
  split
  · cases hw : c.who with
    | spine kc => rfl
    | group kc core idx => rw [hw] at h; cases h
  · rfl

section
variable {s U t : State} {c : Issue} {acq : Bool} {T : List TlbEntry} {f : Nat} (h : Ended U t c acq)
include h

/-- Of what the home left only members, contexts and teams have changed. -/
theorem Ended.store : { t with
    groups := U.groups, kcs := U.kcs, teams := U.teams, ctxs := U.ctxs, cur := U.cur, fresh := U.fresh } = U :=
  (congrArg (fun x : State => { x with teams := U.teams }) h :).trans (accessFrom_teams U c acq)

theorem Ended.restored (hU : OnlyPage { s with tlb := T } U f) : pageRestored s t = accessFrom s c acq := by
  have hrest : pageRestored s U = s := congrArg (fun x : State => { x with
    groups := s.groups, kcs := s.kcs, tlb := s.tlb, cur := s.cur, fresh := s.fresh }) hU.rest
  calc pageRestored s t = pageRestored s (accessFrom U c acq) := (congrArg (pageRestored s) h :)
    _ = accessFrom (pageRestored s U) c acq := (accessFrom_pageRestored s U c acq).symm
    _ = accessFrom s c acq := by rw [hrest]

theorem Ended.others (hU : OnlyPage { s with tlb := T } U f) : ∀ f', f' ≠ f → frameEntry t f' = frameEntry s f' := fun f' hf =>
  (congrArg (fun x => frameEntry x f') h.store :).trans (hU.others f' hf)

end

/-- What an answered lane's register takes. -/
theorem lanesV_answers (act : List Nat) (d : Nat) (v : Nat → Nat) :
    (lanesV act fun l => loadV l d 2 false (bytesToNat (natToBytes 4 (v l)))) = oneV d act fun l => BitVec.ofNat 32 (v l) := by
  funext lane r
  have hword : loadedWord 2 false (bytesToNat (natToBytes 4 (v lane))) 0 = BitVec.ofNat 32 (v lane) := by
    rw [Words.bytesToNat_natToBytes]
    apply BitVec.eq_of_toNat_eq
    simp [loadedWord]
  by_cases hl : lane ∈ act
  · by_cases hr : r = d
    · subst hr
      simp [lanesV, loadV, oneV, hl, regCount, hword]
    · simp [lanesV, loadV, oneV, hl, hr, regCount]
      omega
  · simp [lanesV, oneV, hl]

/-- A PAGE instruction of lanes that name one page ends with its home's answers. -/
theorem lanes_page {s U : State} {T : List TlbEntry} {c : Issue} {g : Group} {o : PageOp} {pa : Nat → Nat} {cls : Nat → BitVec 2} {f : Nat}
    {v : Nat → Nat}
    (h : SomeLanes s c g o.g ([o.a.toNat, o.a.toNat + 1] ++ if o.reads then (List.range (regCount o.size)).map (o.d.toNat + ·) else []))
    (hok : accessOk g o.size o.d o.a)
    (hr : AllReach s c (pageNeed o) false true 1 (activeLanes g c o.g) (fun l => pairAt g l o.a.toNat) { s with tlb := T } pa cls)
    (hf : ∀ l ∈ activeLanes g c o.g, pa l / 65536 = f)
    (hblock : pageBlock { s with tlb := T } (ctxOf s (memberAsid s c.who)) f (homeRequests o (activeLanes g c o.g)
      (fun l => pairAt g l o.a.toNat) (fun l => laneData s g l o.size o.d.toNat) pa cls) =
        (U, (activeLanes g c o.g).map (fun l => (l, v l)), []))
    (hU : OnlyPage { s with tlb := T } U f) :
    Ended U (runPage s c o) c (o.req [] = .tail false) ∧ (runPage s c o).kcs = s.kcs ∧
      LandsOrFlies s (runPage s c o) c o.la (oneV o.d.toNat (activeLanes g c o.g) fun l => BitVec.ofNat 32 (v l)) := by
  obtain ⟨V, m, hV, hrun⟩ := pageAccess_home (passes_of_allReach hr) hr.timely hf hblock []
  rw [runPage_lanes h hok, hrun, consumeAll_nil]
  have hVU : V.groups = U.groups ∧ V.kcs = U.kcs := ⟨(congrArg State.groups hV :), (congrArg State.kcs hV :)⟩
  have hUs : U.groups = s.groups ∧ U.kcs = s.kcs := ⟨(congrArg State.groups hU.rest :), (congrArg State.kcs hU.rest :)⟩
  have hgroups := (accessFrom_groups V c (o.req [] = .tail false)).trans (hVU.1.trans hUs.1)
  have honly := endAccess_onlyGroups h.on hgroups h.landed (a := pageAsked o.d.toNat m ((activeLanes g c o.g).map fun l => (l, v l)))
    rfl rfl o.la [o.d.toNat]
  refine ⟨ended_of_members hV (congrArg (membersOf U) honly :), ?_, ?_⟩
  · exact (congrArg State.kcs honly :).trans ((accessFrom_kcs V c _).trans (hVU.2.trans hUs.2))
  · rw [← lanesV_answers]
    refine landsOrFlies_loads h.on hgroups h.landed (nodup_active g c o.g) (fun l => natToBytes 4 (v l)) (budget := 64) ?_ rfl rfl ?_ rfl o.la
      [o.d.toNat]
    · have := o.d.isLt
      simpa [dataOk, vOk] using this
    · simp [pageAsked]

/-- A PAGE instruction of the spine ends with its home's answer. -/
theorem spine_page {s U : State} {T : List TlbEntry} {c : Issue} {k : Kc} {o : PageOp} {pa : Nat} {cls : BitVec 2} {v : Nat}
    (h : SpineAddr s c k o.g o.a) (hsize : o.size ≤ 3) (hd : o.d.toNat < 32)
    (hr : Reaches s c (pageNeed o) false true 1 (addrOf k o.a) { s with tlb := T } pa cls) (hv : v < 2 ^ 32)
    (hblock : pageBlock { s with tlb := T } (ctxOf s (memberAsid s c.who)) (pa / 65536) (homeRequests o [0] (fun _ => addrOf k o.a)
      (fun _ => natToBytes (2 ^ o.size) (xGet k.spine o.d.toNat).toNat) (fun _ => pa) fun _ => cls) = (U, [(0, v)], []))
    (hU : OnlyPage { s with tlb := T } U (pa / 65536)) :
    Ended U (runPage s c o) c (o.req [] = .tail false) ∧ (runPage s c o).groups = s.groups ∧
      SprueBecomes s (updSpine (runPage s c o) k.id fun _ => k.spine) k.id (fun j q => if j + 32 = o.a.toNat then consumed q else q) ∧
      SpineRegs s (runPage s c o) k.id (fun r => if r = o.d.toNat then some (BitVec.ofNat 64 v) else none) (fun _ => none) 0 (nextPc c) := by
  obtain ⟨htrap, hasked, -⟩ := h.free
  obtain ⟨V, m, hV, hrun⟩ := pageAccess_home (passes_of_leads (leads_of_reaches hr) 0) (fun _ _ => hr.timely) (fun _ _ => rfl) hblock
    (spineSprue o.a).toList
  have hVs : V.groups = s.groups ∧ V.kcs = s.kcs :=
    ⟨(congrArg State.groups hV :).trans (congrArg State.groups hU.rest :), (congrArg State.kcs hV :).trans (congrArg State.kcs hU.rest :)⟩
  have hfind : V.kcs.find? (fun x => x.id = k.id) = some k := hVs.2 ▸ h.on.here
  obtain ⟨q, hq⟩ := consumeAll_find hfind (spineSprue o.a).toList
  have hsprues := (sprueBecomes_consumeAll hfind _ (nodup_spineSprue o.a)).of_kcs hVs.2.symm rfl
  simp only [mem_spineSprue] at hsprues
  have hloaded : (spineLoaded o.d.toNat (BitVec.ofNat 64 v) k.spine).trap = none ∧
      (spineLoaded o.d.toNat (BitVec.ofNat 64 v) k.spine).asked = none := ⟨trap_spineLoaded htrap, rfl⟩
  have hdone := spineDone_loaded h.on htrap hasked hq hsprues hd (BitVec.ofNat 64 v)
  rw [readOnce_retireSpine h.on hq hloaded] at hdone
  have hbytes : loadSpine 2 false (gotBytes (pageAsked o.d.toNat m [(0, v)]) 0) = BitVec.ofNat 64 v := by
    rw [gotBytes_of_lanes (List.nodup_singleton 0) (fun _ => natToBytes 4 v) rfl (List.mem_singleton_self 0), loadSpine,
      Words.bytesToNat_natToBytes, Nat.mod_eq_of_lt hv]
    rfl
  have hend : runPage s c o = retireSpine (consumeAll V k.id (spineSprue o.a).toList) c (spineLoaded o.d.toNat (BitVec.ofNat 64 v)) := by
    rw [runPage_spine h hsize hd, hrun, accessFrom_spine h.on.spine, endAccess, if_pos h.on.spine, endSpine_loads rfl rfl rfl hd, hbytes,
      h.on.id]
  rw [hend]
  obtain ⟨honly, hbecomes, hregs⟩ := hdone
  have hkept := consumeAll_kcs_only V k.id (spineSprue o.a).toList
  refine ⟨ended_of_members hV ?_, ?_, hbecomes, ?_⟩
  · rw [accessFrom_spine h.on.spine]
    exact (congrArg (membersOf U) honly :).trans (congrArg (membersOf U) hkept :)
  · exact (congrArg State.groups honly :).trans ((congrArg State.groups hkept :).trans hVs.1)
  · have hx : (fun r => if r = o.d.toNat ∧ r < 32 then some (BitVec.ofNat 64 v) else none) =
        fun r => if r = o.d.toNat then some (BitVec.ofNat 64 v) else none := by
      funext r
      exact if_congr ⟨And.left, fun e => ⟨e, e ▸ hd⟩⟩ rfl rfl
    rw [← hx]
    exact hregs

end Sys2Proof.Proofs.PageRuns
end

section
/-! The family "Append and Sealed Pages": the PAGE instructions at the home of their page (R356, R361 to R366). -/

namespace Sys2Proof.Proofs.AppendPages

open Sys2Proof Sys2Proof.Machine Sys2Proof.Claims Sys2Proof.Proofs.Completions Sys2Proof.Proofs.Accesses Sys2Proof.Proofs.GlobalLoads
  Sys2Proof.Proofs.PageHome Sys2Proof.Proofs.PageRuns

/-! ### From one request at its home to the instruction -/

section
variable (cond : State → (f off data : Nat) → Prop) (v : State → (f off data : Nat) → Nat)
  (post : State → State → Issue → (f off data : Nat) → Prop)

/-- A condition, a value and an effect speak of the home alone: not of translations, nor of what an instruction leaves of members, teams
and contexts. -/
structure OfHome : Prop where
  cond : ∀ (s : State) (T : List TlbEntry), cond { s with tlb := T } = cond s
  v : ∀ (s : State) (T : List TlbEntry), v { s with tlb := T } = v s
  post : ∀ (s : State) (T : List TlbEntry) (U t : State), post { s with tlb := T } { t with
    groups := U.groups, kcs := U.kcs, teams := U.teams, ctxs := U.ctxs, cur := U.cur, fresh := U.fresh } = post s t

/-- The home answers a request with n bytes of data by v, and leaves what post says, whenever cond holds and nothing watches the
page. -/
def Answers (req : List Byte → PageReq) (n : Nat) : Prop :=
  ∀ s c f off bytes, Unwatched s f → bytes.length = n → cond s f off (bytesToNat bytes) →
    v s f off (bytesToNat bytes) < 2 ^ 32 ∧ ∃ U, pageAt s (ctxOf s (memberAsid s c.who)) f off (req bytes) =
      (U, .ok (v s f off (bytesToNat bytes))) ∧ OnlyPage s U f ∧ post s U c f off (bytesToNat bytes)

variable {cond v post}

/-- A block of one request. -/
theorem pageBlock_one {s U : State} {ctx : Ctx} {f l n : Nat} {o : PageOp} {addr : Nat → DWord} {data : Nat → List Byte} {pa : Nat → Nat}
    {cls : Nat → BitVec 2} (h : pageAt s ctx f ((addr l).toNat % 65536) (o.req (data l)) = (U, .ok n)) :
    pageBlock s ctx f (homeRequests o [l] addr data pa cls) = (U, [(l, n)], []) := by
  have hoff : (addr l).toNat % 2 ^ 48 % 65536 = (addr l).toNat % 65536 := by omega
  simp only [homeRequests, List.map_cons, List.map_nil, pageBlock, hoff, h]

theorem allReach_of_reaches {s s' : State} {c : Issue} {need : Need} {sync feat : Bool} {n l pa : Nat} {addr : Nat → DWord}
    {cls : BitVec 2} (h : Reaches s c need sync feat n (addr l) s' pa cls) :
    AllReach s c need sync feat n [l] addr s' (fun _ => pa) fun _ => cls := by
  have hpass := passes_of_leads (leads_of_reaches h) l fun _ => []
  exact ⟨congrArg Prod.fst hpass, by simpa [threadsOf] using congrArg (fun r => r.2.map fun q => q.2) hpass,
    List.forall_mem_singleton.mpr h.timely, h.quiet⟩

/-- An instruction that runs as the PAGE instruction o gives what its request's home answers. -/
theorem pageGives_of_answers {i : Instr} {o : PageOp} {acq : Bool} (hruns : ∀ s c, s.cur = some c → exec i s = .next (runPage s c o))
    (hsize : o.size ≤ 4) (hacq : decide (o.req [] = .tail false) = acq) (hhome : OfHome cond v post)
    (hans : Answers cond v post o.req (2 ^ o.size)) : PageGives i o.g o.d o.a o.la o.size o.write o.reads acq cond v post := by
  subst hacq
  refine ⟨fun s c g l s' pa cls h hok hr hw hcond => ?lane, fun s c k s' pa cls h hsize hd hr hw hcond => ?spine⟩
  case lane =>
    obtain ⟨T, rfl⟩ := eq_of_quiet hr.quiet
    have hlen : (laneData s g l o.size o.d.toNat).length = 2 ^ o.size := by rw [laneData_eq h.landed s hsize, length_laneBytes]
    obtain ⟨-, U, hat, hU, hpost⟩ := hans { s with tlb := T } c (pa / 65536) _ _ hw hlen ((congrFun (congrFun (congrFun (hhome.cond s T) _) _) _).mpr hcond)
    rw [hhome.v] at hat
    have hone := h.one
    have hreach := allReach_of_reaches (addr := fun l => pairAt g l o.a.toNat) hr
    rw [← hone] at hreach
    obtain ⟨hended, hkcs, hlands⟩ := lanes_page (someLanes_of_one h) hok hreach (fun _ _ => rfl) (U := U) (v := fun _ => v s (pa / 65536)
      ((pairAt g l o.a.toNat).toNat % 65536) (bytesToNat (laneData s g l o.size o.d.toNat))) (by
        rw [hone]
        exact pageBlock_one hat) hU
    rw [hone] at hlands
    rw [← hended.store, hhome.post] at hpost
    exact ⟨_, hruns s c h.on.cur, ⟨hended.restored hU, hended.others hU⟩, hkcs, hlands, hpost⟩
  case spine =>
    obtain ⟨T, rfl⟩ := eq_of_quiet hr.quiet
    have hdata : bytesToNat (natToBytes (2 ^ o.size) (xGet k.spine o.d.toNat).toNat) =
        (xGet k.spine o.d.toNat).toNat % 2 ^ (8 * 2 ^ o.size) := Words.bytesToNat_natToBytes ..
    rw [← hdata] at hcond ⊢
    obtain ⟨hv, U, hat, hU, hpost⟩ := hans { s with tlb := T } c (pa / 65536) _ _ hw (length_natToBytes ..)
      ((congrFun (congrFun (congrFun (hhome.cond s T) _) _) _).mpr hcond)
    rw [hhome.v] at hat hv
    obtain ⟨hended, hgroups, hsprues, hregs⟩ := spine_page h hsize hd hr hv
      (pageBlock_one (addr := fun _ => addrOf k o.a) (data := fun _ => natToBytes (2 ^ o.size) (xGet k.spine o.d.toNat).toNat) hat) hU
    rw [← hended.store, hhome.post] at hpost
    exact ⟨_, hruns s c h.on.cur, ⟨hended.restored hU, hended.others hU⟩, hgroups, hsprues, hregs,
      hpost⟩

end

/-! ### Reservations (R362) -/

/-- A reservation runs as the PAGE instruction whose request names the low 17 bits of its data (R362). -/
theorem apres_runs (o : OpsM) : ∀ s c, s.cur = some c →
    exec (.apres o) s = .next (runPage s c (opPage o true true fun b => .reserve (bytesToNat b % 2 ^ 17))) := fun _ _ h => issueBy_some h

theorem apres_granted (o : OpsM) : PageGives (.apres o) o.g o.d o.a o.la.toNat 2 true true false
    (fun s f _ data => refusal s f (reserveSize data) = none ∧ apNres (frameEntry s f) < 16)
    (fun s f _ _ => apRtail (frameEntry s f))
    (fun s t _ f _ data => t.resvs = s.resvs ++ [⟨f, apRtail (frameEntry s f), reserveSize data, false⟩] ∧ t.mem = s.mem ∧
      apRtail (frameEntry t f) = apRtail (frameEntry s f) + reserveSize data ∧
      apCtail (frameEntry t f) = apCtail (frameEntry s f) ∧ apNres (frameEntry t f) = apNres (frameEntry s f) + 1) := by
  refine pageGives_of_answers (apres_runs o) (show 2 ≤ 4 by decide) rfl ⟨fun _ _ => rfl, fun _ _ => rfl, fun _ _ _ _ => rfl⟩ ?_
  rintro s c f off bytes - - ⟨hnone, hn⟩
  obtain ⟨t, hat, honly, hmem, hresvs, hentry⟩ := pageAt_reserve_granted (n := bytesToNat bytes % 2 ^ 17) (refusal_eq_none.mp hnone) hn
    (ctxOf s (memberAsid s c.who)) off
  exact ⟨(apRtail_lt _).trans (by decide), t, hat, honly, hresvs, hmem, hentry.rtail, hentry.ctail, hentry.nres⟩

theorem apres_refused (o : OpsM) : PageGives (.apres o) o.g o.d o.a o.la.toNat 2 true true false
    (fun s f _ data => refusal s f (reserveSize data) ≠ none)
    (fun s f _ data => ((refusal s f (reserveSize data)).getD 0).toNat)
    (fun s t _ _ _ _ => PagesSame s t) := by
  refine pageGives_of_answers (apres_runs o) (show 2 ≤ 4 by decide) rfl ⟨fun _ _ => rfl, fun _ _ => rfl, fun _ _ _ _ => rfl⟩ ?_
  rintro s c f off bytes - - hsome
  obtain ⟨w, hw⟩ := Option.ne_none_iff_exists'.mp hsome
  refine ⟨BitVec.isLt _, s, ?_, .refl s f, rfl, rfl, rfl⟩
  beta_reduce
  rw [hw]
  exact pageAt_reserve_refused hw _ off

/-! ### Commits (R363) -/

theorem apcmt_gives (o : OpsM) : PageGives (.apcmt o) o.g o.d o.a o.la.toNat 2 true false false
    (fun s f off _ => (frameEntry s f).apst ≠ 2 ∧ ∃ r, resvsOf s f = [r] ∧ r.off = off ∧ apCtail (frameEntry s f) + r.len ≤ 65536)
    (fun s f _ _ => (if apSealw (frameEntry s f) && apNres (frameEntry s f) ≤ 1 then 3 else if apSealw (frameEntry s f) then 2 else 1) *
      2 ^ 30 + apCtail (frameEntry s f) + ((resvsOf s f).map fun r => r.len).sum)
    (fun s t _ f _ _ => apNres (frameEntry t f) = apNres (frameEntry s f) - 1 ∧ (∀ r ∈ t.resvs, r.frame ≠ f) ∧ t.mem = s.mem ∧
      apCtail (frameEntry t f) = apCtail (frameEntry s f) + ((resvsOf s f).map fun r => r.len).sum) := by
  refine pageGives_of_answers (o := opPage o true false fun _ => .commit) (fun _ _ h => issueBy_some h) (show 2 ≤ 4 by decide) rfl
    ⟨fun _ _ => rfl, fun _ _ => rfl, fun _ _ _ _ => rfl⟩ ?_
  rintro s c f off bytes hw - ⟨hopen, r, hone, hoff, hfit⟩
  obtain ⟨t, hat, honly, hmem, -, hresvs, hentry⟩ := pageAt_commit hw hopen hone hoff hfit (ctxOf s (memberAsid s c.who))
  have hsum : ((resvsOf s f).map fun r => r.len).sum = r.len := by simp [hone]
  simp only [hsum]
  refine ⟨?_, t, hat, honly, hentry.nres, hresvs, hmem, hentry.ctail⟩
  split
  · omega
  · split <;> omega

/-! ### Seals (R365) -/

theorem seal_gives (o : OpsM) : PageGives (.seal o) o.g o.d o.a o.la.toNat 2 true false false (fun _ _ _ _ => True)
    (fun s f _ _ => 3 * 2 ^ 30 + apCtail (frameEntry s f))
    (fun s t _ f _ _ => (frameEntry t f).apst = 2 ∧ apCtail (frameEntry t f) = apCtail (frameEntry s f) ∧ t.mem = s.mem ∧
      ((frameEntry s f).apst ≠ 2 → apRtail (frameEntry t f) = apCtail (frameEntry s f) ∧ ∀ r ∈ t.resvs, r.frame ≠ f)) := by
  refine pageGives_of_answers (o := opPage o true false fun _ => .close false) (fun _ _ h => issueBy_some h) (show 2 ≤ 4 by decide) rfl
    ⟨fun _ _ => rfl, fun _ _ => rfl, fun _ _ _ _ => rfl⟩ ?_
  rintro s c f off bytes hw - -
  have hc := apCtail_lt (frameEntry s f)
  beta_reduce
  refine ⟨by omega, ?_⟩
  by_cases hsealed : (frameEntry s f).apst = 2
  · exact ⟨s, pageAt_sealed hsealed _ off false, .refl s f, hsealed, rfl, rfl, fun hopen => absurd hsealed hopen⟩
  · obtain ⟨t, hat, honly, hmem, hresvs, hentry⟩ := pageAt_seal hw hsealed (ctxOf s (memberAsid s c.who)) off
    exact ⟨t, hat, honly, hentry.apst, hentry.ctail, hmem, fun _ => ⟨hentry.rtail, hresvs⟩⟩

theorem sealW_gives (o : OpsM) : PageGives (.sealW o) o.g o.d o.a o.la.toNat 2 true false false
    (fun s f _ _ => (frameEntry s f).apst ≠ 2 ∧ apSealw (frameEntry s f) = false)
    (fun s f _ _ => (if apNres (frameEntry s f) = 0 then 3 else 2) * 2 ^ 30 + apCtail (frameEntry s f))
    (fun s t _ f _ _ => t.resvs = s.resvs ∧ t.mem = s.mem ∧ apCtail (frameEntry t f) = apCtail (frameEntry s f) ∧
      (apNres (frameEntry s f) = 0 → (frameEntry t f).apst = 2) ∧
      (apNres (frameEntry s f) ≠ 0 → apSealw (frameEntry t f) = true ∧ (frameEntry t f).apst = (frameEntry s f).apst)) := by
  refine pageGives_of_answers (o := opPage o true false fun _ => .close true) (fun _ _ h => issueBy_some h) (show 2 ≤ 4 by decide) rfl
    ⟨fun _ _ => rfl, fun _ _ => rfl, fun _ _ _ _ => rfl⟩ ?_
  rintro s c f off bytes hw - ⟨hopen, hunsealed⟩
  have hc := apCtail_lt (frameEntry s f)
  obtain ⟨t, hat, honly, hmem, hresvs, -, hctail, -, -, hseal, hapst⟩ := pageAt_sealW hw hopen hunsealed (ctxOf s (memberAsid s c.who)) off
  beta_reduce
  refine ⟨by split <;> omega, t, hat, honly, hresvs, hmem, hctail, fun hn => ?_, fun hn => ⟨?_, ?_⟩⟩
  · rw [hapst, if_pos hn]
  · rw [hseal, decide_eq_true hn]
  · rw [hapst, if_neg hn]

/-! ### Tail reads (R366) -/

theorem tailCode_le (e : FrameEntry) : tailCode e ≤ 3 := by
  unfold tailCode
  split
  · decide
  · split <;> decide

theorem tailrd_gives (o : OpsM) : PageGives (.tailrd o) o.g o.d o.a o.la.toNat 2 false false true (fun _ _ _ _ => True)
    (fun s f _ _ => tailCode (frameEntry s f) * 2 ^ 30 + apCtail (frameEntry s f)) (fun s t _ _ _ _ => PagesSame s t) := by
  refine pageGives_of_answers (o := opPage o false false fun _ => .tail false) (fun _ _ h => issueBy_some h) (show 2 ≤ 4 by decide) rfl
    ⟨fun _ _ => rfl, fun _ _ => rfl, fun _ _ _ _ => rfl⟩ ?_
  rintro s c f off bytes - - -
  have hcode := tailCode_le (frameEntry s f)
  have hc := apCtail_lt (frameEntry s f)
  beta_reduce
  exact ⟨by omega, s, pageAt_tail s _ f off false, .refl s f, rfl, rfl, rfl⟩

theorem tailrdR_gives (o : OpsM) : PageGives (.tailrdR o) o.g o.d o.a o.la.toNat 2 false false false (fun _ _ _ _ => True)
    (fun s f _ _ => tailCode (frameEntry s f) * 2 ^ 30 + apRtail (frameEntry s f)) (fun s t _ _ _ _ => PagesSame s t) := by
  refine pageGives_of_answers (o := opPage o false false fun _ => .tail true) (fun _ _ h => issueBy_some h) (show 2 ≤ 4 by decide) rfl
    ⟨fun _ _ => rfl, fun _ _ => rfl, fun _ _ _ _ => rfl⟩ ?_
  rintro s c f off bytes - - -
  have hcode := tailCode_le (frameEntry s f)
  have hr := apRtail_lt (frameEntry s f)
  beta_reduce
  exact ⟨by omega, s, pageAt_tail s _ f off true, .refl s f, rfl, rfl, rfl⟩

/-! ### Appends (R364) -/

/-- Bytes, from the number they make. -/
theorem getD_of_bytesToNat {bytes : List Byte} {i : Nat} (h : i < bytes.length) :
    bytes.getD i 0 = BitVec.ofNat 8 (bytesToNat bytes / 2 ^ (8 * i)) := by
  induction bytes generalizing i with
  | nil => exact absurd h (Nat.not_lt_zero i)
  | cons b rest ih =>
    have hb := b.isLt
    cases i with
    | zero =>
      apply BitVec.eq_of_toNat_eq
      simp only [bytesToNat, List.getD_cons_zero, BitVec.toNat_ofNat, Nat.mul_zero, Nat.pow_zero, Nat.div_one]
      omega
    | succ i =>
      have hdiv : bytesToNat (b :: rest) / 2 ^ (8 * (i + 1)) = bytesToNat rest / 2 ^ (8 * i) := by
        rw [Nat.mul_succ, Nat.add_comm (8 * i), Nat.pow_add, ← Nat.div_div_eq_div_mul, bytesToNat]
        congr 1
        omega
      rw [hdiv, ← ih (Nat.lt_of_succ_lt_succ h), List.getD_cons_succ]

theorem apst_gives (o : OpsApst) (hhi : o.size.toNat ≤ 4) :
    PageGives (.apst o) o.g o.d o.a o.la.toNat o.size.toNat true true false
      (fun s f _ _ => refusal s f (2 ^ o.size.toNat) = none ∧ apNres (frameEntry s f) < 16 ∧ resvsOf s f = [] ∧
        apCtail (frameEntry s f) ≤ apRtail (frameEntry s f))
      (fun s f _ _ => apRtail (frameEntry s f))
      (fun s t c f _ data => apRtail (frameEntry t f) = apRtail (frameEntry s f) + 2 ^ o.size.toNat ∧
        apCtail (frameEntry t f) = apCtail (frameEntry s f) + 2 ^ o.size.toNat ∧ apNres (frameEntry t f) = apNres (frameEntry s f) ∧
        MemStored s t c (65536 * f + apRtail (frameEntry s f)) (2 ^ o.size.toNat) fun i => BitVec.ofNat 8 (data / 2 ^ (8 * i))) := by
  refine pageGives_of_answers (o := ⟨o.g, o.d, o.a, o.la.toNat, o.size.toNat, true, true, fun b => .append b⟩) (fun _ _ h => issueBy_some h) hhi
    rfl ⟨fun _ _ => rfl, fun _ _ => rfl, fun _ _ _ _ => rfl⟩ ?_
  rintro s c f off bytes hw hlen ⟨hnone, hn, hnil, hle⟩
  dsimp only at hlen
  rw [← hlen] at hnone ⊢
  obtain ⟨t, hat, honly, hentry, hmem⟩ := pageAt_append hw (refusal_eq_none.mp hnone) hn hnil hle (ctxOf s (memberAsid s c.who)) off
  have hbyte : ∀ b, b ≠ maskByte (ctxOf s (memberAsid s c.who)) ∨ f * 65536 + apRtail (frameEntry s f) ≤ b ∧
      b < f * 65536 + apRtail (frameEntry s f) + bytes.length → memByte t b =
        if f * 65536 + apRtail (frameEntry s f) ≤ b ∧ b < f * 65536 + apRtail (frameEntry s f) + bytes.length then
          bytes.getD (b - (f * 65536 + apRtail (frameEntry s f))) 0 else memByte s b := fun b hb =>
    (congrArg (fun m => amGet unlistedByte m b) hmem).trans (memByte_ctxWrite_ne hb s 1)
  beta_reduce
  rw [Nat.mul_comm 65536 f]
  refine ⟨(apRtail_lt _).trans (by decide), t, hat, honly, hentry.rtail, hentry.ctail, hentry.nres, fun i hi => ?_, fun b hout hb => ?_⟩
  · rw [hbyte _ (.inr ⟨by omega, by omega⟩), if_pos ⟨by omega, by omega⟩, Nat.add_sub_cancel_left, getD_of_bytesToNat hi]
  · rw [hbyte b (.inl hb), if_neg (by omega)]

/-! ### The lanes of one `apres` (R361, R362) -/

/-- A lane's word of data. -/
theorem bytesToNat_laneData {g : Group} (h : g.flights = []) (s : State) (l d : Nat) :
    bytesToNat (laneData s g l 2 d) = (vGet g.regs l d).toNat := by
  have hbytes : laneData s g l 2 d = natToBytes 4 (vGet g.regs l d).toNat := by
    simp [laneData, dataRegs, sizeBytes, readV_of_idle h, natToBytes]
  rw [hbytes, Words.bytesToNat_natToBytes]
  exact Nat.mod_eq_of_lt (BitVec.isLt _)

/-- Registers given lane by lane, from one function of the lane, are given to all lanes at once. -/
theorem lanesV_oneV_common (d : Nat) (act : List Nat) (v : Nat → Word) : (lanesV act fun l => oneV d [l] v) = oneV d act v := by
  funext lane r
  by_cases hl : lane ∈ act <;> simp [lanesV, oneV, hl]

/-- The lanes of one reservation that name one page are answered with places one behind the other, in ascending lane order. -/
theorem apres_lanes (o : OpsM) {s s' : State} {c : Issue} {g : Group} {pa : Nat → Nat} {cls : Nat → BitVec 2} {f : Nat}
    (h : SomeLanes s c g o.g [o.a.toNat, o.a.toNat + 1, o.d.toNat]) (hok : accessOk g 2 o.d o.a)
    (hf : ∀ l ∈ activeLanes g c o.g, pa l / 65536 = f)
    (hr : AllReach s c { w := true, page := true } false true 1 (activeLanes g c o.g) (fun l => pairAt g l o.a.toNat) s' pa cls)
    (hroom : Room s f ((activeLanes g c o.g).map fun l => reserveSize (vGet g.regs l o.d.toNat).toNat)) :
    ∃ t T U, exec (.apres o) s = .next t ∧ Ended U t c false ∧
      ReservesAll { s with tlb := T } U f (fun l => reserveSize (vGet g.regs l o.d.toNat).toNat) (activeLanes g c o.g) ∧
      LandsOrFlies s t c o.la.toNat (lanesV (activeLanes g c o.g) fun l => oneV o.d.toNat [l] fun i =>
        BitVec.ofNat 32 (placeOf s f (fun l => reserveSize (vGet g.regs l o.d.toNat).toNat) (activeLanes g c o.g) i)) := by
  obtain ⟨T, rfl⟩ := eq_of_quiet hr.quiet
  obtain ⟨U, hblock, hres⟩ := pageBlock_reserves (s := { s with tlb := T }) (nodup_active g c o.g) (ctxOf s (memberAsid s c.who))
    (fun l => ⟨l, pairAt g l o.a.toNat, laneData s g l 2 o.d.toNat⟩) (fun _ => rfl)
    (fun l => (vGet g.regs l o.d.toNat).toNat % 2 ^ 17) (fun l => ⟨.mem (pa l) (cls l), 0, 1, (pairAt g l o.a.toNat).toNat % 2 ^ 48⟩)
    ⟨hroom.opened, hroom.unsealed, hroom.sized, hroom.fits, hroom.counted, hroom.stack, hroom.window⟩
  obtain ⟨hended, -, hlands⟩ := lanes_page (o := opPage o true true fun b => .reserve (bytesToNat b % 2 ^ 17)) (by simpa [opPage, regCount] using h) hok hr hf
    (by
      simp only [homeRequests, opPage, bytesToNat_laneData h.landed]
      exact hblock) hres.only
  refine ⟨_, T, U, apres_runs o s c h.on.cur, hended, hres, ?_⟩
  rw [lanesV_oneV_common]
  exact hlands

/-- Settles O30: each PAGE instruction takes its one request to the page's home, whose answer is a lemma about the request there
(`pageAt_reserve_granted` and so on); the lanes of one `apres` follow by induction on the lanes (`pageBlock_reserves`). -/
theorem appendPages : Obligations.AppendPages := by
  unfold Obligations.AppendPages
  refine ⟨fun o => ⟨apres_granted o, apres_refused o, apcmt_gives o, seal_gives o, sealW_gives o, tailrd_gives o, tailrdR_gives o⟩,
    fun o _ hhi => apst_gives o hhi, ?_⟩
  intro o s c g s' pa cls f h hok hf _ hr act e size before total hopen hunsealed hsized hfits hcounted hstack hwindow _
  obtain ⟨t, T, U, hrun, hended, hres, hlands⟩ := apres_lanes o h hok hf hr
    ⟨hopen, hunsealed, List.forall_mem_map.mpr hsized, hfits, by simpa using hcounted, by simpa [outstanding] using hstack, hwindow⟩
  have hentry : frameEntry t f = frameEntry U f := (congrArg (fun x => frameEntry x f) hended.store :)
  refine ⟨t, hrun, (congrArg State.mem hended.store).trans hres.mem, (congrArg State.resvs hended.store).trans hres.resvs, ?_, ?_, ?_,
    hended.others hres.only, hlands⟩
  · exact hentry ▸ hres.entry.rtail
  · exact hentry ▸ hres.entry.ctail
  · exact hentry ▸ hres.entry.nres

end Sys2Proof.Proofs.AppendPages
end

section
/-! What a meter update leaves alone (R426): the counters of the dies and what each context has been charged stay whatever
stops for a save and whatever grid ends. -/

namespace Sys2Proof.Proofs.Meters

open Sys2Proof Sys2Proof.Machine Sys2Proof.Claims Sys2Proof.Proofs.Stops Sys2Proof.Proofs.Completions Sys2Proof.Proofs.Departures
  Sys2Proof.Proofs.Accesses

/-! ### Translation -/

/-- From s to t accesses have been translated: allocation on touch may have written memory and given out a frame (R349). -/
def OnlyTranslated (s t : State) : Prop :=
  { t with mem := s.mem, memPoison := s.memPoison, blockMarks := s.blockMarks, oldText := s.oldText, tund := s.tund
           agenda := s.agenda, frameTab := s.frameTab, tlb := s.tlb } = s

theorem OnlyTranslated.trans {s t u : State} (h : OnlyTranslated s t) (h' : OnlyTranslated t u) : OnlyTranslated s u := by
  have hu := congrArg (fun x : State => { x with
    mem := s.mem, memPoison := s.memPoison, blockMarks := s.blockMarks, oldText := s.oldText, tund := s.tund
    agenda := s.agenda, frameTab := s.frameTab, tlb := s.tlb }) h'
  exact hu.trans h

theorem OnlyTranslated.ite {α : Type} {s : State} {p : Prop} [Decidable p] {x y : State × α} (hx : OnlyTranslated s x.1)
    (hy : OnlyTranslated s y.1) : OnlyTranslated s (if p then x else y).1 := by
  split
  · exact hx
  · exact hy

theorem memWrite_onlyTranslated (s : State) (pa : Nat) (bytes : List Byte) : OnlyTranslated s (memWrite s pa bytes) := by
  unfold memWrite noteStore
  dsimp only
  split
  · rfl
  · split <;> rfl

theorem allocate_onlyTranslated {s t : State} {c : Ctx} {va pte : Nat} {cls : BitVec 2} (h : allocate s c va pte cls = .ok t) :
    OnlyTranslated s t := by
  simp only [allocate] at h
  split at h
  · cases h
  · split at h
    · cases h
    · injection h with h
      subst h
      refine OnlyTranslated.trans ?_ ((memWrite_onlyTranslated ..).trans (memWrite_onlyTranslated ..))
      rfl

theorem translate_onlyTranslated (s : State) (c : Ctx) (va : Nat) : OnlyTranslated s (Machine.translate s c va).1 := by
  unfold Machine.translate
  generalize walkBoth s c va = w
  dsimp only
  cases w with
  | error e =>
    split
    · rfl
    · exact .ite rfl (.ite rfl rfl)
  | ok x =>
    have hkeep : ∀ T, OnlyTranslated s (if x.aot.isSome then s else { s with tlb := T }) := fun T => by split <;> rfl
    split
    · exact hkeep _
    · exact .ite (hkeep _) (.ite rfl (hkeep _))

theorem resolvePart_onlyTranslated (s : State) (c : Ctx) (need : Need) (feat : Bool) (va n : Nat) :
    OnlyTranslated s (resolvePart s c need feat va n).1 := by
  have htr := translate_onlyTranslated s c va
  unfold resolvePart
  generalize Machine.translate s c va = r at htr ⊢
  obtain ⟨u, e | x⟩ := r
  · exact htr
  · refine .ite htr ?_
    cases x.aot with
    | none =>
      refine .ite htr (.ite htr (.ite htr ?_))
      cases wayOf x.pa x.cls with
      | door a i off => exact .ite htr htr
      | mem pa cls => exact htr
      | window w off => exact htr
      | fabric dev exp off => exact htr
    | some pte =>
      dsimp only
      cases hal : allocate u c va pte x.cls with
      | error code => exact htr
      | ok t =>
        have hboth := htr.trans (allocate_onlyTranslated hal)
        dsimp only
        cases walkBoth t c va with
        | error e => exact hboth
        | ok x => exact .ite hboth hboth

theorem resolve_onlyTranslated (s : State) (c : Ctx) (need : Need) (feat : Bool) (va n : Nat) :
    OnlyTranslated s (resolve s c need feat va n).1 := by
  have hpart := fun s va n => resolvePart_onlyTranslated s c need feat va n
  unfold resolve
  dsimp only
  split
  · have hone := hpart s va n
    split <;> simp_all only
  · split <;> exact (hpart ..).trans (hpart ..)

/-! ### Meters -/

/-- What the meters show: the dies, and of each context what it has been charged. -/
def meters (s : State) : List Die × List (Asid × DWord) := (s.dies, s.ctxs.map fun c => (c.asid, c.energy))

theorem meters_of_onlyTranslated {s t : State} (h : OnlyTranslated s t) : meters t = meters s := (congrArg meters h :)

/-- A change of one context that leaves its meter alone. -/
theorem meters_of_ctxs {s t : State} {a : Asid} {f : Ctx → Ctx} (hdies : t.dies = s.dies)
    (hctxs : t.ctxs = s.ctxs.map fun c => if c.asid = a then f c else c)
    (hf : ∀ c, (f c).asid = c.asid ∧ (f c).energy = c.energy) : meters t = meters s := by
  rw [meters, hdies, hctxs, List.map_map]
  refine congrArg (Prod.mk s.dies) (List.map_congr_left fun c _ => ?_)
  simp only [Function.comp]
  split
  · rw [(hf c).1, (hf c).2]
  · rfl

/-- What a lookup of a context shows of its meter. -/
theorem ctxOf?_energy (s : State) (a : Asid) :
    (ctxOf? s a).map Ctx.energy = ((meters s).2.find? fun m => m.1 = a).map Prod.snd := by
  rw [meters, List.find?_map, Option.map_map]
  rfl

theorem energy_of_meters {s t : State} (h : meters t = meters s) {a : Asid} {c : Ctx} (hc : ctxOf? s a = some c) :
    (ctxOf t a).energy = c.energy := by
  have hmap : (ctxOf? t a).map Ctx.energy = some c.energy := by rw [ctxOf?_energy, h, ← ctxOf?_energy, hc]; rfl
  obtain ⟨x, hx, hxe⟩ := Option.map_eq_some_iff.mp hmap
  rw [ctxOf, hx]
  exact hxe

theorem dieOf_of_meters {s t : State} (h : meters t = meters s) (d : DieNo) : dieOf t d = dieOf s d := by
  have hdies : t.dies = s.dies := congrArg Prod.fst h
  rw [dieOf, hdies, dieOf]

/-! ### Completions, and ends of grids -/

theorem meters_foldl {α : Type} {f : State → α → State} (hf : ∀ s a, meters (f s a) = meters s) (l : List α) (s : State) :
    meters (l.foldl f s) = meters s := by
  induction l generalizing s with
  | nil => rfl
  | cons a l ih => exact (ih _).trans (hf s a)

theorem meters_memWrite (s : State) (pa : Nat) (bytes : List Byte) : meters (memWrite s pa bytes) = meters s :=
  meters_of_onlyTranslated (memWrite_onlyTranslated ..)

theorem meters_ctxWrite (s : State) (c : Ctx) (pa : Nat) (cls : BitVec 2) (bytes : List Byte) :
    meters (ctxWrite s c pa cls bytes) = meters s := by
  have htouch : meters (touch s c (homeDie pa)) = meters s := by
    unfold touch
    dsimp only
    split <;> rfl
  unfold ctxWrite
  dsimp only
  split
  · rw [meters_memWrite, ← htouch]
    exact meters_of_ctxs rfl rfl fun _ => ⟨rfl, rfl⟩
  · exact meters_memWrite ..

theorem meters_ringOnce (s : State) (a : Asid) (i : Nat) (rel : Bool) : meters (ringOnce s a i rel) = meters s := by
  unfold ringOnce
  split
  · split <;> rfl
  · split
    · rfl
    · split
      · rfl
      · split
        · exact meters_of_ctxs rfl rfl fun _ => ⟨rfl, rfl⟩
        · split <;> rfl

theorem meters_quietStore {s t : State} {c : Ctx} {va : Nat} {bytes : List Byte} (h : quietStore s c va bytes = some t) :
    meters t = meters s := by
  have hres := meters_of_onlyTranslated (resolve_onlyTranslated s c { w := true } true va bytes.length)
  unfold quietStore at h
  generalize resolve s c { w := true } true va bytes.length = r at h hres
  split at h
  · split at h
    · split at h
      · cases h
      · injection h with h
        rw [← h, meters_ctxWrite, hres]
    · injection h with h
      rw [← h, meters_ringOnce, hres]
    · obtain ⟨tg, -, rfl⟩ := Option.map_eq_some_iff.mp h
      exact hres
  · cases h

theorem meters_wordStored (s : State) (l : Launch) (status cause : Nat) : meters (wordStored s l status cause) = meters s := by
  unfold wordStored
  split
  · rfl
  · split
    · rfl
    · next c _ =>
      cases hstore : quietStore s c (recField l.bytes 0x18 8) (natToBytes 8 (status + 256 * cause)) with
      | none => rfl
      | some t => exact meters_quietStore hstore

theorem meters_completeLaunch (s : State) (l : Launch) (status cause : Nat) : meters (completeLaunch s l status cause) = meters s := by
  rw [completeLaunch_eq, ← meters_wordStored s l status cause]
  unfold signalled decCounter setCounter
  split
  · dsimp only
    split
    · rfl
    · split <;> rfl
  · rfl

theorem meters_dropKc (s : State) (id : Nat) : meters (dropKc s id) = meters s := by
  have hnoted : meters (noted s id) = meters s := ((noted_onlyMem s id).same meters :)
  rw [← hnoted]
  exact meters_of_ctxs rfl rfl fun _ => ⟨rfl, rfl⟩

theorem meters_removeGrid (s : State) (g : Grid) : meters (removeGrid s g) = meters s := by
  rw [← meters_foldl (fun s k => meters_dropKc s (Kc.id k)) (s.kcs.filter fun k => k.grid = g.id) s]
  exact meters_of_ctxs rfl rfl fun _ => ⟨rfl, rfl⟩

theorem meters_untouchIfIdle (s : State) (a : Asid) : meters (untouchIfIdle s a) = meters s := by
  unfold untouchIfIdle
  split
  · rfl
  · split
    · exact meters_of_ctxs rfl rfl fun _ => ⟨rfl, rfl⟩
    · rfl

theorem meters_endGrid (s : State) (gid : Word) (status cause : Nat) : meters (endGrid s gid status cause) = meters s := by
  cases h : gridOf? s gid with
  | none => rw [endGrid, h]
  | some g => rw [endGrid_eq h, meters_untouchIfIdle, meters_completeLaunch, meters_removeGrid]

/-! ### Stops, and grids that have used up their budget -/

theorem meters_stopAll (code : Byte) (ks : List Kc) (s : State) : meters (stopAll s code ks).1 = meters s := by
  induction ks generalizing s with
  | nil => rfl
  | cons k ks ih =>
    rw [stopAll]
    split
    · exact (ih _).trans (meters_of_ctxs rfl rfl fun _ => ⟨rfl, rfl⟩)
    · exact ih s

theorem meters_forceStop (s : State) (code : Byte) (ks : List Kc) : meters (forceStop s code ks) = meters s :=
  (meters_foldl (fun s g => meters_endGrid s g 2 0) _ _).trans (meters_stopAll code ks s)

theorem meters_exhaust (s : State) (gid : Word) : meters (exhaust s gid) = meters s := by
  unfold exhaust
  split
  · split
    · exact meters_forceStop ..
    · rfl
  · rfl

end Sys2Proof.Proofs.Meters
end

section
/-! Which of a list of kernel clusters a pre-emption stops (R336): all of them, where the save slots suffice. -/

namespace Sys2Proof.Proofs.Saves

open Sys2Proof Sys2Proof.Machine Sys2Proof.Claims Sys2Proof.Proofs.Stops Sys2Proof.Proofs.Departures Sys2Proof.Proofs.PageRuns

theorem kcOf_of_nodup {s : State} (h : (s.kcs.map fun k => k.id).Nodup) {k : Kc} (hk : k ∈ s.kcs) : kcOf s k.id = k := by
  obtain ⟨hmem, hid⟩ := kcOf_mem hk
  exact List.inj_on_of_nodup_map h hmem hk hid

/-- A kernel cluster has been asked to stop with a code, and holds a save slot. -/
def Stops (s : State) (code : Byte) (id : Nat) : Prop :=
  ∃ k, s.kcs.find? (fun k => k.id = id) = some k ∧ k.status = .stopping code ∧ k.slotNo.isSome = true

theorem Stops.kcOf {s : State} {code : Byte} {id : Nat} (h : Stops s code id) :
    (kcOf s id).status = .stopping code ∧ (kcOf s id).slotNo.isSome = true := by
  obtain ⟨k, hk, hstops⟩ := h
  rwa [kcOf_find hk]

theorem find?_requestStop (s : State) (id n b : Nat) (code : Byte) :
    (requestStop s id n code).kcs.find? (fun k => k.id = b) =
      if b = id then (s.kcs.find? fun k => k.id = b).map fun k => { k with status := .stopping code, slotNo := some n }
      else s.kcs.find? fun k => k.id = b :=
  find?_map_key (f := fun k => { k with status := .stopping code, slotNo := some n }) Kc.id (fun _ => rfl) id b s.kcs

theorem stops_requestStop {s : State} {k : Kc} (hk : k ∈ s.kcs) (n : Nat) (code : Byte) : Stops (requestStop s k.id n code) code k.id := by
  obtain ⟨q, hq⟩ := Option.isSome_iff_exists.mp (List.find?_isSome (p := fun x : Kc => x.id = k.id).mpr ⟨k, hk, by simp⟩)
  refine ⟨{ q with status := .stopping code, slotNo := some n }, ?_, rfl, rfl⟩
  rw [find?_requestStop, if_pos rfl, hq]
  rfl

theorem Stops.requestStop {s : State} {code : Byte} {b : Nat} (h : Stops s code b) (id n : Nat) :
    Stops (requestStop s id n code) code b := by
  obtain ⟨k, hk, hstops⟩ := h
  unfold Stops
  rw [find?_requestStop, hk]
  split
  · exact ⟨_, rfl, rfl, rfl⟩
  · exact ⟨k, rfl, hstops⟩

theorem Stops.stopAll {code : Byte} {b : Nat} (ks : List Kc) {s : State} (h : Stops s code b) : Stops (stopAll s code ks).1 code b := by
  induction ks generalizing s with
  | nil => exact h
  | cons k ks ih =>
    rw [Machine.stopAll]
    split
    · exact ih (h.requestStop _ _)
    · exact ih h

theorem stopAll_of_slot {s : State} {k : Kc} {n : Nat} {ns : List Nat} (h : freeSlots (ctxOf s k.asid) = n :: ns) (code : Byte)
    (ks : List Kc) : stopAll s code (k :: ks) = stopAll (requestStop s k.id n code) code ks := by
  rw [stopAll, h]
  rfl

theorem stopAll_of_noSlot {s : State} {k : Kc} (h : freeSlots (ctxOf s k.asid) = []) (code : Byte) (ks : List Kc) :
    stopAll s code (k :: ks) = ((stopAll s code ks).1, k :: (stopAll s code ks).2) := by
  rw [stopAll, h]
  rfl

/-- Where none is left over, each stops. -/
theorem stops_of_left_nil {code : Byte} {ks : List Kc} {s : State} (hks : ∀ k ∈ ks, ∃ q ∈ s.kcs, q.id = k.id)
    (h : (stopAll s code ks).2 = []) : ∀ k ∈ ks, Stops (stopAll s code ks).1 code k.id := by
  induction ks generalizing s with
  | nil => exact fun _ hk => absurd hk List.not_mem_nil
  | cons k ks ih =>
    obtain ⟨⟨q, hq, hid⟩, hrest⟩ := List.forall_mem_cons.mp hks
    cases hfree : freeSlots (ctxOf s k.asid) with
    | nil => rw [stopAll_of_noSlot hfree] at h; cases h
    | cons n ns =>
      rw [stopAll_of_slot hfree] at h ⊢
      refine List.forall_mem_cons.mpr ⟨(hid ▸ stops_requestStop hq n code).stopAll ks, ih (fun r hr => ?_) h⟩
      obtain ⟨x, hx, hxr⟩ := hrest r hr
      refine ⟨_, requestStop_kcs s k.id n code ▸ List.mem_map_of_mem hx, ?_⟩
      split <;> exact hxr

/-- None is left over just where the save slots suffice. -/
theorem left_nil_iff (code : Byte) {ks : List Kc} {s : State} (hks : ∀ k ∈ ks, (kcOf s k.id).asid = k.asid) :
    (stopAll s code ks).2 = [] ↔ ∀ a, ofContext a ks ≤ slotsLeft s a := by
  induction ks generalizing s with
  | nil => exact ⟨fun _ _ => Nat.zero_le _, fun _ => rfl⟩
  | cons k ks ih =>
    obtain ⟨hhere, hrest⟩ := List.forall_mem_cons.mp hks
    have hcount : ∀ a, ofContext a (k :: ks) = ofContext a ks + if k.asid = a then 1 else 0 := fun a => by
      simp [ofContext, List.countP_cons]
    cases hfree : freeSlots (ctxOf s k.asid) with
    | nil =>
      have hnone : slotsLeft s k.asid = 0 := by rw [slotsLeft, hfree]; rfl
      rw [stopAll_of_noSlot hfree]
      refine ⟨fun h => absurd h (List.cons_ne_nil _ _), fun h => absurd (h k.asid) ?_⟩
      rw [hcount, if_pos rfl, hnone]
      omega
    | cons n ns =>
      have hone := slotsLeft_requestStop (id := k.id) code (s := s) (n := n) (by rw [hhere, hfree]; exact List.mem_cons_self)
      rw [hhere] at hone
      rw [stopAll_of_slot hfree, ih fun q hq =>
        (unstopped_asid ((requestStop_stopsOnly s k.id n code).kcOf q.id)).trans (hrest q hq)]
      refine forall_congr' fun a => ?_
      have := hone a
      rw [hcount]
      omega

theorem mem_of_left {code : Byte} {ks : List Kc} {s : State} {k : Kc} (h : k ∈ (stopAll s code ks).2) : k ∈ ks := by
  induction ks generalizing s with
  | nil => exact h
  | cons q ks ih =>
    cases hfree : freeSlots (ctxOf s q.asid) with
    | nil =>
      rw [stopAll_of_noSlot hfree] at h
      exact List.mem_cons.mpr ((List.mem_cons.mp h).imp_right ih)
    | cons n ns =>
      rw [stopAll_of_slot hfree] at h
      exact List.mem_cons_of_mem q (ih h)

/-- A kernel cluster that is not asked to stop stays as it is. -/
theorem mem_stopAll {code : Byte} {ks : List Kc} {s : State} {k : Kc} (hk : k ∈ s.kcs) (h : ∀ q ∈ ks, k.id ≠ q.id) :
    k ∈ (stopAll s code ks).1.kcs := by
  induction ks generalizing s with
  | nil => exact hk
  | cons q ks ih =>
    obtain ⟨hq, hrest⟩ := List.forall_mem_cons.mp h
    rw [stopAll]
    split
    · refine ih ?_ hrest
      rw [requestStop_kcs]
      exact List.mem_map.mpr ⟨k, hk, if_neg hq⟩
    · exact ih hk hrest

/-! ### A forced pre-emption -/

section
variable {s : State} {ks : List Kc} (hids : (s.kcs.map fun k => k.id).Nodup) (hks : ∀ k ∈ ks, k ∈ s.kcs) (code : Byte)
include hids hks

theorem left_nil_iff_slotsFor : (stopAll s code ks).2 = [] ↔ slotsFor s ks = true :=
  (left_nil_iff code fun k hk => by rw [kcOf_of_nodup hids (hks k hk)]).trans ⟨slotsFor_of_ofContext_le, ofContext_le_of_slotsFor⟩

/-- Where the slots suffice, the kernel clusters stop, and nothing ends. -/
theorem forceStop_of_slotsFor (h : slotsFor s ks = true) : forceStop s code ks = (stopAll s code ks).1 := by
  unfold forceStop
  dsimp only
  rw [(left_nil_iff_slotsFor hids hks code).mpr h]
  rfl

theorem stopped_of_slotsFor (h : slotsFor s ks = true) : Stopped (stopAll s code ks).1 ks code := fun k hk =>
  (stops_of_left_nil (fun q hq => ⟨q, hks q hq, rfl⟩) ((left_nil_iff_slotsFor hids hks code).mpr h) k hk).kcOf

/-- Where they do not, the grid that the kernel clusters are of ends. -/
theorem forceStop_of_not_slotsFor {gid : Word} (hgrid : ∀ k ∈ ks, k.grid = gid) (h : slotsFor s ks = false) :
    forceStop s code ks = endGrid (stopAll s code ks).1 gid 2 0 := by
  have hleft : (stopAll s code ks).2 ≠ [] := fun hnil =>
    absurd ((left_nil_iff_slotsFor hids hks code).mp hnil) (Bool.eq_false_iff.mp h)
  have hgrids : dedup ((stopAll s code ks).2.map fun k => k.grid) = [gid] :=
    dedup_of_forall_eq (mt List.map_eq_nil_iff.mp hleft) (List.forall_mem_map.mpr fun k hk => hgrid k (mem_of_left hk))
  unfold forceStop
  dsimp only
  rw [hgrids]
  rfl

/-- What stops leaves memory, the table of grids and the other kernel clusters. -/
theorem forceStop_saves (h : slotsFor s ks = true) : (forceStop s code ks).mem = s.mem ∧ (forceStop s code ks).grids = s.grids ∧
    Stopped (forceStop s code ks) ks code ∧ ∀ k ∈ s.kcs, k ∉ ks → k ∈ (forceStop s code ks).kcs := by
  rw [forceStop_of_slotsFor hids hks code h]
  refine ⟨(stopAll_stopsOnly ..).mem, stopAll_grids .., stopped_of_slotsFor hids hks code h, fun k hk hnot => ?_⟩
  exact mem_stopAll hk fun q hq hid => hnot (List.inj_on_of_nodup_map hids hk (hks q hq) hid ▸ hq)

theorem forceStop_ends {G : Grid} (hG : gridOf? s G.id = some G) (hgrid : ∀ k ∈ ks, k.grid = G.id) (h : slotsFor s ks = false) :
    GridEnded (stopAll s code ks).1 (forceStop s code ks) G 2 0 := by
  rw [forceStop_of_not_slotsFor hids hks code hgrid h]
  refine gridEnded_endGrid ?_ 2 0
  rw [gridOf?, stopAll_grids]
  exact hG

end

end Sys2Proof.Proofs.Saves
end

section
/-! The family "Faults, Repair and Firmware": the energy meter (R302, R324, R336, R422, R426). -/

namespace Sys2Proof.Proofs.Metering

open Sys2Proof Sys2Proof.Machine Sys2Proof.Claims Sys2Proof.Proofs.StateRules Sys2Proof.Proofs.Stops
  Sys2Proof.Proofs.Meters Sys2Proof.Proofs.Saves

/-! ### The die's counter, and what S mode changes with it (R422, R426) -/

/-- What an update may make of a die's parameters (R422). -/
def retuned (fresh : Nat) (x : Die) : Die :=
  if x.boot ≠ some true || !Config.freeBit fresh (2 ^ 23) then x
  else if x.restarting then { x with restarting := false }
  else { x with
    replThreshold := Config.freeNat fresh 400, poolReserve := Config.freeNat fresh 401, meterUs := 1 + Config.freeNat fresh 402 % 100 }

/-- A die after an update whose counter has risen by n. -/
def meteredDie (fresh n : Nat) (x : Die) : Die :=
  { retuned fresh x with energy := (retuned fresh x).energy + BitVec.ofNat 64 n }

/-- The state in which the die's counter has risen by n. -/
def metered (s : State) (d : DieNo) (n : Nat) : State :=
  { s with dies := s.dies.modify d.toNat (meteredDie s.fresh n), fresh := s.fresh + 1 }

theorem metered_eq (s : State) (d : DieNo) (n : Nat) :
    updDie (retune s d) d (fun x => { x with energy := x.energy + BitVec.ofNat 64 n }) = metered s d n :=
  congrArg (fun l : List Die => { s with dies := l, fresh := s.fresh + 1 }) (List.modify_modify_eq ..)

/-- S mode changes its parameters and its restart alone. -/
theorem retuned_only (fresh : Nat) (x : Die) : { retuned fresh x with
    replThreshold := x.replThreshold, poolReserve := x.poolReserve, meterUs := x.meterUs, restarting := x.restarting } = x := by
  unfold retuned
  split
  · rfl
  · split <;> rfl

theorem retuned_energy (fresh : Nat) (x : Die) : (retuned fresh x).energy = x.energy := (congrArg Die.energy (retuned_only fresh x) :)

theorem retuned_interval (fresh : Nat) {x : Die} (h1 : 1 ≤ x.meterUs) (h100 : x.meterUs ≤ 100) :
    1 ≤ (retuned fresh x).meterUs ∧ (retuned fresh x).meterUs ≤ 100 := by
  unfold retuned
  split
  · exact ⟨h1, h100⟩
  · split
    · exact ⟨h1, h100⟩
    · dsimp only
      omega

/-- A die that has not booted, or whose S mode is being restarted, keeps its parameters. -/
theorem retuned_kept (fresh : Nat) {x : Die} (h : x.boot ≠ some true ∨ x.restarting = true) :
    (retuned fresh x).replThreshold = x.replThreshold ∧ (retuned fresh x).poolReserve = x.poolReserve ∧
      (retuned fresh x).meterUs = x.meterUs := by
  unfold retuned
  split
  · exact ⟨rfl, rfl, rfl⟩
  · next hmay =>
    split
    · exact ⟨rfl, rfl, rfl⟩
    · next hrun =>
      rcases h with hboot | hrestarts
      · exact absurd hmay (by simp [hboot])
      · exact absurd hrestarts hrun

/-! ### The charges of contexts (R426) -/

theorem foldl_add_charges (l : List (Asid × Word × Nat)) (r : Nat) :
    l.foldl (fun n c => n + c.2.2) r = r + total l fun c => c.2.2 := by
  induction l generalizing r with
  | nil => rfl
  | cons c l ih => exact (ih _).trans (by simp [total, Nat.add_assoc])

theorem meterUpdate_runs (s : State) (o : MeterOps) : exec (.meterUpdate o) s = .next ((dedup (o.charges.map fun c => c.2.1)).foldl exhaust
    (o.charges.foldl chargeOne (metered s o.die (o.remainder + total o.charges fun c => c.2.2)))) := by
  rw [← foldl_add_charges, ← metered_eq]
  rfl

theorem foldl_chargeOne_dies (l : List (Asid × Word × Nat)) (s : State) : (l.foldl chargeOne s).dies = s.dies := by
  induction l generalizing s with
  | nil => rfl
  | cons c l ih => exact ih _

theorem ctxOf?_chargeOne (s : State) (c : Asid × Word × Nat) (a : Asid) : ctxOf? (chargeOne s c) a =
    if a = c.1 then (ctxOf? s a).map fun x => { x with energy := x.energy + BitVec.ofNat 64 c.2.2 } else ctxOf? s a :=
  ctxOf?_updCtx (f := fun x => { x with energy := x.energy + BitVec.ofNat 64 c.2.2 }) (fun _ => rfl) s c.1 a

/-- What a list of charges has made of a context. -/
theorem ctxOf?_charges {a : Asid} {x : Ctx} (l : List (Asid × Word × Nat)) {s : State} (h : ctxOf? s a = some x) :
    ctxOf? (l.foldl chargeOne s) a =
      some { x with energy := x.energy + BitVec.ofNat 64 (total (l.filter fun c => c.1 = a) fun c => c.2.2) } := by
  induction l generalizing s x with
  | nil => simpa [total] using h
  | cons c l ih =>
    have hone := ctxOf?_chargeOne s c a
    by_cases hc : a = c.1
    · rw [if_pos hc, h] at hone
      rw [List.foldl_cons, ih hone, List.filter_cons_of_pos (by simp [hc])]
      simp [total, BitVec.add_assoc, BitVec.ofNat_add]
    · rw [if_neg hc, h] at hone
      rw [List.foldl_cons, ih hone, List.filter_cons_of_neg (by simp [Ne.symm hc])]

/-! ### One charge, of a context and its grid (R324) -/

/-- The state in which a meter update has charged n to a context, and its grid has become G'. -/
def chargedTo (s : State) (d : DieNo) (a : Asid) (G' : Grid) (n all : Nat) : State :=
  { s with
    dies := s.dies.modify d.toNat (meteredDie s.fresh all)
    ctxs := s.ctxs.map fun c => if c.asid = a then { c with energy := c.energy + BitVec.ofNat 64 n } else c
    grids := s.grids.map fun g => if g.id = G'.id then G' else g
    fresh := s.fresh + 1 }

theorem charged_chargedTo {s : State} (h : s.dies.length = 4) (d : DieNo) (a : Asid) (G' : Grid) (n all : Nat) :
    Charged s (chargedTo s d a G' n all) d a G' n all := by
  obtain ⟨hd, hothers⟩ : DieIs s (chargedTo s d a G' n all) d (meteredDie s.fresh all (dieOf s d)) := dieIs_updDie h d _
  refine ⟨rfl, rfl, rfl, hothers, ?_, ?_, ?_⟩
  · rw [hd, ← retuned_energy s.fresh (dieOf s d)]
    exact (congrArg (fun x : Die => { x with energy := (retuned s.fresh (dieOf s d)).energy + BitVec.ofNat 64 all })
      (retuned_only s.fresh (dieOf s d)) :)
  · rw [hd]
    exact retuned_interval s.fresh
  · rw [hd]
    exact retuned_kept s.fresh

/-- An update of the one grid under an identifier puts what it becomes in its place. -/
theorem map_grid_eq {l : List Grid} (hids : (l.map fun g => g.id).Nodup) {G : Grid} (hG : G ∈ l) {f : Grid → Grid} {id : Word}
    (hid : G.id = id) (hf : (f G).id = id) :
    (l.map fun g => if g.id = id then f g else g) = l.map fun g => if g.id = (f G).id then f G else g := by
  refine List.map_congr_left fun g hg => ?_
  rw [hf]
  split
  · next h => rw [List.inj_on_of_nodup_map hids hg hG (h.trans hid.symm)]
  · rfl

/-- A grid that has been charged n, and one that is suspended with that. -/
def chargedGrid (G : Grid) (n : Nat) : Grid := { G with charged := G.charged + n }
def suspendedGrid (G : Grid) (n : Nat) : Grid := { G with charged := G.charged + n, suspended := true }

/-- A charge of n uses up the budget of a grid that has not been suspended before (R324). -/
def Exhausts (G : Grid) (n : Nat) : Prop := (G.ebudget ≠ 0 ∧ G.ebudget ≤ G.charged + n) ∧ G.suspended = false

theorem gridOf?_chargedTo {s : State} {G G' : Grid} (hG : gridOf? s G.id = some G) (hid : G'.id = G.id) (d : DieNo) (a : Asid)
    (n all : Nat) : gridOf? (chargedTo s d a G' n all) G.id = some G' := by
  have hkey : ((fun g : Grid => decide (g.id = G.id)) ∘ fun g => if g.id = G'.id then G' else g) = fun g => decide (g.id = G.id) := by
    funext g
    by_cases hg : g.id = G.id <;> simp [hid, hg]
  rw [gridOf?] at hG
  rw [gridOf?, chargedTo, List.find?_map, hkey, hG, Option.map_some, hid, if_pos rfl]

theorem chargeOne_eq {s : State} {G : Grid} (hids : (s.grids.map fun g => g.id).Nodup) (hG : gridOf? s G.id = some G) (d : DieNo)
    (n all : Nat) : chargeOne (metered s d all) (G.asid, G.id, n) = chargedTo s d G.asid (chargedGrid G n) n all := by
  have hgrids := map_grid_eq hids (List.mem_of_find?_eq_some hG)
    (f := fun g => if g.asid = G.asid then chargedGrid g n else g) (id := G.id) rfl (by rw [if_pos rfl]; rfl)
  rw [if_pos rfl] at hgrids
  exact congrArg (fun l => { chargedTo s d G.asid G n all with grids := l }) hgrids

theorem suspend_chargedTo (s : State) (G : Grid) (d : DieNo) (a : Asid) (n all : Nat) :
    (updGrid (chargedTo s d a (chargedGrid G n) n all) G.id fun g => { g with suspended := true }) =
      chargedTo s d a (suspendedGrid G n) n all := by
  refine congrArg (fun l => { chargedTo s d a G n all with grids := l }) ?_
  rw [chargedTo, List.map_map]
  refine List.map_congr_left fun g _ => ?_
  by_cases hg : g.id = G.id <;> simp [hg, chargedGrid, suspendedGrid]

/-- A grid whose budget is used up is suspended, and its running kernel clusters are stopped (R324). -/
theorem exhaust_of_exhausts {s : State} {G : Grid} {n : Nat} (hG : gridOf? s G.id = some G) (h : Exhausts G n) (d : DieNo) (a : Asid)
    (all : Nat) : exhaust (chargedTo s d a (chargedGrid G n) n all) G.id =
      forceStop (chargedTo s d a (suspendedGrid G n) n all) 3 ((kcsOf s G.id).filter isRunning) := by
  obtain ⟨⟨hbudget, hused⟩, hsuspended⟩ := h
  unfold exhaust
  simp only [gridOf?_chargedTo hG (G' := chargedGrid G n) rfl, suspend_chargedTo]
  rw [if_pos]
  · rfl
  · simpa [chargedGrid, hsuspended] using ⟨hbudget, hused⟩

theorem exhaust_of_not_exhausts {s : State} {G : Grid} {n : Nat} (hG : gridOf? s G.id = some G) (h : ¬Exhausts G n) (d : DieNo)
    (a : Asid) (all : Nat) :
    exhaust (chargedTo s d a (chargedGrid G n) n all) G.id = chargedTo s d a (chargedGrid G n) n all := by
  unfold exhaust
  simp only [gridOf?_chargedTo hG (G' := chargedGrid G n) rfl]
  refine if_neg fun hall => h ?_
  simp only [Bool.and_eq_true, decide_eq_true_eq, Bool.not_eq_true'] at hall
  exact hall

theorem slotsFor_chargedTo (s : State) (d : DieNo) (a : Asid) (G' : Grid) (n all : Nat) (ks : List Kc) :
    slotsFor (chargedTo s d a G' n all) ks = slotsFor s ks := by
  have hfree : ∀ b, freeSlots (ctxOf (chargedTo s d a G' n all) b) = freeSlots (ctxOf s b) := fun b => by
    have hctx : ctxOf? (chargedTo s d a G' n all) b = if b = a then (ctxOf? s b).map _ else ctxOf? s b :=
      find?_map_key (f := fun x => { x with energy := x.energy + BitVec.ofNat 64 n }) Ctx.asid (fun _ => rfl) a b s.ctxs
    rw [ctxOf, hctx, ctxOf]
    split
    · cases ctxOf? s b <;> rfl
    · rfl
  simp only [slotsFor, hfree]

/-- One charge, from the meter's event to the state it leaves. -/
theorem meterUpdate_one {s : State} {o : MeterOps} {G : Grid} {n : Nat} (hids : (s.grids.map fun g => g.id).Nodup)
    (hG : gridOf? s G.id = some G) (ho : o.charges = [(G.asid, G.id, n)]) :
    exec (.meterUpdate o) s = .next (exhaust (chargedTo s o.die G.asid (chargedGrid G n) n (o.remainder + n)) G.id) := by
  rw [meterUpdate_runs, ho, ← chargeOne_eq hids hG o.die n (o.remainder + n)]
  rfl

/-! ### The obligation -/

/-- The counters after any update: of the die, and of each context. -/
theorem meterUpdate_counts {s : State} (h : s.dies.length = 4) (o : MeterOps) : ∃ t, exec (.meterUpdate o) s = .next t ∧
    (dieOf t o.die).energy = (dieOf s o.die).energy + BitVec.ofNat 64 (o.remainder + total o.charges fun c => c.2.2) ∧
    ∀ a x, ctxOf? s a = some x →
      (ctxOf t a).energy = x.energy + BitVec.ofNat 64 (total (o.charges.filter fun c => c.1 = a) fun c => c.2.2) := by
  have hmeters := meters_foldl meters_exhaust (dedup (o.charges.map fun c => c.2.1))
    (o.charges.foldl chargeOne (metered s o.die (o.remainder + total o.charges fun c => c.2.2)))
  refine ⟨_, meterUpdate_runs s o, ?_, fun a x hx => ?_⟩
  · have hdie := (dieIs_updDie h o.die (meteredDie s.fresh (o.remainder + total o.charges fun c => c.2.2))).1
    rw [dieOf_of_meters hmeters, dieOf, foldl_chargeOne_dies]
    exact (congrArg Die.energy hdie).trans (congrArg (· + _) (retuned_energy ..))
  · rw [energy_of_meters hmeters (ctxOf?_charges o.charges (s := metered s o.die _) hx)]

/-- Settles O43: what stops and what ends leaves the meters alone (`meters_exhaust`), so that the counters are those of the
charges; after one charge the state is `chargedTo`, and the save slots decide what befalls a grid over its budget. -/
theorem energyMetering : Obligations.EnergyMetering := by
  unfold Obligations.EnergyMetering
  refine ⟨fun s o hdies => meterUpdate_counts hdies o, fun s o n x G hdies hkcs hgrids ho _ hG => ?_⟩
  intro run used G'
  have hrun : ∀ k ∈ run, k ∈ s.kcs := fun k hk => (List.mem_filter.mp (List.mem_filter.mp hk).1).1
  have hgrid : ∀ k ∈ run, k.grid = G.id := fun k hk => by simpa using (List.mem_filter.mp (List.mem_filter.mp hk).1).2
  refine ⟨_, chargedTo s o.die G.asid G' n (o.remainder + n), meterUpdate_one hgrids hG ho, charged_chargedTo hdies .., ?_⟩
  by_cases hex : Exhausts G n
  case pos =>
    have hG' : G' = suspendedGrid G n := congrArg (fun b => { suspendedGrid G n with suspended := b }) (by simp [used, hex.1])
    rw [exhaust_of_exhausts hG hex, hG']
    refine ⟨?_, fun _ _ hslots => ?_, fun _ _ hslots _ => ?_⟩
    · rintro (hnil | hnot | hsuspended)
      · rw [show (kcsOf s G.id).filter isRunning = [] from hnil]
        rfl
      · exact absurd hex.1 hnot
      · rw [hex.2] at hsuspended
        cases hsuspended
    · exact forceStop_saves (s := chargedTo ..) hkcs hrun 3 ((slotsFor_chargedTo ..).trans hslots)
    · exact forceStop_ends (s := chargedTo ..) hkcs hrun 3
        (gridOf?_chargedTo hG (G' := suspendedGrid G n) rfl ..) hgrid ((slotsFor_chargedTo ..).trans hslots)
  case neg =>
    have hG' : G' = chargedGrid G n := congrArg (fun b => { chargedGrid G n with suspended := b }) (a₂ := G.suspended) (by
      cases hsuspended : G.suspended
      · rw [Bool.false_or]
        exact decide_eq_false fun hused => hex ⟨hused, hsuspended⟩
      · exact Bool.true_or _)
    rw [exhaust_of_not_exhausts hG hex, hG']
    have hnot : ∀ {p : Prop}, used → G.suspended = false → p := fun hused hsuspended => absurd ⟨hused, hsuspended⟩ hex
    exact ⟨fun _ => rfl, hnot, hnot⟩

end Sys2Proof.Proofs.Metering
end

section
/-! Boot (R423, R424): the images that a control processor accepts, what it makes of a die, and the limits that the monitor of the
routing die locks. -/

namespace Sys2Proof.Proofs.Boot

open Sys2Proof Sys2Proof.Machine Sys2Proof.Claims Sys2Proof.Proofs.StateRules

/-! ### Images (R424) -/

theorem imageOk_iff (version : Word) (i : BootImage) : imageOk version i = true ↔ Acceptable version i := by
  unfold imageOk Acceptable Signed
  split
  · next vf hlevel => exact ⟨fun _ hsigned => absurd hlevel (hsigned vf), fun _ => rfl⟩
  · next hsigned =>
    rw [Bool.and_eq_true, decide_eq_true_eq, BitVec.le_def]
    exact ⟨fun h _ => h, fun h => h hsigned⟩

theorem imagesOk_iff (version : Word) (mine : List BootImage) : imagesOk version mine = true ↔ Accepted version mine := by
  simp only [imagesOk, Accepted, Bool.and_eq_true, List.any_eq_true, List.all_eq_true, decide_eq_true_eq, imageOk_iff, and_assoc]

/-- The higher of a version and a signed image's. -/
def raised (v : Word) (i : BootImage) : Word :=
  match i.level with
  | .plugin _ => v
  | _ => if v < i.version then i.version else v

theorem le_raised (v : Word) (i : BootImage) : v.toNat ≤ (raised v i).toNat := by
  unfold raised
  split
  · exact Nat.le_refl _
  · split
    · next h => exact Nat.le_of_lt h
    · exact Nat.le_refl _

theorem version_le_raised (v : Word) {i : BootImage} (h : Signed i) : i.version.toNat ≤ (raised v i).toNat := by
  unfold raised
  split
  · next vf hlevel => exact absurd hlevel (h vf)
  · split
    · exact Nat.le_refl _
    · next hle => exact Nat.le_of_not_lt hle

theorem imagesVersion_eq (v : Word) (mine : List BootImage) : imagesVersion v mine = mine.foldl raised v := rfl

theorem le_imagesVersion (mine : List BootImage) (v : Word) : v.toNat ≤ (imagesVersion v mine).toNat := by
  rw [imagesVersion_eq]
  induction mine generalizing v with
  | nil => exact Nat.le_refl _
  | cons i mine ih => exact (le_raised v i).trans (ih _)

/-- Fused versions do not fall below those of the signed images. -/
theorem version_le_imagesVersion {mine : List BootImage} {i : BootImage} (hi : i ∈ mine) (h : Signed i) (v : Word) :
    i.version.toNat ≤ (imagesVersion v mine).toNat := by
  induction mine generalizing v with
  | nil => cases hi
  | cons j mine ih =>
    rcases List.mem_cons.mp hi with rfl | hi
    · exact (version_le_raised v h).trans (le_imagesVersion mine (raised v i))
    · exact ih hi (raised v j)

/-! ### The routing die (R424) -/

/-- The images of one control processor. -/
def imagesOf (n : Nat) (images : List BootImage) : List BootImage := images.filter fun i => decide (i.die = n)

theorem bootRouting_of_booted {s : State} (h : s.fab.rboot.isSome = true) (images : List BootImage) : bootRouting s images = s := by
  simp only [bootRouting, h, if_true]

theorem bootRouting_of_none {s : State} (h : s.fab.rboot = none) (images : List BootImage) : bootRouting s images =
    { s with fab := { s.fab with
      rboot := some (imagesOk s.fab.rversion (imagesOf 4 images))
      rversion := if imagesOk s.fab.rversion (imagesOf 4 images) then imagesVersion s.fab.rversion (imagesOf 4 images) else s.fab.rversion
      rlog := s.fab.rlog ++ (imagesOf 4 images).map fun i => i.digest } } := by
  simp only [bootRouting, h, Option.isSome_none, Bool.false_eq_true, if_false]
  rfl

/-- Of the routing die boot changes nothing but what it has verified and measured. -/
theorem bootRouting_only (s : State) (images : List BootImage) :
    { bootRouting s images with fab := { (bootRouting s images).fab with
      rboot := s.fab.rboot, rversion := s.fab.rversion, rlog := s.fab.rlog } } = s := by
  unfold bootRouting
  dsimp only
  split <;> rfl

theorem bootRouting_fab (s : State) (images : List BootImage) : { (bootRouting s images).fab with
    rboot := s.fab.rboot, rversion := s.fab.rversion, rlog := s.fab.rlog } = s.fab := (congrArg State.fab (bootRouting_only s images) :)

/-! ### A die (R422, R424) -/

/-- A die once its images have been measured and have verified, or not; the scheduler sets its parameters. -/
def bootedBy (ok : Bool) (fresh : Nat) (mine : List BootImage) (d : DieNo) (x : Die) : Die :=
  let free := fun (i : Nat) => Config.freeNat fresh (32 + 8 * d.toNat + i)
  { x with
    boot := some ok
    version := if ok then imagesVersion x.version mine else x.version
    images := mine
    log := x.log ++ mine.map fun i => i.digest
    replThreshold := if ok then free 0 else x.replThreshold
    poolReserve := if ok then free 1 else x.poolReserve
    meterUs := if ok then 1 + free 2 % 100 else x.meterUs
    currentClamp := if ok then free 3 % (Config.fusedCurrent d.toNat + 1) else x.currentClamp }

/-- A die after DEVICE_BOOT, which passes over one that does not wait for it. -/
def booted (rboot : Option Bool) (fresh : Nat) (images : List BootImage) (d : DieNo) (x : Die) : Die :=
  if x.st = .resetting && x.boot.isNone then
    bootedBy (rboot = some true && imagesOk x.version (imagesOf d.toNat images)) fresh (imagesOf d.toNat images) d x
  else x

section
variable {s : State} (images : List BootImage)

theorem bootDie_only (d : DieNo) : { bootDie s images d with dies := s.dies } = s := by
  unfold bootDie
  dsimp only
  split <;> rfl

theorem bootDie_length (d : DieNo) : (bootDie s images d).dies.length = s.dies.length := by
  unfold bootDie
  dsimp only
  split
  · exact List.length_modify ..
  · rfl

theorem dieIs_bootDie (h : s.dies.length = 4) (d : DieNo) :
    DieIs s (bootDie s images d) d (booted s.fab.rboot s.fresh images d (dieOf s d)) := by
  unfold bootDie booted
  dsimp only
  split
  · exact dieIs_updDie h d _
  · exact ⟨rfl, fun _ _ => rfl⟩

/-- Several dies, one after the other. -/
theorem foldl_bootDie (ds : List DieNo) (hds : ds.Nodup) (h : s.dies.length = 4) :
    { ds.foldl (fun s d => bootDie s images d) s with dies := s.dies } = s ∧
      ∀ d, dieOf (ds.foldl (fun s d => bootDie s images d) s) d =
        if d ∈ ds then booted s.fab.rboot s.fresh images d (dieOf s d) else dieOf s d := by
  induction ds generalizing s with
  | nil => exact ⟨rfl, fun d => by simp⟩
  | cons d ds ih =>
    obtain ⟨hd, hds⟩ := List.nodup_cons.mp hds
    obtain ⟨honly, hdies⟩ := ih hds ((bootDie_length images d).trans h)
    obtain ⟨hthis, hothers⟩ := dieIs_bootDie images h d
    have hsame := bootDie_only images d (s := s)
    have hfab : (bootDie s images d).fab = s.fab := (congrArg State.fab hsame :)
    have hfresh : (bootDie s images d).fresh = s.fresh := (congrArg State.fresh hsame :)
    refine ⟨(congrArg (fun x : State => { x with dies := s.dies }) honly).trans hsame, fun e => ?_⟩
    rw [List.foldl_cons, hdies, hfab, hfresh]
    by_cases he : e = d
    · rw [he, if_neg hd, hthis, if_pos List.mem_cons_self]
    · simp only [List.mem_cons, he, false_or, hothers e he]

end

theorem booted_of_other {x : Die} (h : ¬(x.st = .resetting ∧ x.boot = none)) (rboot : Option Bool) (fresh : Nat)
    (images : List BootImage) (d : DieNo) : booted rboot fresh images d x = x :=
  if_neg (by simpa using h)

theorem booted_of_waiting {x : Die} (hst : x.st = .resetting) (hboot : x.boot = none) (rboot : Option Bool) (fresh : Nat)
    (images : List BootImage) (d : DieNo) : booted rboot fresh images d x =
      bootedBy (rboot = some true && imagesOk x.version (imagesOf d.toNat images)) fresh (imagesOf d.toNat images) d x :=
  if_pos (by simp [hst, hboot])

section
variable (fresh : Nat) (mine : List BootImage) (d : DieNo) (x : Die)

/-- A die whose images have verified: its fused version rises, and its parameters lie within their bounds (R423, R424). -/
theorem bootedBy_true (y : Die) (h : y = bootedBy true fresh mine d x) :
    (∀ i ∈ mine, Signed i → i.version.toNat ≤ y.version.toNat) ∧ 1 ≤ y.meterUs ∧ y.meterUs ≤ 100 ∧
      y.currentClamp ≤ Config.fusedCurrent d.toNat := by
  subst h
  refine ⟨fun i hi hsigned => version_le_imagesVersion hi hsigned x.version, Nat.le_add_right .., ?_, ?_⟩
  · change 1 + _ % 100 ≤ 100
    omega
  · exact Nat.le_of_lt_succ (Nat.mod_lt _ (Nat.succ_pos _))

end

/-! ### The limits that the routing die's monitor locks (R423) -/

theorem lockLimits_of_kept {s : State} (h : s.fab.monitorLocked = true ∨ s.fab.rboot ≠ some true) : lockLimits s = s :=
  if_pos (by simpa using h)

/-- The monitor changes nothing but the limits. -/
theorem lockLimits_only (s : State) : { lockLimits s with fab := { (lockLimits s).fab with
    monitorLocked := s.fab.monitorLocked, powerLimit := s.fab.powerLimit, linkCaps := s.fab.linkCaps } } = s := by
  unfold lockLimits
  split <;> rfl

/-- Each value of a map lies within the bound of its key, if each entry does. -/
theorem amGet_le {bound : Nat → Nat} {m : AMap Nat} (h : ∀ e ∈ m, e.2 ≤ bound e.1) (i : Nat) : amGet 0 m i ≤ bound i := by
  induction m with
  | nil => exact Nat.zero_le _
  | cons e m ih =>
    obtain ⟨k, v⟩ := e
    obtain ⟨he, hm⟩ := List.forall_mem_cons.mp h
    rw [amGet]
    split
    · next hik => exact hik ▸ he
    · exact ih hm

theorem lockLimits_locks {s : State} (hopen : s.fab.monitorLocked = false) (hboot : s.fab.rboot = some true) :
    (lockLimits s).fab.monitorLocked = true ∧ (lockLimits s).fab.powerLimit ≤ 3200 ∧
      ∀ i, amGet 0 (lockLimits s).fab.linkCaps i ≤ ratedRate i := by
  have hlocks : lockLimits s = { s with fab := { s.fab with
      monitorLocked := true
      powerLimit := Config.freeNat s.fresh 96 % 3201
      linkCaps := (List.range 19).map fun i => (i, Config.freeNat s.fresh (97 + i) % (ratedRate i + 1)) } } :=
    if_neg (by simp [hopen, hboot])
  rw [hlocks]
  refine ⟨rfl, Nat.le_of_lt_succ (Nat.mod_lt _ (by decide)), amGet_le (List.forall_mem_map.mpr fun i _ => ?_)⟩
  exact Nat.le_of_lt_succ (Nat.mod_lt _ (Nat.succ_pos _))

/-! ### DEVICE_BOOT -/

/-- The state in which the dies have booted, and the limits are not yet locked. -/
def diesBooted (s : State) (images : List BootImage) : State :=
  ([0, 1, 2, 3] : List DieNo).foldl (fun s d => bootDie s images d) (bootRouting s images)

theorem deviceBoot_runs (s : State) (images : List BootImage) :
    exec (.deviceBoot images) s = .next (bump (lockLimits (diesBooted s images))) := rfl

/-- What the routing die's images have made of it. -/
theorem routing_boots {s : State} (images : List BootImage) (f : Fabric) (hf : f = (bootRouting s images).fab) :
    (s.fab.rboot.isSome = true → f.rboot = s.fab.rboot ∧ f.rlog = s.fab.rlog ∧ f.rversion = s.fab.rversion) ∧
      (s.fab.rboot = none → f.rboot.isSome = true ∧ (f.rboot = some true ↔ Accepted s.fab.rversion (imagesOf 4 images)) ∧
        f.rlog = s.fab.rlog ++ (imagesOf 4 images).map (fun i => i.digest) ∧
        (f.rboot = some true → ∀ i ∈ imagesOf 4 images, Signed i → i.version.toNat ≤ f.rversion.toNat)) := by
  subst hf
  refine ⟨fun h => ?_, fun h => ?_⟩
  · rw [bootRouting_of_booted h]
    exact ⟨rfl, rfl, rfl⟩
  · rw [bootRouting_of_none h, ← imagesOk_iff]
    refine ⟨rfl, Option.some_inj, rfl, fun hok i hi hsigned => ?_⟩
    rw [if_pos (Option.some.inj hok)]
    exact version_le_imagesVersion hi hsigned _

/-- What a die's images have made of it. -/
theorem die_boots {rboot : Option Bool} {fresh : Nat} {images : List BootImage} {d : DieNo} {x y : Die}
    (hy : y = booted rboot fresh images d x) (hst : x.st = .resetting) (hboot : x.boot = none) :
    y.st = .resetting ∧ y.log = x.log ++ (imagesOf d.toNat images).map (fun i => i.digest) ∧ y.images = imagesOf d.toNat images ∧
      y.boot.isSome = true ∧ (y.boot = some true ↔ rboot = some true ∧ Accepted x.version (imagesOf d.toNat images)) ∧
      (y.boot = some true → (∀ i ∈ imagesOf d.toNat images, Signed i → i.version.toNat ≤ y.version.toNat) ∧ 1 ≤ y.meterUs ∧
        y.meterUs ≤ 100 ∧ y.currentClamp ≤ Config.fusedCurrent d.toNat) ∧
      (y.boot = some false → y.version = x.version ∧ y.poolReserve = x.poolReserve ∧ y.meterUs = x.meterUs ∧
        y.replThreshold = x.replThreshold ∧ y.currentClamp = x.currentClamp) := by
  rw [booted_of_waiting hst hboot] at hy
  have hok : (rboot = some true && imagesOk x.version (imagesOf d.toNat images)) = true ↔
      rboot = some true ∧ Accepted x.version (imagesOf d.toNat images) := by
    rw [Bool.and_eq_true, decide_eq_true_eq, imagesOk_iff]
  rw [← hok]
  generalize (rboot = some true && imagesOk x.version (imagesOf d.toNat images)) = ok at hy ⊢
  have hyboot : y.boot = some ok := congrArg Die.boot hy
  rw [hyboot]
  refine ⟨?_, ?_, ?_, rfl, Option.some_inj, fun h => ?_, fun h => ?_⟩
  · exact (congrArg Die.st hy).trans hst
  · exact congrArg Die.log hy
  · exact congrArg Die.images hy
  · cases h
    exact bootedBy_true fresh _ d x y hy
  · cases h
    subst hy
    exact ⟨rfl, rfl, rfl, rfl, rfl⟩

theorem diesBooted_only {s : State} (h : s.dies.length = 4) (images : List BootImage) :
    { diesBooted s images with dies := (bootRouting s images).dies } = bootRouting s images ∧
      ∀ d, dieOf (diesBooted s images) d = booted (bootRouting s images).fab.rboot s.fresh images d (dieOf s d) := by
  have hrouting := bootRouting_only s images
  have hdies : (bootRouting s images).dies = s.dies := (congrArg State.dies hrouting :)
  have hfresh : (bootRouting s images).fresh = s.fresh := (congrArg State.fresh hrouting :)
  obtain ⟨honly, hbooted⟩ := foldl_bootDie images [0, 1, 2, 3] (by decide) (s := bootRouting s images) (hdies ▸ h)
  refine ⟨honly, fun d => ?_⟩
  have hd : d ∈ ([0, 1, 2, 3] : List DieNo) := by revert d; decide
  have hsame : dieOf (bootRouting s images) d = dieOf s d := by rw [dieOf, hdies, dieOf]
  rw [← hfresh, ← hsame]
  exact (hbooted d).trans (if_pos hd)

/-- DEVICE_BOOT verifies and measures the images of the routing die and of each die that waits for it, and then locks the limits. -/
theorem deviceBoot_boots {s t : State} {images : List BootImage} (h : s.dies.length = 4)
    (ht : t = bump (lockLimits (diesBooted s images))) :
    { t with dies := s.dies, fab := s.fab, fresh := s.fresh } = s ∧
      { t.fab with monitorLocked := s.fab.monitorLocked, powerLimit := s.fab.powerLimit, linkCaps := s.fab.linkCaps } =
        (bootRouting s images).fab ∧
      ∀ d, dieOf t d = booted t.fab.rboot s.fresh images d (dieOf s d) := by
  subst ht
  obtain ⟨hdies, hbooted⟩ := diesBooted_only h images
  have hrouting := bootRouting_only s images
  have hlimits := lockLimits_only (diesBooted s images)
  generalize lockLimits (diesBooted s images) = L at hlimits ⊢
  generalize diesBooted s images = B at hlimits hdies hbooted
  generalize bootRouting s images = R at hdies hbooted hrouting ⊢
  have hfab : B.fab = R.fab := (congrArg State.fab hdies :)
  have hrboot : L.fab.rboot = R.fab.rboot :=
    (congrArg (fun x : State => x.fab.rboot) hlimits :).trans (congrArg Fabric.rboot hfab)
  refine ⟨?_, ?_, fun d => ?_⟩
  · have h1 := congrArg (fun x : State => { x with dies := s.dies, fab := s.fab, fresh := s.fresh }) hlimits
    have h2 := congrArg (fun x : State => { x with dies := s.dies, fab := s.fab, fresh := s.fresh }) hdies
    have h3 := congrArg (fun x : State => { x with dies := s.dies, fab := s.fab, fresh := s.fresh }) hrouting
    exact (h1.trans h2).trans h3
  · have h1 := congrArg (fun x : State => { x.fab with
      monitorLocked := s.fab.monitorLocked, powerLimit := s.fab.powerLimit, linkCaps := s.fab.linkCaps }) hlimits
    have h2 := congrArg (fun f : Fabric => { f with
      monitorLocked := s.fab.monitorLocked, powerLimit := s.fab.powerLimit, linkCaps := s.fab.linkCaps }) hfab
    have h3 := congrArg (fun x : State => { R.fab with
      monitorLocked := x.fab.monitorLocked, powerLimit := x.fab.powerLimit, linkCaps := x.fab.linkCaps }) hrouting
    exact (h1.trans h2).trans h3.symm
  · have hdie : dieOf L d = dieOf B d := by
      rw [dieOf, show L.dies = B.dies from (congrArg State.dies hlimits :), dieOf]
    exact hdie.trans ((hbooted d).trans (by rw [← hrboot]; rfl))

/-- The limits are locked once the routing die's monitor has verified, and a locked limit stays (R423). -/
theorem deviceBoot_limits {s t : State} {images : List BootImage} (h : s.dies.length = 4)
    (ht : t = bump (lockLimits (diesBooted s images))) :
    (s.fab.monitorLocked = true ∨ t.fab.rboot ≠ some true → t.fab.monitorLocked = s.fab.monitorLocked ∧
        t.fab.powerLimit = s.fab.powerLimit ∧ t.fab.linkCaps = s.fab.linkCaps) ∧
      (s.fab.monitorLocked = false → t.fab.rboot = some true → t.fab.monitorLocked = true ∧ t.fab.powerLimit ≤ 3200 ∧
        amGet 0 t.fab.linkCaps 0 ≤ 128000 ∧ ∀ p, p < 18 → amGet 0 t.fab.linkCaps (p + 1) ≤ 400000) := by
  have hdies := (diesBooted_only h images).1
  have hrouting := bootRouting_only s images
  have hlimits := lockLimits_only (diesBooted s images)
  have hkept := lockLimits_of_kept (s := diesBooted s images)
  have hlocks := lockLimits_locks (s := diesBooted s images)
  rw [ht, bump_fab]
  generalize lockLimits (diesBooted s images) = L at hlimits hkept hlocks ⊢
  generalize diesBooted s images = B at hlimits hdies hkept hlocks
  generalize bootRouting s images = R at hdies hrouting
  have hrboot : L.fab.rboot = B.fab.rboot := (congrArg (fun x : State => x.fab.rboot) hlimits :)
  have hB : { B.fab with rboot := s.fab.rboot, rversion := s.fab.rversion, rlog := s.fab.rlog } = s.fab := by
    rw [show B.fab = R.fab from (congrArg State.fab hdies :)]
    exact (congrArg State.fab hrouting :)
  have hlocked : B.fab.monitorLocked = s.fab.monitorLocked := (congrArg Fabric.monitorLocked hB :)
  rw [hrboot, ← hlocked]
  refine ⟨fun hkeep => ?_, fun hopen hboot => ?_⟩
  · rw [hkept hkeep]
    exact ⟨rfl, (congrArg Fabric.powerLimit hB :), (congrArg Fabric.linkCaps hB :)⟩
  · obtain ⟨hlock, hpower, hcaps⟩ := hlocks hopen hboot
    exact ⟨hlock, hpower, hcaps 0, fun p _ => hcaps (p + 1)⟩

end Sys2Proof.Proofs.Boot
end

section
/-! A die on its way from RESETTING to ONLINE (R413, R418): self-test, training, and the failures of each. -/

namespace Sys2Proof.Proofs.Training

open Sys2Proof Sys2Proof.Machine Sys2Proof.Claims Sys2Proof.Proofs.StateRules

theorem dieBecomes_updDie {s : State} (h : s.dies.length = 4) (d : DieNo) (f : Die → Die) :
    DieBecomes s (updDie s d f) d (f (dieOf s d)) := ⟨rfl, dieIs_updDie h d f⟩

/-- The second failure of a phase makes the die FAILED. -/
theorem failOnce_eq (x : Die) : failOnce x = { x with fails := x.fails + 1, st := if x.fails = 0 then x.st else .failed } := by
  unfold failOnce
  by_cases h : x.fails = 0
  · rw [if_neg (by omega), if_pos h]
  · rw [if_pos (by omega), if_neg h]

/-! ### Self-test (R413, R418) -/

/-- A die after its self-test. -/
def tested (o : SelftestOps) (x : Die) : Die :=
  if o.pass then { o.faults.foldl harvest x with st := .training, fails := 0, terr := 0xFFFFFFFF } else failOnce (o.faults.foldl harvest x)

theorem selftestDone_tests {s : State} {o : SelftestOps} (hst : (dieOf s o.die).st = .resetting) (hboot : (dieOf s o.die).boot = some true) :
    exec (.selftestDone o) s = .next (updDie s o.die (tested o)) := by
  refine congrArg _ (if_pos ?_)
  simp [hst, hboot]

/-- A die that is not in RESETTING, or whose images have not verified, takes no self-test. -/
theorem selftestDone_of_other {s : State} {o : SelftestOps}
    (h : ¬((dieOf s o.die).st = .resetting ∧ (dieOf s o.die).boot = some true)) : exec (.selftestDone o) s = .next s :=
  congrArg _ (if_neg (by simpa using h))

theorem coreCaps_of_capsOff {s t : State} {d : DieNo} {c : Nat} {b : BitVec 4}
    (h : amGet 0 (dieOf t d).capsOff c = amGet 0 (dieOf s d).capsOff c ||| b) : coreCaps t d c = coreCaps s d c &&& ~~~b := by
  rw [coreCaps, h, BitVec.not_or, coreCaps]

/-- A faulty crucible clears CAPS bits of its core, by whether rows or columns of it are faulty. -/
theorem harvest_capsOff (x : Die) (f : CoreFault) : amGet 0 (harvest x f).capsOff f.core =
    amGet 0 x.capsOff f.core ||| ((if f.rows then 3 else 0) ||| (if f.cols then 5 else 0)) := by
  rw [harvest, amGet_amModify, if_pos rfl]

theorem harvest_outOf {f : CoreFault} (h : f.corner = false) (x : Die) : (harvest x f).outOf = x.outOf := by
  simp [harvest, h]

theorem mem_harvest_outOf (x : Die) (core : Nat) : core ∈ (harvest x ⟨core, false, false, true⟩).outOf := by
  simp [harvest, mem_dedup]

/-- The clause of `DieRecoveryAndTime` on self-tests. -/
theorem selftest_outcomes {s : State} {d : DieNo} {x : Die} (h : s.dies.length = 4) (hx : x = dieOf s d) (hst : x.st = .resetting)
    (hboot : x.boot = some true) :
    (∃ t, exec (.selftestDone ⟨d, true, []⟩) s = .next t ∧ DieBecomes s t d { x with st := .training, fails := 0, terr := 0xFFFFFFFF }) ∧
      (∀ f : CoreFault, f.corner = false → ∃ t, exec (.selftestDone ⟨d, true, [f]⟩) s = .next t ∧ (dieOf t d).st = .training ∧
        (dieOf t d).outOf = x.outOf ∧ coreCaps t d f.core =
          coreCaps s d f.core &&& ~~~((if f.rows then 3 else 0) ||| (if f.cols then 5 else 0))) ∧
      (∀ core, ∃ t, exec (.selftestDone ⟨d, true, [⟨core, false, false, true⟩]⟩) s = .next t ∧ (dieOf t d).st = .training ∧
        core ∈ (dieOf t d).outOf) ∧
      (∃ t, exec (.selftestDone ⟨d, false, []⟩) s = .next t ∧
        DieBecomes s t d { x with fails := x.fails + 1, st := if x.fails = 0 then .resetting else .failed }) := by
  subst hx
  have hruns : ∀ pass faults, exec (.selftestDone ⟨d, pass, faults⟩) s = .next (updDie s d (tested ⟨d, pass, faults⟩)) := fun _ _ =>
    selftestDone_tests hst hboot
  have hdie : ∀ o, dieOf (updDie s d (tested o)) d = tested o (dieOf s d) := fun o => (dieIs_updDie h d (tested o)).1
  refine ⟨⟨_, hruns .., dieBecomes_updDie h d _⟩, fun f hf => ⟨_, hruns .., ?_, ?_, coreCaps_of_capsOff ?_⟩,
    fun core => ⟨_, hruns .., ?_, ?_⟩, _, hruns .., ?_⟩
  · rw [hdie]
    rfl
  · rw [hdie]
    exact harvest_outOf hf _
  · rw [hdie]
    exact harvest_capsOff _ f
  · rw [hdie]
    rfl
  · rw [hdie]
    exact mem_harvest_outOf _ core
  · rw [← hst, ← failOnce_eq]
    exact dieBecomes_updDie h d _

/-! ### Training (R413) -/

/-- A circuit of the die comes up again, where nothing forbids it. -/
def restoreOne (s : State) (n : Nat) : State :=
  let i : BitVec 8 := BitVec.ofNat 8 n
  let c := circuitAt s i
  if c.v && c.st = 0 && !circuitBad s i c then setCircuit s i { c with st := 2 } else s

theorem restoreCircuits_eq (s : State) (d : DieNo) :
    restoreCircuits s d = updDie ((dieOf s d).circuits.foldl restoreOne s) d fun x => { x with circuits := [] } := rfl

theorem foldl_restoreOne_dies (l : List Nat) (s : State) : (l.foldl restoreOne s).dies = s.dies := by
  induction l generalizing s with
  | nil => rfl
  | cons n l ih =>
    refine (ih _).trans ?_
    unfold restoreOne
    dsimp only
    split <;> rfl

theorem dieIs_restoreCircuits {s : State} (h : s.dies.length = 4) (d : DieNo) :
    (restoreCircuits s d).dies.length = 4 ∧ DieIs s (restoreCircuits s d) d { dieOf s d with circuits := [] } := by
  have hdies := foldl_restoreOne_dies (dieOf s d).circuits s
  have hsame : ∀ e, dieOf ((dieOf s d).circuits.foldl restoreOne s) e = dieOf s e := fun e => by rw [dieOf, hdies, dieOf]
  obtain ⟨hd, hothers⟩ := dieIs_updDie (hdies.symm ▸ h) d fun x => { x with circuits := [] }
  rw [hsame] at hd
  exact ⟨(List.length_modify ..).trans (hdies.symm ▸ h), hd, fun e he => (hothers e he).trans (hsame e)⟩

theorem circuitAt_setCircuit_same (s : State) (i : BitVec 8) (c : Circuit) : circuitAt (setCircuit s i c) i = c := amGet_amSet_same ..

theorem circuitAt_updDie (s : State) (d : DieNo) (f : Die → Die) (i : BitVec 8) : circuitAt (updDie s d f) i = circuitAt s i := rfl

theorem circuitAt_restoreOne {s : State} {i : BitVec 8} (hv : (circuitAt s i).v = true) (hst : (circuitAt s i).st = 0)
    (hbad : circuitBad s i (circuitAt s i) = false) : circuitAt (restoreOne s i.toNat) i = { circuitAt s i with st := 2 } := by
  have hi : BitVec.ofNat 8 i.toNat = i := by rw [BitVec.ofNat_toNat, BitVec.setWidth_eq]
  simp only [restoreOne, hi, hv, hst, hbad, decide_true, Bool.not_false, Bool.and_self, if_true]
  exact circuitAt_setCircuit_same ..

/-- A die that has trained, but for its circuits. -/
def trained (x : Die) : Die := { x with st := .syncing, fails := 0, retraining := false }

section
variable {s : State} {d : DieNo}

theorem ucieTrained_passes (hst : (dieOf s d).st = .training) :
    exec (.ucieTrained d true) s = .next (updDie (restoreCircuits s d) d trained) := congrArg Host.Outcome.next (if_pos hst)

theorem ucieTrained_fails (hst : (dieOf s d).st = .training) : exec (.ucieTrained d false) s = .next (updDie s d failOnce) :=
  congrArg Host.Outcome.next (if_pos hst)

/-- In any other state the end of training is that of a retraining. -/
theorem ucieTrained_elsewhere (hst : (dieOf s d).st ≠ .training) :
    exec (.ucieTrained d true) s = .next (updDie s d fun x => { x with retraining := false }) :=
  congrArg Host.Outcome.next (if_neg hst)

theorem ucieRetrainStart_starts (hfailed : (dieOf s d).st ≠ .failed) (hlost : (dieOf s d).st ≠ .lost) :
    exec (.ucieRetrainStart d) s = .next (updDie s d fun x => { x with retraining := true }) :=
  congrArg Host.Outcome.next (if_neg (by simp [hfailed, hlost]))

/-- What training that passes makes of the die and of the one circuit that it had up. -/
theorem training_passes (h : s.dies.length = 4) (hst : (dieOf s d).st = .training) :
    ∃ t, exec (.ucieTrained d true) s = .next t ∧ (dieOf t d).st = .syncing ∧ (dieOf t d).fails = 0 ∧
      (dieOf t d).circuits = [] ∧ (∀ e, e ≠ d → dieOf t e = dieOf s e) ∧
      ∀ i : BitVec 8, (dieOf s d).circuits = [i.toNat] → (circuitAt s i).v = true → (circuitAt s i).st = 0 →
        circuitBad s i (circuitAt s i) = false → circuitAt t i = { circuitAt s i with st := 2 } := by
  obtain ⟨hlength, hd, hothers⟩ := dieIs_restoreCircuits h d
  obtain ⟨hd', hothers'⟩ := dieIs_updDie hlength d trained
  rw [hd] at hd'
  refine ⟨_, ucieTrained_passes hst, congrArg Die.st hd', congrArg Die.fails hd', congrArg Die.circuits hd',
    fun e he => (hothers' e he).trans (hothers e he), fun i hcircuits hv hdown hbad => ?_⟩
  rw [circuitAt_updDie, restoreCircuits_eq, circuitAt_updDie, hcircuits]
  exact circuitAt_restoreOne hv hdown hbad

theorem training_fails (h : s.dies.length = 4) (hst : (dieOf s d).st = .training) :
    ∃ t, exec (.ucieTrained d false) s = .next t ∧
      DieBecomes s t d { dieOf s d with fails := (dieOf s d).fails + 1, st := if (dieOf s d).fails = 0 then .training else .failed } := by
  refine ⟨_, ucieTrained_fails hst, ?_⟩
  rw [← hst, ← failOnce_eq]
  exact dieBecomes_updDie h d _

end

end Sys2Proof.Proofs.Training
end

section
/-! Time (R382 to R385): corrections of a die's TIME, and what the ports in the master role send at a handshake. -/

namespace Sys2Proof.Proofs.Clocks

open Sys2Proof Sys2Proof.Machine Sys2Proof.Claims Sys2Proof.Proofs.StateRules

/-! ### Corrections (R383, R384) -/

theorem timeSet_correctTime (x : Die) (time : DWord) (n : Nat) : TimeSet x (correctTime x time n) time n := by
  unfold TimeSet correctTime
  split
  · rfl
  · next hlater => rw [BitVec.toNat_sub_of_le (BitVec.le_of_lt (BitVec.not_le.mp hlater))]

theorem clocked_iff (x : Die) : clocked x = true ↔ Clocked x := by
  simp only [clocked, Clocked, Bool.or_eq_true, decide_eq_true_eq, or_assoc]

theorem not_clocked_of_syncing {x : Die} (h : x.st = .syncing) : ¬Clocked x := by
  simp [Clocked, h]

theorem terrBound_eq (src : BitVec 2) : terrBound src = terrLimit src := by
  revert src
  decide

/-- A stamp corrects a die that has had its first handshake. -/
theorem dieIs_stampTime {s : State} (h : s.dies.length = 4) (o : TimeStamp) (hc : Clocked (dieOf s o.die)) :
    DieIs s (stampTime s o) o.die (correctTime (dieOf s o.die) o.time (min o.bound.toNat (terrBound s.host.timesrc))) := by
  have hdie := dieIs_updDie h o.die fun x =>
    if clocked x then correctTime x o.time (min o.bound.toNat (terrBound s.host.timesrc)) else x
  simp only [(clocked_iff _).mpr hc, if_true] at hdie
  exact hdie

theorem stampTime_of_not_clocked {s : State} (h : s.dies.length = 4) {o : TimeStamp} (hc : ¬Clocked (dieOf s o.die)) (d : DieNo) :
    dieOf (stampTime s o) d = dieOf s d := by
  obtain ⟨hdie, hothers⟩ := dieIs_updDie h o.die fun x =>
    if clocked x then correctTime x o.time (min o.bound.toNat (terrBound s.host.timesrc)) else x
  by_cases hd : d = o.die
  · subst hd
    exact hdie.trans (if_neg (mt (clocked_iff _).mp hc))
  · exact hothers d hd

/-! ### What the ports in the master role send (R385) -/

/-- What a port sends at a handshake, in its order. -/
def masterPtp (fab : Fabric) (fresh : Nat) (time : DWord) (link : Nat) : List PtpSent :=
  if fab.linksDown.contains link || ptpRole fab link ≠ .master then []
  else
    (if Config.freeBit fresh (2 ^ 23 + 32 + link) then [⟨.announce, fab.ptpDomain, none, some (ptpAnnounced fab)⟩] else []) ++
    match Config.freeNat fresh (256 + link) % 3 with
    | 0 => []
    | 1 => [⟨.sync, fab.ptpDomain, some time, none⟩]
    | _ => [⟨.sync, fab.ptpDomain, none, none⟩, ⟨.followUp, fab.ptpDomain, some time, none⟩]

/-- The state in which messages have left, the first of them first. -/
def sendAll (s : State) (ms : List Msg) : State := { s with out := ms.reverse ++ s.out }

theorem sendAll_append (s : State) (ms ns : List Msg) : sendAll (sendAll s ms) ns = sendAll s (ms ++ ns) := by
  simp [sendAll]

theorem ptpMaster_eq (time : DWord) (s : State) (link : Nat) :
    ptpMaster time s link = sendAll s ((masterPtp s.fab s.fresh time link).map (Msg.ptp link)) := by
  unfold ptpMaster masterPtp
  dsimp only
  split
  · rfl
  · generalize Config.freeNat s.fresh (256 + link) % 3 = steps
    generalize Config.freeBit s.fresh (2 ^ 23 + 32 + link) = announces
    rcases steps with _ | _ | steps <;> cases announces <;> rfl

/-- What the ports of a list send, one port after the other. -/
def masterMsgs (fab : Fabric) (fresh : Nat) (time : DWord) (links : List Nat) : List Msg :=
  links.flatMap fun l => (masterPtp fab fresh time l).map (Msg.ptp l)

theorem foldl_ptpMaster (time : DWord) (links : List Nat) (s : State) :
    links.foldl (ptpMaster time) s = sendAll s (masterMsgs s.fab s.fresh time links) := by
  induction links generalizing s with
  | nil => rfl
  | cons l links ih =>
    rw [List.foldl_cons, ih, ptpMaster_eq, sendAll_append]
    rfl

/-- The message of a port, if it is that port's. -/
def sentOn (link : Nat) : Msg → Option PtpSent
  | .ptp l x => if l = link then some x else none
  | _ => none

theorem portSends_reverse (ms : List Msg) (link : Nat) : portSends ms.reverse link = ms.filterMap (sentOn link) := by
  rw [portSends, List.reverse_reverse]
  rfl

theorem filterMap_sentOn (l link : Nat) (xs : List PtpSent) :
    (xs.map (Msg.ptp l)).filterMap (sentOn link) = if l = link then xs else [] := by
  rw [List.filterMap_map]
  by_cases h : l = link
  · rw [if_pos h]
    exact (List.filterMap_congr fun x _ => if_pos h).trans (List.filterMap_some ..)
  · rw [if_neg h]
    exact List.filterMap_eq_nil_iff.mpr fun x _ => if_neg h

/-- Of what a list of ports sends, each port's messages are its own. -/
theorem portSends_masterMsgs (fab : Fabric) (fresh : Nat) (time : DWord) {links : List Nat} (h : links.Nodup) (link : Nat) :
    portSends (masterMsgs fab fresh time links).reverse link = if link ∈ links then masterPtp fab fresh time link else [] := by
  rw [portSends_reverse]
  induction links with
  | nil => rfl
  | cons l links ih =>
    obtain ⟨hl, hnodup⟩ := List.nodup_cons.mp h
    rw [masterMsgs, List.flatMap_cons, List.filterMap_append, filterMap_sentOn]
    refine (congrArg (_ ++ ·) (ih hnodup)).trans ?_
    by_cases heq : l = link
    · subst heq
      simp [hl]
    · simp [heq, Ne.symm heq]

theorem masterPtp_silent {fab : Fabric} {link : Nat} (h : link ∈ fab.linksDown ∨ ptpRole fab link ≠ .master) (fresh : Nat) (time : DWord) :
    masterPtp fab fresh time link = [] := if_pos (by simpa using h)

/-- A port sends an Announce or none, and then a Sync in one step, in two, or none. -/
theorem masterPtp_parts (fab : Fabric) (fresh : Nat) (time : DWord) (link : Nat) : ∃ a b, masterPtp fab fresh time link = a ++ b ∧
    (a = [] ∨ a = [⟨.announce, fab.ptpDomain, none, some (ptpAnnounced fab)⟩]) ∧
    (b = [] ∨ b = [⟨.sync, fab.ptpDomain, some time, none⟩] ∨
      b = [⟨.sync, fab.ptpDomain, none, none⟩, ⟨.followUp, fab.ptpDomain, some time, none⟩]) := by
  unfold masterPtp
  split
  · exact ⟨[], [], rfl, .inl rfl, .inl rfl⟩
  · refine ⟨_, _, rfl, ?_, ?_⟩
    · split
      · exact .inr rfl
      · exact .inl rfl
    · split
      · exact .inl rfl
      · exact .inr (.inl rfl)
      · exact .inr (.inr rfl)

theorem mastersSend_sendAll {s t : State} {time : DWord} (h : t.out = (sendAll s (masterMsgs s.fab s.fresh time (List.range 18))).out) :
    MastersSend s t time := by
  have hport := portSends_masterMsgs s.fab s.fresh time (links := List.range 18) List.nodup_range
  refine ⟨_, h, fun m hm => ?_, fun l hl => ?_, fun l => ?_⟩
  · obtain ⟨l, hl, hm⟩ := List.mem_flatMap.mp (List.mem_reverse.mp hm)
    obtain ⟨x, -, rfl⟩ := List.mem_map.mp hm
    exact ⟨l, x, rfl, List.mem_range.mp hl⟩
  · rw [hport, masterPtp_silent hl, ite_self]
  · rw [hport]
    split
    · exact masterPtp_parts ..
    · exact ⟨[], [], rfl, .inl rfl, .inl rfl⟩

/-! ### PACKAGE_CLOCK_HANDSHAKE (R382, R413) -/

/-- The state after a handshake that has made a die what f makes of it. -/
def handshaken (s : State) (d : DieNo) (time : DWord) (f : Die → Die) : State :=
  bump ((List.range 18).foldl (ptpMaster time) (updDie s d f))

theorem handshaken_eq (s : State) (d : DieNo) (time : DWord) (f : Die → Die) : handshaken s d time f =
    { s with
      dies := s.dies.modify d.toNat f
      out := (masterMsgs s.fab s.fresh time (List.range 18)).reverse ++ s.out
      fresh := s.fresh + 1 } := by
  rw [handshaken, foldl_ptpMaster]
  rfl

theorem handshaken_spec {s : State} (h : s.dies.length = 4) (d : DieNo) (time : DWord) (f : Die → Die) :
    DieIs s (handshaken s d time f) d (f (dieOf s d)) ∧ MastersSend s (handshaken s d time f) time ∧
      { handshaken s d time f with dies := s.dies, fresh := s.fresh, out := s.out } = s := by
  rw [handshaken_eq]
  exact ⟨dieIs_updDie h d f, mastersSend_sendAll rfl, rfl⟩

end Sys2Proof.Proofs.Clocks
end

section
/-! Precision time (R385): the roles of the ports, what they announce, and what a message of a port does. -/

namespace Sys2Proof.Proofs.PrecisionTime

open Sys2Proof Sys2Proof.Machine Sys2Proof.Claims Sys2Proof.Proofs.StateRules Sys2Proof.Proofs.Clocks

/-! ### The best master, where one port has heard of a clock -/

/-- The better of what has been found so far and what a port has received. -/
def pickBest (fab : Fabric) (acc : Option PtpData) (l : Nat) : Option PtpData :=
  match amGet none fab.ptpBest l, acc with
  | some a, some b => if ptpBetter a b then some a else some b
  | some a, none => some a
  | none, acc => acc

theorem ptpBestOf_eq (fab : Fabric) : ptpBestOf fab = (List.range 18).foldl (pickBest fab) none := rfl

section
variable {fab : Fabric} {link : Nat} {p : PtpData} (hp : amGet none fab.ptpBest link = some p)
  (hothers : ∀ l, l ≠ link → amGet none fab.ptpBest l = none)
include hp hothers

theorem foldl_pickBest_found (ls : List Nat) : ls.foldl (pickBest fab) (some p) = some p := by
  induction ls with
  | nil => rfl
  | cons l ls ih =>
    have hone : pickBest fab (some p) l = some p := by
      by_cases hl : l = link
      · simp [pickBest, hl, hp]
      · simp [pickBest, hothers l hl]
    rw [List.foldl_cons, hone, ih]

theorem foldl_pickBest {ls : List Nat} (hlink : link ∈ ls) : ls.foldl (pickBest fab) none = some p := by
  induction ls with
  | nil => cases hlink
  | cons l ls ih =>
    rw [List.foldl_cons]
    by_cases hl : l = link
    · have hone : pickBest fab none l = some p := by simp [pickBest, hl, hp]
      rw [hone, foldl_pickBest_found hp hothers]
    · have hone : pickBest fab none l = none := by simp [pickBest, hothers l hl]
      rw [hone, ih ((List.mem_cons.mp hlink).resolve_left (Ne.symm hl))]

theorem ptpBestOf_one (hlink : link < 18) : ptpBestOf fab = some p :=
  (ptpBestOf_eq fab).trans (foldl_pickBest hp hothers (List.mem_range.mpr hlink))

/-- The role of a port of a clock that may follow another's. -/
theorem ptpRole_follower (hlink : link < 18) (hklass : 127 < fab.ptpOwn.klass) (l : Nat) : ptpRole fab l =
    if ptpBetter fab.ptpOwn p then .master else if l = link then .slave else .master := by
  have hclass : ¬fab.ptpOwn.klass ≤ 127 := Nat.not_le.mpr hklass
  simp only [ptpRole, hclass, if_false, ptpBestOf_one hp hothers hlink]
  by_cases hl : l = link
  · simp [hl, hp]
  · simp [hl, hothers l hl]

/-- What the clock announces: the data of the one that it follows, one step further, or its own. -/
theorem find_slave (hlink : link < 18) (hklass : 127 < fab.ptpOwn.klass) :
    (List.range 18).find? (fun l => ptpRole fab l = .slave) = if ptpBetter fab.ptpOwn p then none else some link := by
  have hrole := ptpRole_follower hp hothers hlink hklass
  cases hbetter : ptpBetter fab.ptpOwn p with
  | true => exact List.find?_eq_none.mpr fun l _ => by simp [hrole, hbetter]
  | false =>
    have hslave : (fun l => decide (ptpRole fab l = .slave)) = fun l => decide (l = link) := by
      funext l
      by_cases hl : l = link <;> simp [hrole, hbetter, hl]
    have hfound : ((List.range 18).find? fun l => l = link).isSome :=
      List.find?_isSome.mpr ⟨link, List.mem_range.mpr hlink, by simp⟩
    obtain ⟨l, hl⟩ := Option.isSome_iff_exists.mp hfound
    have heq : l = link := by simpa using List.find?_some hl
    rw [hslave, hl, heq]
    rfl

/-- What the clock announces: the data of the one that it follows, one step further, or its own. -/
theorem ptpAnnounced_follower (hlink : link < 18) (hklass : 127 < fab.ptpOwn.klass) : ptpAnnounced fab =
    if ptpBetter fab.ptpOwn p then fab.ptpOwn else { p with steps := p.steps + 1, sender := fab.ptpOwn.ident } := by
  simp only [ptpAnnounced, find_slave hp hothers hlink hklass]
  cases ptpBetter fab.ptpOwn p with
  | true => rfl
  | false => simp [hp]

end

/-! ### Messages -/

/-- The state in which a port has taken the correction that a message carries. -/
def corrected (role : PtpRole) (m : PtpMessage) (s : State) : State :=
  match m.stamp with
  | some t => if s.host.timesrc = 2 && role = .slave && m.kind ≠ .delayReq && m.kind ≠ .announce then stampTime s t else s
  | none => s

/-- The state in which a port has answered a message, or noted what it announces. -/
def answered (role : PtpRole) (m : PtpMessage) (s : State) : State :=
  match m.kind with
  | .sync => if role = .slave then ptpSend s m.link .delayReq none none else s
  | .delayReq =>
    if role = .master then bump (ptpSend s m.link .delayResp (some (Config.freeWord s.fresh 300 ++ Config.freeWord s.fresh 301)) none) else s
  | .announce => (match m.data with
      | some p => ptpHear s m.link p
      | none => s)
  | _ => s

/-- No correction comes with a Delay_Req or an Announce, without a stamp, or at a port in another role. -/
theorem corrected_eq_self {role : PtpRole} {m : PtpMessage}
    (h : m.kind = .delayReq ∨ m.kind = .announce ∨ m.stamp = none ∨ role ≠ .slave) (s : State) : corrected role m s = s := by
  unfold corrected
  split
  · next t hstamp => rcases h with h | h | h | h <;> simp_all
  · rfl

/-- Whether the device looks at a message at all: of its domain, no peer delay, on a link that is up. -/
structure Heard (s : State) (m : PtpMessage) : Prop where
  low : m.domain ≤ 127
  domain : m.domain = s.fab.ptpDomain
  kind : m.kind ≠ .pdelay
  link : m.link < 18
  up : m.link ∉ s.fab.linksDown

theorem ptpMessage_of_heard {s : State} {m : PtpMessage} (h : Heard s m) :
    exec (.ptpMessage m) s = .next (answered (ptpRole s.fab m.link) m (corrected (ptpRole s.fab m.link) m s)) :=
  congrArg Host.Outcome.next (if_neg (by simp [h.low, ← h.domain, h.kind, h.link, h.up]))

theorem ptpMessage_of_not_heard {s : State} {m : PtpMessage} (h : ¬Heard s m) : exec (.ptpMessage m) s = .next s := by
  refine congrArg Host.Outcome.next (if_pos ?_)
  by_contra hpass
  simp only [Bool.or_eq_true, decide_eq_true_eq, List.contains_iff_mem, not_or, not_lt, not_le, not_not] at hpass
  obtain ⟨⟨⟨⟨hlow, hdomain⟩, hkind⟩, hlink⟩, hup⟩ := hpass
  exact h ⟨hlow, hdomain, hkind, hlink, hup⟩

section
variable {s : State} {m : PtpMessage} (h : Heard s m)
include h

/-- A Sync whose timestamp is to follow is answered by a port in the slave role alone. -/
theorem ptpMessage_sync (hkind : m.kind = .sync) (hstamp : m.stamp = none) :
    (ptpRole s.fab m.link = .slave →
      exec (.ptpMessage m) s = .next { s with out := .ptp m.link ⟨.delayReq, m.domain, none, none⟩ :: s.out }) ∧
    (ptpRole s.fab m.link ≠ .slave → exec (.ptpMessage m) s = .next s) := by
  rw [ptpMessage_of_heard h, corrected_eq_self (.inr (.inr (.inl hstamp)))]
  simp only [answered, hkind]
  refine ⟨fun hrole => ?_, fun hrole => ?_⟩
  · rw [if_pos hrole, h.domain]
    rfl
  · rw [if_neg hrole]

/-- A Delay_Req is answered by a port in the master role alone, with a time of arrival. -/
theorem ptpMessage_delayReq (hkind : m.kind = .delayReq) :
    (ptpRole s.fab m.link = .master → ∃ t stamp, exec (.ptpMessage m) s = .next t ∧
      t.out = .ptp m.link ⟨.delayResp, m.domain, some stamp, none⟩ :: s.out ∧ { t with out := s.out, fresh := s.fresh } = s) ∧
    (ptpRole s.fab m.link ≠ .master → exec (.ptpMessage m) s = .next s) := by
  rw [ptpMessage_of_heard h, corrected_eq_self (.inl hkind)]
  simp only [answered, hkind]
  refine ⟨fun hrole => ?_, fun hrole => ?_⟩
  · rw [if_pos hrole, h.domain]
    exact ⟨_, _, rfl, rfl, rfl⟩
  · rw [if_neg hrole]

/-- A message that completes a correction of a port in the slave role. -/
theorem ptpMessage_corrects (hdies : s.dies.length = 4) {o : TimeStamp}
    (hkind : m.kind = .sync ∨ m.kind = .followUp ∨ m.kind = .delayResp) (hstamp : m.stamp = some o) (hsrc : s.host.timesrc = 2)
    (hrole : ptpRole s.fab m.link = .slave) (hclocked : Clocked (dieOf s o.die)) :
    ∃ t, exec (.ptpMessage m) s = .next t ∧ TimeSet (dieOf s o.die) (dieOf t o.die) o.time (min o.bound.toNat 0x190) ∧
      (∀ e, e ≠ o.die → dieOf t e = dieOf s e) ∧
      t.out = (if m.kind = .sync then [.ptp m.link ⟨.delayReq, m.domain, none, none⟩] else []) ++ s.out ∧
      { t with dies := s.dies, out := s.out } = s := by
  have hstamped : corrected (ptpRole s.fab m.link) m s = stampTime s o := by
    simp only [corrected, hstamp]
    exact if_pos (by rcases hkind with hk | hk | hk <;> simp [hk, hsrc, hrole])
  obtain ⟨hdie, hothers⟩ := dieIs_stampTime hdies o hclocked
  have hset : TimeSet (dieOf s o.die) (dieOf (stampTime s o) o.die) o.time (min o.bound.toNat 0x190) := by
    rw [hdie, hsrc]
    exact timeSet_correctTime ..
  rw [ptpMessage_of_heard h, hstamped, hrole]
  by_cases hk : m.kind = .sync
  · simp only [answered, hk, if_true]
    exact ⟨_, rfl, hset, hothers, by rw [h.domain]; rfl, rfl⟩
  · have hnone : answered .slave m (stampTime s o) = stampTime s o := by
      unfold answered
      rcases hkind with hk' | hk' | hk'
      · exact absurd hk' hk
      · rw [hk']
      · rw [hk']
    rw [hnone, if_neg hk]
    exact ⟨_, rfl, hset, hothers, rfl, rfl⟩

/-- A Follow_Up or a Delay_Resp without a correction, or of a port in another role, changes nothing. -/
theorem ptpMessage_idle (hkind : m.kind = .followUp ∨ m.kind = .delayResp) (hnone : m.stamp = none ∨ ptpRole s.fab m.link ≠ .slave) :
    exec (.ptpMessage m) s = .next s := by
  rw [ptpMessage_of_heard h, corrected_eq_self (.inr (.inr hnone))]
  unfold answered
  rcases hkind with hk | hk <;> rw [hk]

theorem ptpMessage_announce (hkind : m.kind = .announce) {p : PtpData} (hdata : m.data = some p) :
    exec (.ptpMessage m) s = .next (ptpHear s m.link p) := by
  rw [ptpMessage_of_heard h, corrected_eq_self (.inr (.inl hkind))]
  simp only [answered, hkind, hdata]

theorem ptpMessage_announce_nothing (hkind : m.kind = .announce) (hdata : m.data = none) : exec (.ptpMessage m) s = .next s := by
  rw [ptpMessage_of_heard h, corrected_eq_self (.inr (.inl hkind))]
  simp only [answered, hkind, hdata]

end

/-! ### Announced data (R385) -/

/-- A port keeps what its sender announces anew, and what is better. -/
def Taken (s : State) (link : Nat) (p : PtpData) : Prop :=
  ∀ q, amGet none s.fab.ptpBest link = some q → q.sender = p.sender ∨ ptpBetter p q = true

theorem ptpHear_of_taken {s : State} {link : Nat} {p : PtpData} (h : Taken s link p) :
    ptpHear s link p = { s with fab := { s.fab with ptpBest := amSet none s.fab.ptpBest link (some p) } } := by
  refine if_pos ?_
  cases hq : amGet none s.fab.ptpBest link with
  | none => rfl
  | some q => simpa using h q hq

theorem ptpHear_of_not_taken {s : State} {link : Nat} {p : PtpData} (h : ¬Taken s link p) : ptpHear s link p = s := by
  refine if_neg fun htake => h fun q hq => ?_
  rw [hq] at htake
  simpa using htake

/-- What an Announce makes of the data of its port, and of no other. -/
theorem announce_taken {s : State} {m : PtpMessage} (h : Heard s m) (hkind : m.kind = .announce) {p : PtpData}
    (hdata : m.data = some p) (htaken : Taken s m.link p) :
    ∃ t, exec (.ptpMessage m) s = .next t ∧ { t with fab := { t.fab with ptpBest := s.fab.ptpBest } } = s ∧
      amGet none t.fab.ptpBest m.link = some p ∧ ∀ l, l ≠ m.link → amGet none t.fab.ptpBest l = amGet none s.fab.ptpBest l := by
  rw [ptpMessage_announce h hkind hdata, ptpHear_of_taken htaken]
  exact ⟨_, rfl, rfl, amGet_amSet_same .., fun _ hl => amGet_amSet_other _ _ _ _ hl⟩

end Sys2Proof.Proofs.PrecisionTime
end

section
/-! The limits that only fall once they are locked (R423). -/

namespace Sys2Proof.Proofs.Limits

open Sys2Proof Sys2Proof.Machine Sys2Proof.Claims Sys2Proof.Proofs.StateRules

theorem lowered_le (s : State) (i old : Nat) : lowered s i old ≤ old := by
  unfold lowered
  split
  · exact Nat.min_le_left ..
  · exact Nat.le_refl _

/-- Values that have been changed under their keys, none upwards. -/
theorem amGet_map_le {f : Nat → Nat → Nat} (hf : ∀ k v, f k v ≤ v) (m : AMap Nat) (i : Nat) :
    amGet 0 (m.map fun e => (e.1, f e.1 e.2)) i ≤ amGet 0 m i := by
  induction m with
  | nil => exact Nat.le_refl _
  | cons e m ih =>
    obtain ⟨k, v⟩ := e
    simp only [List.map_cons, amGet]
    split
    · exact hf k v
    · exact ih

/-- Of a die the driver lowers the clamp alone. -/
def loweredDie (s : State) (x : Die × Nat) : Die := { x.1 with currentClamp := lowered s (1 + x.2) x.1.currentClamp }

theorem dieOf_lowered {s t : State} (h : t.dies = s.dies.zipIdx.map (loweredDie s)) (d : DieNo) :
    dieOf t d = { dieOf s d with currentClamp := (dieOf t d).currentClamp } ∧ (dieOf t d).currentClamp ≤ (dieOf s d).currentClamp := by
  simp only [dieOf, h, List.getElem?_map, List.getElem?_zipIdx]
  cases s.dies[d.toNat]? with
  | none => exact ⟨rfl, Nat.le_refl _⟩
  | some x => exact ⟨rfl, lowered_le ..⟩

/-- The clause of `DieRecoveryAndTime` on the power clamp. -/
theorem powerClamp_limits (s : State) (b : Bool) : ∃ t, exec (.powerClamp b) s = .next t ∧
    t.fab = { s.fab with clamp := b, powerLimit := t.fab.powerLimit, linkCaps := t.fab.linkCaps } ∧ t.fab.powerLimit ≤ s.fab.powerLimit ∧
    (∀ i, amGet 0 t.fab.linkCaps i ≤ amGet 0 s.fab.linkCaps i) ∧
    (∀ d, dieOf t d = { dieOf s d with currentClamp := (dieOf t d).currentClamp } ∧ (dieOf t d).currentClamp ≤ (dieOf s d).currentClamp) ∧
    (s.fab.monitorLocked = false → t.fab.powerLimit = s.fab.powerLimit ∧ t.fab.linkCaps = s.fab.linkCaps ∧ t.dies = s.dies) ∧
    { t with fab := s.fab, dies := s.dies, fresh := s.fresh } = s := by
  refine ⟨_, rfl, ?_⟩
  unfold lowerLimits
  cases hlocked : s.fab.monitorLocked with
  | false => exact ⟨rfl, Nat.le_refl _, fun _ => Nat.le_refl _, fun _ => ⟨rfl, Nat.le_refl _⟩, fun _ => ⟨rfl, rfl, rfl⟩, rfl⟩
  | true =>
    exact ⟨rfl, lowered_le .., amGet_map_le (f := fun k v => lowered s (5 + k) v) (fun _ _ => lowered_le ..) s.fab.linkCaps,
      dieOf_lowered rfl, fun h => absurd h (by decide), rfl⟩

end Sys2Proof.Proofs.Limits
end

section
/-! The family "Faults, Repair and Firmware": boot, the way of a die to ONLINE, and time (R382 to R385, R413, R418, R422 to R424). -/

namespace Sys2Proof.Proofs.Recovery

open Sys2Proof Sys2Proof.Machine Sys2Proof.Claims Sys2Proof.Proofs.StateRules Sys2Proof.Proofs.Boot Sys2Proof.Proofs.Training
  Sys2Proof.Proofs.Clocks Sys2Proof.Proofs.PrecisionTime Sys2Proof.Proofs.Limits

/-! ### Handshakes (R382, R384, R413) -/

/-- The TERR that a handshake may leave. -/
def handshakeTerr (s : State) : Nat := Config.freeNat s.fresh 3 % (terrBound s.host.timesrc + 1)

theorem handshakeTerr_le (s : State) : handshakeTerr s ≤ terrLimit s.host.timesrc := by
  rw [← terrBound_eq]
  exact Nat.le_of_lt_succ (Nat.mod_lt _ (Nat.succ_pos _))

/-- A die after its first handshake, and after a later one, which leaves TERR to a source other than the package clock. -/
def firstShaken (s : State) (time : DWord) (x : Die) : Die :=
  { correctTime x time (handshakeTerr s) with st := .online, bypass := false, fails := 0 }
def laterTerr (s : State) (x : Die) : Nat := if s.host.timesrc = 0 then handshakeTerr s else x.terr.toNat
def laterShaken (s : State) (time : DWord) (x : Die) : Die := correctTime x time (laterTerr s x)

theorem laterTerr_spec (s : State) (x : Die) : if s.host.timesrc = 0 then laterTerr s x ≤ 0x20 else laterTerr s x = x.terr.toNat := by
  unfold laterTerr
  split
  · next hsrc => exact (handshakeTerr_le s).trans (by rw [hsrc]; decide)
  · rfl

section
variable {s : State} {d : DieNo} (time : DWord)

theorem handshake_runs_first (hst : (dieOf s d).st = .syncing) :
    exec (.packageClockHandshake d time) s = .next (handshaken s d time (firstShaken s time)) :=
  congrArg Host.Outcome.next (if_pos hst)

theorem handshake_runs_later (hclocked : Clocked (dieOf s d)) :
    exec (.packageClockHandshake d time) s = .next (handshaken s d time (laterShaken s time)) :=
  congrArg Host.Outcome.next ((if_neg fun hst => not_clocked_of_syncing hst hclocked).trans (if_pos ((clocked_iff _).mpr hclocked)))

theorem handshake_none (hst : (dieOf s d).st ≠ .syncing) (hclocked : ¬Clocked (dieOf s d)) :
    exec (.packageClockHandshake d time) s = .next s :=
  congrArg Host.Outcome.next ((if_neg hst).trans (if_neg (mt (clocked_iff _).mp hclocked)))

theorem handshake_first (h : s.dies.length = 4) (hst : (dieOf s d).st = .syncing) :
    ∃ t n, exec (.packageClockHandshake d time) s = .next t ∧ n ≤ terrLimit s.host.timesrc ∧
      (∃ y, TimeSet (dieOf s d) y time n ∧ dieOf t d = { y with st := .online, bypass := false, fails := 0 }) ∧
      (∀ e, e ≠ d → dieOf t e = dieOf s e) ∧ MastersSend s t time ∧ { t with dies := s.dies, fresh := s.fresh, out := s.out } = s := by
  obtain ⟨⟨hd, hothers⟩, hsends, honly⟩ := handshaken_spec h d time (firstShaken s time)
  exact ⟨_, _, handshake_runs_first time hst, handshakeTerr_le s, ⟨_, timeSet_correctTime .., hd⟩, hothers, hsends, honly⟩

theorem handshake_later (h : s.dies.length = 4) (hclocked : Clocked (dieOf s d)) :
    ∃ t n, exec (.packageClockHandshake d time) s = .next t ∧ TimeSet (dieOf s d) (dieOf t d) time n ∧
      (if s.host.timesrc = 0 then n ≤ 0x20 else n = (dieOf s d).terr.toNat) ∧ (∀ e, e ≠ d → dieOf t e = dieOf s e) ∧
      MastersSend s t time ∧ { t with dies := s.dies, fresh := s.fresh, out := s.out } = s := by
  obtain ⟨⟨hd, hothers⟩, hsends, honly⟩ := handshaken_spec h d time (laterShaken s time)
  refine ⟨_, laterTerr s (dieOf s d), handshake_runs_later time hclocked, ?_, laterTerr_spec s _, hothers, hsends, honly⟩
  rw [hd]
  exact timeSet_correctTime ..

end

/-! ### Corrections from the host link (R385, R393) -/

section
variable {s : State} (h : s.dies.length = 4) (o : TimeStamp)

/-- The state in which the host's offset has been taken. -/
def offsetTaken (s : State) (o : TimeStamp) : State := { s with host := { s.host with ptmoff := o.offset } }

theorem ptmExchange_stamps (hsrc : s.host.timesrc = 1) : exec (.ptmExchange o) s = .next (stampTime (offsetTaken s o) o) :=
  congrArg Host.Outcome.next (if_pos hsrc)

theorem ptmExchange_offset (hsrc : s.host.timesrc ≠ 1) : exec (.ptmExchange o) s = .next (offsetTaken s o) :=
  congrArg Host.Outcome.next (if_neg hsrc)

include h

theorem ptmExchange_corrects (hsrc : s.host.timesrc = 1) (hclocked : Clocked (dieOf s o.die)) :
    ∃ t, exec (.ptmExchange o) s = .next t ∧ t.host = { s.host with ptmoff := o.offset } ∧
      TimeSet (dieOf s o.die) (dieOf t o.die) o.time (min o.bound.toNat 0x320) ∧ (∀ e, e ≠ o.die → dieOf t e = dieOf s e) ∧
      { t with dies := s.dies, host := s.host } = s := by
  obtain ⟨hdie, hothers⟩ := dieIs_stampTime (s := offsetTaken s o) h o hclocked
  refine ⟨_, ptmExchange_stamps o hsrc, rfl, ?_, hothers, rfl⟩
  rw [hdie, show (offsetTaken s o).host.timesrc = 1 from hsrc]
  exact timeSet_correctTime ..

theorem ptmExchange_idle (hidle : s.host.timesrc ≠ 1 ∨ ¬Clocked (dieOf s o.die)) :
    ∃ t, exec (.ptmExchange o) s = .next t ∧ t.host = { s.host with ptmoff := o.offset } ∧ (∀ e, dieOf t e = dieOf s e) ∧
      { t with dies := s.dies, host := s.host } = s := by
  by_cases hsrc : s.host.timesrc = 1
  · exact ⟨_, ptmExchange_stamps o hsrc, rfl,
      stampTime_of_not_clocked (s := offsetTaken s o) h (hidle.resolve_left (not_not_intro hsrc)), rfl⟩
  · exact ⟨_, ptmExchange_offset o hsrc, rfl, fun _ => rfl, rfl⟩

end

/-! ### The obligation -/

/-- What only the control firmware sees of a die (R384, R422). -/
theorem pluginFault_stops {s : State} (h : s.dies.length = 4) (d : DieNo) (vf : FuncNo) :
    ∃ t, exec (.pluginFault d vf) s = .next t ∧ { t with dies := s.dies } = s ∧ vf ∈ (dieOf t d).stopped ∧
      { dieOf t d with stopped := (dieOf s d).stopped } = dieOf s d ∧ ∀ e, e ≠ d → dieOf t e = dieOf s e := by
  obtain ⟨honly, hd, hothers⟩ := dieBecomes_updDie h d fun x => { x with stopped := dedup (x.stopped ++ [vf]) }
  refine ⟨_, rfl, honly, ?_, ?_, hothers⟩
  · rw [hd]
    simp [mem_dedup]
  · rw [hd]

/-- Settles O52: boot by what it makes of the routing die and of each die (`routing_boots`, `die_boots`), the way of a die to ONLINE
and the corrections of its time by the one die that each event changes, and the ports by their roles. -/
theorem dieRecoveryAndTime : Obligations.DieRecoveryAndTime := by
  unfold Obligations.DieRecoveryAndTime
  refine ⟨fun s images h => ?boot, fun s d h => ?die, fun s o h => ?ptm, fun s m h => ?ptp,
    fun fab link p hlink hklass hp hothers => ?roles, fun s b _ => powerClamp_limits s b⟩
  case boot =>
    obtain ⟨t, ht⟩ : ∃ t, t = bump (lockLimits (diesBooted s images)) := ⟨_, rfl⟩
    obtain ⟨honly, hfab, hdies⟩ := deviceBoot_boots h ht
    obtain ⟨hkept, hlocks⟩ := deviceBoot_limits h ht
    have hrouting := routing_boots images _ hfab
    refine ⟨t, (deviceBoot_runs s images).trans (congrArg _ ht.symm), honly, ⟨hkept, hlocks, ?_⟩, hrouting,
      fun d => ⟨fun hother => ?_, fun hst hboot => ?_⟩⟩
    · have hrest := congrArg (fun f : Fabric => { f with
        rboot := s.fab.rboot, rversion := s.fab.rversion, rlog := s.fab.rlog }) hfab
      exact hrest.trans (bootRouting_fab s images)
    · rw [hdies, booted_of_other hother]
    · exact die_boots (hdies d) hst hboot
  case die =>
    refine ⟨selftest_outcomes h rfl, fun hother o ho => selftestDone_of_other (ho ▸ hother),
      fun hst => ⟨training_passes h hst, training_fails h hst⟩,
      fun hst => ⟨_, ucieTrained_elsewhere hst, dieBecomes_updDie h d _⟩,
      fun hfailed hlost => ⟨_, ucieRetrainStart_starts hfailed hlost, dieBecomes_updDie h d _⟩,
      fun hst time => handshake_first time h hst, fun hclocked time => handshake_later time h hclocked,
      fun hst hclocked time => handshake_none time hst hclocked, ⟨_, rfl, dieBecomes_updDie h d _⟩,
      fun vf => pluginFault_stops h d vf, ⟨_, rfl, dieBecomes_updDie h d _⟩⟩
  case ptm => exact ⟨ptmExchange_corrects h o, ptmExchange_idle h o⟩
  case ptp =>
    refine ⟨fun hnot => ptpMessage_of_not_heard fun hm => ?_, fun hlow hdomain hlink hup => ?_⟩
    · rcases hnot with hn | hn | hn | hn | hn
      · exact absurd hm.low (Nat.not_le.mpr hn)
      · exact hn hm.domain
      · exact hm.kind hn
      · exact absurd hm.link (Nat.not_lt.mpr hn)
      · exact hm.up hn
    · have heard : m.kind ≠ .pdelay → Heard s m := fun hkind => ⟨hlow, hdomain, hkind, hlink, hup⟩
      intro ask role
      refine ⟨fun hk => ptpMessage_sync (heard (by simp [hk])) hk, fun hk => ptpMessage_delayReq (heard (by simp [hk])) hk,
        fun o hk => ptpMessage_corrects (heard ?_) h hk, fun hk => ptpMessage_idle (heard ?_) hk, fun p hk hdata => ?_,
        fun hk => ptpMessage_announce_nothing (heard (by simp [hk])) hk⟩
      · rcases hk with hk | hk | hk <;> simp [hk]
      · rcases hk with hk | hk <;> simp [hk]
      · refine ⟨announce_taken (heard (by simp [hk])) hk hdata, fun hnot => ?_⟩
        rw [ptpMessage_announce (heard (by simp [hk])) hk hdata, ptpHear_of_not_taken hnot]
  case roles =>
    have hrole := ptpRole_follower hp hothers hlink hklass
    have hannounced := ptpAnnounced_follower hp hothers hlink hklass
    refine ⟨fun hworse => ?_, fun hbetter => ?_, fun l hl => ?_⟩
    · rw [hrole, hannounced, hworse]
      exact ⟨if_pos rfl, rfl⟩
    · rw [hrole, hannounced, hbetter]
      exact ⟨rfl, rfl⟩
    · rw [hrole, if_neg hl, ite_self]

end Sys2Proof.Proofs.Recovery
end
